-- ==== Sys2Proof/Word.lean ====
section
/-! DEFINITION. The word types of the EJ4 model. -/

namespace Sys2Proof

/-- A byte of a memory, a barge or a command entry. -/
abbrev Byte := BitVec 8

/-- A 16-bit field. -/
abbrev Half := BitVec 16

/-- A 32-bit register word. -/
abbrev Word := BitVec 32

/-- A 64-bit quantity (a capability, a LO/HI pair). -/
abbrev DWord := BitVec 64

/-- A sparse table: entries sorted by key, no key twice; a key that is absent reads the table's default. -/
abbrev Tbl (α : Type) := List (Nat × α)

end Sys2Proof
end

