-- ==== Sys2Proof/Syntax.lean ====
section
/-! DEFINITION. The commands that the block takes: one constructor for each row of the table of operations and events, with the
row's operands. -/

namespace Sys2Proof

/-- The shadow registers of a pulse-width pair (R189). -/
inductive ShadowReg where
  | per | cmp | dt | mp | tow
deriving DecidableEq, Repr

/-- A command entry of a host queue (R360): the port and queue it came through, its 64 bytes, and what the host's memory holds
at its buffer when the command reads it (`none` where that read fails). -/
structure Entry where
  port : Fin 2
  sq : Fin 8
  bytes : List Byte
  buf : Option (List Byte)
deriving DecidableEq, Repr


/-- What executes a vertical microword (R289): the microcode of a pair, or a Lock engine of an FC. -/
inductive MicroUnit where
  | pair (p : Fin 21)
  | engine (fc : Fin 16) (e : Fin 8)
deriving DecidableEq, Repr

/-- The commands of the block: one constructor per row of the table of operations and events. -/
inductive Instr where
  /-- REGISTER_WRITE (R2): A write to a register field that has no row of its own takes effect as its access code gives, including ignored writes that set CFG_ERR. -/
  | registerWrite (who : Fin 23) (addr : Nat) (val : Word)
  /-- HOLDING_COPY_READ (R434): A read of a copying register, such as a LO word, OBS_TRACE_LO or EVT_QGENq, copies the paired words to their holding registers. -/
  | holdingCopyRead (addr : Nat)
  /-- ADC_RES_READ (R149): A read of ADC_RESk returns the result, then clears NEW and OVR, with a same-cycle publication handled as R6 gives. -/
  | adcResRead (g : Fin 20) (k : Fin 16)
  /-- CROSSING_ACCEPT (R328): A value sent from one island is accepted by the destination island after an asynchronous handshake, within the bounds given. -/
  | crossingAccept (n : Fin 16)
  /-- RUN_START (R22): A write of FC_CYC_CTRL.RUN = 1 checks LEN, PHASE and LAT, and either starts cycling or sets CFG_ERR. -/
  | runStart (fc : Fin 16)
  /-- RUN_STOP (R24): A write of RUN = 0 takes effect only while every flight is UNBOUND or BOUND, and lets the cycle in progress complete. -/
  | runStop (fc : Fin 16)
  /-- CYCLE_END (R24): At the tick of the next would-be sample instant after RUN = 0, cycling ends: RUNNING clears, transmitters fall silent and lanes go OFF. -/
  | cycleEnd (fc : Fin 16)
  /-- SAMPLE_INSTANT (R25): At each sample instant the FC holds its channels, increments FC_CYC_COUNT, latches FC_CYC_TS, latches its inputs and starts the down barge. -/
  | sampleInstant (fc : Fin 16)
  /-- CONVERSION_COMPLETE (R143): At tick 80 the raw codes of the cycle sample are complete. -/
  | conversionComplete (fc : Fin 16) (raw : List (Int))
  /-- CORRECTION_COMPLETE (R95): At tick 88 corrected samples go out, the available cells are fixed, σ, keys and VEST are loaded, and the sort and the observer start. -/
  | correctionComplete (fc : Fin 16)
  /-- BAL_MICROWORD (R99): The balancer executes one microword of its sort program, which loads keys, forms buckets, compares and exchanges, merges or publishes. -/
  | balMicroword (fc : Fin 16)
  /-- UC_DEADLINE (R99): At tick 236 a balancer program that has not ended is stopped, its key slots are published, and UC_LATE is set. -/
  | ucDeadline (fc : Fin 16)
  /-- OBS_MICROWORD (R125): The observer engine executes one word of its 96-word schedule, a low or a high pass of one row. -/
  | obsMicroword (fc : Fin 16)
  /-- OBSERVER_COMPLETE (R125): At tick 184 the engine commits the states and publishes the actuations and monitors, and the modulator starts. -/
  | observerComplete (fc : Fin 16)
  /-- N_READY (R84): At tick 200 the modulator publishes N, F, x and the reciprocal, the hold cycle is judged, and N_READY is pulsed. -/
  | nReady (fc : Fin 16)
  /-- BALANCER_DEADLINE (R85): At tick 240 N_A is fixed, any valid override is applied, VALID clears, and the token stage sets the levels. -/
  | balancerDeadline (fc : Fin 16)
  /-- EDGE_SCHEDULE (R94): At tick 256 the duty and residual are computed, the FREEZE copy is taken, and edge fields are written for every lane. -/
  | edgeSchedule (fc : Fin 16)
  /-- CMD_SENT (R103): At tick 480 the command is complete at the pins, CMD_SENT is pulsed, and the ledger posts window k. -/
  | cmdSent (fc : Fin 16)
  /-- LEDGER_CHECK (R106): At tick 552 the leader forms RES and checks the balance invariant. -/
  | ledgerCheck (fc : Fin 16)
  /-- REBASE_APPLY (R116): At tick 560 an accepted rebase sets RACC and FACC, sets REBASED, and replies. -/
  | rebaseApply (fc : Fin 16)
  /-- WEAR_PASS (R389): In ticks 552–680 the wear unit updates the loss, the thermal stages, rainflow, damage and WEAR_RANK of every lane. -/
  | wearPass (fc : Fin 16)
  /-- MAILBOX_READ (R61): At tick 600 each Lock engine reads the down mailbox buffer of each READY or DEGRADED lane in one burst. -/
  | mailboxRead (fc : Fin 16)
  /-- ALIGN_SEND (R53): At tick 1,440 ALIGN is sent in slot 72 when CYC[7:0] is 0, when ALIGN_NOW is pending, or during the ALIGN step. -/
  | alignSend (fc : Fin 16)
  /-- PROBE_SEND (R50): During the PROBE step PROBE is sent in slot 72, and the measurement of its round trip starts. -/
  | probeSend (lk : Fin 1024)
  /-- PROBE_REPLY (R50): The cell's PROBE reply arrives at the RX pins and yields RTT_i, and a set of four yields D_DOWN and D_UP. -/
  | probeReply (lk : Fin 1024) (rtt : Nat)
  /-- UP_BARGE (R44): An up barge or TRAIN reply from a cell is received at the RX pins: the code group of slot 0 and those of
  the slots after it. -/
  | upBarge (lk : Fin 1024) (sof : BitVec 10) (groups : List (BitVec 10))
  /-- LISTEN_DEADLINE (R28): At tick 64 of the next cycle the up barges are judged, lane states move, reconciliation runs and VCAP_OV is compared. -/
  | listenDeadline (fc : Fin 16)
  /-- TRAIN_LIMIT (R48): A training step that has not advanced within its cycle limit ends training in TRAIN_FAIL. -/
  | trainLimit (lk : Fin 1024)
  /-- CHECK (R51): In the cycle after ALIGN completes, the declaration record is compared with the descriptor, and the lane becomes READY or MISMATCH. -/
  | check (lk : Fin 1024)
  /-- LNK_ENABLE (R48): A write of LNK_CTRL.ENABLE = 1 while RUN = 1 starts training, and a write of 0 silences the lane and takes it OFF. -/
  | lnkEnable (lk : Fin 1024) (on : Bool)
  /-- RETRAIN (R59): A write of RETRAIN takes any lane that is not OFF back to LOCK, with its counters kept. -/
  | retrain (lk : Fin 1024)
  /-- FORCE_BLOCK (R42): A write of FORCE_BLOCK makes the lane send BLOCK_CMD = 1 whatever the flight state. -/
  | forceBlock (lk : Fin 1024) (on : Bool)
  /-- ALIGN_NOW (R53): A write of ALIGN_NOW schedules an ALIGN in the next cycle. -/
  | alignNow (lk : Fin 1024)
  /-- CLR_CNT (R436): A write of CLR_CNT clears LNK_ERR, LNK_MISS.MISS and CONSEC. -/
  | clrCnt (lk : Fin 1024)
  /-- BLOCK_INJECT (R55): A latched BLOCK trip puts K28.7 into the next slot that has not begun on every lane of the group's flights, and into every slot that follows in the cycle. -/
  | blockInject (grp : Fin 32)
  /-- SAFE_POINT (R298): At a safe point a Lock engine takes its lanes' pending RETRAIN, CLR_CNT and ENABLE items. -/
  | safePoint (fc : Fin 16) (eng : Fin 8)
  /-- ENG_STALL (R299): An engine that runs 256 words without a safe point, or meets an unusable word, stalls, forces BLOCK on its lanes and raises ENG_STALL. -/
  | engStall (fc : Fin 16) (eng : Fin 8)
  /-- ENGINE_RESTART (R299): A write of MCS_ENGCTL.RESTART restarts the engine at word 0. -/
  | engineRestart (fc : Fin 16) (eng : Fin 8)
  /-- FLT_STATE_WRITE (R76): A Keeper write of FC_FLT_STATf.STATE is held until the flight's next sample instant, or takes effect at once under R435. -/
  | fltStateWrite (fc : Fin 16) (f : Fin 2) (code : Fin 8)
  /-- BYPASS_TIMEOUT (R75): When a cell has not reported BYPASSED within 200 ms of the command, the lane raises BYPASS_TIMEOUT. -/
  | bypassTimeout (lk : Fin 1024)
  /-- GANG_CLOCK_SWITCH (R34): A follower's island clock finishes switching to the leader's within 1,600 ticks, and the accesses that waited proceed. -/
  | gangClockSwitch (fc : Fin 16)
  /-- SHTGT_WRITE (R14): A write to OBS_SHTGTs is accepted only from the Keeper or from the owning flight's reference source. -/
  | shtgtWrite (fc : Fin 16) (ch : Fin 8) (who : Fin 21) (val : Word)
  /-- OVR_LIMIT_WRITE (R33): A tightening write of FC_OVR_CFG.LIMIT to a value at or below CONSEC trips at once and sets CONSEC to the new LIMIT. -/
  | ovrLimitWrite (fc : Fin 16) (val : Word)
  /-- INNER_DONE (R32): A write of FC_INNER_DONE with a matching CYC ends the cycle's obligation and resets CONSEC. -/
  | innerDone (fc : Fin 16) (cyc : Byte)
  /-- IDENTIFY (R368): Returns the part, the serial number, the firmware version and the boot flags. -/
  | identify (e : Entry)
  /-- LOAD_FW_CHUNK (R367): Writes a chunk of the firmware image into the staging area. -/
  | loadFwChunk (e : Entry)
  /-- AUTH_FW (R380): Checks the format, signature and digests of the staged image, and on success enters FW_LOADED. -/
  | authFw (e : Entry)
  /-- START_FW (R382): Loads KP's sections and stores, sets OWNER, replies and jumps to ENTRY. -/
  | startFw (e : Entry)
  /-- FW_STARTED (R382): The firmware completes its start sequence, the device enters CONFIGURED, and FW_STARTED is raised. -/
  | fwStarted
  /-- GET_STATE (R368): Returns the device or flight state summary. -/
  | getState (e : Entry)
  /-- GET_SELFTEST (R368): Returns the self-test results and the boot duration. -/
  | getSelftest (e : Entry)
  /-- SET_TIME (R329): Steps TS to VALUE, or starts a slew of VALUE ticks. -/
  | setTime (e : Entry)
  /-- RESET_DEVICE (R369): Replies OK and begins a device reset within 100 µs. -/
  | resetDevice (e : Entry)
  /-- BIND_FLIGHT (R71): Checks the flight descriptor, writes the configuration, starts cycling if needed, enables lanes and sets BOUND. -/
  | bindFlight (e : Entry)
  /-- UNBIND_FLIGHT (R77): Clears the flight's configuration and banks, and disables or keeps its lanes. -/
  | unbindFlight (e : Entry)
  /-- SET_CELL_MAP (R66): Writes COUNT cell descriptors from the host buffer. -/
  | setCellMap (e : Entry)
  /-- SET_CELL_PARAMS (R67): Changes WEAR_CLASS, CAP_Q or VCAP_OV of one link. -/
  | setCellParams (e : Entry)
  /-- BYPASS_CELL (R75): Orders a cell to close its mechanical bypass, permanently. -/
  | bypassCell (e : Entry)
  /-- LOAD_OBSERVER (R131): Checks a coefficient set and writes it into bank A or B. -/
  | loadObserver (e : Entry)
  /-- SWAP_COEFF (R132): Schedules a swap of the active coefficient bank at the next sample instant. -/
  | swapCoeff (e : Entry)
  /-- SET_REFERENCE (R370): Writes the targets of the masked shaper channels for a flight whose reference source is the host. -/
  | setReference (e : Entry)
  /-- START_FLIGHT (R370): Checks the lanes under R27 and R52 and takes a READY flight to RUNNING at a sample instant. -/
  | startFlight (e : Entry)
  /-- STOP_FLIGHT (R76): Takes a RUNNING or HELD flight to READY or BOUND, blocking at once. -/
  | stopFlight (e : Entry)
  /-- HOLD_FLIGHT (R76): Holds the references of a RUNNING flight, or releases a HELD one. -/
  | holdFlight (e : Entry)
  /-- SET_TRIP_POLICY (R178): Sets a trip group's masks, ACTION, MODE, TBASE and EN together. -/
  | setTripPolicy (e : Entry)
  /-- CLEAR_TRIP (R177): Clears the latched groups of the mask in one event-hub tick if no masked source is active. -/
  | clearTrip (e : Entry)
  /-- SET_WINDOW (R179): Sets a comparator's thresholds, hysteresis, enables, filter, blanking and latch mode together. -/
  | setWindow (e : Entry)
  /-- WINDOW_SETTLE (R179): The new thresholds take full effect within 200 ticks of the command. -/
  | windowSettle (c : Fin 128)
  /-- LOCK_LIMITS (R371): Sets every LOCK in one tick and enters OPERATIONAL. -/
  | lockLimits (e : Entry)
  /-- SET_USER_CAL (R158): Commits a new user gain and offset pair for a channel. -/
  | setUserCal (e : Entry)
  /-- GET_FACTORY_CAL (R159): Writes the factory calibration record of each slice of a group to the host buffer. -/
  | getFactoryCal (e : Entry)
  /-- RUN_PATH_TEST (R157): Starts a path test of a channel with the test DAC. -/
  | runPathTest (e : Entry)
  /-- PATH_TEST_LEVEL (R157): After settling and 16 conversions, one test level is averaged and judged. -/
  | pathTestLevel (grp : Fin 20) (codes : List (Int))
  /-- PATH_TEST_DONE (R157): The DAC is disconnected, TEST clears after 800 ticks, and the reply is sent. -/
  | pathTestDone (grp : Fin 20)
  /-- SCRUB_RANGE (R312): Starts a scrub of a range of a memory on behalf of the host. -/
  | scrubRange (e : Entry)
  /-- OPEN_STREAM (R374): Opens a telemetry stream with its word list and its host ring. -/
  | openStream (e : Entry)
  /-- CLOSE_STREAM (R376): Stops a stream and returns its counts. -/
  | closeStream (e : Entry)
  /-- STREAM_RECORD (R375): From tick 720 of a due cycle, the port reads the listed words and writes a record, the count and an optional message. -/
  | streamRecord (p : Fin 2) (st : Fin 16)
  /-- GET_WEAR (R372): Writes one wear record per link to the host buffer. -/
  | getWear (e : Entry)
  /-- SET_WEAR_MODEL (R394): Loads the damage table of a wear class into every FC. -/
  | setWearModel (e : Entry)
  /-- REBASE_LEDGER (R116): Requests a rebase of a flight's RACC and FACC at tick 560. -/
  | rebaseLedger (e : Entry)
  /-- TAKE_OWNERSHIP (R351): Makes the port the owner when OWNER is none or self, or when the owner has lapsed. -/
  | takeOwnership (e : Entry)
  /-- RELEASE_OWNERSHIP (R351): Sets OWNER to none if the port is the owner. -/
  | releaseOwnership (e : Entry)
  /-- HEARTBEAT (R350): Command form of a heartbeat from the port, returning OWNER. -/
  | heartbeat (e : Entry)
  /-- HB_WRITE (R350): A write to HIF_HB is a heartbeat that clears the port's LAPSED. -/
  | hbWrite (p : Fin 2) (val : Word)
  /-- HB_LAPSE (R350): No heartbeat within HB_TIMEOUT sets LAPSED, notifies the peer and, for the owner, starts the host-loss policy. -/
  | hbLapse (p : Fin 2)
  /-- HOST_LOSS_STOP (R396): When HOST_LOSS_HOLD expires with the owner still lapsed, the held flights are stopped and the pairs disabled. -/
  | hostLossStop
  /-- SQ_DOORBELL (R345): A write to HIF_SQTDBq sets the tail and starts fetching entries, or sets SQ_DB_ERR. -/
  | sqDoorbell (p : Fin 2) (q : Fin 8) (tail : Half)
  /-- ENTRY_FETCH (R345): A fetched entry reaches the Keeper inbox, HEAD advances, and KP's doorbell line pulses. -/
  | entryFetch (p : Fin 2) (bytes : Option (List (Byte)))
  /-- CQ_DOORBELL (R346): A write to HIF_CQHDBq sets the completion head, or sets CQ_DB_ERR. -/
  | cqDoorbell (p : Fin 2) (q : Fin 8) (head : Half)
  /-- REPLY_WRITE (R346): A reply waiting in the outbox is written to the completion ring once there is room, with its tail write-back and optional MSI-X message. -/
  | replyWrite (p : Fin 2)
  /-- MSIX_UNMASK (R349): Clearing a mask sends a pending MSI-X message. -/
  | msixUnmask (p : Fin 2) (vec : Fin 64)
  /-- KINPOP (R354): A Keeper write of HIF_KINPOP removes the oldest inbox entry. -/
  | kinpop (p : Fin 2)
  /-- KOUTPUSH (R354): A Keeper write of HIF_KOUTPUSH queues a reply, or sets PUSH_REFUSED when the outbox is full. -/
  | koutpush (p : Fin 2) (cq : Fin 8)
  /-- BAR2_READ (R348): A host read through BAR2 returns mirrored data with no side effect. -/
  | bar2Read (p : Fin 2) (off : Nat) (len : Nat)
  /-- BAR2_WRITE (R347): A host write to BAR2 is discarded, reported as Unsupported Request, and sets BAD_ACCESS. -/
  | bar2Write (p : Fin 2)
  /-- BAR0_BAD_ACCESS (R343): A malformed BAR0 access completes with Unsupported Request and sets BAD_ACCESS. -/
  | bar0BadAccess (p : Fin 2) (write : Bool)
  /-- PORT_RESET (R353): PERST, hot reset, link down, FLR or D3hot exit resets one port's interface logic, its queues and its pending replies. -/
  | portReset (p : Fin 2) (kind : Fin 4)
  /-- D3HOT_ENTRY (R353): A port entering D3hot stops fetching and messaging and discards its replies. -/
  | d3hotEntry (p : Fin 2)
  /-- LINK_UP (R356): A port's PCI Express link comes up and raises LINK_UP. -/
  | linkUp (p : Fin 2) (rate : Fin 8) (width : Fin 8) (bme : Bool)
  /-- CMP_CROSS (R162): A comparator input crossing a threshold changes the output, FO and Q, and may latch trip groups. -/
  | cmpCross (c : Fin 128) (x : Half)
  /-- BLANK_END (R164): At the end of a blanking interval FO takes the raw signal within 4 ticks. -/
  | blankEnd (c : Fin 128)
  /-- CYCLE_BOUNDARY (R165): At each period boundary of TBASE, Q of a CYCLE-mode comparator or pin takes FO. -/
  | cycleBoundary (tb : Fin 64)
  /-- CMP_CLR (R165): A write of CMP_CLRc.CLR clears Q if FO is 0, and sets CLR_REFUSED otherwise. -/
  | cmpClr (c : Fin 128)
  /-- TRIP_PIN (R166): A TRIP_IN pin changes level, and its FO and Q follow. -/
  | tripPin (p : Fin 16) (level : Bool)
  /-- PIN_CLR (R166): A write of SLU_PINCLR clears the pins named, as for a comparator. -/
  | pinClr (mask : Half)
  /-- FWTRIP_WRITE (R167): A write of SLU_FWTRIP asserts or deasserts sources 169–172. -/
  | fwtripWrite (val : Word)
  /-- SAFE_LOW (R167): SAFE_n pulled low by another module asserts source 175. -/
  | safeLow
  /-- GROUP_COMMIT (R178): A write of SLU_GCOMMITg applies all staged group values at once. -/
  | groupCommit (g : Fin 32)
  /-- PWM_ENABLE (R187): A write of PWM_CTRLk.EN starts or stops a pair. -/
  | pwmEnable (k : Fin 32) (on : Bool)
  /-- PERIOD_START (R183): The period counter takes 0, the compare is derived, commits apply, and CYCLE groups clear automatically. -/
  | periodStart (k : Fin 32)
  /-- COMPARE_MATCH (R184): The counter reaches C, and P falls. -/
  | compareMatch (k : Fin 32)
  /-- DEAD_TIME_END (R185): After its dead time an output turns on. -/
  | deadTimeEnd (k : Fin 32)
  /-- TOW_PULSE (R192): The counter equals OFS and emits a tow pulse to the next pair or TOW_OUT. -/
  | towPulse (k : Fin 32)
  /-- TOW_RESTART (R193): A received tow restarts the pair once its minimum pulse allows. -/
  | towRestart (k : Fin 32)
  /-- TOW_IN_EDGE (R194): A rising edge on TOW_IN is stamped, and pair 0 receives a tow 24 ticks later. -/
  | towInEdge
  /-- SHADOW_WRITE (R189): A write to a shadow register stores the value and sets its pending bit, or sets CFG_ERR. -/
  | shadowWrite (k : Fin 32) (r : ShadowReg) (val : Word)
  /-- PWM_COMMIT (R190): A write of PWM_COMMIT arms every enabled pair of the named groups. -/
  | pwmCommit (groups : Byte)
  /-- MISMATCH (R201): The cuff checker finds a difference, and the pair stops and begins its restart, or fails on a third mismatch. -/
  | mismatch (p : Fin 21) (path : Fin 48)
  /-- RESTART_DONE (R201): The restart completes and the leader executes at the checkpoint's pcc. -/
  | restartDone (p : Fin 21)
  /-- CUFF_FAULT (R206): The two checker halves disagree, and the pair is declared failed. -/
  | cuffFault (p : Fin 21)
  /-- CUFF_TEST (R209): Every 10 ms each pair's checker tests the next 6 path groups. -/
  | cuffTest (bad : List (Fin 21 × Fin 6))
  /-- GLV_FORCE (R211): A write of GLV_FORCEp.FORCE forces a mismatch in the next cycle. -/
  | glvForce (p : Fin 21)
  /-- DEBUG_HALT (R210): An IEEE 1149.1 debug halt stops both cores at one instruction boundary. -/
  | debugHalt (p : Fin 21) (on : Bool)
  /-- DBG_HALT (R433): A write of GLV_DBG_CTRL.HALT halts or resumes an Inner pair. -/
  | dbgHalt (fc : Fin 16) (on : Bool)
  /-- DBG_STEP (R433): A write of GLV_DBG_CTRL.STEP executes one instruction while halted. -/
  | dbgStep (fc : Fin 16)
  /-- ADD (R217): d := a + b modulo 2^32. -/
  | add (p : Fin 21)
  /-- SUB (R217): d := a − b modulo 2^32. -/
  | sub (p : Fin 21)
  /-- AND (R217): Bitwise AND. -/
  | and (p : Fin 21)
  /-- OR (R217): Bitwise OR. -/
  | or (p : Fin 21)
  /-- XOR (R217): Bitwise XOR. -/
  | xor (p : Fin 21)
  /-- ANDN (R217): a AND NOT b. -/
  | andn (p : Fin 21)
  /-- SLL (R217): Shift left by b[4:0]. -/
  | sll (p : Fin 21)
  /-- SRL (R217): Logical shift right. -/
  | srl (p : Fin 21)
  /-- SRA (R217): Arithmetic shift right. -/
  | sra (p : Fin 21)
  /-- ROR (R217): Rotate right. -/
  | ror (p : Fin 21)
  /-- SEQ (R217): d := 1 if a = b. -/
  | seq (p : Fin 21)
  /-- SNE (R217): d := 1 if a ≠ b. -/
  | sne (p : Fin 21)
  /-- SLT (R217): Signed less-than. -/
  | slt (p : Fin 21)
  /-- SLTU (R217): Unsigned less-than. -/
  | sltu (p : Fin 21)
  /-- MIN (R217): Signed minimum. -/
  | min (p : Fin 21)
  /-- MAX (R217): Signed maximum. -/
  | max (p : Fin 21)
  /-- MINU (R217): Unsigned minimum. -/
  | minu (p : Fin 21)
  /-- MAXU (R217): Unsigned maximum. -/
  | maxu (p : Fin 21)
  /-- CLZ (R217): Count of leading zeros. -/
  | clz (p : Fin 21)
  /-- POPC (R217): Count of ones. -/
  | popc (p : Fin 21)
  /-- BSWAP (R217): Byte reversal. -/
  | bswap (p : Fin 21)
  /-- ADDI (R217): Add a sign-extended immediate. -/
  | addi (p : Fin 21)
  /-- ANDI (R217): AND with a zero-extended immediate. -/
  | andi (p : Fin 21)
  /-- ORI (R217): OR with a zero-extended immediate. -/
  | ori (p : Fin 21)
  /-- XORI (R217): XOR with a zero-extended immediate. -/
  | xori (p : Fin 21)
  /-- SEQI (R217): Equal to the immediate. -/
  | seqi (p : Fin 21)
  /-- SNEI (R217): Not equal to the immediate. -/
  | snei (p : Fin 21)
  /-- SLTI (R217): Signed less than the immediate. -/
  | slti (p : Fin 21)
  /-- SLTIU (R217): Unsigned less than the sign-extended immediate. -/
  | sltiu (p : Fin 21)
  /-- SHI (R217): Shift or rotate by an immediate amount. -/
  | shi (p : Fin 21)
  /-- LUI (R217): d := imm16 × 2^16. -/
  | lui (p : Fin 21)
  /-- BZ (R218): Branch if the register is 0. -/
  | bz (p : Fin 21)
  /-- BNZ (R218): Branch if the register is not 0. -/
  | bnz (p : Fin 21)
  /-- DBNZ (R218): Decrement, then branch if not 0. -/
  | dbnz (p : Fin 21)
  /-- J (R218): Jump relative to pc. -/
  | j (p : Fin 21)
  /-- JAL (R218): Jump and link into cra. -/
  | jal (p : Fin 21)
  /-- TJUMP (R218): Jump and link through a capability token. -/
  | tjump (p : Fin 21)
  /-- MULLO (R246): Low 32 bits of the product. -/
  | mullo (p : Fin 21)
  /-- MULHI_SS (R246): High word of the signed × signed product. -/
  | mulhiSs (p : Fin 21)
  /-- MULHI_UU (R246): High word of the unsigned × unsigned product. -/
  | mulhiUu (p : Fin 21)
  /-- MULHI_SU (R246): High word of the signed × unsigned product. -/
  | mulhiSu (p : Fin 21)
  /-- QUOS (R248): Signed quotient, truncated toward zero. -/
  | quos (p : Fin 21)
  /-- QUOU (R248): Unsigned quotient. -/
  | quou (p : Fin 21)
  /-- RMDS (R248): Signed remainder. -/
  | rmds (p : Fin 21)
  /-- RMDU (R248): Unsigned remainder. -/
  | rmdu (p : Fin 21)
  /-- QMUL (R250): Q1.31 multiply, rounded and saturated. -/
  | qmul (p : Fin 21)
  /-- ADDS (R250): Saturating add. -/
  | adds (p : Fin 21)
  /-- SUBS (R250): Saturating subtract. -/
  | subs (p : Fin 21)
  /-- SHRR (R250): Rounding shift right. -/
  | shrr (p : Fin 21)
  /-- SHLS (R250): Saturating shift left. -/
  | shls (p : Fin 21)
  /-- SATH (R250): Saturate to int16. -/
  | sath (p : Fin 21)
  /-- LB (R220): Load a byte, sign-extended, through a capability. -/
  | lb (p : Fin 21)
  /-- LBU (R220): Load a byte, zero-extended. -/
  | lbu (p : Fin 21)
  /-- LH (R220): Load a half-word, sign-extended. -/
  | lh (p : Fin 21)
  /-- LHU (R220): Load a half-word, zero-extended. -/
  | lhu (p : Fin 21)
  /-- LW (R220): Load a word. -/
  | lw (p : Fin 21)
  /-- FLW (R220): Load a word into an f-register. -/
  | flw (p : Fin 21)
  /-- LCAP (R220): Load a capability with its tag. -/
  | lcap (p : Fin 21)
  /-- SB (R220): Store a byte. -/
  | sb (p : Fin 21)
  /-- SH (R220): Store a half-word. -/
  | sh (p : Fin 21)
  /-- SW (R220): Store a word. -/
  | sw (p : Fin 21)
  /-- FSW (R220): Store an f-register. -/
  | fsw (p : Fin 21)
  /-- SCAP (R220): Store a capability with its tag. -/
  | scap (p : Fin 21)
  /-- STORE_DRAIN (R238): A store-buffer entry drains to memory after its release. -/
  | storeDrain (p : Fin 21)
  /-- FADD (R221): Binary32 addition. -/
  | fadd (p : Fin 21)
  /-- FSUB (R221): Binary32 subtraction. -/
  | fsub (p : Fin 21)
  /-- FMUL (R221): Binary32 multiplication. -/
  | fmul (p : Fin 21)
  /-- FDIV (R221): Binary32 division. -/
  | fdiv (p : Fin 21)
  /-- FSQRT (R221): Binary32 square root. -/
  | fsqrt (p : Fin 21)
  /-- FMADD (R221): Fused multiply-add into fd. -/
  | fmadd (p : Fin 21)
  /-- FMIN (R254): IEEE minimum. -/
  | fmin (p : Fin 21)
  /-- FMAX (R254): IEEE maximum. -/
  | fmax (p : Fin 21)
  /-- FABS (R221): Clears the sign bit. -/
  | fabs (p : Fin 21)
  /-- FNEG (R221): Inverts the sign bit. -/
  | fneg (p : Fin 21)
  /-- FCMP_EQ (R254): Quiet equality compare into a g-register. -/
  | fcmpEq (p : Fin 21)
  /-- FCMP_LT (R254): Less-than compare. -/
  | fcmpLt (p : Fin 21)
  /-- FCMP_LE (R254): Less-or-equal compare. -/
  | fcmpLe (p : Fin 21)
  /-- FCMP_UN (R254): Unordered test. -/
  | fcmpUn (p : Fin 21)
  /-- FTOI (R255): Convert to int32. -/
  | ftoi (p : Fin 21)
  /-- FTOU (R255): Convert to uint32. -/
  | ftou (p : Fin 21)
  /-- ITOF (R255): Convert from int32. -/
  | itof (p : Fin 21)
  /-- UTOF (R255): Convert from uint32. -/
  | utof (p : Fin 21)
  /-- MOVFG (R221): Copy the bits of an f-register to a g-register. -/
  | movfg (p : Fin 21)
  /-- MOVGF (R221): Copy the bits of a g-register to an f-register. -/
  | movgf (p : Fin 21)
  /-- FKIND (R221): Classify a binary32 value. -/
  | fkind (p : Fin 21)
  /-- LRES_W (R222): Load a word and place the reservation. -/
  | lresW (p : Fin 21)
  /-- SCON_W (R222): Store a word conditionally on the reservation. -/
  | sconW (p : Fin 21)
  /-- TAS_B (R223): Indivisible test-and-set of a byte. -/
  | tasB (p : Fin 21)
  /-- TCOPY (R224): Copy a capability with its tag. -/
  | tcopy (p : Fin 21)
  /-- TREAD (R224): Read a capability field. -/
  | tread (p : Fin 21)
  /-- TPOINT (R224): Set a capability's address. -/
  | tpoint (p : Fin 21)
  /-- TSTEP (R224): Add to a capability's address. -/
  | tstep (p : Fin 21)
  /-- TSTEPI (R224): Add an immediate to a capability's address. -/
  | tstepi (p : Fin 21)
  /-- TNARROW (R263): Narrow the bounds, rounded outward. -/
  | tnarrow (p : Fin 21)
  /-- TNARROWX (R263): Narrow the bounds exactly, or fault. -/
  | tnarrowx (p : Fin 21)
  /-- TMASK (R224): Mask the permissions. -/
  | tmask (p : Fin 21)
  /-- TVOID (R224): Copy a capability with tag 0. -/
  | tvoid (p : Fin 21)
  /-- TWRAP (R269): Seal a capability. -/
  | twrap (p : Fin 21)
  /-- TUNWRAP (R269): Unseal a capability. -/
  | tunwrap (p : Fin 21)
  /-- TENTER (R269): Sealed call through a code and data pair. -/
  | tenter (p : Fin 21)
  /-- TSRD (R224): Read pcc, cvt or cfs. -/
  | tsrd (p : Fin 21)
  /-- TSWR (R224): Write cvt or cfs. -/
  | tswr (p : Fin 21)
  /-- CRR (R225): Read a control register. -/
  | crr (p : Fin 21)
  /-- CRW (R225): Write a control register, returning the old value. -/
  | crw (p : Fin 21)
  /-- CRS (R225): Set bits of a control register. -/
  | crs (p : Fin 21)
  /-- CRC (R225): Clear bits of a control register. -/
  | crc (p : Fin 21)
  /-- CSYNC (R242): Make earlier control-register writes take effect. -/
  | csync (p : Fin 21)
  /-- FENCE (R239): Wait until every earlier access has completed. -/
  | fence (p : Fin 21)
  /-- WFI (R225): Wait until an enabled interrupt line is pending. -/
  | wfi (p : Fin 21)
  /-- ERET (R276): Return from an exception through the frame, or tail-chain. -/
  | eret (p : Fin 21)
  /-- KCALL (R225): Raise KCALL with a code. -/
  | kcall (p : Fin 21)
  /-- BREAK (R225): Raise BREAK with a code. -/
  | breakW (p : Fin 21)
  /-- MCPY (R228): Resumable memory copy. -/
  | mcpy (p : Fin 21)
  /-- MFILL (R228): Resumable memory fill. -/
  | mfill (p : Fin 21)
  /-- VDOT (R228): Resumable binary32 dot product. -/
  | vdot (p : Fin 21)
  /-- CRCB_16 (R228): Resumable CRC-16 over bytes. -/
  | crcb16 (p : Fin 21)
  /-- CRCB_32 (R228): Resumable reflected CRC-32 over bytes. -/
  | crcb32 (p : Fin 21)
  /-- CX (R231): Execute a customer instruction from the decode table and the vertical store. -/
  | cx (p : Fin 21)
  /-- INTERRUPT (R243): A qualifying pending line is taken at an instruction boundary, with its frame, vector and handler entry. -/
  | interrupt (p : Fin 21)
  /-- ALU (R289): Vertical microword: register-register ALU operation. -/
  | alu (u : MicroUnit)
  /-- ALUI (R289): Vertical microword: ALU operation with an immediate. -/
  | alui (u : MicroUnit)
  /-- BR (R289): Vertical microword: conditional branch. -/
  | br (u : MicroUnit)
  /-- JMP (R289): Vertical microword: jump. -/
  | jmp (u : MicroUnit)
  /-- MEM (R290): Vertical microword: memory access through ca. -/
  | mem (p : Fin 21)
  /-- FAULT (R293): Vertical microword: raise an exception at the CX. -/
  | faultW (p : Fin 21)
  /-- END (R293): Vertical microword: end the program and commit held operand writes. -/
  | endW (u : MicroUnit)
  /-- WAIT (R289): Lock microword: wait for the sample instant, the verdicts, tick 600 or a control item. -/
  | wait (fc : Fin 16) (eng : Fin 8)
  /-- EVT (R289): Lock microword: raise an event. -/
  | evt (fc : Fin 16) (eng : Fin 8)
  /-- MBX (R289): Lock microword: move a lane's mailbox. -/
  | mbx (fc : Fin 16) (eng : Fin 8)
  /-- MCS_OPEN (R284): A write of MCS_CTRL.OPEN opens a load and invalidates the range. -/
  | mcsOpen (m : Fin 17)
  /-- MCS_DATA (R284): A write of MCS_DATA delivers one part of a word. -/
  | mcsData (m : Fin 17) (val : Word)
  /-- MCS_COMMIT (R284): A write of MCS_CTRL.COMMIT ends the data phase and starts the digest check. -/
  | mcsCommit (m : Fin 17)
  /-- MCS_ABORT (R284): A write of MCS_CTRL.ABORT ends an open load and leaves the range invalid. -/
  | mcsAbort (m : Fin 17)
  /-- DIGEST_CHECK (R284): Within 256 ticks of COMMIT the digest is compared, and the segments become valid or the load fails. -/
  | digestCheck (m : Fin 17)
  /-- CAP_COPY (R310): A write of MEM_IMG_CDST copies a tagged granule from KP's DTCM into an unreleased pair's DTCM. -/
  | capCopy (val : Word)
  /-- IMAGE_FILL (R311): A write of MEM_IMG_FILL starts zero-filling a memory of an unreleased pair. -/
  | imageFill (val : Word)
  /-- IMAGE_FILL_DONE (R311): The fill completes and BUSY clears. -/
  | imageFillDone
  /-- SCRUB_GO (R315): A write of MEM_SCRUB_CTRL.GO starts a scrub, or sets SCRUB_REFUSED. -/
  | scrubGo (wb : Bool)
  /-- SCRUB_DONE (R315): The scrub completes, writes its result registers, clears SCRUB_BUSY and raises SCRUB_DONE. -/
  | scrubDone
  /-- SCRUB_SLICE (R387): Every 10 ms, or 80 ms while shedding, the Keeper scrubs the next 64 KiB slice. -/
  | scrubSlice
  /-- DMA_START (R319): A write of DMA_STARTc starts a channel and reads its descriptor. -/
  | dmaStart (c : Fin 48) (doff : Word)
  /-- DESCRIPTOR_READ (R319): A descriptor read completes, or faults with DESC set. -/
  | descriptorRead (c : Fin 48)
  /-- DMA_ELEMENT (R320): An engine checks and moves one element of a channel. -/
  | dmaElement (e : Fin 17)
  /-- DMA_ABORT (R324): A write of DMA_CTRLc.ABORT stops an active channel at the next element boundary. -/
  | dmaAbort (c : Fin 48)
  /-- DMA_RESUME (R324): A write of DMA_CTRLc.RESUME rereads the descriptor and continues at PROG. -/
  | dmaResume (c : Fin 48)
  /-- SLEW_STEP (R330): Every 4,096th tick of the count, TS advances by 2 or holds for one tick. -/
  | slewStep
  /-- SYNC_EDGE (R331): A rising edge on SYNC_IN or PPS_IN is stamped and its error e is acted on. -/
  | syncEdge (pps : Bool)
  /-- SYNC_MISS (R331): No edge by P + 64 ticks after the expected one clears SYNC_LOCK and raises SYNC_MISS. -/
  | syncMiss
  /-- SYNC_PULSE (R331): At TS ≡ 0 mod P the device drives a pulse on SYNC_OUT. -/
  | syncPulse
  /-- EVT_IO_EDGE (R333): An enabled edge on an EVT_IO input raises EVT_RISE or EVT_FALL. -/
  | evtIoEdge (k : Fin 32) (level : Bool)
  /-- RECORD_DELIVER (R337): An event record released in TS order is written to each routed ring, or dropped when the ring is full. -/
  | recordDeliver
  /-- RIDX_WRITE (R337): A consumer write of EVT_QRIDXq moves the read index, or sets CFG_ERR. -/
  | ridxWrite (q : Fin 32) (val : Word)
  /-- ALARM_ARM (R339): A write of TS_ALM_HIp arms a pair's alarm. -/
  | alarmArm (p : Fin 21) (hi : Word)
  /-- TS_ALARM (R339): At the first tick with TS ≥ the alarm, line 4 pulses. -/
  | tsAlarm (p : Fin 21)
  /-- REF_ENABLE (R141): A write of ADC_REF_CTRL.EN switches a group's reference buffer on or off. -/
  | refEnable (g : Fin 20) (on : Bool)
  /-- REF_SETTLED (R141): The buffer has settled, no earlier than 2 ms, and REF_READY sets. -/
  | refSettled (g : Fin 20)
  /-- REF_TIMEOUT (R141): A buffer not settled 4 ms after enable or fall sets REF_FAULT. -/
  | refTimeout (g : Fin 20)
  /-- REF_FALL (R142): REF_READY falls while EN is 1, setting REF_FAULT and REF_LOST and asserting the reference-fault source. -/
  | refFall (g : Fin 20)
  /-- SEQ_TRIGGER (R146): A sequence entry's trigger arrives and schedules a start after DELAY, or sets TRIG_OVR. -/
  | seqTrigger (g : Fin 20) (k : Fin 16)
  /-- SWTRIG (R146): A write of ADC_SEQ_CTRL.SWTRIG fires trigger 0x60. -/
  | swtrig (g : Fin 20)
  /-- SEQ_START (R148): A scheduled entry starts its conversion, shares one, or is missed. -/
  | seqStart (g : Fin 20) (k : Fin 16) (raw : Int)
  /-- SEQ_RESULT (R149): 88 ticks after the start the result is published, setting NEW and perhaps OVR. -/
  | seqResult (g : Fin 20) (k : Fin 16)
  /-- UGAIN_STAGE (R145): A write of ADC_UGAINc stages a new user gain. -/
  | ugainStage (g : Fin 20) (c : Fin 8) (val : Word)
  /-- UOFF_COMMIT (R145): A write of ADC_UOFFc commits the staged gain with the new offset. -/
  | uoffCommit (g : Fin 20) (c : Fin 8) (val : Word)
  /-- CAL_STEP (R150): Every INTERVAL ms a rotation step starts the check of the free slice. -/
  | calStep (g : Fin 20)
  /-- CHECK_NOW (R150): A write of ADC_CAL_CTRL.CHECK_NOW starts a rotation step at once. -/
  | checkNow (g : Fin 20)
  /-- SLICE_CHECK_DONE (R150): The 192 conversions of a slice check complete and are judged against TOL. -/
  | sliceCheckDone (g : Fin 20) (raw : List (Int))
  /-- HANDOVER_COMPARE (R153): At the channel's next conversion both slices hold one sample and are compared. -/
  | handoverCompare (g : Fin 20) (raw : Int)
  /-- HANDOVER_CONVERSION (R153): A hub channel idle for 10 ms after connection takes an unpublished conversion of its own. -/
  | handoverConversion (g : Fin 20) (raw : Int)
  /-- FORCE_HANDOVER (R155): A write of ADC_CAL_CTRL.FORCE connects the free slice to a channel without comparison. -/
  | forceHandover (g : Fin 20) (c : Fin 16)
  /-- FORCE_HANDOVER_DONE (R155): From the first conversion at least 400 ticks later the free slice serves the channel and FORCED is set. -/
  | forceHandoverDone (g : Fin 20)
  /-- RING_POLL (R386): At least every 50 µs the Keeper polls every pair's request ring. -/
  | ringPoll
  /-- FW_TRIP (R386): Service that sets or clears an assigned SLU_FWTRIP bit. -/
  | fwTrip (p : Fin 21) (k : Fin 16) (bit : Fin 4) (on : Bool)
  /-- LOG (R386): Service that queues a record as event 0x7E. -/
  | logEv (p : Fin 21) (k : Fin 16)
  /-- TIME (R386): Service that returns TS. -/
  | timeSvc (p : Fin 21) (k : Fin 16)
  /-- THERMAL_READ (R395): Every 1 ms the Keeper reads the hottest sensor and starts or ends shedding. -/
  | thermalRead
  /-- WDKICK (R397): A write of 0xA5 directly after 0x5A to GLV_WDKICKp restarts both watchdog stages. -/
  | wdkick (p : Fin 21) (val : Byte)
  /-- WATCHDOG (R397): The first stage expires, and the pair takes WATCHDOG at its next boundary. -/
  | watchdog (p : Fin 21)
  /-- WATCHDOG_STAGE2 (R397): The second stage expires: KP asserts KEEPER_WDOG, and another pair resets. -/
  | watchdogStage2 (p : Fin 21)
  /-- RELEASE (R384): A write of GLV_RELEASE releases a pair at pcc 0 with its initial capabilities. -/
  | release (val : Word)
  /-- RECALL (R385): A write of GLV_RECALL stops a pair without rollback and marks it not released. -/
  | recall (val : Word)
  /-- FW_HALT (R398): A write of GLV_HALT.HALT enters SAFE_HALT with a cause. -/
  | fwHalt (cause : Byte) (step : Byte)
  /-- SAFE_RELEASE (R406): A write of GLV_SAFE.RELEASE releases SAFE_n where permitted, or sets REL_REFUSED. -/
  | safeRelease (val : Word)
  /-- PORST (R402): A low pulse on PORST_n of at least 10 µs causes a full device reset. -/
  | porst (len : Nat)
  /-- RAIL_RESET (R401): A rail below its reset threshold for 2 µs acts as PORST_n. -/
  | railReset (rail : Fin 8)
  /-- SUPPLY_WARN (R414): A rail below its warning threshold sets WARN and SUP_WARN, raises SUPPLY_WARN and asserts source 174. -/
  | supplyWarn (rail : Fin 8) (mv : Half)
  /-- TAP_RESET (R403): TRST_n resets the IEEE 1149.1 TAP only. -/
  | tapReset
  /-- RESET_RELEASE (R407): The release of a device reset sets TS to 0 and starts the boot sequence. -/
  | resetRelease
  /-- OTP_READ (R409): The OTP read completes with ECC, and the repair map and calibration are applied. -/
  | otpRead (bad : List (Nat))
  /-- SELFTEST_DONE (R407): The cuff tests and ECC checker tests of all pairs complete. -/
  | selftestDone (glv : Word) (memPair : Word) (memFc : Word)
  /-- BOOT_ROM_COPY (R407): The boot ROM is copied into KP ITCM, and KP is released at 0x0003_C000. -/
  | bootRomCopy
  /-- LINK_TRAINING_START (R407): A port whose PERSTx_n is released starts link training. -/
  | linkTrainingStart (p : Fin 2)
  /-- BOOT_ROM_READY (R407): The known-answer tests complete and the boot ROM starts taking entries. -/
  | bootRomReady (dur : Half) (katOk : Bool)
  /-- CLK_FAULT (R417): A missing or off-frequency SYSCLK asserts source 173 and puts the island clocks in holdover. -/
  | clkFault
  /-- HOLDOVER_END (R417): A reference within limits for 1 ms clears the source and ends holdover. -/
  | holdoverEnd
  /-- HOLDOVER_EXPIRY (R417): A reference not within limits 10 ms after entry into holdover sends the device to SAFE_HALT. -/
  | holdoverExpiry (within : Bool)
  /-- SENSOR_SAMPLE (R422): Each temperature sensor samples every 10 µs and updates THM_MAX. -/
  | sensorSample (temps : List (Option (Half)))
  /-- LIFE_TICK (R426): Every 1 ms AF(T) is added to THM_LIFE, and the ageing monitors are checked for AGE_WARN. -/
  | lifeTick (ages : List (Word))
  /-- SAFE_LOW_END (R167): SAFE_n, pulled low by another module, is released and reads high again, so source 175 SAFE_LOW is no longer active. -/
  | safeLowEnd
  /-- SUPPLY_RESTORED (R414): A rail that was below its warning threshold rises above it again, clearing WARN and deasserting source 174 SUPPLY. -/
  | supplyRestored (rail : Fin 8) (mv : Half)
  /-- FILTER_SAMPLE (R163): On the 4-tick sampling grid of a MAJ filter, FO of a comparator or pin changes once K of the last N samples agree. -/
  | filterSample (c : Fin 144)
  /-- SCRUB_GRANULE (R313): The scrub engine reads one granule, and rewrites it when needed, as one indivisible access, once per tick of a running scrub. -/
  | scrubGranule
  /-- PAIR_RESET_DONE (R280): Within 64 ticks of a third-fault or second-stage watchdog reset, the pair resumes at the state of R271 and leaves HALTED. -/
  | pairResetDone (p : Fin 21)
  /-- BAD_OPCODE (R362): An entry whose opcode is not listed in R365 is taken and receives BAD_OPCODE, with no other effect. -/
  | badOpcode (e : Entry)
  /-- ILLEGAL (R215): An instruction word that is unlisted, names a c-register above c15, has a required-zero field set, or selects an invalid CX entry raises ILLEGAL. -/
  | illegal (p : Fin 21)
  /-- FETCH_FAULT (R267): An instruction fetch that fails a check of pcc, its alignment, its bounds, ITCM or ECC raises its cause, and nothing from that address executes. -/
  | fetchFault (p : Fin 21)
  /-- PROGRAM_KEY_HASH (R409): A private IEEE 1149.1 instruction in BOOT_ROM programs the customer key hash into OTP and sets KEY_FUSED, after which DEVMODE reads 0 permanently. -/
  | programKeyHash (hash : List (Byte))
deriving DecidableEq, Repr

end Sys2Proof
end

