-- ==== Sys2Proof/Machine/Bits.lean ====
section
/-! DEFINITION. Bit fields of a register word, byte order, sign extension, and the rounding and clamping functions of
R8 (spec/00_scope.md). -/

namespace Sys2Proof.Machine

/-- A field of a 32-bit register: its lowest bit and its width. -/
structure Fld where
  lo : Nat
  w : Nat
deriving DecidableEq, Repr

/-- The value of a field, as an unsigned number. -/
def fget (v : Word) (f : Fld) : Nat := v.toNat / 2 ^ f.lo % 2 ^ f.w

/-- The ones of a field. -/
def fmask (f : Fld) : Word := BitVec.ofNat 32 ((2 ^ f.w - 1) * 2 ^ f.lo)

/-- The word with the field set to `x` (taken modulo the field's width). -/
def fput (v : Word) (f : Fld) (x : Nat) : Word :=
  (v &&& ~~~(fmask f)) ||| (BitVec.ofNat 32 (x % 2 ^ f.w * 2 ^ f.lo) &&& fmask f)

/-- An unsigned number of `w` bits read as a two's-complement integer. -/
def sx (w n : Nat) : Int := if n < 2 ^ (w - 1) then (n : Int) else (n : Int) - 2 ^ w

/-- An integer written as an unsigned number of `w` bits (uwrap of R8). -/
def enc (w : Nat) (i : Int) : Nat := (i % (2 ^ w : Int)).toNat

/-- `sat N` of R8: the value clamped to the signed range of `n` bits. -/
def satI (n : Nat) (v : Int) : Int := max (-(2 ^ (n - 1) : Int)) (min v (2 ^ (n - 1) - 1))

/-- `usat N` of R8: the value clamped to the unsigned range of `n` bits. -/
def usatI (n : Nat) (v : Int) : Int := max 0 (min v (2 ^ n - 1))

/-- `wrap N` of R8. -/
def wrapI (n : Nat) (v : Int) : Int := sx n (enc n v)

/-- `round_half_even` of R8 for the rational `a / b`, `b` positive. -/
def rhe (a : Int) (b : Nat) : Int :=
  let q := a / (b : Int)
  let r := a % (b : Int)
  if 2 * r < b then q
  else if (b : Int) < 2 * r then q + 1
  else if q % 2 = 0 then q else q + 1

/-- An unsigned counter that stops at the top of its `w` bits. -/
def satInc (w n : Nat) : Nat := if n + 1 < 2 ^ w then n + 1 else 2 ^ w - 1

/-- The little-endian number of a list of bytes. -/
def leNat : List Byte → Nat
  | [] => 0
  | b :: r => b.toNat + 256 * leNat r

/-- The `n` little-endian bytes of a number. -/
def leBytes : Nat → Nat → List Byte
  | 0, _ => []
  | n + 1, v => BitVec.ofNat 8 v :: leBytes n (v / 256)

/-- `n` bytes of a list from position `o`, as a little-endian number; bytes past the end read 0. -/
def leAt (l : List Byte) (o n : Nat) : Nat := leNat ((l.drop o).take n)

/-- One bit of a number. -/
def nbit (v i : Nat) : Bool := v / 2 ^ i % 2 = 1

/-- Bits `hi` down to `lo` of a number. -/
def nbits (v lo w : Nat) : Nat := v / 2 ^ lo % 2 ^ w

/-- A Bool as 0 or 1. -/
def b2n (b : Bool) : Nat := if b then 1 else 0

/-- The number with bit `i` set or cleared. -/
def setBit (v i : Nat) (b : Bool) : Nat := v - b2n (nbit v i) * 2 ^ i + b2n b * 2 ^ i

/-- One step of the CRC-16 of R46: polynomial 0x1021, most significant bit first. -/
def crc16Bit (c : Nat) : Nat := if nbit c 15 then (c * 2 % 65536) ^^^ 0x1021 else c * 2 % 65536

/-- The CRC-16 of R46 over one byte. -/
def crc16Byte (c : Nat) (b : Byte) : Nat :=
  Nat.repeat crc16Bit 8 (c ^^^ (b.toNat * 256))

/-- The CRC-16 of R46 over a list of bytes, initial value `c`. -/
def crc16 (c : Nat) (l : List Byte) : Nat := l.foldl crc16Byte c

/-- One step of a reflected CRC-32 with polynomial 0xEDB88320. -/
def crc32Bit (c : Nat) : Nat := if c % 2 = 1 then (c / 2) ^^^ 0xEDB88320 else c / 2

/-- A reflected CRC-32 over one byte. -/
def crc32Byte (c : Nat) (b : Byte) : Nat := Nat.repeat crc32Bit 8 (c ^^^ b.toNat)

/-- Read the entry of a sparse table. -/
def tget {α : Type} (d : α) : Tbl α → Nat → α
  | [], _ => d
  | (k, v) :: r, j => if k = j then v else tget d r j

/-- Write an entry of a sparse table, keeping its keys rising. -/
def tput {α : Type} : Tbl α → Nat → α → Tbl α
  | [], j, x => [(j, x)]
  | (k, v) :: r, j, x => if j = k then (j, x) :: r else if j < k then (j, x) :: (k, v) :: r else (k, v) :: tput r j x

/-- Remove an entry of a sparse table. -/
def tdel {α : Type} (t : Tbl α) (j : Nat) : Tbl α := t.filter fun e => e.1 != j

/-- Repeat an operation for the indices `0 … n − 1`, in rising order. -/
def forN {σ : Type} (n : Nat) (f : Nat → σ → σ) (s : σ) : σ := (List.range n).foldl (fun a i => f i a) s

end Sys2Proof.Machine
end

