-- ==== Sys2Proof/Machine/LineCode.lean ====
section
/-! DEFINITION. The line code of a Lock link (R36, R38): 8b/10b as published, its code groups and the running disparity. A code
group is written abcdei fghj with bit a as bit 9, so that bit 9 is sent first. PRESUMED (log entry 75): the spec names the code
and not its tables; these are the published ones. -/

namespace Sys2Proof.Machine

/-- The symbols of R38: a data byte, or one of the five special code groups. -/
inductive Sym where
  | d (b : Byte)
  /-- K28.5 -/
  | sof
  /-- K28.7 -/
  | block
  /-- K27.7 -/
  | align
  /-- K28.1 -/
  | probe
  /-- K29.7 -/
  | idle
deriving DecidableEq, Repr

/-- The six-bit groups abcdei of the low five bits of a byte after a negative running disparity. -/
def sixNeg : List Nat :=
  [0b100111, 0b011101, 0b101101, 0b110001, 0b110101, 0b101001, 0b011001, 0b111000,
   0b111001, 0b100101, 0b010101, 0b110100, 0b001101, 0b101100, 0b011100, 0b010111,
   0b011011, 0b100011, 0b010011, 0b110010, 0b001011, 0b101010, 0b011010, 0b111010,
   0b110011, 0b100110, 0b010110, 0b110110, 0b001110, 0b101110, 0b011110, 0b101011]

/-- The four-bit groups fghj of the high three bits of a byte after a negative running disparity, the primary form of 7. -/
def fourNeg : List Nat := [0b1011, 0b1001, 0b0101, 0b1100, 0b1101, 0b1010, 0b0110, 0b1110]

/-- Ones among the low `n` bits of a number. -/
def onesIn (n v : Nat) : Nat := forN n (fun i k => if nbit v i then k + 1 else k) 0

/-- Running disparity after a group of `n` bits: it follows the majority, and of the balanced groups those with one half of ones
after a half of zeros count as positive and their complements as negative. -/
def rdAfter (n : Nat) (rd : Bool) (v : Nat) : Bool :=
  let k := onesIn n v
  if n / 2 < k || v == 2 ^ (n / 2) - 1 then true
  else if k < n / 2 || v == 2 ^ n - 2 ^ (n / 2) then false
  else rd

/-- A group as it is sent after a running disparity: the groups that change or mark the disparity have two forms. -/
def sentAs (n : Nat) (rd : Bool) (neg : Nat) : Nat :=
  if rd && (onesIn n neg != n / 2 || neg == 2 ^ n - 2 ^ (n / 2)) then 2 ^ n - 1 - neg else neg

/-- The six-bit group of a value of five bits. -/
def sixOf (rd : Bool) (x : Nat) : Nat := sentAs 6 rd (sixNeg.getD x 0)

/-- The four-bit group of a value of three bits after the six-bit group of `x`; 7 takes its alternate form where five equal bits
would otherwise follow one another. -/
def fourOf (rd : Bool) (x y : Nat) : Nat :=
  if y = 7 && !rd && (x = 17 || x = 18 || x = 20) then 0b0111
  else if y = 7 && rd && (x = 11 || x = 13 || x = 14) then 0b1000
  else sentAs 4 rd (fourNeg.getD y 0)

/-- A special code group after a negative running disparity. -/
def specialNeg : Sym → Nat
  | .d _ => 0
  | .sof => 0b0011111010
  | .block => 0b0011111000
  | .align => 0b1101101000
  | .probe => 0b0011111001
  | .idle => 0b1011101000

/-- Running disparity after a code group. -/
def rdGroup (rd : Bool) (g : Nat) : Bool := rdAfter 4 (rdAfter 6 rd (g / 16)) (g % 16)

/-- The code group of a symbol after a running disparity. -/
def encodeSym (rd : Bool) : Sym → Nat
  | .d b =>
    let x := b.toNat % 32
    let six := sixOf rd x
    16 * six + fourOf (rdAfter 6 rd six) x (b.toNat / 32)
  | k => if rd then 1023 - specialNeg k else specialNeg k

/-- The symbol that a code group stands for after a running disparity; none is a code or disparity violation (R38). -/
def decodeGroup (rd : Bool) (g : Nat) : Option Sym :=
  match [Sym.sof, .block, .align, .probe, .idle].find? fun k => encodeSym rd k == g with
  | some k => some k
  | none =>
    match (List.range 32).find? fun x => sixOf rd x == g / 16 with
    | none => none
    | some x =>
      ((List.range 8).find? fun y => fourOf (rdAfter 6 rd (g / 16)) x y == g % 16).map fun y => .d (BitVec.ofNat 8 (x + 32 * y))

/-- The code groups of a list of symbols, and the running disparity after them. -/
def encodeSyms : Bool → List Sym → List Nat × Bool
  | rd, [] => ([], rd)
  | rd, k :: r =>
    let g := encodeSym rd k
    let (l, rd) := encodeSyms (rdGroup rd g) r
    (g :: l, rd)

/-- The running disparity after a list of symbols. -/
def rdSyms (rd : Bool) (l : List Sym) : Bool := l.foldl (fun rd k => rdGroup rd (encodeSym rd k)) rd

/-- What a receiver takes from the code groups of a barge (R38, R44): the byte of each slot, 0 where the group violates the code,
the disparity or its slot, the number of such slots, and the running disparity after them. Slot 0 takes SOF, every other a data
byte. -/
def takeGroups : Bool → Bool → List Nat → List Byte × Nat × Bool
  | _, rd, [] => ([], 0, rd)
  | first, rd, g :: r =>
    let (l, v, rd') := takeGroups false (rdGroup rd g) r
    match decodeGroup rd g with
    | some (.d b) => if first then (0 :: l, v + 1, rd') else (b :: l, v, rd')
    | some .sof => if first then (0xBC :: l, v, rd') else (0 :: l, v + 1, rd')
    | _ => (0 :: l, v + 1, rd')

end Sys2Proof.Machine
end

