-- ==== Sys2Proof/Config.lean ====
section
/-! DEFINITION. What the spec leaves to the part or leaves undefined: constants without a body, so that no proof can see their
values (log entries 2 and 4). -/

namespace Sys2Proof

/-- The n-th undefined value of a run (R7): any bit pattern (log entry 2). -/
opaque Config.freeWord : Nat → Word

/-- The word of the part's OTP fuse block at an internal address (R409): fixed at manufacture (log entry 4). -/
opaque Config.otpWord : Nat → Word

/-- Whether the n-th read through the host window ends in a poisoned completion, an error status or a timeout (R355): what the
host does is not stated (log entry 30). -/
opaque Config.hostReadFails : Nat → Bool

/-- The boot ROM's version (R368), fixed in the part (log entry 4). -/
opaque Config.bootRomVersion : Byte

/-- The boot ROM's bytes (R407), fixed in the part and not stated (log entry 4). -/
opaque Config.bootRom : Nat → Byte

end Sys2Proof
end

