-- ==== Sys2Proof/Machine/RegMap.lean ====
section
/-! DEFINITION. The register map of R431 (spec/24_address_map.md): the address of every register, its fields, the access code
of each field and its reset value, as the register tables of the chapters give them. Registers of the BAR0 of port p stand at
the model's own keys 0x1_0000_0000 + 0x1_0000 p + offset. -/

namespace Sys2Proof.Machine

/-- The tightening direction of an RWL field (R5). -/
inductive Tight where
  | none | smaller | smallerS | largerS | bits
deriving DecidableEq, Repr

/-- One RWL field: its place, its tightening direction, and whether a write of 0 is ignored. -/
structure RwlFld where
  f : Fld
  t : Tight
  nz : Bool
deriving DecidableEq, Repr

/-- One register of the map, with its instances: (count, stride) per index, largest stride first. -/
structure RegRow where
  /-- 0, or the kind of register whose reset value depends on the instance or on the part (see resetWord) -/
  sp : Nat
  base : Nat
  idx : List (Nat × Nat)
  rw : Word
  w1c : Word
  w1s : Word
  rc : Word
  rwl : List RwlFld
  reset : Word
deriving DecidableEq, Repr

/-- Base address of ADC group `g`: 0–15 in the FC windows, 16–19 the hub groups AG0–AG3. -/
def adcBase (g : Nat) : Nat := if g < 16 then 0x6000A000 + 0x100000 * g else 0x70000000 + 0x1000 * (g - 16)

/-- Base address of comparator CW`c`: 0–63 in the FC windows, 64–127 in the comparator block. -/
def cmpBase (c : Nat) : Nat :=
  if c < 64 then 0x6000B000 + 0x100000 * (c / 4) + 0x20 * (c % 4) else 0x70010000 + 0x20 * (c - 64)

/-- Base address of load port `m`: 0–15 the FC ports, 16 the Keeper port. -/
def mcsBase (m : Nat) : Nat := if m < 16 then 0x60010000 + 0x100000 * m else 0x78020000

namespace Reg

/-- Address of FC_CDESC5. -/
def FC_CDESC5 (n : Nat) (i : Nat) : Nat := 0x60000814 + 0x100000 * n + 0x20 * i
/-- Address of LED_CELL6. -/
def LED_CELL6 (n : Nat) (i : Nat) : Nat := 0x60008018 + 0x100000 * n + 0x20 * i
/-- Address of FC_CYC_CTRL. -/
def FC_CYC_CTRL (n : Nat) : Nat := 0x60000000 + 0x100000 * n
/-- Address of FC_CYC_LEN. -/
def FC_CYC_LEN (n : Nat) : Nat := 0x60000004 + 0x100000 * n
/-- Address of FC_CYC_PHASE. -/
def FC_CYC_PHASE (n : Nat) : Nat := 0x60000008 + 0x100000 * n
/-- Address of FC_CYC_COUNT. -/
def FC_CYC_COUNT (n : Nat) : Nat := 0x60000010 + 0x100000 * n
/-- Address of FC_CYC_STAT. -/
def FC_CYC_STAT (n : Nat) : Nat := 0x60000020 + 0x100000 * n
/-- Address of FC_INNER_DONE. -/
def FC_INNER_DONE (n : Nat) : Nat := 0x60000024 + 0x100000 * n
/-- Address of FC_OVR_CFG. -/
def FC_OVR_CFG (n : Nat) : Nat := 0x60000028 + 0x100000 * n
/-- Address of FC_OVR_COUNT. -/
def FC_OVR_COUNT (n : Nat) : Nat := 0x6000002C + 0x100000 * n
/-- Address of FC_LOCK. -/
def FC_LOCK (n : Nat) : Nat := 0x60000060 + 0x100000 * n
/-- Address of FC_APPLY_LAT. -/
def FC_APPLY_LAT (n : Nat) : Nat := 0x6000000C + 0x100000 * n
/-- Address of FC_CYC_TS_LO. -/
def FC_CYC_TS_LO (n : Nat) : Nat := 0x60000018 + 0x100000 * n
/-- Address of FC_CYC_TS_HI. -/
def FC_CYC_TS_HI (n : Nat) : Nat := 0x6000001C + 0x100000 * n
/-- Address of FC_N_OVRD. -/
def FC_N_OVRD (n : Nat) (i : Nat) : Nat := 0x60000030 + 0x100000 * n + 0x4 * i
/-- Address of FC_N_LIMIT. -/
def FC_N_LIMIT (n : Nat) (i : Nat) : Nat := 0x60000038 + 0x100000 * n + 0x4 * i
/-- Address of FC_FLT_CFG. -/
def FC_FLT_CFG (n : Nat) (i : Nat) : Nat := 0x60000040 + 0x100000 * n + 0x4 * i
/-- Address of FC_FLT_REQ. -/
def FC_FLT_REQ (n : Nat) (i : Nat) : Nat := 0x60000048 + 0x100000 * n + 0x4 * i
/-- Address of FC_FLT_STAT. -/
def FC_FLT_STAT (n : Nat) (i : Nat) : Nat := 0x60000050 + 0x100000 * n + 0x4 * i
/-- Address of FC_HUB_MASK. -/
def FC_HUB_MASK (n : Nat) (i : Nat) : Nat := 0x60000058 + 0x100000 * n + 0x4 * i
/-- Address of FC_CDESC. -/
def FC_CDESC (n : Nat) (i : Nat) (k : Nat) : Nat := 0x60000800 + 0x100000 * n + 0x20 * i + 0x4 * k
/-- Address of LNK_CTRL. -/
def LNK_CTRL (n : Nat) (i : Nat) : Nat := 0x60001000 + 0x100000 * n + 0x40 * i
/-- Address of LNK_CFG. -/
def LNK_CFG (n : Nat) (i : Nat) : Nat := 0x60001004 + 0x100000 * n + 0x40 * i
/-- Address of LNK_STAT. -/
def LNK_STAT (n : Nat) (i : Nat) : Nat := 0x60001008 + 0x100000 * n + 0x40 * i
/-- Address of LNK_DELAY. -/
def LNK_DELAY (n : Nat) (i : Nat) : Nat := 0x6000100C + 0x100000 * n + 0x40 * i
/-- Address of LNK_RTT. -/
def LNK_RTT (n : Nat) (i : Nat) : Nat := 0x60001010 + 0x100000 * n + 0x40 * i
/-- Address of LNK_ERR. -/
def LNK_ERR (n : Nat) (i : Nat) : Nat := 0x60001034 + 0x100000 * n + 0x40 * i
/-- Address of LNK_MISS. -/
def LNK_MISS (n : Nat) (i : Nat) : Nat := 0x60001038 + 0x100000 * n + 0x40 * i
/-- Address of LNK_LAST. -/
def LNK_LAST (n : Nat) (i : Nat) : Nat := 0x6000103C + 0x100000 * n + 0x40 * i
/-- Address of LNK_DECL. -/
def LNK_DECL (n : Nat) (i : Nat) (k : Nat) : Nat := 0x60001014 + 0x100000 * n + 0x40 * i + 0x4 * k
/-- Address of LNK_LOSS_CFG. -/
def LNK_LOSS_CFG (n : Nat) (i : Nat) : Nat := 0x60002000 + 0x100000 * n + 0x4 * i
/-- Address of LNK_LOSS_STAT. -/
def LNK_LOSS_STAT (n : Nat) : Nat := 0x60002008 + 0x100000 * n
/-- Address of LNK_READY_LO. -/
def LNK_READY_LO (n : Nat) : Nat := 0x60002010 + 0x100000 * n
/-- Address of LNK_READY_HI. -/
def LNK_READY_HI (n : Nat) : Nat := 0x60002014 + 0x100000 * n
/-- Address of LNK_LOST_LO. -/
def LNK_LOST_LO (n : Nat) : Nat := 0x60002018 + 0x100000 * n
/-- Address of LNK_LOST_HI. -/
def LNK_LOST_HI (n : Nat) : Nat := 0x6000201C + 0x100000 * n
/-- Address of OBS_BANK. -/
def OBS_BANK (n : Nat) (i : Nat) : Nat := 0x60004000 + 0x100000 * n + 0x20 * i
/-- Address of OBS_SETID. -/
def OBS_SETID (n : Nat) (i : Nat) : Nat := 0x60004004 + 0x100000 * n + 0x20 * i
/-- Address of OBS_CFG. -/
def OBS_CFG (n : Nat) (i : Nat) : Nat := 0x60004008 + 0x100000 * n + 0x20 * i
/-- Address of OBS_STAT. -/
def OBS_STAT (n : Nat) (i : Nat) : Nat := 0x6000400C + 0x100000 * n + 0x20 * i
/-- Address of OBS_X. -/
def OBS_X (n : Nat) (i : Nat) : Nat := 0x60004100 + 0x100000 * n + 0x4 * i
/-- Address of OBS_U. -/
def OBS_U (n : Nat) (i : Nat) : Nat := 0x60004180 + 0x100000 * n + 0x4 * i
/-- Address of OBS_URAW. -/
def OBS_URAW (n : Nat) (i : Nat) : Nat := 0x600041A0 + 0x100000 * n + 0x4 * i
/-- Address of OBS_O. -/
def OBS_O (n : Nat) (i : Nat) : Nat := 0x600041C0 + 0x100000 * n + 0x4 * i
/-- Address of OBS_UMIN. -/
def OBS_UMIN (n : Nat) (i : Nat) : Nat := 0x60004200 + 0x100000 * n + 0x8 * i
/-- Address of OBS_UMAX. -/
def OBS_UMAX (n : Nat) (i : Nat) : Nat := 0x60004204 + 0x100000 * n + 0x8 * i
/-- Address of OBS_USTAT. -/
def OBS_USTAT (n : Nat) : Nat := 0x60004240 + 0x100000 * n
/-- Address of OBS_FROZEN. -/
def OBS_FROZEN (n : Nat) : Nat := 0x60004244 + 0x100000 * n
/-- Address of OBS_SATMAP_LO. -/
def OBS_SATMAP_LO (n : Nat) : Nat := 0x60004248 + 0x100000 * n
/-- Address of OBS_SATMAP_HI. -/
def OBS_SATMAP_HI (n : Nat) : Nat := 0x6000424C + 0x100000 * n
/-- Address of OBS_SATCNT. -/
def OBS_SATCNT (n : Nat) (i : Nat) : Nat := 0x60004300 + 0x100000 * n + 0x4 * i
/-- Address of OBS_WREG. -/
def OBS_WREG (n : Nat) (i : Nat) : Nat := 0x60004400 + 0x100000 * n + 0x4 * i
/-- Address of OBS_TRACE_LO. -/
def OBS_TRACE_LO (n : Nat) : Nat := 0x60004440 + 0x100000 * n
/-- Address of OBS_TRACE_MID. -/
def OBS_TRACE_MID (n : Nat) : Nat := 0x60004444 + 0x100000 * n
/-- Address of OBS_TRACE_HI. -/
def OBS_TRACE_HI (n : Nat) : Nat := 0x60004448 + 0x100000 * n
/-- Address of OBS_TRACE_ROW. -/
def OBS_TRACE_ROW (n : Nat) : Nat := 0x6000444C + 0x100000 * n
/-- Address of OBS_SHTGT. -/
def OBS_SHTGT (n : Nat) (i : Nat) : Nat := 0x60004800 + 0x100000 * n + 0x20 * i
/-- Address of OBS_SHVMAX. -/
def OBS_SHVMAX (n : Nat) (i : Nat) : Nat := 0x60004804 + 0x100000 * n + 0x20 * i
/-- Address of OBS_SHAMAX. -/
def OBS_SHAMAX (n : Nat) (i : Nat) : Nat := 0x60004808 + 0x100000 * n + 0x20 * i
/-- Address of OBS_SHOUT. -/
def OBS_SHOUT (n : Nat) (i : Nat) : Nat := 0x6000480C + 0x100000 * n + 0x20 * i
/-- Address of OBS_SHRATE. -/
def OBS_SHRATE (n : Nat) (i : Nat) : Nat := 0x60004810 + 0x100000 * n + 0x20 * i
/-- Address of OBS_SHPOS_LO. -/
def OBS_SHPOS_LO (n : Nat) (i : Nat) : Nat := 0x60004814 + 0x100000 * n + 0x20 * i
/-- Address of OBS_SHPOS_HI. -/
def OBS_SHPOS_HI (n : Nat) (i : Nat) : Nat := 0x60004818 + 0x100000 * n + 0x20 * i
/-- Address of OBS_SHSTAT. -/
def OBS_SHSTAT (n : Nat) (i : Nat) : Nat := 0x6000481C + 0x100000 * n + 0x20 * i
/-- Address of BAL_FCFG. -/
def BAL_FCFG (n : Nat) (i : Nat) : Nat := 0x60006000 + 0x100000 * n + 0x40 * i
/-- Address of BAL_SMAX. -/
def BAL_SMAX (n : Nat) (i : Nat) : Nat := 0x60006004 + 0x100000 * n + 0x40 * i
/-- Address of BAL_TBAND. -/
def BAL_TBAND (n : Nat) (i : Nat) : Nat := 0x60006008 + 0x100000 * n + 0x40 * i
/-- Address of BAL_IDEAD. -/
def BAL_IDEAD (n : Nat) (i : Nat) : Nat := 0x6000600C + 0x100000 * n + 0x40 * i
/-- Address of BAL_VSCALE. -/
def BAL_VSCALE (n : Nat) (i : Nat) : Nat := 0x60006010 + 0x100000 * n + 0x40 * i
/-- Address of BAL_NOUT. -/
def BAL_NOUT (n : Nat) (i : Nat) : Nat := 0x60006014 + 0x100000 * n + 0x40 * i
/-- Address of BAL_XOUT. -/
def BAL_XOUT (n : Nat) (i : Nat) : Nat := 0x60006018 + 0x100000 * n + 0x40 * i
/-- Address of BAL_RECIP. -/
def BAL_RECIP (n : Nat) (i : Nat) : Nat := 0x6000601C + 0x100000 * n + 0x40 * i
/-- Address of BAL_RHO. -/
def BAL_RHO (n : Nat) (i : Nat) : Nat := 0x60006020 + 0x100000 * n + 0x40 * i
/-- Address of BAL_DUTY. -/
def BAL_DUTY (n : Nat) (i : Nat) : Nat := 0x60006024 + 0x100000 * n + 0x40 * i
/-- Address of BAL_STAT. -/
def BAL_STAT (n : Nat) (i : Nat) : Nat := 0x60006028 + 0x100000 * n + 0x40 * i
/-- Address of BAL_TOK. -/
def BAL_TOK (n : Nat) (i : Nat) : Nat := 0x6000602C + 0x100000 * n + 0x40 * i
/-- Address of BAL_SWAPTOT. -/
def BAL_SWAPTOT (n : Nat) (i : Nat) : Nat := 0x60006030 + 0x100000 * n + 0x40 * i
/-- Address of BAL_UC_CTRL. -/
def BAL_UC_CTRL (n : Nat) : Nat := 0x60006100 + 0x100000 * n
/-- Address of LED_CELL. -/
def LED_CELL (n : Nat) (i : Nat) (k : Nat) : Nat := 0x60008000 + 0x100000 * n + 0x20 * i + 0x4 * k
/-- Address of LED_FACC. -/
def LED_FACC (n : Nat) (i : Nat) (k : Nat) : Nat := 0x60008800 + 0x100000 * n + 0x40 * i + 0x4 * k
/-- Address of LED_RACC. -/
def LED_RACC (n : Nat) (i : Nat) (k : Nat) : Nat := 0x60008808 + 0x100000 * n + 0x40 * i + 0x4 * k
/-- Address of LED_FPOST. -/
def LED_FPOST (n : Nat) (i : Nat) (k : Nat) : Nat := 0x60008810 + 0x100000 * n + 0x40 * i + 0x4 * k
/-- Address of LED_RES. -/
def LED_RES (n : Nat) (i : Nat) (k : Nat) : Nat := 0x60008818 + 0x100000 * n + 0x40 * i + 0x4 * k
/-- Address of LED_CFG. -/
def LED_CFG (n : Nat) (i : Nat) : Nat := 0x60008820 + 0x100000 * n + 0x40 * i
/-- Address of LED_RLIM. -/
def LED_RLIM (n : Nat) (i : Nat) : Nat := 0x60008824 + 0x100000 * n + 0x40 * i
/-- Address of LED_STAT. -/
def LED_STAT (n : Nat) (i : Nat) : Nat := 0x60008828 + 0x100000 * n + 0x40 * i
/-- Address of LED_CTRL. -/
def LED_CTRL (n : Nat) (i : Nat) : Nat := 0x6000882C + 0x100000 * n + 0x40 * i
/-- Address of ADC_REF_CTRL. -/
def ADC_REF_CTRL (g : Nat) : Nat := adcBase g + 0x0
/-- Address of ADC_STAT. -/
def ADC_STAT (g : Nat) : Nat := adcBase g + 0x4
/-- Address of ADC_CAL_CFG. -/
def ADC_CAL_CFG (g : Nat) : Nat := adcBase g + 0x8
/-- Address of ADC_CAL_CTRL. -/
def ADC_CAL_CTRL (g : Nat) : Nat := adcBase g + 0xC
/-- Address of ADC_CAL_STAT. -/
def ADC_CAL_STAT (g : Nat) : Nat := adcBase g + 0x10
/-- Address of ADC_SEQ_CTRL. -/
def ADC_SEQ_CTRL (g : Nat) : Nat := adcBase g + 0x14
/-- Address of ADC_TMR. -/
def ADC_TMR (g : Nat) : Nat := adcBase g + 0x18
/-- Address of ADC_TDAC. -/
def ADC_TDAC (g : Nat) : Nat := adcBase g + 0x1C
/-- Address of ADC_MAP. -/
def ADC_MAP (g : Nat) (k : Nat) : Nat := adcBase g + 0x40 + 4 * k
/-- Address of ADC_UGAIN. -/
def ADC_UGAIN (g : Nat) (k : Nat) : Nat := adcBase g + 0x80 + 8 * k
/-- Address of ADC_UOFF. -/
def ADC_UOFF (g : Nat) (k : Nat) : Nat := adcBase g + 0x84 + 8 * k
/-- Address of ADC_CYC. -/
def ADC_CYC (g : Nat) (k : Nat) : Nat := adcBase g + 0xC0 + 4 * k
/-- Address of ADC_SEQ. -/
def ADC_SEQ (g : Nat) (k : Nat) : Nat := adcBase g + 0x100 + 4 * k
/-- Address of ADC_RES. -/
def ADC_RES (g : Nat) (k : Nat) : Nat := adcBase g + 0x140 + 4 * k
/-- Address of ADC_RESTS. -/
def ADC_RESTS (g : Nat) (k : Nat) : Nat := adcBase g + 0x180 + 4 * k
/-- Address of ADC_SLOFF. -/
def ADC_SLOFF (g : Nat) (k : Nat) : Nat := adcBase g + 0x200 + 8 * k
/-- Address of ADC_SLGAIN. -/
def ADC_SLGAIN (g : Nat) (k : Nat) : Nat := adcBase g + 0x204 + 8 * k
/-- Address of ADC_SLCHK. -/
def ADC_SLCHK (g : Nat) (k : Nat) : Nat := adcBase g + 0x280 + 4 * k
/-- Address of CMP_CFG. -/
def CMP_CFG (c : Nat) : Nat := cmpBase c + 0x0
/-- Address of CMP_THR. -/
def CMP_THR (c : Nat) : Nat := cmpBase c + 0x4
/-- Address of CMP_FILT. -/
def CMP_FILT (c : Nat) : Nat := cmpBase c + 0x8
/-- Address of CMP_BLANK. -/
def CMP_BLANK (c : Nat) : Nat := cmpBase c + 0xC
/-- Address of CMP_BOFF. -/
def CMP_BOFF (c : Nat) : Nat := cmpBase c + 0x10
/-- Address of CMP_STAT. -/
def CMP_STAT (c : Nat) : Nat := cmpBase c + 0x14
/-- Address of CMP_CLR. -/
def CMP_CLR (c : Nat) : Nat := cmpBase c + 0x18
/-- Address of CMP_LOCK. -/
def CMP_LOCK : Nat := 0x70010800
/-- Address of WEAR_CFG. -/
def WEAR_CFG (n : Nat) : Nat := 0x6000C000 + 0x100000 * n
/-- Address of WEAR_STAT. -/
def WEAR_STAT (n : Nat) : Nat := 0x6000C004 + 0x100000 * n
/-- Address of WEAR_REC. -/
def WEAR_REC (n : Nat) (i : Nat) (k : Nat) : Nat := 0x6000C400 + 0x100000 * n + 0x40 * i + 0x4 * k
/-- Address of WEAR_TBL. -/
def WEAR_TBL (n : Nat) (i : Nat) (k : Nat) : Nat := 0x6000D800 + 0x100000 * n + 0x440 * i + 0x4 * k
/-- Address of MCS_SEL. -/
def MCS_SEL (m : Nat) : Nat := mcsBase m + 0x0
/-- Address of MCS_COUNT. -/
def MCS_COUNT (m : Nat) : Nat := mcsBase m + 0x4
/-- Address of MCS_CTRL. -/
def MCS_CTRL (m : Nat) : Nat := mcsBase m + 0x8
/-- Address of MCS_STAT. -/
def MCS_STAT (m : Nat) : Nat := mcsBase m + 0xC
/-- Address of MCS_DATA. -/
def MCS_DATA (m : Nat) : Nat := mcsBase m + 0x10
/-- Address of MCS_DIGEST. -/
def MCS_DIGEST (m : Nat) (k : Nat) : Nat := mcsBase m + 0x20 + 4 * k
/-- Address of MCS_VMAPE. -/
def MCS_VMAPE (n : Nat) (i : Nat) : Nat := 0x60010040 + 0x100000 * n + 0x4 * i
/-- Address of MCS_ENGCTL. -/
def MCS_ENGCTL (n : Nat) : Nat := 0x60010050 + 0x100000 * n
/-- Address of MCS_ENGSTAT. -/
def MCS_ENGSTAT (n : Nat) : Nat := 0x60010054 + 0x100000 * n
/-- Address of MCS_VMAPP. -/
def MCS_VMAPP (n : Nat) : Nat := 0x78020100 + 0x4 * n
/-- Address of MCS_DTVAL. -/
def MCS_DTVAL : Nat := 0x78020180
/-- Address of GLV_DBG_CTRL. -/
def GLV_DBG_CTRL (n : Nat) : Nat := 0x60020000 + 0x100000 * n
/-- Address of PWM_CTRL. -/
def PWM_CTRL (n : Nat) : Nat := 0x70020000 + 0x40 * n
/-- Address of PWM_PER. -/
def PWM_PER (n : Nat) : Nat := 0x70020004 + 0x40 * n
/-- Address of PWM_CMP. -/
def PWM_CMP (n : Nat) : Nat := 0x70020008 + 0x40 * n
/-- Address of PWM_DT. -/
def PWM_DT (n : Nat) : Nat := 0x7002000C + 0x40 * n
/-- Address of PWM_MP. -/
def PWM_MP (n : Nat) : Nat := 0x70020010 + 0x40 * n
/-- Address of PWM_TOW. -/
def PWM_TOW (n : Nat) : Nat := 0x70020014 + 0x40 * n
/-- Address of PWM_APER. -/
def PWM_APER (n : Nat) : Nat := 0x70020018 + 0x40 * n
/-- Address of PWM_ACMP. -/
def PWM_ACMP (n : Nat) : Nat := 0x7002001C + 0x40 * n
/-- Address of PWM_ADT. -/
def PWM_ADT (n : Nat) : Nat := 0x70020020 + 0x40 * n
/-- Address of PWM_PEND. -/
def PWM_PEND (n : Nat) : Nat := 0x70020024 + 0x40 * n
/-- Address of PWM_STAT. -/
def PWM_STAT (n : Nat) : Nat := 0x70020028 + 0x40 * n
/-- Address of PWM_CNT. -/
def PWM_CNT (n : Nat) : Nat := 0x7002002C + 0x40 * n
/-- Address of PWM_PSTS_LO. -/
def PWM_PSTS_LO (n : Nat) : Nat := 0x70020030 + 0x40 * n
/-- Address of PWM_PSTS_HI. -/
def PWM_PSTS_HI (n : Nat) : Nat := 0x70020034 + 0x40 * n
/-- Address of PWM_COMMIT. -/
def PWM_COMMIT : Nat := 0x70020800
/-- Address of PWM_TOWCFG. -/
def PWM_TOWCFG : Nat := 0x70020804
/-- Address of SLU_SRC_ACT. -/
def SLU_SRC_ACT (n : Nat) : Nat := 0x70030000 + 0x4 * n
/-- Address of SLU_PINCFG. -/
def SLU_PINCFG (n : Nat) : Nat := 0x70030040 + 0x4 * n
/-- Address of SLU_PINSTAT. -/
def SLU_PINSTAT : Nat := 0x70030080
/-- Address of SLU_PINCLR. -/
def SLU_PINCLR : Nat := 0x70030084
/-- Address of SLU_FCSRC. -/
def SLU_FCSRC (n : Nat) : Nat := 0x700300C0 + 0x4 * n
/-- Address of SLU_FWTRIP. -/
def SLU_FWTRIP : Nat := 0x70030100
/-- Address of SLU_LOCK. -/
def SLU_LOCK : Nat := 0x70030104
/-- Address of SLU_LATCHED. -/
def SLU_LATCHED : Nat := 0x70030108
/-- Address of SLU_FLT_BLOCK. -/
def SLU_FLT_BLOCK : Nat := 0x7003010C
/-- Address of SLU_FLT_FREEZE. -/
def SLU_FLT_FREEZE : Nat := 0x70030110
/-- Address of SLU_PWM_SAFE. -/
def SLU_PWM_SAFE : Nat := 0x70030114
/-- Address of SLU_GSRC. -/
def SLU_GSRC (n : Nat) (i : Nat) : Nat := 0x70030400 + 0x40 * n + 0x4 * i
/-- Address of SLU_GFLT. -/
def SLU_GFLT (n : Nat) : Nat := 0x70030418 + 0x40 * n
/-- Address of SLU_GPWM. -/
def SLU_GPWM (n : Nat) : Nat := 0x7003041C + 0x40 * n
/-- Address of SLU_GCFG. -/
def SLU_GCFG (n : Nat) : Nat := 0x70030420 + 0x40 * n
/-- Address of SLU_GSTAT. -/
def SLU_GSTAT (n : Nat) : Nat := 0x70030424 + 0x40 * n
/-- Address of SLU_GTS_LO. -/
def SLU_GTS_LO (n : Nat) : Nat := 0x70030428 + 0x40 * n
/-- Address of SLU_GTS_HI. -/
def SLU_GTS_HI (n : Nat) : Nat := 0x7003042C + 0x40 * n
/-- Address of SLU_GCOMMIT. -/
def SLU_GCOMMIT (n : Nat) : Nat := 0x70030430 + 0x40 * n
/-- Address of TS_LO. -/
def TS_LO : Nat := 0x70040000
/-- Address of TS_HI. -/
def TS_HI : Nat := 0x70040004
/-- Address of TS_STAT. -/
def TS_STAT : Nat := 0x7004000C
/-- Address of TS_SLEW_LEFT. -/
def TS_SLEW_LEFT : Nat := 0x70040018
/-- Address of TS_SYNC_CFG. -/
def TS_SYNC_CFG : Nat := 0x70040020
/-- Address of TS_SYNC_DLY. -/
def TS_SYNC_DLY : Nat := 0x70040024
/-- Address of TS_SYNC_ERR. -/
def TS_SYNC_ERR : Nat := 0x70040028
/-- Address of TS_ALM_LO. -/
def TS_ALM_LO (n : Nat) : Nat := 0x70040100 + 0x8 * n
/-- Address of TS_ALM_HI. -/
def TS_ALM_HI (n : Nat) : Nat := 0x70040104 + 0x8 * n
/-- Address of EVT_IOCFG. -/
def EVT_IOCFG (n : Nat) : Nat := 0x70040200 + 0x4 * n
/-- Address of EVT_QBASE. -/
def EVT_QBASE (n : Nat) : Nat := 0x70040800 + 0x40 * n
/-- Address of EVT_QCFG. -/
def EVT_QCFG (n : Nat) : Nat := 0x70040804 + 0x40 * n
/-- Address of EVT_QTHR. -/
def EVT_QTHR (n : Nat) : Nat := 0x70040808 + 0x40 * n
/-- Address of EVT_QWIDX. -/
def EVT_QWIDX (n : Nat) : Nat := 0x7004080C + 0x40 * n
/-- Address of EVT_QRIDX. -/
def EVT_QRIDX (n : Nat) : Nat := 0x70040810 + 0x40 * n
/-- Address of EVT_QGEN. -/
def EVT_QGEN (n : Nat) : Nat := 0x70040814 + 0x40 * n
/-- Address of EVT_QDELIV. -/
def EVT_QDELIV (n : Nat) : Nat := 0x70040818 + 0x40 * n
/-- Address of EVT_QDROP. -/
def EVT_QDROP (n : Nat) : Nat := 0x7004081C + 0x40 * n
/-- Address of EVT_QSTAT. -/
def EVT_QSTAT (n : Nat) : Nat := 0x70040820 + 0x40 * n
/-- Address of EVT_ROUTE. -/
def EVT_ROUTE (n : Nat) : Nat := 0x70041000 + 0x4 * n
/-- Address of DMA_START. -/
def DMA_START (n : Nat) : Nat := 0x70050000 + 0x40 * n
/-- Address of DMA_CTRL. -/
def DMA_CTRL (n : Nat) : Nat := 0x70050004 + 0x40 * n
/-- Address of DMA_STAT. -/
def DMA_STAT (n : Nat) : Nat := 0x70050008 + 0x40 * n
/-- Address of DMA_PROG. -/
def DMA_PROG (n : Nat) : Nat := 0x7005000C + 0x40 * n
/-- Address of DMA_FADDR. -/
def DMA_FADDR (n : Nat) : Nat := 0x70050010 + 0x40 * n
/-- Address of DMA_DOFF. -/
def DMA_DOFF (n : Nat) : Nat := 0x70050014 + 0x40 * n
/-- Address of DMA_DBASE. -/
def DMA_DBASE (n : Nat) : Nat := 0x70058000 + 0x10 * n
/-- Address of DMA_DLEN. -/
def DMA_DLEN (n : Nat) : Nat := 0x70058004 + 0x10 * n
/-- Address of MEM_CE_CNT. -/
def MEM_CE_CNT : Nat := 0x70060000
/-- Address of MEM_UE_CNT. -/
def MEM_UE_CNT : Nat := 0x70060004
/-- Address of MEM_TAG_FIX. -/
def MEM_TAG_FIX : Nat := 0x70060008
/-- Address of MEM_ERR_MID. -/
def MEM_ERR_MID : Nat := 0x7006000C
/-- Address of MEM_ERR_ADDR. -/
def MEM_ERR_ADDR : Nat := 0x70060010
/-- Address of MEM_STAT. -/
def MEM_STAT : Nat := 0x70060014
/-- Address of MEM_BIST_PAIR. -/
def MEM_BIST_PAIR : Nat := 0x70060018
/-- Address of MEM_BIST_FC. -/
def MEM_BIST_FC : Nat := 0x7006001C
/-- Address of MEM_REPAIR. -/
def MEM_REPAIR : Nat := 0x70060020
/-- Address of MEM_IMG_CSRC. -/
def MEM_IMG_CSRC : Nat := 0x70060040
/-- Address of MEM_IMG_CDST. -/
def MEM_IMG_CDST : Nat := 0x70060044
/-- Address of MEM_IMG_FILL. -/
def MEM_IMG_FILL : Nat := 0x70060048
/-- Address of MEM_SCRUB_MID. -/
def MEM_SCRUB_MID : Nat := 0x70060050
/-- Address of MEM_SCRUB_OFF. -/
def MEM_SCRUB_OFF : Nat := 0x70060054
/-- Address of MEM_SCRUB_LEN. -/
def MEM_SCRUB_LEN : Nat := 0x70060058
/-- Address of MEM_SCRUB_CTRL. -/
def MEM_SCRUB_CTRL : Nat := 0x7006005C
/-- Address of MEM_SCRUB_GRAN. -/
def MEM_SCRUB_GRAN : Nat := 0x70060060
/-- Address of MEM_SCRUB_CE. -/
def MEM_SCRUB_CE : Nat := 0x70060064
/-- Address of MEM_SCRUB_UE. -/
def MEM_SCRUB_UE : Nat := 0x70060068
/-- Address of MEM_SCRUB_TAGFIX. -/
def MEM_SCRUB_TAGFIX : Nat := 0x7006006C
/-- Address of MEM_SCRUB_FIRST. -/
def MEM_SCRUB_FIRST : Nat := 0x70060070
/-- Address of MEM_SCRUB_LAST. -/
def MEM_SCRUB_LAST : Nat := 0x70060074
/-- Address of MEM_SCRUB_TSS_LO. -/
def MEM_SCRUB_TSS_LO : Nat := 0x70060078
/-- Address of MEM_SCRUB_TSS_HI. -/
def MEM_SCRUB_TSS_HI : Nat := 0x7006007C
/-- Address of MEM_SCRUB_TSE_LO. -/
def MEM_SCRUB_TSE_LO : Nat := 0x70060080
/-- Address of MEM_SCRUB_TSE_HI. -/
def MEM_SCRUB_TSE_HI : Nat := 0x70060084
/-- Address of THM_TEMP. -/
def THM_TEMP (n : Nat) : Nat := 0x70070000 + 0x4 * n
/-- Address of THM_MAX. -/
def THM_MAX : Nat := 0x70070060
/-- Address of THM_STAT. -/
def THM_STAT : Nat := 0x70070064
/-- Address of THM_PEAK. -/
def THM_PEAK : Nat := 0x70070068
/-- Address of THM_VMON. -/
def THM_VMON (n : Nat) : Nat := 0x70070080 + 0x4 * n
/-- Address of THM_LIFE_LO. -/
def THM_LIFE_LO : Nat := 0x700700C0
/-- Address of THM_LIFE_HI. -/
def THM_LIFE_HI : Nat := 0x700700C4
/-- Address of THM_AGE. -/
def THM_AGE (n : Nat) : Nat := 0x70070100 + 0x4 * n
/-- Address of OTP_STAT. -/
def OTP_STAT : Nat := 0x78000000
/-- Address of OTP_IDENT. -/
def OTP_IDENT : Nat := 0x78000010
/-- Address of OTP_SERIAL_LO. -/
def OTP_SERIAL_LO : Nat := 0x78000014
/-- Address of OTP_SERIAL_HI. -/
def OTP_SERIAL_HI : Nat := 0x78000018
/-- Address of OTP_KEYHASH. -/
def OTP_KEYHASH (n : Nat) : Nat := 0x78000020 + 0x4 * n
/-- Address of OTP_CAL. -/
def OTP_CAL (n : Nat) : Nat := 0x78001000 + 0x8 * n
/-- Address of OTP_CALG. -/
def OTP_CALG (n : Nat) : Nat := 0x78001004 + 0x8 * n
/-- Address of OTP_REPAIR. -/
def OTP_REPAIR (n : Nat) : Nat := 0x78002000 + 0x4 * n
/-- Address of HIF_KINSTAT. -/
def HIF_KINSTAT (n : Nat) : Nat := 0x78010000 + 0x4000 * n
/-- Address of HIF_KINPOP. -/
def HIF_KINPOP (n : Nat) : Nat := 0x78010004 + 0x4000 * n
/-- Address of HIF_KOUTSTAT. -/
def HIF_KOUTSTAT (n : Nat) : Nat := 0x78010008 + 0x4000 * n
/-- Address of HIF_KOUTPUSH. -/
def HIF_KOUTPUSH (n : Nat) : Nat := 0x7801000C + 0x4000 * n
/-- Address of HIF_KDISC. -/
def HIF_KDISC (n : Nat) : Nat := 0x78010010 + 0x4000 * n
/-- Address of HIF_KOWN. -/
def HIF_KOWN (n : Nat) : Nat := 0x78010020 + 0x4000 * n
/-- Address of HIF_KHB. -/
def HIF_KHB (n : Nat) : Nat := 0x78010024 + 0x4000 * n
/-- Address of HIF_KFWVER. -/
def HIF_KFWVER (n : Nat) : Nat := 0x78010028 + 0x4000 * n
/-- Address of HIF_KSHED. -/
def HIF_KSHED (n : Nat) : Nat := 0x7801002C + 0x4000 * n
/-- Address of HIF_KINSLOT. -/
def HIF_KINSLOT (n : Nat) (i : Nat) : Nat := 0x78010100 + 0x4000 * n + 0x4 * i
/-- Address of HIF_KOUTSLOT. -/
def HIF_KOUTSLOT (n : Nat) (i : Nat) : Nat := 0x78010200 + 0x4000 * n + 0x4 * i
/-- Address of HIF_HWIN_LO. -/
def HIF_HWIN_LO (n : Nat) : Nat := 0x78018000 + 0x10 * n
/-- Address of HIF_HWIN_HI. -/
def HIF_HWIN_HI (n : Nat) : Nat := 0x78018004 + 0x10 * n
/-- Address of HIF_HWINCFG. -/
def HIF_HWINCFG (n : Nat) : Nat := 0x78018008 + 0x10 * n
/-- Address of GLV_CFG. -/
def GLV_CFG (n : Nat) : Nat := 0x78030000 + 0x40 * n
/-- Address of GLV_STAT. -/
def GLV_STAT (n : Nat) : Nat := 0x78030004 + 0x40 * n
/-- Address of GLV_MISM. -/
def GLV_MISM (n : Nat) : Nat := 0x78030008 + 0x40 * n
/-- Address of GLV_RST. -/
def GLV_RST (n : Nat) : Nat := 0x78030014 + 0x40 * n
/-- Address of GLV_HOLD. -/
def GLV_HOLD (n : Nat) : Nat := 0x78030018 + 0x40 * n
/-- Address of GLV_FORCE. -/
def GLV_FORCE (n : Nat) : Nat := 0x7803001C + 0x40 * n
/-- Address of GLV_MTS_LO. -/
def GLV_MTS_LO (n : Nat) : Nat := 0x7803000C + 0x40 * n
/-- Address of GLV_MTS_HI. -/
def GLV_MTS_HI (n : Nat) : Nat := 0x78030010 + 0x40 * n
/-- Address of GLV_WDCFG. -/
def GLV_WDCFG (n : Nat) : Nat := 0x78030020 + 0x40 * n
/-- Address of GLV_WDKICK. -/
def GLV_WDKICK (n : Nat) : Nat := 0x78030024 + 0x40 * n
/-- Address of GLV_BIST. -/
def GLV_BIST : Nat := 0x78030800
/-- Address of GLV_BGPOS. -/
def GLV_BGPOS : Nat := 0x78030804
/-- Address of GLV_LOCK. -/
def GLV_LOCK : Nat := 0x78030808
/-- Address of GLV_RELEASE. -/
def GLV_RELEASE : Nat := 0x7803080C
/-- Address of GLV_HALT. -/
def GLV_HALT : Nat := 0x78030810
/-- Address of GLV_SAFE. -/
def GLV_SAFE : Nat := 0x78030814
/-- Address of GLV_RECALL. -/
def GLV_RECALL : Nat := 0x78030818
/-- Address of HIF_IDENT. -/
def HIF_IDENT (n : Nat) : Nat := 0x100000000 + 0x10000 * n
/-- Address of HIF_DEVSTATE. -/
def HIF_DEVSTATE (n : Nat) : Nat := 0x100000004 + 0x10000 * n
/-- Address of HIF_SERIAL_LO. -/
def HIF_SERIAL_LO (n : Nat) : Nat := 0x100000008 + 0x10000 * n
/-- Address of HIF_SERIAL_HI. -/
def HIF_SERIAL_HI (n : Nat) : Nat := 0x10000000C + 0x10000 * n
/-- Address of HIF_FWVER. -/
def HIF_FWVER (n : Nat) : Nat := 0x100000010 + 0x10000 * n
/-- Address of HIF_STAT. -/
def HIF_STAT (n : Nat) : Nat := 0x100000014 + 0x10000 * n
/-- Address of HIF_OWN. -/
def HIF_OWN (n : Nat) : Nat := 0x100000100 + 0x10000 * n
/-- Address of HIF_HB. -/
def HIF_HB (n : Nat) : Nat := 0x100000104 + 0x10000 * n
/-- Address of HIF_HBSTAT. -/
def HIF_HBSTAT (n : Nat) : Nat := 0x100000108 + 0x10000 * n
/-- Address of HIF_HBTIME. -/
def HIF_HBTIME (n : Nat) : Nat := 0x10000010C + 0x10000 * n
/-- Address of HIF_NOTE. -/
def HIF_NOTE (n : Nat) : Nat := 0x100000110 + 0x10000 * n
/-- Address of HIF_NOTESTAT. -/
def HIF_NOTESTAT (n : Nat) : Nat := 0x100000114 + 0x10000 * n
/-- Address of HIF_SQTDB. -/
def HIF_SQTDB (n : Nat) (i : Nat) : Nat := 0x100001000 + 0x10000 * n + 0x8 * i
/-- Address of HIF_CQHDB. -/
def HIF_CQHDB (n : Nat) (i : Nat) : Nat := 0x100002000 + 0x10000 * n + 0x8 * i
/-- Address of HIF_SQBASE_LO. -/
def HIF_SQBASE_LO (n : Nat) (i : Nat) : Nat := 0x100003000 + 0x10000 * n + 0x40 * i
/-- Address of HIF_SQBASE_HI. -/
def HIF_SQBASE_HI (n : Nat) (i : Nat) : Nat := 0x100003004 + 0x10000 * n + 0x40 * i
/-- Address of HIF_SQCFG. -/
def HIF_SQCFG (n : Nat) (i : Nat) : Nat := 0x100003008 + 0x10000 * n + 0x40 * i
/-- Address of HIF_SQHEAD. -/
def HIF_SQHEAD (n : Nat) (i : Nat) : Nat := 0x10000300C + 0x10000 * n + 0x40 * i
/-- Address of HIF_CQBASE_LO. -/
def HIF_CQBASE_LO (n : Nat) (i : Nat) : Nat := 0x100003010 + 0x10000 * n + 0x40 * i
/-- Address of HIF_CQBASE_HI. -/
def HIF_CQBASE_HI (n : Nat) (i : Nat) : Nat := 0x100003014 + 0x10000 * n + 0x40 * i
/-- Address of HIF_CQCFG. -/
def HIF_CQCFG (n : Nat) (i : Nat) : Nat := 0x100003018 + 0x10000 * n + 0x40 * i
/-- Address of HIF_CQTAIL. -/
def HIF_CQTAIL (n : Nat) (i : Nat) : Nat := 0x10000301C + 0x10000 * n + 0x40 * i
/-- Address of HIF_CQTWB_LO. -/
def HIF_CQTWB_LO (n : Nat) (i : Nat) : Nat := 0x100003020 + 0x10000 * n + 0x40 * i
/-- Address of HIF_CQTWB_HI. -/
def HIF_CQTWB_HI (n : Nat) (i : Nat) : Nat := 0x100003024 + 0x10000 * n + 0x40 * i
/-- Address of HIF_QSTAT. -/
def HIF_QSTAT (n : Nat) (i : Nat) : Nat := 0x100003028 + 0x10000 * n + 0x40 * i

end Reg

namespace F

/-- Field FC_CDESC5_VCAP_OV. -/
def FC_CDESC5_VCAP_OV : Fld := ⟨0, 16⟩
/-- Field LED_CELL6_LVL. -/
def LED_CELL6_LVL : Fld := ⟨0, 16⟩
/-- Field LED_CELL6_OUTLIER. -/
def LED_CELL6_OUTLIER : Fld := ⟨16, 1⟩
/-- Field LED_CELL6_RESYNC. -/
def LED_CELL6_RESYNC : Fld := ⟨17, 1⟩
/-- Field LED_CELL6_OV. -/
def LED_CELL6_OV : Fld := ⟨18, 1⟩
/-- Field LED_CELL6_OV_NOW. -/
def LED_CELL6_OV_NOW : Fld := ⟨19, 1⟩
/-- Field FC_CYC_CTRL_RUN. -/
def FC_CYC_CTRL_RUN : Fld := ⟨0, 1⟩
/-- Field FC_CYC_CTRL_INNER_CHK. -/
def FC_CYC_CTRL_INNER_CHK : Fld := ⟨1, 1⟩
/-- Field FC_CYC_LEN_LEN. -/
def FC_CYC_LEN_LEN : Fld := ⟨0, 10⟩
/-- Field FC_CYC_PHASE_PHASE. -/
def FC_CYC_PHASE_PHASE : Fld := ⟨0, 18⟩
/-- Field FC_CYC_COUNT_COUNT. -/
def FC_CYC_COUNT_COUNT : Fld := ⟨0, 32⟩
/-- Field FC_CYC_STAT_RUNNING. -/
def FC_CYC_STAT_RUNNING : Fld := ⟨0, 1⟩
/-- Field FC_CYC_STAT_FOLLOWER. -/
def FC_CYC_STAT_FOLLOWER : Fld := ⟨1, 1⟩
/-- Field FC_CYC_STAT_LEADER. -/
def FC_CYC_STAT_LEADER : Fld := ⟨4, 4⟩
/-- Field FC_CYC_STAT_CFG_ERR. -/
def FC_CYC_STAT_CFG_ERR : Fld := ⟨8, 1⟩
/-- Field FC_CYC_STAT_INNER_LATE. -/
def FC_CYC_STAT_INNER_LATE : Fld := ⟨9, 1⟩
/-- Field FC_CYC_STAT_OVRD_LATE. -/
def FC_CYC_STAT_OVRD_LATE : Fld := ⟨10, 1⟩
/-- Field FC_CYC_STAT_OVR_TRIP. -/
def FC_CYC_STAT_OVR_TRIP : Fld := ⟨11, 1⟩
/-- Field FC_INNER_DONE_CYC. -/
def FC_INNER_DONE_CYC : Fld := ⟨0, 8⟩
/-- Field FC_OVR_CFG_LIMIT. -/
def FC_OVR_CFG_LIMIT : Fld := ⟨0, 8⟩
/-- Field FC_OVR_COUNT_CONSEC. -/
def FC_OVR_COUNT_CONSEC : Fld := ⟨0, 16⟩
/-- Field FC_OVR_COUNT_TOTAL. -/
def FC_OVR_COUNT_TOTAL : Fld := ⟨16, 16⟩
/-- Field FC_LOCK_LOCK. -/
def FC_LOCK_LOCK : Fld := ⟨0, 1⟩
/-- Field FC_APPLY_LAT_LAT. -/
def FC_APPLY_LAT_LAT : Fld := ⟨0, 18⟩
/-- Field FC_CYC_TS_LO_TS. -/
def FC_CYC_TS_LO_TS : Fld := ⟨0, 32⟩
/-- Field FC_CYC_TS_HI_TS. -/
def FC_CYC_TS_HI_TS : Fld := ⟨0, 32⟩
/-- Field FC_N_OVRD_N. -/
def FC_N_OVRD_N : Fld := ⟨0, 10⟩
/-- Field FC_N_OVRD_CYC. -/
def FC_N_OVRD_CYC : Fld := ⟨16, 8⟩
/-- Field FC_N_OVRD_VALID. -/
def FC_N_OVRD_VALID : Fld := ⟨31, 1⟩
/-- Field FC_N_LIMIT_DELTA. -/
def FC_N_LIMIT_DELTA : Fld := ⟨0, 8⟩
/-- Field FC_FLT_CFG_FLIGHT. -/
def FC_FLT_CFG_FLIGHT : Fld := ⟨0, 5⟩
/-- Field FC_FLT_CFG_BOUND. -/
def FC_FLT_CFG_BOUND : Fld := ⟨5, 1⟩
/-- Field FC_FLT_CFG_GANG. -/
def FC_FLT_CFG_GANG : Fld := ⟨6, 2⟩
/-- Field FC_FLT_CFG_FIRST_LANE. -/
def FC_FLT_CFG_FIRST_LANE : Fld := ⟨8, 6⟩
/-- Field FC_FLT_CFG_COUNT. -/
def FC_FLT_CFG_COUNT : Fld := ⟨16, 7⟩
/-- Field FC_FLT_CFG_REF_SRC. -/
def FC_FLT_CFG_REF_SRC : Fld := ⟨24, 3⟩
/-- Field FC_FLT_REQ_N_REQ. -/
def FC_FLT_REQ_N_REQ : Fld := ⟨0, 9⟩
/-- Field FC_FLT_STAT_STATE. -/
def FC_FLT_STAT_STATE : Fld := ⟨0, 3⟩
/-- Field FC_FLT_STAT_AVAIL. -/
def FC_FLT_STAT_AVAIL : Fld := ⟨4, 9⟩
/-- Field FC_FLT_STAT_SHORT. -/
def FC_FLT_STAT_SHORT : Fld := ⟨16, 1⟩
/-- Field FC_FLT_STAT_REF_IGN. -/
def FC_FLT_STAT_REF_IGN : Fld := ⟨17, 1⟩
/-- Field FC_FLT_STAT_REJECT. -/
def FC_FLT_STAT_REJECT : Fld := ⟨18, 1⟩
/-- Field LNK_CTRL_ENABLE. -/
def LNK_CTRL_ENABLE : Fld := ⟨0, 1⟩
/-- Field LNK_CTRL_RETRAIN. -/
def LNK_CTRL_RETRAIN : Fld := ⟨1, 1⟩
/-- Field LNK_CTRL_FORCE_BLOCK. -/
def LNK_CTRL_FORCE_BLOCK : Fld := ⟨2, 1⟩
/-- Field LNK_CTRL_ALIGN_NOW. -/
def LNK_CTRL_ALIGN_NOW : Fld := ⟨3, 1⟩
/-- Field LNK_CTRL_CLR_CNT. -/
def LNK_CTRL_CLR_CNT : Fld := ⟨4, 1⟩
/-- Field LNK_CFG_UP_START. -/
def LNK_CFG_UP_START : Fld := ⟨0, 16⟩
/-- Field LNK_CFG_TX_INV. -/
def LNK_CFG_TX_INV : Fld := ⟨16, 1⟩
/-- Field LNK_CFG_RX_INV. -/
def LNK_CFG_RX_INV : Fld := ⟨17, 1⟩
/-- Field LNK_STAT_STATE. -/
def LNK_STAT_STATE : Fld := ⟨0, 4⟩
/-- Field LNK_STAT_FAIL_STEP. -/
def LNK_STAT_FAIL_STEP : Fld := ⟨4, 2⟩
/-- Field LNK_STAT_MISMATCH. -/
def LNK_STAT_MISMATCH : Fld := ⟨8, 1⟩
/-- Field LNK_STAT_TRAIN_FAIL. -/
def LNK_STAT_TRAIN_FAIL : Fld := ⟨9, 1⟩
/-- Field LNK_STAT_DEGRADED_SEEN. -/
def LNK_STAT_DEGRADED_SEEN : Fld := ⟨10, 1⟩
/-- Field LNK_STAT_LOST_SEEN. -/
def LNK_STAT_LOST_SEEN : Fld := ⟨11, 1⟩
/-- Field LNK_STAT_TS_FAULT. -/
def LNK_STAT_TS_FAULT : Fld := ⟨12, 1⟩
/-- Field LNK_STAT_CELL_BLOCK. -/
def LNK_STAT_CELL_BLOCK : Fld := ⟨13, 1⟩
/-- Field LNK_STAT_PULSE_VIOL. -/
def LNK_STAT_PULSE_VIOL : Fld := ⟨14, 1⟩
/-- Field LNK_STAT_MISM_MASK. -/
def LNK_STAT_MISM_MASK : Fld := ⟨16, 8⟩
/-- Field LNK_DELAY_D_DOWN. -/
def LNK_DELAY_D_DOWN : Fld := ⟨0, 16⟩
/-- Field LNK_DELAY_D_UP. -/
def LNK_DELAY_D_UP : Fld := ⟨16, 16⟩
/-- Field LNK_RTT_RTT. -/
def LNK_RTT_RTT : Fld := ⟨0, 16⟩
/-- Field LNK_RTT_SPREAD. -/
def LNK_RTT_SPREAD : Fld := ⟨16, 8⟩
/-- Field LNK_ERR_UP_CRC. -/
def LNK_ERR_UP_CRC : Fld := ⟨0, 16⟩
/-- Field LNK_ERR_UP_CODE. -/
def LNK_ERR_UP_CODE : Fld := ⟨16, 16⟩
/-- Field LNK_MISS_MISS. -/
def LNK_MISS_MISS : Fld := ⟨0, 16⟩
/-- Field LNK_MISS_CELL_BAD. -/
def LNK_MISS_CELL_BAD : Fld := ⟨16, 8⟩
/-- Field LNK_MISS_CONSEC. -/
def LNK_MISS_CONSEC : Fld := ⟨24, 8⟩
/-- Field LNK_LAST_STATUS. -/
def LNK_LAST_STATUS : Fld := ⟨0, 16⟩
/-- Field LNK_LAST_CYC. -/
def LNK_LAST_CYC : Fld := ⟨16, 16⟩
/-- Field LNK_DECL_DECL. -/
def LNK_DECL_DECL : Fld := ⟨0, 32⟩
/-- Field LNK_LOSS_CFG_LIMIT. -/
def LNK_LOSS_CFG_LIMIT : Fld := ⟨0, 8⟩
/-- Field LNK_LOSS_STAT_LOST0. -/
def LNK_LOSS_STAT_LOST0 : Fld := ⟨0, 8⟩
/-- Field LNK_LOSS_STAT_LOST1. -/
def LNK_LOSS_STAT_LOST1 : Fld := ⟨8, 8⟩
/-- Field LNK_LOSS_STAT_LOSS_TRIP0. -/
def LNK_LOSS_STAT_LOSS_TRIP0 : Fld := ⟨16, 1⟩
/-- Field LNK_LOSS_STAT_LOSS_TRIP1. -/
def LNK_LOSS_STAT_LOSS_TRIP1 : Fld := ⟨17, 1⟩
/-- Field OBS_BANK_ACT. -/
def OBS_BANK_ACT : Fld := ⟨0, 1⟩
/-- Field OBS_BANK_VAL_A. -/
def OBS_BANK_VAL_A : Fld := ⟨1, 1⟩
/-- Field OBS_BANK_VAL_B. -/
def OBS_BANK_VAL_B : Fld := ⟨2, 1⟩
/-- Field OBS_BANK_SWAP_PEND. -/
def OBS_BANK_SWAP_PEND : Fld := ⟨3, 1⟩
/-- Field OBS_BANK_WHOLE. -/
def OBS_BANK_WHOLE : Fld := ⟨4, 1⟩
/-- Field OBS_BANK_SPLIT. -/
def OBS_BANK_SPLIT : Fld := ⟨5, 1⟩
/-- Field OBS_BANK_SWAP_CYC. -/
def OBS_BANK_SWAP_CYC : Fld := ⟨16, 16⟩
/-- Field OBS_SETID_SET_ID. -/
def OBS_SETID_SET_ID : Fld := ⟨0, 32⟩
/-- Field OBS_CFG_PRERUN. -/
def OBS_CFG_PRERUN : Fld := ⟨0, 1⟩
/-- Field OBS_STAT_ROW_SAT. -/
def OBS_STAT_ROW_SAT : Fld := ⟨0, 1⟩
/-- Field OBS_STAT_SWAP_SAT. -/
def OBS_STAT_SWAP_SAT : Fld := ⟨1, 1⟩
/-- Field OBS_STAT_LIM_ERR. -/
def OBS_STAT_LIM_ERR : Fld := ⟨2, 1⟩
/-- Field OBS_STAT_OVERSHOOT. -/
def OBS_STAT_OVERSHOOT : Fld := ⟨3, 1⟩
/-- Field OBS_UMIN_LIMIT. -/
def OBS_UMIN_LIMIT : Fld := ⟨0, 32⟩
/-- Field OBS_UMAX_LIMIT. -/
def OBS_UMAX_LIMIT : Fld := ⟨0, 32⟩
/-- Field OBS_USTAT_HIGH. -/
def OBS_USTAT_HIGH : Fld := ⟨0, 8⟩
/-- Field OBS_USTAT_LOW. -/
def OBS_USTAT_LOW : Fld := ⟨8, 8⟩
/-- Field OBS_SATCNT_COUNT. -/
def OBS_SATCNT_COUNT : Fld := ⟨0, 16⟩
/-- Field OBS_TRACE_LO_ACC. -/
def OBS_TRACE_LO_ACC : Fld := ⟨0, 32⟩
/-- Field OBS_TRACE_MID_ACC. -/
def OBS_TRACE_MID_ACC : Fld := ⟨0, 32⟩
/-- Field OBS_TRACE_HI_ACC. -/
def OBS_TRACE_HI_ACC : Fld := ⟨0, 32⟩
/-- Field OBS_TRACE_ROW_ROW. -/
def OBS_TRACE_ROW_ROW : Fld := ⟨0, 6⟩
/-- Field OBS_TRACE_ROW_CYC. -/
def OBS_TRACE_ROW_CYC : Fld := ⟨16, 16⟩
/-- Field OBS_SHPOS_LO_POS. -/
def OBS_SHPOS_LO_POS : Fld := ⟨0, 32⟩
/-- Field OBS_SHPOS_HI_POS. -/
def OBS_SHPOS_HI_POS : Fld := ⟨0, 32⟩
/-- Field OBS_SHSTAT_RATE_LIM. -/
def OBS_SHSTAT_RATE_LIM : Fld := ⟨0, 1⟩
/-- Field OBS_SHSTAT_REVERSING. -/
def OBS_SHSTAT_REVERSING : Fld := ⟨1, 1⟩
/-- Field OBS_SHSTAT_AT_TGT. -/
def OBS_SHSTAT_AT_TGT : Fld := ⟨2, 1⟩
/-- Field OBS_SHSTAT_OVERSHOOT. -/
def OBS_SHSTAT_OVERSHOOT : Fld := ⟨3, 1⟩
/-- Field OBS_SHSTAT_POS_SAT. -/
def OBS_SHSTAT_POS_SAT : Fld := ⟨4, 1⟩
/-- Field BAL_FCFG_UIDX. -/
def BAL_FCFG_UIDX : Fld := ⟨0, 3⟩
/-- Field BAL_FCFG_ISEL. -/
def BAL_FCFG_ISEL : Fld := ⟨4, 2⟩
/-- Field BAL_FCFG_I_POL. -/
def BAL_FCFG_I_POL : Fld := ⟨6, 1⟩
/-- Field BAL_FCFG_MP_MODE. -/
def BAL_FCFG_MP_MODE : Fld := ⟨7, 1⟩
/-- Field BAL_FCFG_WEAR_EN. -/
def BAL_FCFG_WEAR_EN : Fld := ⟨8, 1⟩
/-- Field BAL_SMAX_SMAX. -/
def BAL_SMAX_SMAX : Fld := ⟨0, 7⟩
/-- Field BAL_TBAND_TB. -/
def BAL_TBAND_TB : Fld := ⟨0, 32⟩
/-- Field BAL_IDEAD_DEAD. -/
def BAL_IDEAD_DEAD : Fld := ⟨0, 15⟩
/-- Field BAL_VSCALE_VSCALE. -/
def BAL_VSCALE_VSCALE : Fld := ⟨0, 32⟩
/-- Field BAL_NOUT_N. -/
def BAL_NOUT_N : Fld := ⟨0, 10⟩
/-- Field BAL_NOUT_F. -/
def BAL_NOUT_F : Fld := ⟨16, 16⟩
/-- Field BAL_XOUT_X. -/
def BAL_XOUT_X : Fld := ⟨0, 26⟩
/-- Field BAL_RECIP_Y. -/
def BAL_RECIP_Y : Fld := ⟨0, 25⟩
/-- Field BAL_RECIP_E. -/
def BAL_RECIP_E : Fld := ⟨25, 5⟩
/-- Field BAL_RHO_RHO. -/
def BAL_RHO_RHO : Fld := ⟨0, 32⟩
/-- Field BAL_DUTY_D. -/
def BAL_DUTY_D : Fld := ⟨0, 18⟩
/-- Field BAL_DUTY_TVALID. -/
def BAL_DUTY_TVALID : Fld := ⟨23, 1⟩
/-- Field BAL_DUTY_TRIM. -/
def BAL_DUTY_TRIM : Fld := ⟨24, 8⟩
/-- Field BAL_STAT_SAT. -/
def BAL_STAT_SAT : Fld := ⟨0, 1⟩
/-- Field BAL_STAT_ZDIV. -/
def BAL_STAT_ZDIV : Fld := ⟨1, 1⟩
/-- Field BAL_STAT_MP_DROP. -/
def BAL_STAT_MP_DROP : Fld := ⟨2, 1⟩
/-- Field BAL_STAT_MP_STRETCH. -/
def BAL_STAT_MP_STRETCH : Fld := ⟨3, 1⟩
/-- Field BAL_STAT_SWAP_LIM. -/
def BAL_STAT_SWAP_LIM : Fld := ⟨4, 1⟩
/-- Field BAL_STAT_UC_LATE. -/
def BAL_STAT_UC_LATE : Fld := ⟨5, 1⟩
/-- Field BAL_STAT_OVRD_CLAMP. -/
def BAL_STAT_OVRD_CLAMP : Fld := ⟨6, 1⟩
/-- Field BAL_STAT_DIR. -/
def BAL_STAT_DIR : Fld := ⟨8, 1⟩
/-- Field BAL_STAT_NEG. -/
def BAL_STAT_NEG : Fld := ⟨9, 1⟩
/-- Field BAL_TOK_N_A. -/
def BAL_TOK_N_A : Fld := ⟨0, 10⟩
/-- Field BAL_TOK_SWAPS. -/
def BAL_TOK_SWAPS : Fld := ⟨16, 7⟩
/-- Field BAL_TOK_CHANGES. -/
def BAL_TOK_CHANGES : Fld := ⟨23, 9⟩
/-- Field BAL_SWAPTOT_TOTAL. -/
def BAL_SWAPTOT_TOTAL : Fld := ⟨0, 32⟩
/-- Field BAL_UC_CTRL_START. -/
def BAL_UC_CTRL_START : Fld := ⟨0, 9⟩
/-- Field LED_CFG_GAIN. -/
def LED_CFG_GAIN : Fld := ⟨0, 4⟩
/-- Field LED_CFG_RLIM_N. -/
def LED_CFG_RLIM_N : Fld := ⟨4, 4⟩
/-- Field LED_CFG_QEXP. -/
def LED_CFG_QEXP : Fld := ⟨8, 4⟩
/-- Field LED_RLIM_RLIM. -/
def LED_RLIM_RLIM : Fld := ⟨0, 32⟩
/-- Field LED_STAT_SEEDED. -/
def LED_STAT_SEEDED : Fld := ⟨0, 1⟩
/-- Field LED_STAT_FAULT. -/
def LED_STAT_FAULT : Fld := ⟨1, 1⟩
/-- Field LED_STAT_REBASED. -/
def LED_STAT_REBASED : Fld := ⟨2, 1⟩
/-- Field LED_STAT_OUTLIER. -/
def LED_STAT_OUTLIER : Fld := ⟨3, 1⟩
/-- Field LED_STAT_RESYNC. -/
def LED_STAT_RESYNC : Fld := ⟨4, 1⟩
/-- Field LED_STAT_CELL_OV. -/
def LED_STAT_CELL_OV : Fld := ⟨5, 1⟩
/-- Field LED_STAT_SRC_FAULT. -/
def LED_STAT_SRC_FAULT : Fld := ⟨6, 1⟩
/-- Field LED_STAT_REBASE_CYC. -/
def LED_STAT_REBASE_CYC : Fld := ⟨16, 16⟩
/-- Field LED_CTRL_HOLD_VIEW. -/
def LED_CTRL_HOLD_VIEW : Fld := ⟨0, 1⟩
/-- Field ADC_REF_CTRL_EN. -/
def ADC_REF_CTRL_EN : Fld := ⟨0, 1⟩
/-- Field ADC_STAT_REF_READY. -/
def ADC_STAT_REF_READY : Fld := ⟨0, 1⟩
/-- Field ADC_STAT_REF_FAULT. -/
def ADC_STAT_REF_FAULT : Fld := ⟨1, 1⟩
/-- Field ADC_STAT_CFG_ERR. -/
def ADC_STAT_CFG_ERR : Fld := ⟨2, 1⟩
/-- Field ADC_STAT_CAL_RUN. -/
def ADC_STAT_CAL_RUN : Fld := ⟨3, 1⟩
/-- Field ADC_STAT_CAL_STOP. -/
def ADC_STAT_CAL_STOP : Fld := ⟨4, 1⟩
/-- Field ADC_STAT_PT_BUSY. -/
def ADC_STAT_PT_BUSY : Fld := ⟨5, 1⟩
/-- Field ADC_STAT_TRIG_OVR. -/
def ADC_STAT_TRIG_OVR : Fld := ⟨6, 1⟩
/-- Field ADC_STAT_REF_LOST. -/
def ADC_STAT_REF_LOST : Fld := ⟨7, 1⟩
/-- Field ADC_CAL_CFG_EN. -/
def ADC_CAL_CFG_EN : Fld := ⟨0, 1⟩
/-- Field ADC_CAL_CFG_TOL. -/
def ADC_CAL_CFG_TOL : Fld := ⟨4, 4⟩
/-- Field ADC_CAL_CFG_INTERVAL. -/
def ADC_CAL_CFG_INTERVAL : Fld := ⟨16, 16⟩
/-- Field ADC_CAL_CTRL_FORCE_CH. -/
def ADC_CAL_CTRL_FORCE_CH : Fld := ⟨0, 4⟩
/-- Field ADC_CAL_CTRL_FORCE. -/
def ADC_CAL_CTRL_FORCE : Fld := ⟨4, 1⟩
/-- Field ADC_CAL_CTRL_CHECK_NOW. -/
def ADC_CAL_CTRL_CHECK_NOW : Fld := ⟨5, 1⟩
/-- Field ADC_CAL_STAT_FREE. -/
def ADC_CAL_STAT_FREE : Fld := ⟨0, 4⟩
/-- Field ADC_CAL_STAT_NEXT. -/
def ADC_CAL_STAT_NEXT : Fld := ⟨4, 4⟩
/-- Field ADC_CAL_STAT_HO_FAILS. -/
def ADC_CAL_STAT_HO_FAILS : Fld := ⟨8, 8⟩
/-- Field ADC_CAL_STAT_STEPS. -/
def ADC_CAL_STAT_STEPS : Fld := ⟨16, 8⟩
/-- Field ADC_CAL_STAT_HO_FAIL. -/
def ADC_CAL_STAT_HO_FAIL : Fld := ⟨24, 1⟩
/-- Field ADC_CAL_STAT_SUSPECT. -/
def ADC_CAL_STAT_SUSPECT : Fld := ⟨25, 1⟩
/-- Field ADC_CAL_STAT_RETIRED. -/
def ADC_CAL_STAT_RETIRED : Fld := ⟨26, 1⟩
/-- Field ADC_CAL_STAT_FORCED. -/
def ADC_CAL_STAT_FORCED : Fld := ⟨27, 1⟩
/-- Field ADC_SEQ_CTRL_SWTRIG. -/
def ADC_SEQ_CTRL_SWTRIG : Fld := ⟨0, 1⟩
/-- Field ADC_TMR_PERIOD. -/
def ADC_TMR_PERIOD : Fld := ⟨0, 24⟩
/-- Field ADC_TDAC_CODE. -/
def ADC_TDAC_CODE : Fld := ⟨0, 12⟩
/-- Field ADC_TDAC_ON. -/
def ADC_TDAC_ON : Fld := ⟨12, 1⟩
/-- Field ADC_TDAC_CH. -/
def ADC_TDAC_CH : Fld := ⟨16, 4⟩
/-- Field ADC_MAP_SLICE. -/
def ADC_MAP_SLICE : Fld := ⟨0, 4⟩
/-- Field ADC_MAP_SUSPECT. -/
def ADC_MAP_SUSPECT : Fld := ⟨4, 1⟩
/-- Field ADC_MAP_TEST. -/
def ADC_MAP_TEST : Fld := ⟨5, 1⟩
/-- Field ADC_MAP_CLIP. -/
def ADC_MAP_CLIP : Fld := ⟨6, 1⟩
/-- Field ADC_MAP_SAT. -/
def ADC_MAP_SAT : Fld := ⟨7, 1⟩
/-- Field ADC_UGAIN_GU. -/
def ADC_UGAIN_GU : Fld := ⟨0, 20⟩
/-- Field ADC_UOFF_OU. -/
def ADC_UOFF_OU : Fld := ⟨0, 16⟩
/-- Field ADC_CYC_RAW. -/
def ADC_CYC_RAW : Fld := ⟨0, 16⟩
/-- Field ADC_SEQ_TRIG. -/
def ADC_SEQ_TRIG : Fld := ⟨0, 8⟩
/-- Field ADC_SEQ_CH. -/
def ADC_SEQ_CH : Fld := ⟨8, 4⟩
/-- Field ADC_SEQ_DELAY. -/
def ADC_SEQ_DELAY : Fld := ⟨16, 16⟩
/-- Field ADC_RES_CLIP. -/
def ADC_RES_CLIP : Fld := ⟨16, 1⟩
/-- Field ADC_RES_SAT. -/
def ADC_RES_SAT : Fld := ⟨17, 1⟩
/-- Field ADC_RES_MISSED. -/
def ADC_RES_MISSED : Fld := ⟨18, 1⟩
/-- Field ADC_RES_NOREF. -/
def ADC_RES_NOREF : Fld := ⟨19, 1⟩
/-- Field ADC_RES_TEST. -/
def ADC_RES_TEST : Fld := ⟨20, 1⟩
/-- Field ADC_RES_SHARED. -/
def ADC_RES_SHARED : Fld := ⟨21, 1⟩
/-- Field ADC_RES_OVR. -/
def ADC_RES_OVR : Fld := ⟨30, 1⟩
/-- Field ADC_RES_NEW. -/
def ADC_RES_NEW : Fld := ⟨31, 1⟩
/-- Field ADC_RESTS_TS. -/
def ADC_RESTS_TS : Fld := ⟨0, 32⟩
/-- Field ADC_SLOFF_OF. -/
def ADC_SLOFF_OF : Fld := ⟨0, 16⟩
/-- Field ADC_SLGAIN_GF. -/
def ADC_SLGAIN_GF : Fld := ⟨0, 20⟩
/-- Field ADC_SLCHK_ERR_ZERO. -/
def ADC_SLCHK_ERR_ZERO : Fld := ⟨0, 8⟩
/-- Field ADC_SLCHK_ERR_POS. -/
def ADC_SLCHK_ERR_POS : Fld := ⟨8, 8⟩
/-- Field ADC_SLCHK_ERR_NEG. -/
def ADC_SLCHK_ERR_NEG : Fld := ⟨16, 8⟩
/-- Field ADC_SLCHK_ROLE. -/
def ADC_SLCHK_ROLE : Fld := ⟨24, 2⟩
/-- Field CMP_CFG_HI_EN. -/
def CMP_CFG_HI_EN : Fld := ⟨0, 1⟩
/-- Field CMP_CFG_LO_EN. -/
def CMP_CFG_LO_EN : Fld := ⟨1, 1⟩
/-- Field CMP_CFG_FILT. -/
def CMP_CFG_FILT : Fld := ⟨2, 2⟩
/-- Field CMP_CFG_LMODE. -/
def CMP_CFG_LMODE : Fld := ⟨4, 1⟩
/-- Field CMP_CFG_TBASE. -/
def CMP_CFG_TBASE : Fld := ⟨8, 8⟩
/-- Field CMP_THR_LOW. -/
def CMP_THR_LOW : Fld := ⟨0, 12⟩
/-- Field CMP_THR_HIGH. -/
def CMP_THR_HIGH : Fld := ⟨16, 12⟩
/-- Field CMP_FILT_K. -/
def CMP_FILT_K : Fld := ⟨0, 4⟩
/-- Field CMP_FILT_N. -/
def CMP_FILT_N : Fld := ⟨4, 4⟩
/-- Field CMP_FILT_HYST. -/
def CMP_FILT_HYST : Fld := ⟨8, 5⟩
/-- Field CMP_BLANK_BSRC. -/
def CMP_BLANK_BSRC : Fld := ⟨0, 8⟩
/-- Field CMP_BLANK_BLEN. -/
def CMP_BLANK_BLEN : Fld := ⟨16, 16⟩
/-- Field CMP_BOFF_BOFF. -/
def CMP_BOFF_BOFF : Fld := ⟨0, 18⟩
/-- Field CMP_STAT_RAW. -/
def CMP_STAT_RAW : Fld := ⟨0, 1⟩
/-- Field CMP_STAT_FO. -/
def CMP_STAT_FO : Fld := ⟨1, 1⟩
/-- Field CMP_STAT_Q. -/
def CMP_STAT_Q : Fld := ⟨2, 1⟩
/-- Field CMP_STAT_HIGH_NOW. -/
def CMP_STAT_HIGH_NOW : Fld := ⟨3, 1⟩
/-- Field CMP_STAT_LOW_NOW. -/
def CMP_STAT_LOW_NOW : Fld := ⟨4, 1⟩
/-- Field CMP_STAT_HI_SEEN. -/
def CMP_STAT_HI_SEEN : Fld := ⟨8, 1⟩
/-- Field CMP_STAT_LO_SEEN. -/
def CMP_STAT_LO_SEEN : Fld := ⟨9, 1⟩
/-- Field CMP_STAT_BACK_IN. -/
def CMP_STAT_BACK_IN : Fld := ⟨10, 1⟩
/-- Field CMP_STAT_CLR_REFUSED. -/
def CMP_STAT_CLR_REFUSED : Fld := ⟨11, 1⟩
/-- Field CMP_STAT_CFG_ERR. -/
def CMP_STAT_CFG_ERR : Fld := ⟨12, 1⟩
/-- Field CMP_CLR_CLR. -/
def CMP_CLR_CLR : Fld := ⟨0, 1⟩
/-- Field CMP_LOCK_LOCK. -/
def CMP_LOCK_LOCK : Fld := ⟨0, 1⟩
/-- Field WEAR_CFG_DIV. -/
def WEAR_CFG_DIV : Fld := ⟨0, 1⟩
/-- Field WEAR_CFG_WSHIFT. -/
def WEAR_CFG_WSHIFT : Fld := ⟨8, 6⟩
/-- Field WEAR_STAT_PASS_CYC. -/
def WEAR_STAT_PASS_CYC : Fld := ⟨0, 16⟩
/-- Field MCS_SEL_STORE. -/
def MCS_SEL_STORE : Fld := ⟨0, 2⟩
/-- Field MCS_SEL_PAIR. -/
def MCS_SEL_PAIR : Fld := ⟨8, 5⟩
/-- Field MCS_SEL_START. -/
def MCS_SEL_START : Fld := ⟨16, 11⟩
/-- Field MCS_COUNT_COUNT. -/
def MCS_COUNT_COUNT : Fld := ⟨0, 12⟩
/-- Field MCS_CTRL_OPEN. -/
def MCS_CTRL_OPEN : Fld := ⟨0, 1⟩
/-- Field MCS_CTRL_COMMIT. -/
def MCS_CTRL_COMMIT : Fld := ⟨1, 1⟩
/-- Field MCS_CTRL_ABORT. -/
def MCS_CTRL_ABORT : Fld := ⟨2, 1⟩
/-- Field MCS_STAT_OPENED. -/
def MCS_STAT_OPENED : Fld := ⟨0, 1⟩
/-- Field MCS_STAT_DONE. -/
def MCS_STAT_DONE : Fld := ⟨1, 1⟩
/-- Field MCS_STAT_LOAD_ERR. -/
def MCS_STAT_LOAD_ERR : Fld := ⟨2, 1⟩
/-- Field MCS_STAT_UE. -/
def MCS_STAT_UE : Fld := ⟨3, 1⟩
/-- Field MCS_STAT_ERR. -/
def MCS_STAT_ERR : Fld := ⟨4, 4⟩
/-- Field MCS_STAT_WRITTEN. -/
def MCS_STAT_WRITTEN : Fld := ⟨8, 12⟩
/-- Field MCS_DATA_DATA. -/
def MCS_DATA_DATA : Fld := ⟨0, 32⟩
/-- Field MCS_DIGEST_DIGEST. -/
def MCS_DIGEST_DIGEST : Fld := ⟨0, 32⟩
/-- Field MCS_VMAPE_VALID. -/
def MCS_VMAPE_VALID : Fld := ⟨0, 32⟩
/-- Field MCS_ENGCTL_RESTART. -/
def MCS_ENGCTL_RESTART : Fld := ⟨0, 8⟩
/-- Field MCS_ENGSTAT_STALL. -/
def MCS_ENGSTAT_STALL : Fld := ⟨0, 8⟩
/-- Field MCS_ENGSTAT_STALL_SEEN. -/
def MCS_ENGSTAT_STALL_SEEN : Fld := ⟨8, 8⟩
/-- Field MCS_VMAPP_VALID. -/
def MCS_VMAPP_VALID : Fld := ⟨0, 32⟩
/-- Field MCS_DTVAL_VALID. -/
def MCS_DTVAL_VALID : Fld := ⟨0, 21⟩
/-- Field GLV_DBG_CTRL_HALT. -/
def GLV_DBG_CTRL_HALT : Fld := ⟨0, 1⟩
/-- Field GLV_DBG_CTRL_STEP. -/
def GLV_DBG_CTRL_STEP : Fld := ⟨1, 1⟩
/-- Field GLV_DBG_CTRL_HALTED. -/
def GLV_DBG_CTRL_HALTED : Fld := ⟨2, 1⟩
/-- Field PWM_CTRL_EN. -/
def PWM_CTRL_EN : Fld := ⟨0, 1⟩
/-- Field PWM_CTRL_STRICT. -/
def PWM_CTRL_STRICT : Fld := ⟨1, 1⟩
/-- Field PWM_CTRL_AUTO. -/
def PWM_CTRL_AUTO : Fld := ⟨2, 1⟩
/-- Field PWM_CTRL_SYNC. -/
def PWM_CTRL_SYNC : Fld := ⟨4, 2⟩
/-- Field PWM_CTRL_CGRP. -/
def PWM_CTRL_CGRP : Fld := ⟨8, 3⟩
/-- Field PWM_CTRL_SAFE_A. -/
def PWM_CTRL_SAFE_A : Fld := ⟨12, 1⟩
/-- Field PWM_CTRL_SAFE_B. -/
def PWM_CTRL_SAFE_B : Fld := ⟨13, 1⟩
/-- Field PWM_PER_PER. -/
def PWM_PER_PER : Fld := ⟨0, 21⟩
/-- Field PWM_CMP_CMP. -/
def PWM_CMP_CMP : Fld := ⟨0, 25⟩
/-- Field PWM_DT_DT_R. -/
def PWM_DT_DT_R : Fld := ⟨0, 10⟩
/-- Field PWM_DT_DT_F. -/
def PWM_DT_DT_F : Fld := ⟨16, 10⟩
/-- Field PWM_MP_MINP. -/
def PWM_MP_MINP : Fld := ⟨0, 8⟩
/-- Field PWM_MP_MP_MODE. -/
def PWM_MP_MP_MODE : Fld := ⟨8, 1⟩
/-- Field PWM_MP_B_OFF. -/
def PWM_MP_B_OFF : Fld := ⟨9, 1⟩
/-- Field PWM_TOW_OFS. -/
def PWM_TOW_OFS : Fld := ⟨0, 20⟩
/-- Field PWM_APER_PER. -/
def PWM_APER_PER : Fld := ⟨0, 21⟩
/-- Field PWM_ACMP_C. -/
def PWM_ACMP_C : Fld := ⟨0, 25⟩
/-- Field PWM_ADT_DT_R. -/
def PWM_ADT_DT_R : Fld := ⟨0, 10⟩
/-- Field PWM_ADT_DT_F. -/
def PWM_ADT_DT_F : Fld := ⟨16, 10⟩
/-- Field PWM_PEND_PEND. -/
def PWM_PEND_PEND : Fld := ⟨0, 5⟩
/-- Field PWM_PEND_ARMED. -/
def PWM_PEND_ARMED : Fld := ⟨8, 1⟩
/-- Field PWM_STAT_RUNNING. -/
def PWM_STAT_RUNNING : Fld := ⟨0, 1⟩
/-- Field PWM_STAT_SAFE_NOW. -/
def PWM_STAT_SAFE_NOW : Fld := ⟨1, 1⟩
/-- Field PWM_STAT_WAIT_TOW. -/
def PWM_STAT_WAIT_TOW : Fld := ⟨2, 1⟩
/-- Field PWM_STAT_PAIR_SKEW. -/
def PWM_STAT_PAIR_SKEW : Fld := ⟨8, 1⟩
/-- Field PWM_STAT_HELD_COMMIT. -/
def PWM_STAT_HELD_COMMIT : Fld := ⟨9, 1⟩
/-- Field PWM_STAT_MP_DROP. -/
def PWM_STAT_MP_DROP : Fld := ⟨10, 1⟩
/-- Field PWM_STAT_MP_STRETCH. -/
def PWM_STAT_MP_STRETCH : Fld := ⟨11, 1⟩
/-- Field PWM_STAT_TOW_LATE. -/
def PWM_STAT_TOW_LATE : Fld := ⟨12, 1⟩
/-- Field PWM_STAT_CFG_ERR. -/
def PWM_STAT_CFG_ERR : Fld := ⟨13, 1⟩
/-- Field PWM_CNT_CNT. -/
def PWM_CNT_CNT : Fld := ⟨0, 32⟩
/-- Field PWM_PSTS_LO_PSTS. -/
def PWM_PSTS_LO_PSTS : Fld := ⟨0, 32⟩
/-- Field PWM_PSTS_HI_PSTS. -/
def PWM_PSTS_HI_PSTS : Fld := ⟨0, 32⟩
/-- Field PWM_COMMIT_GRP. -/
def PWM_COMMIT_GRP : Fld := ⟨0, 8⟩
/-- Field PWM_TOWCFG_OUT_EN. -/
def PWM_TOWCFG_OUT_EN : Fld := ⟨0, 1⟩
/-- Field SLU_SRC_ACT_ACT. -/
def SLU_SRC_ACT_ACT : Fld := ⟨0, 32⟩
/-- Field SLU_PINCFG_K. -/
def SLU_PINCFG_K : Fld := ⟨0, 4⟩
/-- Field SLU_PINCFG_N. -/
def SLU_PINCFG_N : Fld := ⟨4, 4⟩
/-- Field SLU_PINCFG_LMODE. -/
def SLU_PINCFG_LMODE : Fld := ⟨8, 1⟩
/-- Field SLU_PINCFG_TBASE. -/
def SLU_PINCFG_TBASE : Fld := ⟨16, 8⟩
/-- Field SLU_PINSTAT_FO. -/
def SLU_PINSTAT_FO : Fld := ⟨0, 16⟩
/-- Field SLU_PINSTAT_Q. -/
def SLU_PINSTAT_Q : Fld := ⟨16, 16⟩
/-- Field SLU_PINCLR_CLR. -/
def SLU_PINCLR_CLR : Fld := ⟨0, 16⟩
/-- Field SLU_FCSRC_CAUSE. -/
def SLU_FCSRC_CAUSE : Fld := ⟨0, 8⟩
/-- Field SLU_FWTRIP_FW. -/
def SLU_FWTRIP_FW : Fld := ⟨0, 4⟩
/-- Field SLU_LOCK_LOCK. -/
def SLU_LOCK_LOCK : Fld := ⟨0, 1⟩
/-- Field SLU_GSRC_MASK. -/
def SLU_GSRC_MASK : Fld := ⟨0, 32⟩
/-- Field SLU_GCFG_EN. -/
def SLU_GCFG_EN : Fld := ⟨0, 1⟩
/-- Field SLU_GCFG_ACTION. -/
def SLU_GCFG_ACTION : Fld := ⟨1, 1⟩
/-- Field SLU_GCFG_MODE. -/
def SLU_GCFG_MODE : Fld := ⟨2, 1⟩
/-- Field SLU_GCFG_TBASE. -/
def SLU_GCFG_TBASE : Fld := ⟨8, 5⟩
/-- Field SLU_GSTAT_LATCHED. -/
def SLU_GSTAT_LATCHED : Fld := ⟨0, 1⟩
/-- Field SLU_GSTAT_CLR_REFUSED. -/
def SLU_GSTAT_CLR_REFUSED : Fld := ⟨1, 1⟩
/-- Field SLU_GSTAT_AUTO_CLR. -/
def SLU_GSTAT_AUTO_CLR : Fld := ⟨2, 1⟩
/-- Field SLU_GSTAT_SRC_ACTIVE. -/
def SLU_GSTAT_SRC_ACTIVE : Fld := ⟨3, 1⟩
/-- Field SLU_GSTAT_FIRST. -/
def SLU_GSTAT_FIRST : Fld := ⟨8, 8⟩
/-- Field SLU_GSTAT_TRIPS. -/
def SLU_GSTAT_TRIPS : Fld := ⟨16, 16⟩
/-- Field SLU_GTS_LO_TS. -/
def SLU_GTS_LO_TS : Fld := ⟨0, 32⟩
/-- Field SLU_GTS_HI_TS. -/
def SLU_GTS_HI_TS : Fld := ⟨0, 32⟩
/-- Field SLU_GCOMMIT_COMMIT. -/
def SLU_GCOMMIT_COMMIT : Fld := ⟨0, 1⟩
/-- Field TS_LO_TS. -/
def TS_LO_TS : Fld := ⟨0, 32⟩
/-- Field TS_HI_TS. -/
def TS_HI_TS : Fld := ⟨0, 32⟩
/-- Field TS_STAT_SLEWING. -/
def TS_STAT_SLEWING : Fld := ⟨0, 1⟩
/-- Field TS_STAT_SLEW_HELD. -/
def TS_STAT_SLEW_HELD : Fld := ⟨1, 1⟩
/-- Field TS_STAT_SYNC_LOCK. -/
def TS_STAT_SYNC_LOCK : Fld := ⟨2, 1⟩
/-- Field TS_STAT_SYNC_FAR. -/
def TS_STAT_SYNC_FAR : Fld := ⟨3, 1⟩
/-- Field TS_STAT_SYNC_MISS. -/
def TS_STAT_SYNC_MISS : Fld := ⟨4, 1⟩
/-- Field TS_SLEW_LEFT_LEFT. -/
def TS_SLEW_LEFT_LEFT : Fld := ⟨0, 32⟩
/-- Field TS_SYNC_CFG_MODE. -/
def TS_SYNC_CFG_MODE : Fld := ⟨0, 2⟩
/-- Field TS_SYNC_CFG_OUT_EN. -/
def TS_SYNC_CFG_OUT_EN : Fld := ⟨2, 1⟩
/-- Field TS_SYNC_CFG_PER_EXP. -/
def TS_SYNC_CFG_PER_EXP : Fld := ⟨3, 5⟩
/-- Field TS_SYNC_DLY_DLY. -/
def TS_SYNC_DLY_DLY : Fld := ⟨0, 16⟩
/-- Field TS_SYNC_ERR_E. -/
def TS_SYNC_ERR_E : Fld := ⟨0, 32⟩
/-- Field TS_ALM_LO_TS. -/
def TS_ALM_LO_TS : Fld := ⟨0, 32⟩
/-- Field TS_ALM_HI_TS. -/
def TS_ALM_HI_TS : Fld := ⟨0, 32⟩
/-- Field EVT_IOCFG_DIR. -/
def EVT_IOCFG_DIR : Fld := ⟨0, 1⟩
/-- Field EVT_IOCFG_RISE_EN. -/
def EVT_IOCFG_RISE_EN : Fld := ⟨1, 1⟩
/-- Field EVT_IOCFG_FALL_EN. -/
def EVT_IOCFG_FALL_EN : Fld := ⟨2, 1⟩
/-- Field EVT_IOCFG_OUT. -/
def EVT_IOCFG_OUT : Fld := ⟨3, 1⟩
/-- Field EVT_IOCFG_IN. -/
def EVT_IOCFG_IN : Fld := ⟨4, 1⟩
/-- Field EVT_QBASE_BASE. -/
def EVT_QBASE_BASE : Fld := ⟨0, 32⟩
/-- Field EVT_QCFG_EN. -/
def EVT_QCFG_EN : Fld := ⟨0, 1⟩
/-- Field EVT_QCFG_SIZE_EXP. -/
def EVT_QCFG_SIZE_EXP : Fld := ⟨8, 5⟩
/-- Field EVT_QCFG_PAIR. -/
def EVT_QCFG_PAIR : Fld := ⟨16, 5⟩
/-- Field EVT_QCFG_LINE. -/
def EVT_QCFG_LINE : Fld := ⟨24, 6⟩
/-- Field EVT_QTHR_THRESH. -/
def EVT_QTHR_THRESH : Fld := ⟨0, 17⟩
/-- Field EVT_QWIDX_WIDX. -/
def EVT_QWIDX_WIDX : Fld := ⟨0, 32⟩
/-- Field EVT_QRIDX_RIDX. -/
def EVT_QRIDX_RIDX : Fld := ⟨0, 32⟩
/-- Field EVT_QGEN_GEN. -/
def EVT_QGEN_GEN : Fld := ⟨0, 32⟩
/-- Field EVT_QDELIV_DELIV. -/
def EVT_QDELIV_DELIV : Fld := ⟨0, 32⟩
/-- Field EVT_QDROP_DROP. -/
def EVT_QDROP_DROP : Fld := ⟨0, 32⟩
/-- Field EVT_QSTAT_DROP_SEEN. -/
def EVT_QSTAT_DROP_SEEN : Fld := ⟨0, 1⟩
/-- Field EVT_QSTAT_CFG_ERR. -/
def EVT_QSTAT_CFG_ERR : Fld := ⟨1, 1⟩
/-- Field EVT_ROUTE_QMASK. -/
def EVT_ROUTE_QMASK : Fld := ⟨0, 32⟩
/-- Field DMA_START_DOFF. -/
def DMA_START_DOFF : Fld := ⟨0, 24⟩
/-- Field DMA_CTRL_ABORT. -/
def DMA_CTRL_ABORT : Fld := ⟨0, 1⟩
/-- Field DMA_CTRL_RESUME. -/
def DMA_CTRL_RESUME : Fld := ⟨1, 1⟩
/-- Field DMA_STAT_STATE. -/
def DMA_STAT_STATE : Fld := ⟨0, 3⟩
/-- Field DMA_STAT_CAUSE. -/
def DMA_STAT_CAUSE : Fld := ⟨3, 5⟩
/-- Field DMA_STAT_DONE. -/
def DMA_STAT_DONE : Fld := ⟨16, 1⟩
/-- Field DMA_STAT_FAULT. -/
def DMA_STAT_FAULT : Fld := ⟨17, 1⟩
/-- Field DMA_STAT_ABORTED. -/
def DMA_STAT_ABORTED : Fld := ⟨18, 1⟩
/-- Field DMA_STAT_CFG_ERR. -/
def DMA_STAT_CFG_ERR : Fld := ⟨19, 1⟩
/-- Field DMA_PROG_PROG. -/
def DMA_PROG_PROG : Fld := ⟨0, 32⟩
/-- Field DMA_FADDR_ADDR. -/
def DMA_FADDR_ADDR : Fld := ⟨0, 32⟩
/-- Field DMA_DOFF_DOFF. -/
def DMA_DOFF_DOFF : Fld := ⟨0, 24⟩
/-- Field DMA_DBASE_BASE. -/
def DMA_DBASE_BASE : Fld := ⟨0, 32⟩
/-- Field DMA_DLEN_LEN. -/
def DMA_DLEN_LEN : Fld := ⟨0, 24⟩
/-- Field MEM_CE_CNT_COUNT. -/
def MEM_CE_CNT_COUNT : Fld := ⟨0, 32⟩
/-- Field MEM_UE_CNT_COUNT. -/
def MEM_UE_CNT_COUNT : Fld := ⟨0, 32⟩
/-- Field MEM_TAG_FIX_COUNT. -/
def MEM_TAG_FIX_COUNT : Fld := ⟨0, 32⟩
/-- Field MEM_ERR_MID_MID. -/
def MEM_ERR_MID_MID : Fld := ⟨0, 16⟩
/-- Field MEM_ERR_MID_BYTE. -/
def MEM_ERR_MID_BYTE : Fld := ⟨16, 3⟩
/-- Field MEM_ERR_ADDR_OFFSET. -/
def MEM_ERR_ADDR_OFFSET : Fld := ⟨0, 32⟩
/-- Field MEM_STAT_CE_SEEN. -/
def MEM_STAT_CE_SEEN : Fld := ⟨0, 1⟩
/-- Field MEM_STAT_UE_SEEN. -/
def MEM_STAT_UE_SEEN : Fld := ⟨1, 1⟩
/-- Field MEM_STAT_SCRUB_BUSY. -/
def MEM_STAT_SCRUB_BUSY : Fld := ⟨2, 1⟩
/-- Field MEM_STAT_BIST_DONE. -/
def MEM_STAT_BIST_DONE : Fld := ⟨3, 1⟩
/-- Field MEM_STAT_IMG_REFUSED. -/
def MEM_STAT_IMG_REFUSED : Fld := ⟨4, 1⟩
/-- Field MEM_BIST_PAIR_PASS. -/
def MEM_BIST_PAIR_PASS : Fld := ⟨0, 21⟩
/-- Field MEM_BIST_FC_PASS. -/
def MEM_BIST_FC_PASS : Fld := ⟨0, 16⟩
/-- Field MEM_BIST_FC_SHARED. -/
def MEM_BIST_FC_SHARED : Fld := ⟨16, 1⟩
/-- Field MEM_REPAIR_SPARES. -/
def MEM_REPAIR_SPARES : Fld := ⟨0, 16⟩
/-- Field MEM_IMG_CSRC_OFFSET. -/
def MEM_IMG_CSRC_OFFSET : Fld := ⟨0, 18⟩
/-- Field MEM_IMG_CDST_OFFSET. -/
def MEM_IMG_CDST_OFFSET : Fld := ⟨0, 18⟩
/-- Field MEM_IMG_CDST_PAIR. -/
def MEM_IMG_CDST_PAIR : Fld := ⟨24, 5⟩
/-- Field MEM_IMG_FILL_PAIR. -/
def MEM_IMG_FILL_PAIR : Fld := ⟨0, 5⟩
/-- Field MEM_IMG_FILL_MEM. -/
def MEM_IMG_FILL_MEM : Fld := ⟨5, 2⟩
/-- Field MEM_IMG_FILL_BUSY. -/
def MEM_IMG_FILL_BUSY : Fld := ⟨31, 1⟩
/-- Field MEM_SCRUB_MID_MID. -/
def MEM_SCRUB_MID_MID : Fld := ⟨0, 16⟩
/-- Field MEM_SCRUB_OFF_OFFSET. -/
def MEM_SCRUB_OFF_OFFSET : Fld := ⟨0, 32⟩
/-- Field MEM_SCRUB_LEN_LENGTH. -/
def MEM_SCRUB_LEN_LENGTH : Fld := ⟨0, 32⟩
/-- Field MEM_SCRUB_CTRL_GO. -/
def MEM_SCRUB_CTRL_GO : Fld := ⟨0, 1⟩
/-- Field MEM_SCRUB_CTRL_WRITEBACK. -/
def MEM_SCRUB_CTRL_WRITEBACK : Fld := ⟨1, 1⟩
/-- Field MEM_SCRUB_CTRL_SCRUB_REFUSED. -/
def MEM_SCRUB_CTRL_SCRUB_REFUSED : Fld := ⟨2, 1⟩
/-- Field MEM_SCRUB_GRAN_COUNT. -/
def MEM_SCRUB_GRAN_COUNT : Fld := ⟨0, 32⟩
/-- Field MEM_SCRUB_CE_COUNT. -/
def MEM_SCRUB_CE_COUNT : Fld := ⟨0, 32⟩
/-- Field MEM_SCRUB_UE_COUNT. -/
def MEM_SCRUB_UE_COUNT : Fld := ⟨0, 32⟩
/-- Field MEM_SCRUB_TAGFIX_COUNT. -/
def MEM_SCRUB_TAGFIX_COUNT : Fld := ⟨0, 32⟩
/-- Field MEM_SCRUB_FIRST_OFFSET. -/
def MEM_SCRUB_FIRST_OFFSET : Fld := ⟨0, 32⟩
/-- Field MEM_SCRUB_LAST_OFFSET. -/
def MEM_SCRUB_LAST_OFFSET : Fld := ⟨0, 32⟩
/-- Field MEM_SCRUB_TSS_LO_TS. -/
def MEM_SCRUB_TSS_LO_TS : Fld := ⟨0, 32⟩
/-- Field MEM_SCRUB_TSS_HI_TS. -/
def MEM_SCRUB_TSS_HI_TS : Fld := ⟨0, 32⟩
/-- Field MEM_SCRUB_TSE_LO_TS. -/
def MEM_SCRUB_TSE_LO_TS : Fld := ⟨0, 32⟩
/-- Field MEM_SCRUB_TSE_HI_TS. -/
def MEM_SCRUB_TSE_HI_TS : Fld := ⟨0, 32⟩
/-- Field THM_TEMP_TEMP. -/
def THM_TEMP_TEMP : Fld := ⟨0, 16⟩
/-- Field THM_TEMP_FAILED. -/
def THM_TEMP_FAILED : Fld := ⟨16, 1⟩
/-- Field THM_MAX_MAX. -/
def THM_MAX_MAX : Fld := ⟨0, 16⟩
/-- Field THM_MAX_SENSOR. -/
def THM_MAX_SENSOR : Fld := ⟨16, 5⟩
/-- Field THM_STAT_CRIT. -/
def THM_STAT_CRIT : Fld := ⟨0, 1⟩
/-- Field THM_STAT_CRIT_SEEN. -/
def THM_STAT_CRIT_SEEN : Fld := ⟨1, 1⟩
/-- Field THM_STAT_TRIP. -/
def THM_STAT_TRIP : Fld := ⟨2, 1⟩
/-- Field THM_STAT_SENS_FAIL. -/
def THM_STAT_SENS_FAIL : Fld := ⟨3, 1⟩
/-- Field THM_STAT_SUP_WARN. -/
def THM_STAT_SUP_WARN : Fld := ⟨4, 1⟩
/-- Field THM_STAT_AGE_WARN. -/
def THM_STAT_AGE_WARN : Fld := ⟨5, 1⟩
/-- Field THM_STAT_CLK_HOLD. -/
def THM_STAT_CLK_HOLD : Fld := ⟨6, 1⟩
/-- Field THM_PEAK_PEAK. -/
def THM_PEAK_PEAK : Fld := ⟨0, 16⟩
/-- Field THM_VMON_MV. -/
def THM_VMON_MV : Fld := ⟨0, 16⟩
/-- Field THM_VMON_WARN. -/
def THM_VMON_WARN : Fld := ⟨16, 1⟩
/-- Field THM_LIFE_LO_LIFE. -/
def THM_LIFE_LO_LIFE : Fld := ⟨0, 32⟩
/-- Field THM_LIFE_HI_LIFE. -/
def THM_LIFE_HI_LIFE : Fld := ⟨0, 32⟩
/-- Field THM_AGE_PCT. -/
def THM_AGE_PCT : Fld := ⟨0, 16⟩
/-- Field THM_AGE_SHIFT. -/
def THM_AGE_SHIFT : Fld := ⟨16, 16⟩
/-- Field OTP_STAT_READ_DONE. -/
def OTP_STAT_READ_DONE : Fld := ⟨0, 1⟩
/-- Field OTP_STAT_UE. -/
def OTP_STAT_UE : Fld := ⟨1, 1⟩
/-- Field OTP_STAT_KEY_FUSED. -/
def OTP_STAT_KEY_FUSED : Fld := ⟨2, 1⟩
/-- Field OTP_STAT_UE_WORD. -/
def OTP_STAT_UE_WORD : Fld := ⟨16, 16⟩
/-- Field OTP_IDENT_PART. -/
def OTP_IDENT_PART : Fld := ⟨0, 16⟩
/-- Field OTP_IDENT_SIREV. -/
def OTP_IDENT_SIREV : Fld := ⟨16, 8⟩
/-- Field OTP_SERIAL_LO_SERIAL. -/
def OTP_SERIAL_LO_SERIAL : Fld := ⟨0, 32⟩
/-- Field OTP_SERIAL_HI_SERIAL. -/
def OTP_SERIAL_HI_SERIAL : Fld := ⟨0, 32⟩
/-- Field OTP_KEYHASH_HASH. -/
def OTP_KEYHASH_HASH : Fld := ⟨0, 32⟩
/-- Field OTP_CAL_OF. -/
def OTP_CAL_OF : Fld := ⟨0, 16⟩
/-- Field OTP_CALG_GF. -/
def OTP_CALG_GF : Fld := ⟨0, 20⟩
/-- Field OTP_REPAIR_MACRO. -/
def OTP_REPAIR_MACRO : Fld := ⟨0, 16⟩
/-- Field OTP_REPAIR_COLUMN. -/
def OTP_REPAIR_COLUMN : Fld := ⟨16, 10⟩
/-- Field OTP_REPAIR_SPARE. -/
def OTP_REPAIR_SPARE : Fld := ⟨26, 2⟩
/-- Field OTP_REPAIR_VALID. -/
def OTP_REPAIR_VALID : Fld := ⟨31, 1⟩
/-- Field HIF_KINSTAT_COUNT. -/
def HIF_KINSTAT_COUNT : Fld := ⟨0, 6⟩
/-- Field HIF_KINSTAT_SQ. -/
def HIF_KINSTAT_SQ : Fld := ⟨8, 3⟩
/-- Field HIF_KINPOP_POP. -/
def HIF_KINPOP_POP : Fld := ⟨0, 1⟩
/-- Field HIF_KOUTSTAT_FREE. -/
def HIF_KOUTSTAT_FREE : Fld := ⟨0, 6⟩
/-- Field HIF_KOUTSTAT_PUSH_REFUSED. -/
def HIF_KOUTSTAT_PUSH_REFUSED : Fld := ⟨6, 1⟩
/-- Field HIF_KOUTPUSH_CQ. -/
def HIF_KOUTPUSH_CQ : Fld := ⟨0, 3⟩
/-- Field HIF_KDISC_COUNT. -/
def HIF_KDISC_COUNT : Fld := ⟨0, 32⟩
/-- Field HIF_KOWN_OWNER. -/
def HIF_KOWN_OWNER : Fld := ⟨0, 2⟩
/-- Field HIF_KHB_TIMEOUT. -/
def HIF_KHB_TIMEOUT : Fld := ⟨0, 16⟩
/-- Field HIF_KFWVER_VER. -/
def HIF_KFWVER_VER : Fld := ⟨0, 32⟩
/-- Field HIF_KSHED_SHED. -/
def HIF_KSHED_SHED : Fld := ⟨0, 1⟩
/-- Field HIF_KINSLOT_ENTRY. -/
def HIF_KINSLOT_ENTRY : Fld := ⟨0, 32⟩
/-- Field HIF_KOUTSLOT_REPLY. -/
def HIF_KOUTSLOT_REPLY : Fld := ⟨0, 32⟩
/-- Field HIF_HWIN_LO_BASE. -/
def HIF_HWIN_LO_BASE : Fld := ⟨0, 32⟩
/-- Field HIF_HWIN_HI_BASE. -/
def HIF_HWIN_HI_BASE : Fld := ⟨0, 32⟩
/-- Field HIF_HWINCFG_EN. -/
def HIF_HWINCFG_EN : Fld := ⟨0, 1⟩
/-- Field HIF_HWINCFG_PORT. -/
def HIF_HWINCFG_PORT : Fld := ⟨1, 1⟩
/-- Field GLV_CFG_HOLD_LIMIT. -/
def GLV_CFG_HOLD_LIMIT : Fld := ⟨0, 4⟩
/-- Field GLV_STAT_STATE. -/
def GLV_STAT_STATE : Fld := ⟨0, 2⟩
/-- Field GLV_STAT_MISMATCH. -/
def GLV_STAT_MISMATCH : Fld := ⟨8, 1⟩
/-- Field GLV_STAT_CUFF_FAULT. -/
def GLV_STAT_CUFF_FAULT : Fld := ⟨9, 1⟩
/-- Field GLV_STAT_TEST_FAIL. -/
def GLV_STAT_TEST_FAIL : Fld := ⟨10, 1⟩
/-- Field GLV_STAT_HOLD_EXC. -/
def GLV_STAT_HOLD_EXC : Fld := ⟨11, 1⟩
/-- Field GLV_STAT_CFG_ERR. -/
def GLV_STAT_CFG_ERR : Fld := ⟨12, 1⟩
/-- Field GLV_STAT_FAIL_CAUSE. -/
def GLV_STAT_FAIL_CAUSE : Fld := ⟨16, 2⟩
/-- Field GLV_MISM_TOTAL. -/
def GLV_MISM_TOTAL : Fld := ⟨0, 16⟩
/-- Field GLV_MISM_PATH. -/
def GLV_MISM_PATH : Fld := ⟨16, 6⟩
/-- Field GLV_MISM_RECENT. -/
def GLV_MISM_RECENT : Fld := ⟨22, 2⟩
/-- Field GLV_RST_LAST. -/
def GLV_RST_LAST : Fld := ⟨0, 9⟩
/-- Field GLV_RST_RESTARTS. -/
def GLV_RST_RESTARTS : Fld := ⟨16, 16⟩
/-- Field GLV_HOLD_HOLD_CNT. -/
def GLV_HOLD_HOLD_CNT : Fld := ⟨0, 4⟩
/-- Field GLV_FORCE_FORCE. -/
def GLV_FORCE_FORCE : Fld := ⟨0, 1⟩
/-- Field GLV_MTS_LO_TS. -/
def GLV_MTS_LO_TS : Fld := ⟨0, 32⟩
/-- Field GLV_MTS_HI_TS. -/
def GLV_MTS_HI_TS : Fld := ⟨0, 32⟩
/-- Field GLV_WDCFG_PERIOD. -/
def GLV_WDCFG_PERIOD : Fld := ⟨0, 16⟩
/-- Field GLV_WDCFG_GRACE. -/
def GLV_WDCFG_GRACE : Fld := ⟨16, 8⟩
/-- Field GLV_WDCFG_EN. -/
def GLV_WDCFG_EN : Fld := ⟨24, 1⟩
/-- Field GLV_WDKICK_KICK. -/
def GLV_WDKICK_KICK : Fld := ⟨0, 8⟩
/-- Field GLV_WDKICK_STAGE1. -/
def GLV_WDKICK_STAGE1 : Fld := ⟨8, 1⟩
/-- Field GLV_WDKICK_LEFT. -/
def GLV_WDKICK_LEFT : Fld := ⟨16, 16⟩
/-- Field GLV_BIST_START_PASS. -/
def GLV_BIST_START_PASS : Fld := ⟨0, 21⟩
/-- Field GLV_BIST_DONE. -/
def GLV_BIST_DONE : Fld := ⟨31, 1⟩
/-- Field GLV_BGPOS_NEXT. -/
def GLV_BGPOS_NEXT : Fld := ⟨0, 6⟩
/-- Field GLV_BGPOS_ROUNDS. -/
def GLV_BGPOS_ROUNDS : Fld := ⟨16, 16⟩
/-- Field GLV_LOCK_LOCK. -/
def GLV_LOCK_LOCK : Fld := ⟨0, 1⟩
/-- Field GLV_RELEASE_REL. -/
def GLV_RELEASE_REL : Fld := ⟨0, 20⟩
/-- Field GLV_HALT_HALT. -/
def GLV_HALT_HALT : Fld := ⟨0, 1⟩
/-- Field GLV_HALT_CAUSE. -/
def GLV_HALT_CAUSE : Fld := ⟨8, 8⟩
/-- Field GLV_SAFE_RELEASE. -/
def GLV_SAFE_RELEASE : Fld := ⟨0, 1⟩
/-- Field GLV_SAFE_REL_REFUSED. -/
def GLV_SAFE_REL_REFUSED : Fld := ⟨1, 1⟩
/-- Field GLV_RECALL_REC. -/
def GLV_RECALL_REC : Fld := ⟨0, 20⟩
/-- Field HIF_IDENT_PART. -/
def HIF_IDENT_PART : Fld := ⟨0, 16⟩
/-- Field HIF_IDENT_SIREV. -/
def HIF_IDENT_SIREV : Fld := ⟨16, 8⟩
/-- Field HIF_IDENT_PORT. -/
def HIF_IDENT_PORT : Fld := ⟨24, 1⟩
/-- Field HIF_DEVSTATE_STATE. -/
def HIF_DEVSTATE_STATE : Fld := ⟨0, 3⟩
/-- Field HIF_DEVSTATE_DEVMODE. -/
def HIF_DEVSTATE_DEVMODE : Fld := ⟨3, 1⟩
/-- Field HIF_SERIAL_LO_SERIAL. -/
def HIF_SERIAL_LO_SERIAL : Fld := ⟨0, 32⟩
/-- Field HIF_SERIAL_HI_SERIAL. -/
def HIF_SERIAL_HI_SERIAL : Fld := ⟨0, 32⟩
/-- Field HIF_FWVER_VER. -/
def HIF_FWVER_VER : Fld := ⟨0, 32⟩
/-- Field HIF_STAT_BAD_ACCESS. -/
def HIF_STAT_BAD_ACCESS : Fld := ⟨0, 1⟩
/-- Field HIF_OWN_OWNER. -/
def HIF_OWN_OWNER : Fld := ⟨0, 2⟩
/-- Field HIF_OWN_SELF. -/
def HIF_OWN_SELF : Fld := ⟨2, 1⟩
/-- Field HIF_HB_COUNT. -/
def HIF_HB_COUNT : Fld := ⟨0, 32⟩
/-- Field HIF_HBSTAT_LAPSED_A. -/
def HIF_HBSTAT_LAPSED_A : Fld := ⟨0, 1⟩
/-- Field HIF_HBSTAT_LAPSED_B. -/
def HIF_HBSTAT_LAPSED_B : Fld := ⟨1, 1⟩
/-- Field HIF_HBSTAT_AGE. -/
def HIF_HBSTAT_AGE : Fld := ⟨16, 16⟩
/-- Field HIF_HBTIME_TIMEOUT. -/
def HIF_HBTIME_TIMEOUT : Fld := ⟨0, 16⟩
/-- Field HIF_NOTE_VEC. -/
def HIF_NOTE_VEC : Fld := ⟨0, 6⟩
/-- Field HIF_NOTE_EN. -/
def HIF_NOTE_EN : Fld := ⟨6, 1⟩
/-- Field HIF_NOTESTAT_OWN_CHANGE. -/
def HIF_NOTESTAT_OWN_CHANGE : Fld := ⟨0, 1⟩
/-- Field HIF_NOTESTAT_PEER_LAPSED. -/
def HIF_NOTESTAT_PEER_LAPSED : Fld := ⟨1, 1⟩
/-- Field HIF_NOTESTAT_STATE_CHANGE. -/
def HIF_NOTESTAT_STATE_CHANGE : Fld := ⟨2, 1⟩
/-- Field HIF_NOTESTAT_QUEUE_ERR. -/
def HIF_NOTESTAT_QUEUE_ERR : Fld := ⟨3, 1⟩
/-- Field HIF_SQTDB_TAIL. -/
def HIF_SQTDB_TAIL : Fld := ⟨0, 16⟩
/-- Field HIF_CQHDB_HEAD. -/
def HIF_CQHDB_HEAD : Fld := ⟨0, 16⟩
/-- Field HIF_SQBASE_LO_BASE. -/
def HIF_SQBASE_LO_BASE : Fld := ⟨0, 32⟩
/-- Field HIF_SQBASE_HI_BASE. -/
def HIF_SQBASE_HI_BASE : Fld := ⟨0, 32⟩
/-- Field HIF_SQCFG_EN. -/
def HIF_SQCFG_EN : Fld := ⟨0, 1⟩
/-- Field HIF_SQCFG_SIZE_EXP. -/
def HIF_SQCFG_SIZE_EXP : Fld := ⟨4, 4⟩
/-- Field HIF_SQCFG_CQ. -/
def HIF_SQCFG_CQ : Fld := ⟨8, 3⟩
/-- Field HIF_SQHEAD_HEAD. -/
def HIF_SQHEAD_HEAD : Fld := ⟨0, 16⟩
/-- Field HIF_CQBASE_LO_BASE. -/
def HIF_CQBASE_LO_BASE : Fld := ⟨0, 32⟩
/-- Field HIF_CQBASE_HI_BASE. -/
def HIF_CQBASE_HI_BASE : Fld := ⟨0, 32⟩
/-- Field HIF_CQCFG_EN. -/
def HIF_CQCFG_EN : Fld := ⟨0, 1⟩
/-- Field HIF_CQCFG_IRQ_EN. -/
def HIF_CQCFG_IRQ_EN : Fld := ⟨1, 1⟩
/-- Field HIF_CQCFG_SIZE_EXP. -/
def HIF_CQCFG_SIZE_EXP : Fld := ⟨4, 4⟩
/-- Field HIF_CQCFG_VEC. -/
def HIF_CQCFG_VEC : Fld := ⟨8, 6⟩
/-- Field HIF_CQTAIL_TAIL. -/
def HIF_CQTAIL_TAIL : Fld := ⟨0, 16⟩
/-- Field HIF_CQTWB_LO_ADDR. -/
def HIF_CQTWB_LO_ADDR : Fld := ⟨0, 32⟩
/-- Field HIF_CQTWB_HI_ADDR. -/
def HIF_CQTWB_HI_ADDR : Fld := ⟨0, 32⟩
/-- Field HIF_QSTAT_SQ_DB_ERR. -/
def HIF_QSTAT_SQ_DB_ERR : Fld := ⟨0, 1⟩
/-- Field HIF_QSTAT_CQ_DB_ERR. -/
def HIF_QSTAT_CQ_DB_ERR : Fld := ⟨1, 1⟩
/-- Field HIF_QSTAT_CFG_ERR. -/
def HIF_QSTAT_CFG_ERR : Fld := ⟨2, 1⟩
/-- Field HIF_QSTAT_FETCH_ERR. -/
def HIF_QSTAT_FETCH_ERR : Fld := ⟨3, 1⟩
/-- Field HIF_QSTAT_CQ_FULL. -/
def HIF_QSTAT_CQ_FULL : Fld := ⟨4, 1⟩

end F

/-- Part 0 of the register map. -/
def regRows0 : List RegRow :=
  [⟨0, 0x60000814, [(16, 0x100000), (64, 0x20)], 0xFFFF0000, 0x0, 0x0, 0x0, [⟨⟨0, 16⟩, .smaller, false⟩], 0x0⟩,
   ⟨0, 0x60008018, [(16, 0x100000), (64, 0x20)], 0x0, 0x70000, 0x0, 0x0, [], 0x0⟩,
   ⟨0, 0x60000000, [(16, 0x100000)], 0x3, 0x0, 0x0, 0x0, [], 0x0⟩,
   ⟨0, 0x60000004, [(16, 0x100000)], 0x3FF, 0x0, 0x0, 0x0, [], 0x8⟩,
   ⟨0, 0x60000008, [(16, 0x100000)], 0x3FFFF, 0x0, 0x0, 0x0, [], 0x0⟩,
   ⟨0, 0x60000010, [(16, 0x100000)], 0x0, 0x0, 0x0, 0x0, [], 0x0⟩,
   ⟨0, 0x60000020, [(16, 0x100000)], 0x0, 0xF00, 0x0, 0x0, [], 0x0⟩,
   ⟨0, 0x60000024, [(16, 0x100000)], 0x0, 0x0, 0x0, 0x0, [], 0x0⟩,
   ⟨0, 0x60000028, [(16, 0x100000)], 0x0, 0x0, 0x0, 0x0, [⟨⟨0, 8⟩, .smaller, true⟩], 0x3⟩,
   ⟨0, 0x6000002C, [(16, 0x100000)], 0x0, 0x0, 0x0, 0x0, [], 0x0⟩,
   ⟨0, 0x60000060, [(16, 0x100000)], 0x0, 0x0, 0x1, 0x0, [], 0x0⟩,
   ⟨0, 0x6000000C, [(16, 0x100000)], 0x3FFFF, 0x0, 0x0, 0x0, [], 0x3C0⟩,
   ⟨0, 0x60000018, [(16, 0x100000)], 0x0, 0x0, 0x0, 0x0, [], 0x0⟩,
   ⟨0, 0x6000001C, [(16, 0x100000)], 0x0, 0x0, 0x0, 0x0, [], 0x0⟩,
   ⟨0, 0x60000030, [(16, 0x100000), (2, 0x4)], 0x80FF03FF, 0x0, 0x0, 0x0, [], 0x0⟩,
   ⟨0, 0x60000038, [(16, 0x100000), (2, 0x4)], 0x0, 0x0, 0x0, 0x0, [⟨⟨0, 8⟩, .smaller, false⟩], 0x0⟩,
   ⟨0, 0x60000040, [(16, 0x100000), (2, 0x4)], 0x77F3FFF, 0x0, 0x0, 0x0, [], 0x0⟩,
   ⟨0, 0x60000048, [(16, 0x100000), (2, 0x4)], 0x1FF, 0x0, 0x0, 0x0, [], 0x0⟩,
   ⟨0, 0x60000050, [(16, 0x100000), (2, 0x4)], 0x7, 0x70000, 0x0, 0x0, [], 0x0⟩,
   ⟨0, 0x60000058, [(16, 0x100000), (2, 0x4)], 0xFFFFFFFF, 0x0, 0x0, 0x0, [], 0x0⟩,
   ⟨0, 0x60000800, [(16, 0x100000), (64, 0x20), (8, 0x4)], 0xFFFFFFFF, 0x0, 0x0, 0x0, [], 0x0⟩,
   ⟨0, 0x60001000, [(16, 0x100000), (64, 0x40)], 0x5, 0x0, 0x0, 0x0, [], 0x0⟩,
   ⟨0, 0x60001004, [(16, 0x100000), (64, 0x40)], 0x3FFFF, 0x0, 0x0, 0x0, [], 0xA0⟩,
   ⟨0, 0x60001008, [(16, 0x100000), (64, 0x40)], 0x0, 0x7F00, 0x0, 0x0, [], 0x0⟩]

/-- Part 1 of the register map. -/
def regRows1 : List RegRow :=
  [⟨0, 0x6000100C, [(16, 0x100000), (64, 0x40)], 0x0, 0x0, 0x0, 0x0, [], 0x0⟩,
   ⟨0, 0x60001010, [(16, 0x100000), (64, 0x40)], 0x0, 0x0, 0x0, 0x0, [], 0x0⟩,
   ⟨0, 0x60001034, [(16, 0x100000), (64, 0x40)], 0x0, 0x0, 0x0, 0x0, [], 0x0⟩,
   ⟨0, 0x60001038, [(16, 0x100000), (64, 0x40)], 0x0, 0x0, 0x0, 0x0, [], 0x0⟩,
   ⟨0, 0x6000103C, [(16, 0x100000), (64, 0x40)], 0x0, 0x0, 0x0, 0x0, [], 0x0⟩,
   ⟨0, 0x60001014, [(16, 0x100000), (64, 0x40), (8, 0x4)], 0x0, 0x0, 0x0, 0x0, [], 0x0⟩,
   ⟨0, 0x60002000, [(16, 0x100000), (2, 0x4)], 0x0, 0x0, 0x0, 0x0, [⟨⟨0, 8⟩, .smaller, true⟩], 0x1⟩,
   ⟨0, 0x60002008, [(16, 0x100000)], 0x0, 0x30000, 0x0, 0x0, [], 0x0⟩,
   ⟨0, 0x60002010, [(16, 0x100000)], 0x0, 0x0, 0x0, 0x0, [], 0x0⟩,
   ⟨0, 0x60002014, [(16, 0x100000)], 0x0, 0x0, 0x0, 0x0, [], 0x0⟩,
   ⟨0, 0x60002018, [(16, 0x100000)], 0x0, 0x0, 0x0, 0x0, [], 0x0⟩,
   ⟨0, 0x6000201C, [(16, 0x100000)], 0x0, 0x0, 0x0, 0x0, [], 0x0⟩,
   ⟨0, 0x60004000, [(16, 0x100000), (2, 0x20)], 0x0, 0x0, 0x0, 0x0, [], 0x0⟩,
   ⟨0, 0x60004004, [(16, 0x100000), (2, 0x20)], 0x0, 0x0, 0x0, 0x0, [], 0x0⟩,
   ⟨0, 0x60004008, [(16, 0x100000), (2, 0x20)], 0x1, 0x0, 0x0, 0x0, [], 0x0⟩,
   ⟨0, 0x6000400C, [(16, 0x100000), (2, 0x20)], 0x0, 0xF, 0x0, 0x0, [], 0x0⟩,
   ⟨0, 0x60004100, [(16, 0x100000), (32, 0x4)], 0x0, 0x0, 0x0, 0x0, [], 0x0⟩,
   ⟨0, 0x60004180, [(16, 0x100000), (8, 0x4)], 0x0, 0x0, 0x0, 0x0, [], 0x0⟩,
   ⟨0, 0x600041A0, [(16, 0x100000), (8, 0x4)], 0x0, 0x0, 0x0, 0x0, [], 0x0⟩,
   ⟨0, 0x600041C0, [(16, 0x100000), (8, 0x4)], 0x0, 0x0, 0x0, 0x0, [], 0x0⟩,
   ⟨0, 0x60004200, [(16, 0x100000), (8, 0x8)], 0xFFFFFFFF, 0x0, 0x0, 0x0, [], 0x80000000⟩,
   ⟨0, 0x60004204, [(16, 0x100000), (8, 0x8)], 0xFFFFFFFF, 0x0, 0x0, 0x0, [], 0x7FFFFFFF⟩,
   ⟨0, 0x60004240, [(16, 0x100000)], 0x0, 0x0, 0x0, 0x0, [], 0x0⟩,
   ⟨0, 0x60004244, [(16, 0x100000)], 0x0, 0x0, 0x0, 0x0, [], 0x0⟩]

/-- Part 2 of the register map. -/
def regRows2 : List RegRow :=
  [⟨0, 0x60004248, [(16, 0x100000)], 0x0, 0xFFFFFFFF, 0x0, 0x0, [], 0x0⟩,
   ⟨0, 0x6000424C, [(16, 0x100000)], 0x0, 0xFFFFFFFF, 0x0, 0x0, [], 0x0⟩,
   ⟨0, 0x60004300, [(16, 0x100000), (48, 0x4)], 0x0, 0x0, 0x0, 0x0, [], 0x0⟩,
   ⟨0, 0x60004400, [(16, 0x100000), (16, 0x4)], 0xFFFFFFFF, 0x0, 0x0, 0x0, [], 0x0⟩,
   ⟨0, 0x60004440, [(16, 0x100000)], 0x0, 0x0, 0x0, 0x0, [], 0x0⟩,
   ⟨0, 0x60004444, [(16, 0x100000)], 0x0, 0x0, 0x0, 0x0, [], 0x0⟩,
   ⟨0, 0x60004448, [(16, 0x100000)], 0x0, 0x0, 0x0, 0x0, [], 0x0⟩,
   ⟨0, 0x6000444C, [(16, 0x100000)], 0x0, 0x0, 0x0, 0x0, [], 0x0⟩,
   ⟨0, 0x60004800, [(16, 0x100000), (8, 0x20)], 0xFFFFFFFF, 0x0, 0x0, 0x0, [], 0x0⟩,
   ⟨0, 0x60004804, [(16, 0x100000), (8, 0x20)], 0x7FFFFFFF, 0x0, 0x0, 0x0, [], 0x0⟩,
   ⟨0, 0x60004808, [(16, 0x100000), (8, 0x20)], 0x7FFFFFFF, 0x0, 0x0, 0x0, [], 0x0⟩,
   ⟨0, 0x6000480C, [(16, 0x100000), (8, 0x20)], 0x0, 0x0, 0x0, 0x0, [], 0x0⟩,
   ⟨0, 0x60004810, [(16, 0x100000), (8, 0x20)], 0x0, 0x0, 0x0, 0x0, [], 0x0⟩,
   ⟨0, 0x60004814, [(16, 0x100000), (8, 0x20)], 0x0, 0x0, 0x0, 0x0, [], 0x0⟩,
   ⟨0, 0x60004818, [(16, 0x100000), (8, 0x20)], 0x0, 0x0, 0x0, 0x0, [], 0x0⟩,
   ⟨0, 0x6000481C, [(16, 0x100000), (8, 0x20)], 0x0, 0x18, 0x0, 0x0, [], 0x0⟩,
   ⟨0, 0x60006000, [(16, 0x100000), (2, 0x40)], 0x1F7, 0x0, 0x0, 0x0, [], 0x0⟩,
   ⟨0, 0x60006004, [(16, 0x100000), (2, 0x40)], 0x7F, 0x0, 0x0, 0x0, [], 0x4⟩,
   ⟨0, 0x60006008, [(16, 0x100000), (2, 0x40)], 0xFFFFFFFF, 0x0, 0x0, 0x0, [], 0x0⟩,
   ⟨0, 0x6000600C, [(16, 0x100000), (2, 0x40)], 0x7FFF, 0x0, 0x0, 0x0, [], 0x0⟩,
   ⟨0, 0x60006010, [(16, 0x100000), (2, 0x40)], 0x0, 0x0, 0x0, 0x0, [], 0x0⟩,
   ⟨0, 0x60006014, [(16, 0x100000), (2, 0x40)], 0x0, 0x0, 0x0, 0x0, [], 0x0⟩,
   ⟨0, 0x60006018, [(16, 0x100000), (2, 0x40)], 0x0, 0x0, 0x0, 0x0, [], 0x0⟩,
   ⟨0, 0x6000601C, [(16, 0x100000), (2, 0x40)], 0x0, 0x0, 0x0, 0x0, [], 0x0⟩]

/-- Part 3 of the register map. -/
def regRows3 : List RegRow :=
  [⟨0, 0x60006020, [(16, 0x100000), (2, 0x40)], 0x0, 0x0, 0x0, 0x0, [], 0x0⟩,
   ⟨0, 0x60006024, [(16, 0x100000), (2, 0x40)], 0x0, 0x0, 0x0, 0x0, [], 0x0⟩,
   ⟨0, 0x60006028, [(16, 0x100000), (2, 0x40)], 0x0, 0x7F, 0x0, 0x0, [], 0x0⟩,
   ⟨0, 0x6000602C, [(16, 0x100000), (2, 0x40)], 0x0, 0x0, 0x0, 0x0, [], 0x0⟩,
   ⟨0, 0x60006030, [(16, 0x100000), (2, 0x40)], 0x0, 0x0, 0x0, 0x0, [], 0x0⟩,
   ⟨0, 0x60006100, [(16, 0x100000)], 0x1FF, 0x0, 0x0, 0x0, [], 0x0⟩,
   ⟨0, 0x60008000, [(16, 0x100000), (64, 0x20), (8, 0x4)], 0x0, 0x0, 0x0, 0x0, [], 0x0⟩,
   ⟨0, 0x60008800, [(16, 0x100000), (2, 0x40), (2, 0x4)], 0x0, 0x0, 0x0, 0x0, [], 0x0⟩,
   ⟨0, 0x60008808, [(16, 0x100000), (2, 0x40), (2, 0x4)], 0x0, 0x0, 0x0, 0x0, [], 0x0⟩,
   ⟨0, 0x60008810, [(16, 0x100000), (2, 0x40), (2, 0x4)], 0x0, 0x0, 0x0, 0x0, [], 0x0⟩,
   ⟨0, 0x60008818, [(16, 0x100000), (2, 0x40), (2, 0x4)], 0x0, 0x0, 0x0, 0x0, [], 0x0⟩,
   ⟨0, 0x60008820, [(16, 0x100000), (2, 0x40)], 0xFFF, 0x0, 0x0, 0x0, [], 0x44⟩,
   ⟨0, 0x60008824, [(16, 0x100000), (2, 0x40)], 0xFFFFFFFF, 0x0, 0x0, 0x0, [], 0x0⟩,
   ⟨0, 0x60008828, [(16, 0x100000), (2, 0x40)], 0x0, 0x3E, 0x0, 0x0, [], 0x0⟩,
   ⟨0, 0x6000882C, [(16, 0x100000), (2, 0x40)], 0x1, 0x0, 0x0, 0x0, [], 0x0⟩,
   ⟨0, 0x6000A000, [(16, 0x100000)], 0x1, 0x0, 0x0, 0x0, [], 0x0⟩,
   ⟨0, 0x70000000, [(4, 0x1000)], 0x1, 0x0, 0x0, 0x0, [], 0x0⟩,
   ⟨0, 0x6000A004, [(16, 0x100000)], 0x0, 0x56, 0x0, 0x0, [], 0x0⟩,
   ⟨0, 0x70000004, [(4, 0x1000)], 0x0, 0x56, 0x0, 0x0, [], 0x0⟩,
   ⟨0, 0x6000A008, [(16, 0x100000)], 0xFFFF00F1, 0x0, 0x0, 0x0, [], 0x640020⟩,
   ⟨0, 0x70000008, [(4, 0x1000)], 0xFFFF00F1, 0x0, 0x0, 0x0, [], 0x640020⟩,
   ⟨0, 0x6000A00C, [(16, 0x100000)], 0x0, 0x0, 0x0, 0x0, [], 0x0⟩,
   ⟨0, 0x7000000C, [(4, 0x1000)], 0x0, 0x0, 0x0, 0x0, [], 0x0⟩,
   ⟨2, 0x6000A010, [(16, 0x100000)], 0x0, 0xF000000, 0x0, 0x0, [], 0x0⟩]

/-- Part 4 of the register map. -/
def regRows4 : List RegRow :=
  [⟨2, 0x70000010, [(4, 0x1000)], 0x0, 0xF000000, 0x0, 0x0, [], 0x0⟩,
   ⟨0, 0x6000A014, [(16, 0x100000)], 0x0, 0x0, 0x0, 0x0, [], 0x0⟩,
   ⟨0, 0x70000014, [(4, 0x1000)], 0x0, 0x0, 0x0, 0x0, [], 0x0⟩,
   ⟨0, 0x6000A018, [(16, 0x100000)], 0xFFFFFF, 0x0, 0x0, 0x0, [], 0x0⟩,
   ⟨0, 0x70000018, [(4, 0x1000)], 0xFFFFFF, 0x0, 0x0, 0x0, [], 0x0⟩,
   ⟨0, 0x6000A01C, [(16, 0x100000)], 0x0, 0x0, 0x0, 0x0, [], 0x0⟩,
   ⟨0, 0x7000001C, [(4, 0x1000)], 0x0, 0x0, 0x0, 0x0, [], 0x0⟩,
   ⟨1, 0x6000A040, [(16, 0x100000), (4, 0x4)], 0x0, 0xD0, 0x0, 0x0, [], 0x0⟩,
   ⟨1, 0x70000040, [(4, 0x1000), (8, 0x4)], 0x0, 0xD0, 0x0, 0x0, [], 0x0⟩,
   ⟨0, 0x6000A080, [(16, 0x100000), (4, 0x8)], 0xFFFFF, 0x0, 0x0, 0x0, [], 0x0⟩,
   ⟨0, 0x70000080, [(4, 0x1000), (8, 0x8)], 0xFFFFF, 0x0, 0x0, 0x0, [], 0x0⟩,
   ⟨0, 0x6000A084, [(16, 0x100000), (4, 0x8)], 0xFFFF, 0x0, 0x0, 0x0, [], 0x0⟩,
   ⟨0, 0x70000084, [(4, 0x1000), (8, 0x8)], 0xFFFF, 0x0, 0x0, 0x0, [], 0x0⟩,
   ⟨0, 0x6000A0C0, [(16, 0x100000), (4, 0x4)], 0x0, 0x0, 0x0, 0x0, [], 0x0⟩,
   ⟨0, 0x700000C0, [(4, 0x1000), (8, 0x4)], 0x0, 0x0, 0x0, 0x0, [], 0x0⟩,
   ⟨0, 0x6000A100, [(16, 0x100000), (16, 0x4)], 0xFFFF0FFF, 0x0, 0x0, 0x0, [], 0x0⟩,
   ⟨0, 0x70000100, [(4, 0x1000), (16, 0x4)], 0xFFFF0FFF, 0x0, 0x0, 0x0, [], 0x0⟩,
   ⟨0, 0x6000A140, [(16, 0x100000), (16, 0x4)], 0x0, 0x0, 0x0, 0xC0000000, [], 0x0⟩,
   ⟨0, 0x70000140, [(4, 0x1000), (16, 0x4)], 0x0, 0x0, 0x0, 0xC0000000, [], 0x0⟩,
   ⟨0, 0x6000A180, [(16, 0x100000), (16, 0x4)], 0x0, 0x0, 0x0, 0x0, [], 0x0⟩,
   ⟨0, 0x70000180, [(4, 0x1000), (16, 0x4)], 0x0, 0x0, 0x0, 0x0, [], 0x0⟩,
   ⟨16, 0x6000A200, [(16, 0x100000), (5, 0x8)], 0x0, 0x0, 0x0, 0x0, [], 0x0⟩,
   ⟨16, 0x70000200, [(4, 0x1000), (9, 0x8)], 0x0, 0x0, 0x0, 0x0, [], 0x0⟩,
   ⟨17, 0x6000A204, [(16, 0x100000), (5, 0x8)], 0x0, 0x0, 0x0, 0x0, [], 0x0⟩]

/-- Part 5 of the register map. -/
def regRows5 : List RegRow :=
  [⟨17, 0x70000204, [(4, 0x1000), (9, 0x8)], 0x0, 0x0, 0x0, 0x0, [], 0x0⟩,
   ⟨3, 0x6000A280, [(16, 0x100000), (5, 0x4)], 0x0, 0x0, 0x0, 0x0, [], 0x0⟩,
   ⟨3, 0x70000280, [(4, 0x1000), (9, 0x4)], 0x0, 0x0, 0x0, 0x0, [], 0x0⟩,
   ⟨0, 0x6000B000, [(16, 0x100000), (4, 0x20)], 0x0, 0x0, 0x0, 0x0, [⟨⟨0, 1⟩, .bits, false⟩, ⟨⟨1, 1⟩, .bits, false⟩, ⟨⟨2, 2⟩, .none, false⟩, ⟨⟨4, 1⟩, .none, false⟩, ⟨⟨8, 8⟩, .none, false⟩], 0x0⟩,
   ⟨0, 0x70010000, [(64, 0x20)], 0x0, 0x0, 0x0, 0x0, [⟨⟨0, 1⟩, .bits, false⟩, ⟨⟨1, 1⟩, .bits, false⟩, ⟨⟨2, 2⟩, .none, false⟩, ⟨⟨4, 1⟩, .none, false⟩, ⟨⟨8, 8⟩, .none, false⟩], 0x0⟩,
   ⟨0, 0x6000B004, [(16, 0x100000), (4, 0x20)], 0x0, 0x0, 0x0, 0x0, [⟨⟨0, 12⟩, .largerS, false⟩, ⟨⟨16, 12⟩, .smallerS, false⟩], 0x7FF0800⟩,
   ⟨0, 0x70010004, [(64, 0x20)], 0x0, 0x0, 0x0, 0x0, [⟨⟨0, 12⟩, .largerS, false⟩, ⟨⟨16, 12⟩, .smallerS, false⟩], 0x7FF0800⟩,
   ⟨0, 0x6000B008, [(16, 0x100000), (4, 0x20)], 0x0, 0x0, 0x0, 0x0, [⟨⟨0, 4⟩, .none, false⟩, ⟨⟨4, 4⟩, .none, false⟩, ⟨⟨8, 5⟩, .none, false⟩], 0x11⟩,
   ⟨0, 0x70010008, [(64, 0x20)], 0x0, 0x0, 0x0, 0x0, [⟨⟨0, 4⟩, .none, false⟩, ⟨⟨4, 4⟩, .none, false⟩, ⟨⟨8, 5⟩, .none, false⟩], 0x11⟩,
   ⟨0, 0x6000B00C, [(16, 0x100000), (4, 0x20)], 0x0, 0x0, 0x0, 0x0, [⟨⟨0, 8⟩, .none, false⟩, ⟨⟨16, 16⟩, .smaller, false⟩], 0xFF⟩,
   ⟨0, 0x7001000C, [(64, 0x20)], 0x0, 0x0, 0x0, 0x0, [⟨⟨0, 8⟩, .none, false⟩, ⟨⟨16, 16⟩, .smaller, false⟩], 0xFF⟩,
   ⟨0, 0x6000B010, [(16, 0x100000), (4, 0x20)], 0x0, 0x0, 0x0, 0x0, [⟨⟨0, 18⟩, .none, false⟩], 0x0⟩,
   ⟨0, 0x70010010, [(64, 0x20)], 0x0, 0x0, 0x0, 0x0, [⟨⟨0, 18⟩, .none, false⟩], 0x0⟩,
   ⟨22, 0x6000B014, [(16, 0x100000), (4, 0x20)], 0x0, 0x1F00, 0x0, 0x0, [], 0x0⟩,
   ⟨22, 0x70010014, [(64, 0x20)], 0x0, 0x1F00, 0x0, 0x0, [], 0x0⟩,
   ⟨0, 0x6000B018, [(16, 0x100000), (4, 0x20)], 0x0, 0x0, 0x0, 0x0, [], 0x0⟩,
   ⟨0, 0x70010018, [(64, 0x20)], 0x0, 0x0, 0x0, 0x0, [], 0x0⟩,
   ⟨0, 0x70010800, [], 0x0, 0x0, 0x1, 0x0, [], 0x0⟩,
   ⟨0, 0x6000C000, [(16, 0x100000)], 0x3F01, 0x0, 0x0, 0x0, [], 0x2100⟩,
   ⟨0, 0x6000C004, [(16, 0x100000)], 0x0, 0x0, 0x0, 0x0, [], 0x0⟩,
   ⟨6, 0x6000C400, [(16, 0x100000), (64, 0x40), (16, 0x4)], 0x0, 0x0, 0x0, 0x0, [], 0x0⟩,
   ⟨0, 0x6000D800, [(16, 0x100000), (8, 0x440), (272, 0x4)], 0xFFFFFFFF, 0x0, 0x0, 0x0, [], 0x0⟩,
   ⟨0, 0x60010000, [(16, 0x100000)], 0x7FF1F03, 0x0, 0x0, 0x0, [], 0x0⟩,
   ⟨0, 0x78020000, [], 0x7FF1F03, 0x0, 0x0, 0x0, [], 0x0⟩]

/-- Part 6 of the register map. -/
def regRows6 : List RegRow :=
  [⟨0, 0x60010004, [(16, 0x100000)], 0xFFF, 0x0, 0x0, 0x0, [], 0x0⟩,
   ⟨0, 0x78020004, [], 0xFFF, 0x0, 0x0, 0x0, [], 0x0⟩,
   ⟨0, 0x60010008, [(16, 0x100000)], 0x0, 0x0, 0x0, 0x0, [], 0x0⟩,
   ⟨0, 0x78020008, [], 0x0, 0x0, 0x0, 0x0, [], 0x0⟩,
   ⟨0, 0x6001000C, [(16, 0x100000)], 0x0, 0xE, 0x0, 0x0, [], 0x0⟩,
   ⟨0, 0x7802000C, [], 0x0, 0xE, 0x0, 0x0, [], 0x0⟩,
   ⟨0, 0x60010010, [(16, 0x100000)], 0x0, 0x0, 0x0, 0x0, [], 0x0⟩,
   ⟨0, 0x78020010, [], 0x0, 0x0, 0x0, 0x0, [], 0x0⟩,
   ⟨0, 0x60010020, [(16, 0x100000), (8, 0x4)], 0xFFFFFFFF, 0x0, 0x0, 0x0, [], 0x0⟩,
   ⟨0, 0x78020020, [(8, 0x4)], 0xFFFFFFFF, 0x0, 0x0, 0x0, [], 0x0⟩,
   ⟨0, 0x60010040, [(16, 0x100000), (3, 0x4)], 0x0, 0x0, 0x0, 0x0, [], 0x0⟩,
   ⟨0, 0x60010050, [(16, 0x100000)], 0x0, 0x0, 0x0, 0x0, [], 0x0⟩,
   ⟨0, 0x60010054, [(16, 0x100000)], 0x0, 0xFF00, 0x0, 0x0, [], 0x0⟩,
   ⟨0, 0x78020100, [(21, 0x4)], 0x0, 0x0, 0x0, 0x0, [], 0x0⟩,
   ⟨0, 0x78020180, [], 0x0, 0x0, 0x0, 0x0, [], 0x0⟩,
   ⟨0, 0x60020000, [(16, 0x100000)], 0x1, 0x0, 0x0, 0x0, [], 0x0⟩,
   ⟨0, 0x70020000, [(32, 0x40)], 0x3737, 0x0, 0x0, 0x0, [], 0x0⟩,
   ⟨0, 0x70020004, [(32, 0x40)], 0x1FFFFF, 0x0, 0x0, 0x0, [], 0x2⟩,
   ⟨0, 0x70020008, [(32, 0x40)], 0x1FFFFFF, 0x0, 0x0, 0x0, [], 0x0⟩,
   ⟨0, 0x7002000C, [(32, 0x40)], 0x3FF03FF, 0x0, 0x0, 0x0, [], 0x0⟩,
   ⟨0, 0x70020010, [(32, 0x40)], 0x3FF, 0x0, 0x0, 0x0, [], 0x0⟩,
   ⟨0, 0x70020014, [(32, 0x40)], 0xFFFFF, 0x0, 0x0, 0x0, [], 0x0⟩,
   ⟨0, 0x70020018, [(32, 0x40)], 0x0, 0x0, 0x0, 0x0, [], 0x2⟩,
   ⟨0, 0x7002001C, [(32, 0x40)], 0x0, 0x0, 0x0, 0x0, [], 0x0⟩]

/-- Part 7 of the register map. -/
def regRows7 : List RegRow :=
  [⟨0, 0x70020020, [(32, 0x40)], 0x0, 0x0, 0x0, 0x0, [], 0x0⟩,
   ⟨0, 0x70020024, [(32, 0x40)], 0x0, 0x0, 0x0, 0x0, [], 0x0⟩,
   ⟨0, 0x70020028, [(32, 0x40)], 0x0, 0x3F00, 0x0, 0x0, [], 0x2⟩,
   ⟨0, 0x7002002C, [(32, 0x40)], 0x0, 0x0, 0x0, 0x0, [], 0x0⟩,
   ⟨0, 0x70020030, [(32, 0x40)], 0x0, 0x0, 0x0, 0x0, [], 0x0⟩,
   ⟨0, 0x70020034, [(32, 0x40)], 0x0, 0x0, 0x0, 0x0, [], 0x0⟩,
   ⟨0, 0x70020800, [], 0x0, 0x0, 0x0, 0x0, [], 0x0⟩,
   ⟨0, 0x70020804, [], 0x1, 0x0, 0x0, 0x0, [], 0x0⟩,
   ⟨0, 0x70030000, [(6, 0x4)], 0x0, 0x0, 0x0, 0x0, [], 0x0⟩,
   ⟨0, 0x70030040, [(16, 0x4)], 0x0, 0x0, 0x0, 0x0, [⟨⟨0, 4⟩, .none, false⟩, ⟨⟨4, 4⟩, .smaller, false⟩, ⟨⟨8, 1⟩, .none, false⟩, ⟨⟨16, 8⟩, .none, false⟩], 0x1⟩,
   ⟨21, 0x70030080, [], 0x0, 0x0, 0x0, 0x0, [], 0x0⟩,
   ⟨0, 0x70030084, [], 0x0, 0x0, 0x0, 0x0, [], 0x0⟩,
   ⟨0, 0x700300C0, [(16, 0x4)], 0x0, 0x0, 0x0, 0x0, [], 0x0⟩,
   ⟨0, 0x70030100, [], 0xF, 0x0, 0x0, 0x0, [], 0x0⟩,
   ⟨0, 0x70030104, [], 0x0, 0x0, 0x1, 0x0, [], 0x0⟩,
   ⟨0, 0x70030108, [], 0x0, 0x0, 0x0, 0x0, [], 0x0⟩,
   ⟨0, 0x7003010C, [], 0x0, 0x0, 0x0, 0x0, [], 0x0⟩,
   ⟨0, 0x70030110, [], 0x0, 0x0, 0x0, 0x0, [], 0x0⟩,
   ⟨0, 0x70030114, [], 0x0, 0x0, 0x0, 0x0, [], 0x0⟩,
   ⟨4, 0x70030400, [(32, 0x40), (6, 0x4)], 0x0, 0x0, 0x0, 0x0, [⟨⟨0, 32⟩, .bits, false⟩], 0x0⟩,
   ⟨0, 0x70030418, [(32, 0x40)], 0x0, 0x0, 0x0, 0x0, [⟨⟨0, 32⟩, .bits, false⟩], 0x0⟩,
   ⟨0, 0x7003041C, [(32, 0x40)], 0x0, 0x0, 0x0, 0x0, [⟨⟨0, 32⟩, .bits, false⟩], 0x0⟩,
   ⟨0, 0x70030420, [(32, 0x40)], 0x0, 0x0, 0x0, 0x0, [⟨⟨0, 1⟩, .none, false⟩, ⟨⟨1, 1⟩, .none, false⟩, ⟨⟨2, 1⟩, .none, false⟩, ⟨⟨8, 5⟩, .none, false⟩], 0x0⟩,
   ⟨0, 0x70030424, [(32, 0x40)], 0x0, 0x6, 0x0, 0x0, [], 0x0⟩]

/-- Part 8 of the register map. -/
def regRows8 : List RegRow :=
  [⟨0, 0x70030428, [(32, 0x40)], 0x0, 0x0, 0x0, 0x0, [], 0x0⟩,
   ⟨0, 0x7003042C, [(32, 0x40)], 0x0, 0x0, 0x0, 0x0, [], 0x0⟩,
   ⟨0, 0x70030430, [(32, 0x40)], 0x0, 0x0, 0x0, 0x0, [], 0x0⟩,
   ⟨0, 0x70040000, [], 0x0, 0x0, 0x0, 0x0, [], 0x0⟩,
   ⟨0, 0x70040004, [], 0x0, 0x0, 0x0, 0x0, [], 0x0⟩,
   ⟨0, 0x7004000C, [], 0x0, 0x18, 0x0, 0x0, [], 0x0⟩,
   ⟨0, 0x70040018, [], 0x0, 0x0, 0x0, 0x0, [], 0x0⟩,
   ⟨0, 0x70040020, [], 0xFF, 0x0, 0x0, 0x0, [], 0xA0⟩,
   ⟨0, 0x70040024, [], 0xFFFF, 0x0, 0x0, 0x0, [], 0x0⟩,
   ⟨0, 0x70040028, [], 0x0, 0x0, 0x0, 0x0, [], 0x0⟩,
   ⟨0, 0x70040100, [(21, 0x8)], 0xFFFFFFFF, 0x0, 0x0, 0x0, [], 0x0⟩,
   ⟨0, 0x70040104, [(21, 0x8)], 0xFFFFFFFF, 0x0, 0x0, 0x0, [], 0x0⟩,
   ⟨0, 0x70040200, [(32, 0x4)], 0xF, 0x0, 0x0, 0x0, [], 0x0⟩,
   ⟨0, 0x70040800, [(32, 0x40)], 0xFFFFFFFF, 0x0, 0x0, 0x0, [], 0x0⟩,
   ⟨0, 0x70040804, [(32, 0x40)], 0x3F1F1F01, 0x0, 0x0, 0x0, [], 0x10000400⟩,
   ⟨0, 0x70040808, [(32, 0x40)], 0x1FFFF, 0x0, 0x0, 0x0, [], 0x1⟩,
   ⟨0, 0x7004080C, [(32, 0x40)], 0x0, 0x0, 0x0, 0x0, [], 0x0⟩,
   ⟨0, 0x70040810, [(32, 0x40)], 0xFFFFFFFF, 0x0, 0x0, 0x0, [], 0x0⟩,
   ⟨0, 0x70040814, [(32, 0x40)], 0x0, 0x0, 0x0, 0x0, [], 0x0⟩,
   ⟨0, 0x70040818, [(32, 0x40)], 0x0, 0x0, 0x0, 0x0, [], 0x0⟩,
   ⟨0, 0x7004081C, [(32, 0x40)], 0x0, 0x0, 0x0, 0x0, [], 0x0⟩,
   ⟨0, 0x70040820, [(32, 0x40)], 0x0, 0x3, 0x0, 0x0, [], 0x0⟩,
   ⟨0, 0x70041000, [(1792, 0x4)], 0xFFFFFFFF, 0x0, 0x0, 0x0, [], 0x0⟩,
   ⟨0, 0x70050000, [(48, 0x40)], 0x0, 0x0, 0x0, 0x0, [], 0x0⟩]

/-- Part 9 of the register map. -/
def regRows9 : List RegRow :=
  [⟨0, 0x70050004, [(48, 0x40)], 0x0, 0x0, 0x0, 0x0, [], 0x0⟩,
   ⟨0, 0x70050008, [(48, 0x40)], 0x0, 0xF0000, 0x0, 0x0, [], 0x0⟩,
   ⟨0, 0x7005000C, [(48, 0x40)], 0x0, 0x0, 0x0, 0x0, [], 0x0⟩,
   ⟨0, 0x70050010, [(48, 0x40)], 0x0, 0x0, 0x0, 0x0, [], 0x0⟩,
   ⟨0, 0x70050014, [(48, 0x40)], 0x0, 0x0, 0x0, 0x0, [], 0x0⟩,
   ⟨0, 0x70058000, [(48, 0x10)], 0xFFFFFFFF, 0x0, 0x0, 0x0, [], 0x0⟩,
   ⟨0, 0x70058004, [(48, 0x10)], 0xFFFFFF, 0x0, 0x0, 0x0, [], 0x0⟩,
   ⟨0, 0x70060000, [], 0x0, 0x0, 0x0, 0x0, [], 0x0⟩,
   ⟨0, 0x70060004, [], 0x0, 0x0, 0x0, 0x0, [], 0x0⟩,
   ⟨0, 0x70060008, [], 0x0, 0x0, 0x0, 0x0, [], 0x0⟩,
   ⟨0, 0x7006000C, [], 0x0, 0x0, 0x0, 0x0, [], 0x0⟩,
   ⟨0, 0x70060010, [], 0x0, 0x0, 0x0, 0x0, [], 0x0⟩,
   ⟨0, 0x70060014, [], 0x0, 0x13, 0x0, 0x0, [], 0x0⟩,
   ⟨0, 0x70060018, [], 0x0, 0x0, 0x0, 0x0, [], 0x0⟩,
   ⟨0, 0x7006001C, [], 0x0, 0x0, 0x0, 0x0, [], 0x0⟩,
   ⟨18, 0x70060020, [], 0x0, 0x0, 0x0, 0x0, [], 0x0⟩,
   ⟨0, 0x70060040, [], 0x3FFFF, 0x0, 0x0, 0x0, [], 0x0⟩,
   ⟨0, 0x70060044, [], 0x0, 0x0, 0x0, 0x0, [], 0x0⟩,
   ⟨0, 0x70060048, [], 0x0, 0x0, 0x0, 0x0, [], 0x0⟩,
   ⟨0, 0x70060050, [], 0xFFFF, 0x0, 0x0, 0x0, [], 0x0⟩,
   ⟨0, 0x70060054, [], 0xFFFFFFFF, 0x0, 0x0, 0x0, [], 0x0⟩,
   ⟨0, 0x70060058, [], 0xFFFFFFFF, 0x0, 0x0, 0x0, [], 0x0⟩,
   ⟨0, 0x7006005C, [], 0x0, 0x4, 0x0, 0x0, [], 0x0⟩,
   ⟨0, 0x70060060, [], 0x0, 0x0, 0x0, 0x0, [], 0x0⟩]

/-- Part 10 of the register map. -/
def regRows10 : List RegRow :=
  [⟨0, 0x70060064, [], 0x0, 0x0, 0x0, 0x0, [], 0x0⟩,
   ⟨0, 0x70060068, [], 0x0, 0x0, 0x0, 0x0, [], 0x0⟩,
   ⟨0, 0x7006006C, [], 0x0, 0x0, 0x0, 0x0, [], 0x0⟩,
   ⟨0, 0x70060070, [], 0x0, 0x0, 0x0, 0x0, [], 0x0⟩,
   ⟨0, 0x70060074, [], 0x0, 0x0, 0x0, 0x0, [], 0x0⟩,
   ⟨0, 0x70060078, [], 0x0, 0x0, 0x0, 0x0, [], 0x0⟩,
   ⟨0, 0x7006007C, [], 0x0, 0x0, 0x0, 0x0, [], 0x0⟩,
   ⟨0, 0x70060080, [], 0x0, 0x0, 0x0, 0x0, [], 0x0⟩,
   ⟨0, 0x70060084, [], 0x0, 0x0, 0x0, 0x0, [], 0x0⟩,
   ⟨0, 0x70070000, [(24, 0x4)], 0x0, 0x0, 0x0, 0x0, [], 0x0⟩,
   ⟨0, 0x70070060, [], 0x0, 0x0, 0x0, 0x0, [], 0x0⟩,
   ⟨0, 0x70070064, [], 0x0, 0x3A, 0x0, 0x0, [], 0x0⟩,
   ⟨0, 0x70070068, [], 0x0, 0x0, 0x0, 0x0, [], 0x0⟩,
   ⟨0, 0x70070080, [(8, 0x4)], 0x0, 0x0, 0x0, 0x0, [], 0x0⟩,
   ⟨0, 0x700700C0, [], 0x0, 0x0, 0x0, 0x0, [], 0x0⟩,
   ⟨0, 0x700700C4, [], 0x0, 0x0, 0x0, 0x0, [], 0x0⟩,
   ⟨20, 0x70070100, [(8, 0x4)], 0x0, 0x0, 0x0, 0x0, [], 0x0⟩,
   ⟨11, 0x78000000, [], 0x0, 0x0, 0x0, 0x0, [], 0x0⟩,
   ⟨10, 0x78000010, [], 0x0, 0x0, 0x0, 0x0, [], 0x401⟩,
   ⟨12, 0x78000014, [], 0x0, 0x0, 0x0, 0x0, [], 0x0⟩,
   ⟨12, 0x78000018, [], 0x0, 0x0, 0x0, 0x0, [], 0x0⟩,
   ⟨12, 0x78000020, [(8, 0x4)], 0x0, 0x0, 0x0, 0x0, [], 0x0⟩,
   ⟨13, 0x78001000, [(116, 0x8)], 0x0, 0x0, 0x0, 0x0, [], 0x0⟩,
   ⟨14, 0x78001004, [(116, 0x8)], 0x0, 0x0, 0x0, 0x0, [], 0x0⟩]

/-- Part 11 of the register map. -/
def regRows11 : List RegRow :=
  [⟨15, 0x78002000, [(1024, 0x4)], 0x0, 0x0, 0x0, 0x0, [], 0x0⟩,
   ⟨0, 0x78010000, [(2, 0x4000)], 0x0, 0x0, 0x0, 0x0, [], 0x0⟩,
   ⟨0, 0x78010004, [(2, 0x4000)], 0x0, 0x0, 0x0, 0x0, [], 0x0⟩,
   ⟨0, 0x78010008, [(2, 0x4000)], 0x0, 0x40, 0x0, 0x0, [], 0x20⟩,
   ⟨0, 0x7801000C, [(2, 0x4000)], 0x0, 0x0, 0x0, 0x0, [], 0x0⟩,
   ⟨0, 0x78010010, [(2, 0x4000)], 0x0, 0x0, 0x0, 0x0, [], 0x0⟩,
   ⟨0, 0x78010020, [(2, 0x4000)], 0x3, 0x0, 0x0, 0x0, [], 0x0⟩,
   ⟨0, 0x78010024, [(2, 0x4000)], 0xFFFF, 0x0, 0x0, 0x0, [], 0x32⟩,
   ⟨0, 0x78010028, [(2, 0x4000)], 0xFFFFFFFF, 0x0, 0x0, 0x0, [], 0x0⟩,
   ⟨0, 0x7801002C, [(2, 0x4000)], 0x1, 0x0, 0x0, 0x0, [], 0x0⟩,
   ⟨0, 0x78010100, [(2, 0x4000), (16, 0x4)], 0x0, 0x0, 0x0, 0x0, [], 0x0⟩,
   ⟨0, 0x78010200, [(2, 0x4000), (8, 0x4)], 0xFFFFFFFF, 0x0, 0x0, 0x0, [], 0x0⟩,
   ⟨0, 0x78018000, [(16, 0x10)], 0xFFFFFFFF, 0x0, 0x0, 0x0, [], 0x0⟩,
   ⟨0, 0x78018004, [(16, 0x10)], 0xFFFFFFFF, 0x0, 0x0, 0x0, [], 0x0⟩,
   ⟨0, 0x78018008, [(16, 0x10)], 0x3, 0x0, 0x0, 0x0, [], 0x0⟩,
   ⟨0, 0x78030000, [(21, 0x40)], 0x0, 0x0, 0x0, 0x0, [⟨⟨0, 4⟩, .smaller, false⟩], 0x2⟩,
   ⟨0, 0x78030004, [(21, 0x40)], 0x0, 0x1F00, 0x0, 0x0, [], 0x3⟩,
   ⟨0, 0x78030008, [(21, 0x40)], 0x0, 0x0, 0x0, 0x0, [], 0x0⟩,
   ⟨0, 0x78030014, [(21, 0x40)], 0x0, 0x0, 0x0, 0x0, [], 0x0⟩,
   ⟨0, 0x78030018, [(21, 0x40)], 0x0, 0x0, 0x0, 0x0, [], 0x0⟩,
   ⟨0, 0x7803001C, [(21, 0x40)], 0x0, 0x0, 0x0, 0x0, [], 0x0⟩,
   ⟨0, 0x7803000C, [(21, 0x40)], 0x0, 0x0, 0x0, 0x0, [], 0x0⟩,
   ⟨0, 0x78030010, [(21, 0x40)], 0x0, 0x0, 0x0, 0x0, [], 0x0⟩,
   ⟨5, 0x78030020, [(21, 0x40)], 0x0, 0x0, 0x0, 0x0, [⟨⟨0, 16⟩, .smaller, true⟩, ⟨⟨16, 8⟩, .smaller, true⟩, ⟨⟨24, 1⟩, .bits, false⟩], 0x6403E8⟩]

/-- Part 12 of the register map. -/
def regRows12 : List RegRow :=
  [⟨0, 0x78030024, [(21, 0x40)], 0x0, 0x0, 0x0, 0x0, [], 0x0⟩,
   ⟨0, 0x78030800, [], 0x0, 0x0, 0x0, 0x0, [], 0x0⟩,
   ⟨0, 0x78030804, [], 0x0, 0x0, 0x0, 0x0, [], 0x0⟩,
   ⟨0, 0x78030808, [], 0x0, 0x0, 0x1, 0x0, [], 0x0⟩,
   ⟨0, 0x7803080C, [], 0x0, 0x0, 0xFFFFF, 0x0, [], 0x0⟩,
   ⟨0, 0x78030810, [], 0xFF00, 0x0, 0x1, 0x0, [], 0x0⟩,
   ⟨0, 0x78030814, [], 0x1, 0x2, 0x0, 0x0, [], 0x0⟩,
   ⟨0, 0x78030818, [], 0x0, 0x0, 0xFFFFF, 0x0, [], 0x0⟩,
   ⟨7, 0x100000000, [(2, 0x10000)], 0x0, 0x0, 0x0, 0x0, [], 0x401⟩,
   ⟨19, 0x100000004, [(2, 0x10000)], 0x0, 0x0, 0x0, 0x0, [], 0x0⟩,
   ⟨8, 0x100000008, [(2, 0x10000)], 0x0, 0x0, 0x0, 0x0, [], 0x0⟩,
   ⟨9, 0x10000000C, [(2, 0x10000)], 0x0, 0x0, 0x0, 0x0, [], 0x0⟩,
   ⟨0, 0x100000010, [(2, 0x10000)], 0x0, 0x0, 0x0, 0x0, [], 0x0⟩,
   ⟨0, 0x100000014, [(2, 0x10000)], 0x0, 0x1, 0x0, 0x0, [], 0x0⟩,
   ⟨0, 0x100000100, [(2, 0x10000)], 0x0, 0x0, 0x0, 0x0, [], 0x0⟩,
   ⟨0, 0x100000104, [(2, 0x10000)], 0xFFFFFFFF, 0x0, 0x0, 0x0, [], 0x0⟩,
   ⟨0, 0x100000108, [(2, 0x10000)], 0x0, 0x0, 0x0, 0x0, [], 0xFFFF0003⟩,
   ⟨0, 0x10000010C, [(2, 0x10000)], 0x0, 0x0, 0x0, 0x0, [], 0x32⟩,
   ⟨0, 0x100000110, [(2, 0x10000)], 0x7F, 0x0, 0x0, 0x0, [], 0x0⟩,
   ⟨0, 0x100000114, [(2, 0x10000)], 0x0, 0xF, 0x0, 0x0, [], 0x0⟩,
   ⟨0, 0x100001000, [(2, 0x10000), (8, 0x8)], 0xFFFF, 0x0, 0x0, 0x0, [], 0x0⟩,
   ⟨0, 0x100002000, [(2, 0x10000), (8, 0x8)], 0xFFFF, 0x0, 0x0, 0x0, [], 0x0⟩,
   ⟨0, 0x100003000, [(2, 0x10000), (8, 0x40)], 0xFFFFFFFF, 0x0, 0x0, 0x0, [], 0x0⟩,
   ⟨0, 0x100003004, [(2, 0x10000), (8, 0x40)], 0xFFFFFFFF, 0x0, 0x0, 0x0, [], 0x0⟩]

/-- Part 13 of the register map. -/
def regRows13 : List RegRow :=
  [⟨0, 0x100003008, [(2, 0x10000), (8, 0x40)], 0x7F1, 0x0, 0x0, 0x0, [], 0x40⟩,
   ⟨0, 0x10000300C, [(2, 0x10000), (8, 0x40)], 0x0, 0x0, 0x0, 0x0, [], 0x0⟩,
   ⟨0, 0x100003010, [(2, 0x10000), (8, 0x40)], 0xFFFFFFFF, 0x0, 0x0, 0x0, [], 0x0⟩,
   ⟨0, 0x100003014, [(2, 0x10000), (8, 0x40)], 0xFFFFFFFF, 0x0, 0x0, 0x0, [], 0x0⟩,
   ⟨0, 0x100003018, [(2, 0x10000), (8, 0x40)], 0x3FF3, 0x0, 0x0, 0x0, [], 0x40⟩,
   ⟨0, 0x10000301C, [(2, 0x10000), (8, 0x40)], 0x0, 0x0, 0x0, 0x0, [], 0x0⟩,
   ⟨0, 0x100003020, [(2, 0x10000), (8, 0x40)], 0xFFFFFFFF, 0x0, 0x0, 0x0, [], 0x0⟩,
   ⟨0, 0x100003024, [(2, 0x10000), (8, 0x40)], 0xFFFFFFFF, 0x0, 0x0, 0x0, [], 0x0⟩,
   ⟨0, 0x100003028, [(2, 0x10000), (8, 0x40)], 0x0, 0xF, 0x0, 0x0, [], 0x0⟩]

/-- Every register of the map. -/
def regRows : List RegRow :=
  regRows0 ++ regRows1 ++ regRows2 ++ regRows3 ++ regRows4 ++ regRows5 ++ regRows6 ++ regRows7 ++ regRows8 ++ regRows9 ++ regRows10 ++ regRows11 ++ regRows12 ++ regRows13

/-- Whether an offset from a register's base falls on one of its instances. -/
def idxHit : List (Nat × Nat) → Nat → Bool
  | [], r => r == 0
  | (n, s) :: t, r => r / s < n && idxHit t (r % s)

/-- The row of the register at an address, if a register stands there. -/
def regRow (a : Nat) : Option RegRow := regRows.find? fun r => r.base ≤ a && idxHit r.idx (a - r.base)

end Sys2Proof.Machine
end

