-- ==== Sys2Proof/Machine/State.lean ====
section
/-! DEFINITION. The state of the EJ4-1024: its registers by address, and every piece of state behind them, as plain data. -/

namespace Sys2Proof.Machine

/-- An up barge as it stands at the RX pins (R44): its 64 bytes and the code violations in it. -/
structure Rx where
  bytes : List Byte
  viol : Nat
deriving DecidableEq, Repr

/-- One lane: the state of a Lock link behind its registers (spec/03), of its cell in the balancer (spec/05) and in the
ledger (spec/06). -/
structure Lane where
  /-- cycles spent in the present training step (R48) -/
  tcyc : Nat
  /-- run of good TRAIN replies that counts toward the step (R48) -/
  good : Nat
  /-- declaration record of the run (R49) -/
  recd : List Byte
  /-- round trips of the present set of probes (R50) -/
  probes : List Nat
  /-- a PROBE is out and its reply has not come -/
  probeOut : Bool
  /-- an ALIGN is pending for the next cycle (R53) -/
  alignReq : Bool
  /-- that ALIGN is due in the present cycle -/
  alignDue : Bool
  /-- up barge received and not yet judged -/
  rx : Option Rx
  /-- first cycle whose up barge is judged (R437) -/
  judgeFrom : Word
  /-- control items that wait for the engine's safe point (R298) -/
  pendRetrain : Bool
  pendClr : Bool
  pendEn : Bool
  /-- the last good barge reported TS_FAULT; reported a block without BLK_CMD (R63) -/
  repTs : Bool
  repBlk : Bool
  /-- qualified at the last tick 88; available in the cycle; admitted; rejected (R74, R95) -/
  qual : Bool
  avail : Bool
  adm : Bool
  rej : Bool
  /-- bypass ordered (R75); BYPASS_CMD is sent from the next barge; tick of the order; BYPASS_TIMEOUT raised; BYPASSED raised -/
  bypass : Bool
  bypassOn : Bool
  bypassTick : Nat
  bypassOut : Bool
  bypassDone : Bool
  /-- enabled and kept by UNBIND_FLIGHT (R77); descriptor written while kept -/
  kept : Bool
  descNew : Bool
  /-- MODE byte of the present barge (R42) and its four edges (R43) -/
  mode : Nat
  edges : List Nat
  /-- first slot that carries K28.7 in this cycle (R55) -/
  blkSlot : Option Nat
  /-- down mailbox tag and data of the last read (R61); SEQ of the last up mailbox written -/
  mbx : List Byte
  upSeq : Option Nat
  /-- up mailbox bytes of the last good up barge -/
  upMbx : List Byte
  /-- ALIGN, PROBE sent in slot 72 of this cycle -/
  slot72 : Nat
  /-- base level, level at the end of the window (R94), segment levels of the present window -/
  lvl : Int
  endLvl : Int
  l1 : Int
  l2 : Int
  /-- segment levels of past windows, newest first (R108) -/
  hist : List (Int × Int)
  /-- live accounts (R101): charge estimate and correction sum -/
  acc : Int
  corr : Int
  vmeas : Nat
  lastV : Option Nat
  vest : Nat
  outRun : Nat
  ov : Bool
  ovNow : Bool
  miss : Nat
  /-- the next reconciliation is in full (R111) -/
  capqNew : Bool
  /-- key, bucket of the sort (R89) -/
  keyE : Int
  keyB : Int
  /-- TEMP of the last good up barge (R389) -/
  temp : Int
  /-- WEAR_RANK of the last wear pass (R393) -/
  wrank : Nat
  /-- lane state at the sample instant of the present cycle, whose barge is sent; 9 an enabled lane in OFF, 0 a silent one (R37,
  R48) -/
  txSt : Nat
  /-- running disparity of the transmitter at slot 0 of the present cycle: positive (R36) -/
  txRd : Bool
  /-- running disparity of the receiver after the last symbol it took: positive (R36) -/
  rxRd : Bool
  /-- UP_START as the present training sends it (R44) -/
  upStart : Nat
  /-- STATUS of the reply in training judged last, 0 when it was not good (R63) -/
  stat : Nat
  /-- first slot of the next cycle that carries K28.7 (R55) -/
  blkNext : Option Nat
  /-- reconciled since START_FLIGHT (R111) -/
  meas : Bool
  /-- bucket that the key slots of the balancer program hold for the lane (R99) -/
  slotB : Int
deriving DecidableEq, Repr

def Lane.init : Lane where
  tcyc := 0
  good := 0
  recd := []
  probes := []
  probeOut := false
  alignReq := false
  alignDue := false
  rx := none
  judgeFrom := 0
  pendRetrain := false
  pendClr := false
  pendEn := false
  repTs := false
  repBlk := false
  qual := false
  avail := false
  adm := false
  rej := false
  bypass := false
  bypassOn := false
  bypassTick := 0
  bypassOut := false
  bypassDone := false
  kept := false
  descNew := false
  mode := 0
  edges := []
  blkSlot := none
  mbx := []
  upSeq := none
  upMbx := []
  slot72 := 0
  lvl := 0
  endLvl := 0
  l1 := 0
  l2 := 0
  hist := []
  acc := 0
  corr := 0
  vmeas := 0
  lastV := none
  vest := 0
  outRun := 0
  ov := false
  ovNow := false
  miss := 0
  capqNew := false
  keyE := 0
  keyB := 0
  temp := 0
  wrank := 0
  txSt := 0
  txRd := false
  rxRd := false
  upStart := 160
  stat := 0
  blkNext := none
  meas := false
  slotB := 0

/-- Posting data of one past window of a flight (R108). -/
structure Win where
  ip : Int
  d : Nat
  posted : Bool
deriving DecidableEq, Repr

/-- One flight slot of an FC: what the flight registers do not show. -/
structure SlotSt where
  /-- value written to FC_FLT_STATf.STATE that waits for the sample instant (R76) -/
  held : Option Nat
  /-- the START cycle: admission is judged at tick 88 (R82) -/
  startCyc : Bool
  /-- CELL_SHORT condition present (R73) -/
  short : Bool
  /-- FREEZE copy of tick 256 (R173); the flight switched when it froze (R438) -/
  freeze : Bool
  frzRun : Bool
  /-- current direction σ before I_POL (R88); arm current i of tick 88 -/
  sigma : Int
  cur : Int
  /-- S, available cells, full-bridge available cells, reciprocal of tick 88 (R83) -/
  sum : Nat
  a : Nat
  afb : Nat
  yy : Nat
  ee : Nat
  /-- N, F, clamped flag of the modulator (R84, R85) -/
  n : Int
  fr : Nat
  clamped : Bool
  /-- N_A of this and of the previous cycle; trim suppressed; residual to be zeroed -/
  na : Int
  naPrev : Int
  noTrim : Bool
  zeroRho : Bool
  /-- trim cell (gang lane), duty, residual ρ -/
  trim : Option Nat
  d : Nat
  rho : Int
  swaps : Nat
  changes : Nat
  /-- ranking handed over for L = +1, gang lanes (R99) -/
  rank : List Nat
  published : Bool
  /-- live flight accounts (R101), posting inputs of past windows, newest first -/
  facc : Int
  racc : Int
  fpost : Int
  res : Int
  wins : List Win
  /-- the check of tick 552 has completed since a rebase was accepted (R116) -/
  rebase : Bool
  /-- SAT went from 0 to 1 at tick 200; N at tick 240 was an override -/
  satNew : Bool
  /-- a load of the active bank waits for the sample instant, where the states take XINIT: the set in force until then (R128,
  R131) -/
  xinit : Option (Option (List Byte))
  /-- a trip has latched for the flight since its last sample instant (R170) -/
  tripPend : Bool
deriving DecidableEq, Repr

def SlotSt.init : SlotSt where
  held := none
  startCyc := false
  short := false
  freeze := false
  frzRun := false
  sigma := 1
  cur := 0
  sum := 0
  a := 0
  afb := 0
  yy := 0
  ee := 0
  n := 0
  fr := 0
  clamped := false
  na := 0
  naPrev := 0
  noTrim := false
  zeroRho := false
  trim := none
  d := 0
  rho := 0
  swaps := 0
  changes := 0
  rank := []
  published := false
  facc := 0
  racc := 0
  fpost := 0
  res := 0
  wins := []
  rebase := false
  satNew := false
  xinit := none
  tripPend := false

/-- One Lock engine: its microprogram counter, its registers l0–l15 and whether it waits (spec/16). -/
structure EngSt where
  pc : Nat
  regs : Tbl Word
  waits : Nat
  run : Nat
deriving DecidableEq, Repr

def EngSt.init : EngSt where
  pc := 0
  regs := []
  waits := 0
  run := 0

/-- One flight controller: what its registers do not show. -/
structure FcSt where
  /-- TS of the next sample instant (R21, R23) -/
  next : Nat
  /-- tick of the last sample instant, and whether there has been one since RUN was accepted -/
  cycTick : Nat
  started : Bool
  /-- the present cycle is the first since then -/
  fresh : Bool
  /-- steps of R25 that the present cycle has done, by their tick -/
  done : List Nat
  /-- the Inner pair's obligation of the cycle has ended (R32) -/
  innerDone : Bool
  /-- the cycle is a hold cycle (R203); restart in progress at the sample instant -/
  holdCyc : Bool
  /-- words latched at the sample instant (R29) -/
  lat : Tbl Word
  /-- raw and corrected samples of the four FC channels (R143, R144), hub samples by channel -/
  raw : List Int
  cor : List Int
  hub : Tbl Int
  hubNext : Tbl Int
  /-- corrected hub values on their way into the island (R30, R328) -/
  hubSent : Tbl Int
  /-- writes of registers that the control path reads, held for the sample instant: address, word, oldest first (R29, R440) -/
  writes : List (Nat × Word)
  /-- balancer program: next word, running, ended -/
  ucPc : Nat
  ucRun : Bool
  /-- tick of the cycle at which its next word begins -/
  ucTick : Nat
  /-- key slots of the sort: links in slot order; lists sent by members, by FC (R99) -/
  keys : List Nat
  lists : Tbl (List Nat)
  /-- observer: next word of the schedule, accumulator, actuation and input vectors -/
  obsPc : Nat
  obsRun : Bool
  obsAcc : Int
  obsLow : Option Int
  obsX : Tbl Int
  obsXn : Tbl Int
  obsU : Tbl Int
  obsZ : Tbl Int
  /-- shaper positions (R134), in their own fraction, and the latched targets in force -/
  shPos : Tbl Int
  shRate : Tbl Int
  shTgt : Tbl Int
  eng : Tbl EngSt
  /-- clock switch of a follower in progress (R34) -/
  switching : Bool
  /-- tick at which the last clock switch began (R34) -/
  switchAt : Nat
  /-- a matching FC_INNER_DONE before tick 200 resets CONSEC there unless the cycle is a hold cycle (R32, R203) -/
  consecDue : Bool
  /-- last nonzero sign of target minus position of each shaper channel since its target changed (R136) -/
  shSgn : Tbl Int
deriving DecidableEq, Repr

def FcSt.init : FcSt where
  next := 0
  cycTick := 0
  started := false
  fresh := false
  done := []
  innerDone := false
  holdCyc := false
  lat := []
  raw := []
  cor := []
  hub := []
  hubNext := []
  hubSent := []
  writes := []
  ucPc := 0
  ucRun := false
  ucTick := 0
  keys := []
  lists := []
  obsPc := 0
  obsRun := false
  obsAcc := 0
  obsLow := none
  obsX := []
  obsXn := []
  obsU := []
  obsZ := []
  shPos := []
  shRate := []
  shTgt := []
  eng := []
  switching := false
  switchAt := 0
  consecDue := false
  shSgn := []

/-- A comparator window (R162): its thresholds in mV, hysteresis and enables, and the tick of the command that replaces it. -/
structure Window where
  since : Nat
  low : Int
  high : Int
  hyst : Nat
  hiEn : Bool
  loEn : Bool
deriving DecidableEq, Repr

/-- One comparator or trip pin: its raw, filtered and latched signal and its last filter samples (R162–R166). -/
structure CmpSt where
  /-- comparator output: 0 IN, 1 OUT_HIGH, 2 OUT_LOW -/
  out : Nat
  /-- the present input: above HIGH, below LOW, and inside the hysteresis bands -/
  input : Int
  raw : Bool
  fo : Bool
  q : Bool
  samples : List Bool
  /-- tick at which the present blanking interval ends -/
  blankEnd : Nat
  /-- the window that stands until a new one has settled (R179) -/
  settle : Option Window
deriving DecidableEq, Repr

def CmpSt.init : CmpSt where
  out := 0
  input := 0
  raw := false
  fo := false
  q := false
  samples := []
  blankEnd := 0
  settle := none

/-- An event record on its way through the event hub (R333–R337). -/
structure EvRec where
  ts : Nat
  src : Nat
  code : Nat
  pay : Nat
  queues : Nat
  slewing : Bool
deriving DecidableEq, Repr

/-- One pulse-width pair: what its registers do not show (spec/10_hrpwm.md). -/
structure PwmSt where
  /-- tick of the period start in force, or of the enable that makes the next tick one -/
  start : Nat
  /-- the reference P and the tick at which it took its level -/
  p : Bool
  since : Nat
  /-- the outputs PWM_A and PWM_B -/
  outA : Bool
  outB : Bool
  /-- output that waits for its dead time: 0 none, 1 PWM_A, 2 PWM_B; tick at which it turns on -/
  dtTo : Nat
  dtEnd : Nat
  /-- a trip holds the outputs safe, or they wait for the period start after it -/
  tripped : Bool
  /-- applied values that no register shows: written compare (u21.4), MINP with MP_MODE and B_OFF, OFS -/
  cw : Nat
  mp : Word
  ofs : Nat
  /-- a tow received at this tick and not yet acted on; a tow emitted in this period -/
  tow : Option Nat
  towSent : Bool
  /-- sixteenths of a tick by which the last fall of P, and of PWM_A with it, lies beyond the tick of since (R184) -/
  fine : Nat
deriving DecidableEq, Repr

def PwmSt.init : PwmSt where
  start := 0
  p := false
  since := 0
  outA := false
  outB := false
  dtTo := 0
  dtEnd := 0
  tripped := false
  cw := 0
  mp := 0
  ofs := 0
  tow := none
  towSent := false
  fine := 0

/-- A capability with its tag (R261). -/
structure Cap where
  w : DWord
  tag : Bool
deriving DecidableEq, Repr

/-- The null capability. -/
def Cap.null : Cap where
  w := 0
  tag := false

/-- A CX instruction in progress (R290–R296): its entry and its word, the next microword, m0–m2 and t0–t7 by number, held
operand writes, and whether the last microword was a safe point. -/
structure Micro where
  entry : Nat
  word : Word
  upc : Nat
  regs : Tbl Word
  held : Tbl Word
  safe : Bool
deriving DecidableEq, Repr

/-- The register image of a pair (R200, R213, R226): what a checkpoint copies. -/
structure CoreImg where
  g : Tbl Word
  f : Tbl Word
  c : Tbl Cap
  pcc : Cap
  cvt : Cap
  cfs : Cap
  /-- control registers by number; an absent one reads its reset value -/
  cr : Tbl Word
  /-- context changes not yet in force: register, value still in force, instructions to go (R242) -/
  ctx : List (Nat × Word × Nat)
  /-- micro-state that waits for its CX after a return: m0–m2, UPC, CXN (R296) -/
  pend : Option (Word × Word × Word × Nat × Nat)
  micro : Option Micro
  /-- instructions retired since pair reset; tick at which CYCLE was 0 -/
  ret : Nat
  cycBase : Nat
  /-- holding registers of CYCLEH and INSTRETH -/
  cycH : Word
  retH : Word
deriving DecidableEq, Repr

def CoreImg.init : CoreImg where
  g := []
  f := []
  c := []
  pcc := Cap.null
  cvt := Cap.null
  cfs := Cap.null
  cr := []
  ctx := []
  pend := none
  micro := none
  ret := 0
  cycBase := 0
  cycH := 0
  retH := 0

/-- A store-buffer entry (R238): granule, byte mask, bytes, tag, whether a checkpoint already holds its store, whether it is the
first part of a split store (R240), and the tick of its release (R199). -/
structure SbEnt where
  g : Nat
  mask : Nat
  bytes : List Byte
  tag : Bool
  old : Bool
  half : Bool := false
  due : Nat := 0
deriving DecidableEq, Repr

/-- An undo-log entry: granule, byte mask, old bytes, old tag (R200). -/
structure Undo where
  g : Nat
  mask : Nat
  bytes : List Byte
  tag : Bool
deriving DecidableEq, Repr

/-- One Glove pair (spec/11_glove_pairs.md, spec/12_ocosh_isa.md). -/
structure CoreSt where
  img : CoreImg
  /-- checkpoint: register image, its tick, undo log newest first, instructions since -/
  ck : CoreImg
  ckTick : Nat
  undo : List Undo
  since : Nat
  /-- store buffer, oldest first -/
  sb : List SbEnt
  /-- tick at which E is free -/
  free : Nat
  /-- tick of the mismatch whose restart runs; tick of the pair reset that runs -/
  restart : Option Nat
  reset : Option Nat
  /-- ticks of the mismatches of the last second, newest first; a forced mismatch waits for the end of a restart -/
  mism : List Nat
  forced : Bool
  /-- a debug halt stands -/
  halt : Bool
  /-- watchdog: tick of the last kick, 0x5A was written last, ticks of a debug halt to leave out -/
  kick : Nat
  kickSeq : Bool
  haltAt : Option Nat
  /-- a single step is due (R433); the WATCHDOG exception waits for an instruction boundary (R397) -/
  step : Bool
  wdPend : Bool
  /-- an instruction of several elements stands between two of them (R229); WFI stands in E (R225) -/
  inLong : Bool
  inWfi : Bool
deriving DecidableEq, Repr

def CoreSt.init : CoreSt where
  img := CoreImg.init
  ck := CoreImg.init
  ckTick := 0
  undo := []
  since := 0
  sb := []
  free := 0
  restart := none
  reset := none
  mism := []
  forced := false
  halt := false
  kick := 0
  kickSeq := false
  haltAt := none
  step := false
  wdPend := false
  inLong := false
  inWfi := false

/-- A hold of an analog channel (R143, R148): TS, and the slice and the user pair that serve the conversion that starts then
(R145, R153). -/
structure Hold where
  ts : Nat
  slice : Nat
  pair : Int × Int
deriving DecidableEq, Repr

/-- One conversion of an analog channel (R143, R148): channel, TS of its start, raw code, and what its result carries. -/
structure Conv where
  ch : Nat
  start : Nat
  slice : Nat
  raw : Int
  val : Int
  clip : Bool
  sat : Bool
  noref : Bool
  test : Bool
deriving DecidableEq, Repr

/-- One analog group: what its registers do not show (spec/08_analog_inputs.md). -/
structure AdcSt where
  /-- tick at which the present settling interval began (R141, R142) -/
  settle : Nat
  /-- user gain and offset in force by channel; committed pairs that wait for the sample instant (R145) -/
  pairs : Tbl (Int × Int)
  staged : Tbl (Int × Int)
  /-- TS of the last hold of each channel (R148), and its last conversion -/
  held : Tbl (Option Nat)
  last : Tbl (Option Conv)
  /-- hold of each channel's cycle sample, and its conversion once there is one (R143) -/
  cycHold : Tbl (Option Hold)
  cyc : Tbl (Option Conv)
  /-- scheduled start of each entry in TS with the channel of its word at the trigger (R146, R147); converted entries that wait
  for their publication, oldest first, with SHARED (R149) -/
  pend : Tbl (Option (Nat × Nat))
  out : Tbl (List (Conv × Bool))
  /-- rotation step: 0 none, 1 checking, 2 connected, 3 the free slice serves from the next conversion on; its tick; second
  check; forced channel; failed comparisons; start of the last compared conversion; tick of the last step (R150–R155) -/
  step : Nat
  stepTick : Nat
  again : Bool
  force : Option Nat
  fails : Nat
  compared : Option Nat
  calTick : Nat
  /-- path test: levels done, their averages, the pass map, its tick (R157) -/
  ptDone : Nat
  ptAvg : List Int
  ptPass : Nat
  ptTick : Nat
deriving DecidableEq, Repr

def AdcSt.init : AdcSt where
  settle := 0
  pairs := []
  staged := []
  held := []
  last := []
  cycHold := []
  cyc := []
  pend := []
  out := []
  step := 0
  stepTick := 0
  again := false
  force := none
  fails := 0
  compared := none
  calTick := 0
  ptDone := 0
  ptAvg := []
  ptPass := 0
  ptTick := 0

/-- A reply of the Keeper or of a port's responder (R359), with the completion queue it goes to. -/
structure Reply where
  cq : Nat
  tag : Nat
  op : Nat
  status : Nat
  state : Nat
  sq : Nat
  resx : Nat
  ts : Nat
  res : List Nat
deriving DecidableEq, Repr

/-- What a taken command waits for (R363): a sample instant of an FC, the end of cycling on every FC of a binding, tick 560,
the first barge with BYPASS_CMD, a path test, a scrub, or an earlier command on the same object. -/
inductive WaitOn where
  | sample (fc : Nat)
  | stop
  | rebase (fc : Nat)
  | bypass (link : Nat)
  | path (grp : Nat)
  | scrub
  | turn
  | keeper
deriving DecidableEq, Repr

/-- A command that is taken and not yet replied. -/
structure Wait where
  e : Entry
  /-- its port has not been reset since it was taken (R353) -/
  live : Bool
  /-- the Keeper's own (host loss, R396): no reply -/
  silent : Bool
  on : WaitOn
  /-- flight state when it was accepted (R79) -/
  st : Nat
deriving DecidableEq, Repr

/-- One telemetry stream of a port (R374–R376). -/
structure Stream where
  fc : Nat
  words : List Nat
  decim : Nat
  sizeExp : Nat
  vec : Nat
  irq : Bool
  ring : Nat
  twb : Nat
  /-- sample instants still to pass before the next record; SEQ of the next due record; the record that is due, with TS and
  cycle; records written and skipped; last SEQ written -/
  left : Nat
  seq : Nat
  due : Option (Nat × Nat × Nat)
  written : Nat
  skipped : Nat
  lastSeq : Nat
deriving DecidableEq, Repr

/-- One host port: what its registers do not show (spec/19_host_interface.md). -/
structure PortSt where
  /-- its link is up; D3hot; Bus Master Enable; the MSI-X function mask -/
  up : Bool
  d3 : Bool
  bme : Bool
  fmask : Bool
  /-- the 64 MSI-X table entries, four words each, and the pending bits (R349) -/
  msix : Tbl Word
  pba : Nat
  /-- Keeper inbox, oldest first: submission queue and entry (R354) -/
  inbox : List (Nat × List Byte)
  /-- replies that wait in the outbox, oldest first -/
  outbox : List Reply
  /-- queue that round-robin serves next (R345) -/
  rr : Nat
  /-- tick of the last heartbeat (R350) -/
  hb : Option Nat
  streams : Tbl (Option Stream)
deriving DecidableEq, Repr

def PortSt.init : PortSt where
  up := false
  d3 := false
  bme := false
  fmask := false
  msix := []
  pba := 0
  inbox := []
  outbox := []
  rr := 0
  hb := none
  streams := []

/-- What the block sends to a host: a posted write with its address and bytes, an MSI-X message, or the completion of a read with
its bytes, poisoned or not. -/
inductive HostOut where
  | wr (port addr : Nat) (bytes : List Byte)
  | msi (port vec : Nat)
  | cpl (port : Nat) (bytes : List Byte) (poison : Bool)
deriving DecidableEq, Repr

/-- The Keeper firmware's own state (spec/20_commands.md, spec/21_keeper_background.md). -/
structure KeepSt where
  /-- commands taken and not replied, in the order taken -/
  waits : List Wait
  /-- port that holds the load session (R352); START_FW accepted; boot ROM takes entries -/
  session : Option Nat
  started : Bool
  romReady : Bool
  /-- LENGTH of the authenticated image -/
  imgLen : Nat
  /-- LOCK_LIMITS carried out; cause of SAFE_HALT as GET_STATE reports it -/
  locked : Bool
  cause : Nat
  /-- configuration of R377, 64 bytes -/
  cfg : List Byte
  /-- host-loss policy: flights held and the tick it began; the stop has come due -/
  loss : Option (Nat × Nat)
  /-- ticks since which the hottest reading has stayed below 103 °C while shedding -/
  cool : Option Nat
  /-- scrub slices: next slice of the rotation; a slice is due -/
  slice : Nat
  /-- OTP read without error -/
  otpOk : Bool
  /-- boot ROM self-test duration in 10 µs -/
  selftest : Nat
  /-- next port that the Keeper serves when both inboxes hold entries (R363) -/
  turn : Nat
  /-- tick of the next scrub slice; a due slice waits for the engine (R387) -/
  sliceDue : Nat
  sliceWait : Bool
deriving DecidableEq, Repr

def KeepSt.init : KeepSt where
  waits := []
  session := none
  started := false
  romReady := false
  imgLen := 0
  locked := false
  cause := 0
  cfg := []
  loss := none
  cool := none
  slice := 0
  otpOk := false
  selftest := 0
  turn := 0
  sliceDue := 8000000
  sliceWait := false

/-- The wear state of one lane behind WEAR_RECi (R389–R393): the pending extreme of the rainflow counter, whether it is a
maximum, and the stack, newest first. -/
structure WearSt where
  th : List Int
  dmg : Nat
  pend : Int
  up : Option Bool
  stack : List Int
deriving DecidableEq, Repr

def WearSt.init : WearSt where
  th := [0, 0, 0, 0]
  dmg := 0
  pend := 0
  up := none
  stack := []

/-- A load port of the control stores (R284): the range opened, the parts that have arrived in write order, and whether the
digest check runs. -/
structure McsSt where
  store : Nat
  pair : Nat
  start : Nat
  count : Nat
  bytes : List Byte
  check : Option Nat
deriving DecidableEq, Repr

def McsSt.init : McsSt where
  store := 0
  pair := 0
  start := 0
  count := 0
  bytes := []
  check := none

/-- A scrub in progress (R312–R315): its range, what it has found, the tick of its next granule, and whether it is a slice of
the Keeper (R387). -/
structure ScrubSt where
  mid : Nat
  off : Nat
  len : Nat
  wb : Bool
  slice : Bool
  done : Nat
  ce : Nat
  ue : Nat
  fix : Nat
  firstUe : Option Nat
  lastUe : Option Nat
  ueKeys : List Nat
  tsStart : Nat
  next : Nat
deriving DecidableEq, Repr

/-- One DMA channel: what its registers do not show (R316–R325). -/
structure DmaSt where
  /-- the 64 bytes of the current descriptor and the tags of its capabilities -/
  desc : List Byte
  srcTag : Bool
  dstTag : Bool
  /-- a descriptor read is in progress; it keeps PROG (R324) -/
  reading : Bool
  keepProg : Bool
  /-- region offset of the current descriptor, as the start or NEXT gave it -/
  doff : Nat
  /-- tick before which no element moves; bytes moved since the last burst boundary -/
  ready : Nat
  burst : Nat
deriving DecidableEq, Repr

def DmaSt.init : DmaSt where
  desc := []
  srcTag := false
  dstTag := false
  reading := false
  keepProg := false
  doff := 0
  ready := 0
  burst := 0


/-- Power, reset, boot and clock state (spec/22_reset_boot.md, spec/23_electrical_thermal.md). -/
structure PowerSt where
  /-- a device reset is in progress (R403) -/
  inReset : Bool
  /-- boot steps done since the release: OTP read, self-tests, ROM copy (R407) -/
  otpRead : Bool
  tested : Bool
  copied : Bool
  /-- KP failed R208 or its memory checker; a known-answer test failed; the key hash read with an error (R408, R410) -/
  kpFail : Bool
  katFail : Bool
  keyBad : Bool
  /-- OTP words programmed in the device's life, by address (R409) -/
  fuse : Tbl Word
  /-- the IEEE 1149.1 TAP stands in its reset state (R403) -/
  tapReset : Bool
  /-- ports that train their link (R407) -/
  train : List Nat
  /-- tick of the entry into holdover; its 10 ms have passed with the reference within limits (R417) -/
  hold : Option Nat
  holdLate : Bool
  /-- consecutive samples with THM_MAX at 125 °C or more (R425) -/
  hot : Nat
  /-- fraction of THM_LIFE in 2^-16 ms; tick of the next addition (R426) -/
  lifeFrac : Nat
  lifeDue : Nat
  /-- AGE_WARN has been raised for 80 % and for 100 % (R426) -/
  age80 : Bool
  age100 : Bool
deriving DecidableEq, Repr

def PowerSt.init : PowerSt where
  inReset := false
  otpRead := false
  tested := false
  copied := false
  kpFail := false
  katFail := false
  keyBad := false
  fuse := []
  tapReset := true
  train := []
  hold := none
  holdLate := false
  hot := 0
  lifeFrac := 0
  lifeDue := 800000
  age80 := false
  age100 := false

/-- The state of the block. -/
structure State where
  /-- commands that wait, first in, first out -/
  pending : List Instr
  /-- ticks of the island clocks since the release of reset (R1) -/
  tick : Nat
  /-- TS, the 64-bit global timestamp, always below 2^64 (R1) -/
  ts : Nat
  /-- the model's own counter of free values (log entry 2) -/
  free : Nat
  /-- register words by internal address; an absent one reads its reset value -/
  regs : Tbl Word
  /-- holding registers by the address of the held word (R434) -/
  hold : Tbl Word
  /-- memories, in canonical form (Memory.wf) -/
  mem : List Host.Cell
  /-- lanes by link number -/
  lanes : Tbl Lane
  /-- flight controllers -/
  fcs : Tbl FcSt
  /-- flight slots, by 2 n + f -/
  slots : Tbl SlotSt
  /-- comparators 0–127 and trip pins 128–143 -/
  cmps : Tbl CmpSt
  /-- trip outputs of the 176 sources (R167) -/
  tripOut : Nat
  /-- staged values of trip-group registers, by address (R178) -/
  staged : Tbl Word
  /-- pulse-width pairs -/
  pwms : Tbl PwmSt
  /-- TS of the last edge on TOW_IN (R194) -/
  towIn : Nat
  /-- ticks at which TOW_OUT rises, newest first, of pulses that are not over (R194) -/
  towOut : List Nat
  /-- another module pulls SAFE_n low -/
  safePinExt : Bool
  /-- the EJ4 drives SAFE_n low (R405) -/
  safeDriven : Bool
  /-- pending interrupt lines of each pair (R243) -/
  irq : Tbl DWord
  /-- event records on their way (R337) -/
  hubq : List EvRec
  /-- coefficient sets (R130), by 4 n + 2 f + bank -/
  banks : Tbl (List Byte)
  /-- control-store words (spec/16), by key -/
  cs : Tbl Nat
  /-- analog groups: 0–15 the FCs, 16–19 the hub -/
  adcs : Tbl AdcSt
  /-- host ports: 0 HA, 1 HB -/
  ports : Tbl PortSt
  /-- the Keeper firmware -/
  keep : KeepSt
  /-- what the ports have sent into host memory, newest first -/
  out : List HostOut
  /-- TS of the last rising edge on each EVT_IO pin (R146, R333) -/
  evtRise : Tbl Nat
  /-- wear state of the lanes -/
  wears : Tbl WearSt
  /-- capability tags by granule key (byte key / 8): the three copies as bits (R306); an absent one is untagged -/
  tags : Tbl Nat
  /-- bytes of a memory that hold bit errors: 1 correctable, 2 uncorrectable (R304) -/
  ecc : Tbl Nat
  /-- LRES.W reservation of each pair: its granule key (R222, R301) -/
  resv : Tbl Nat
  /-- tick of the next due slew step (R330) -/
  slewNext : Nat
  /-- tick at which a missing edge of a follower is noticed (R331) -/
  syncDue : Option Nat
  /-- tick at which SYNC_OUT last rises (R331) -/
  syncOut : Option Nat
  /-- pairs whose TS_ALARM is armed (R339) -/
  alarms : List Nat
  /-- queues that dropped a record since the last one delivered to them (R334) -/
  dropped : List Nat
  /-- the scrub that runs (R313) -/
  scrub : Option ScrubSt
  /-- the image fill that runs: pair, memory, tick of its end (R311) -/
  imgFill : Option (Nat × Nat × Nat)
  /-- pairs released and not recalled since (R384, R385) -/
  rel : List Nat
  /-- DMA channels -/
  dmas : Tbl DmaSt
  /-- channel that last held the datapath of each DMA engine (R322) -/
  dmaHold : Tbl Nat
  /-- load ports: 0–15 the FCs, 16 the Keeper (R284) -/
  mcs : Tbl McsSt
  /-- Glove pairs: 0–15 IP, 16–19 OP, 20 KP -/
  cores : Tbl CoreSt
  /-- tick at which the datapath of each DMA engine is free -/
  dmaFree : Tbl Nat
  /-- power, reset, boot and clocks -/
  pwr : PowerSt
  /-- SEQ of the last record that the Keeper served in each slot of a request ring, by 16 p + k (R386) -/
  rings : Tbl Nat
  /-- tick at which the trip output of a source last fell (R171) -/
  outFell : Tbl Nat
  /-- tick at which a trip group latched (R171) -/
  latchTick : Tbl Nat
  /-- ticks at which pair 0 receives the pulses stamped on TOW_IN, oldest first (R194) -/
  towRx : List Nat
deriving DecidableEq, Repr

/-- The machine stops with a fault. No command of this model raises one: every exception of the spec is a next state. -/
inductive Fault where
  /-- Never raised by a meaning of this model (safe). -/
  | none
deriving DecidableEq, Repr

/-- A command without a meaning. -/
inductive Refusal where
  /-- The command has no meaning yet; raised by its arm of `exec` only (safe: the run stops). -/
  | notModelled (mnemonic : String)
deriving DecidableEq, Repr

/-- The machine at device reset: no command waits, every register at its reset value, memories listed empty. -/
def State.reset : State where
  pending := []
  tick := 0
  ts := 0
  free := 0
  regs := []
  hold := []
  mem := []
  lanes := []
  fcs := []
  slots := []
  cmps := []
  tripOut := 0
  staged := []
  pwms := []
  towIn := 0
  towOut := []
  safePinExt := false
  safeDriven := true
  irq := []
  hubq := []
  banks := []
  cs := []
  adcs := []
  ports := []
  keep := KeepSt.init
  out := []
  evtRise := []
  wears := []
  tags := []
  ecc := []
  resv := []
  slewNext := 0
  syncDue := none
  syncOut := none
  alarms := []
  dropped := []
  scrub := none
  imgFill := none
  rel := []
  dmas := []
  dmaHold := []
  mcs := []
  cores := []
  dmaFree := []
  pwr := PowerSt.init
  rings := []
  outFell := []
  latchTick := []
  towRx := []

end Sys2Proof.Machine
end

