-- ==== Sys2Proof/Machine/Ops.lean ====
section
/-! DEFINITION. The named operations over the state: registers and their fields, hidden tables, time, interrupt lines and
event records. Every meaning reads and writes the state through these. -/

namespace Sys2Proof.Machine

/-- Number of the slice in OTP whose calibration register stands at offset `o` of a row (R144): the FC groups' five slices each,
then the hub groups' nine each. -/
def sliceWord (r : RegRow) (o : Nat) : Nat :=
  if r.base < 0x70000000 then 5 * (o / 0x100000) + o % 0x100000 / 8 else 80 + 9 * (o / 0x1000) + o % 0x1000 / 8

/-- Reset value of the register at an address, as its register table gives it: the map's row, and the registers whose reset
value depends on the instance or on the part's OTP (R2, spec/22_reset_boot.md). DESIGN CHOICE (log entry 83): FC_CYC_STAT.LEADER
reads the table's 0 until a gang has been formed. -/
def resetWord (a : Nat) : Word :=
  match regRow a with
  | none => 0
  | some r =>
    let o := a - r.base
    match r.sp with
    | 1 => BitVec.ofNat 32 (o % 0x1000 / 4)
    | 2 => if a < 0x70000000 then 4 else 8
    | 3 => if (a < 0x70000000 && o % 0x1000 == 16) || (0x70000000 ≤ a && o % 0x1000 == 32) then 0x01000000 else 0
    | 4 => if o % 0x40 = 20 then 0x107 else 0
    | 5 => if o / 0x40 = 20 then r.reset ||| 0x01000000 else r.reset
    | 6 => if o % 0x40 = 0 then BitVec.ofNat 32 (64 * (o / 0x100000) + o % 0x100000 / 0x40) else r.reset
    | 7 => r.reset ||| (Config.otpWord 0x78000010 &&& 0x00FF0000) ||| (if 0x10000 ≤ o then 0x01000000 else 0)
    | 8 => Config.otpWord 0x78000014
    | 9 => Config.otpWord 0x78000018
    | 10 => r.reset ||| (Config.otpWord a &&& 0x00FF0000)
    | 11 => r.reset ||| (Config.otpWord a &&& 0x4)
    | 12 => Config.otpWord a
    | 13 => Config.otpWord a &&& 0xFFFF
    | 14 => Config.otpWord a &&& 0xFFFFF
    | 15 => Config.otpWord a &&& 0x8FFFFFFF
    | 16 => Config.otpWord (0x78001000 + 8 * sliceWord r o) &&& 0xFFFF
    | 17 => Config.otpWord (0x78001004 + 8 * sliceWord r o) &&& 0xFFFFF
    | _ => r.reset

/-- Internal address of offset `o` of BAR0 of port `p`. -/
def bar0 (p o : Nat) : Nat := 0x100000000 + 0x10000 * p + o

/-- Content of the register at an address. -/
def State.rg (s : State) (a : Nat) : Word := tget (resetWord a) s.regs a

/-- Store the content of the register at an address. -/
def State.wr (s : State) (a : Nat) (v : Word) : State := { s with regs := tput s.regs a v }

/-- Content of a register as a number. -/
def State.rn (s : State) (a : Nat) : Nat := (s.rg a).toNat

/-- A field of a register. -/
def State.fld (s : State) (a : Nat) (f : Fld) : Nat := fget (s.rg a) f

/-- Whether a one-bit field is 1. -/
def State.bit (s : State) (a : Nat) (f : Fld) : Bool := s.fld a f != 0

/-- Set a field of a register. -/
def State.sf (s : State) (a : Nat) (f : Fld) (x : Nat) : State := s.wr a (fput (s.rg a) f x)

/-- Set a one-bit field to a Bool. -/
def State.sb (s : State) (a : Nat) (f : Fld) (b : Bool) : State := s.sf a f (b2n b)

/-- Set a flag. -/
def State.flag (s : State) (a : Nat) (f : Fld) : State := s.sf a f 1

/-- A LO/HI pair of registers, HI at the next word. -/
def State.r64 (s : State) (a : Nat) : Nat := s.rn a + 4294967296 * s.rn (a + 4)

/-- Store a LO/HI pair of registers, HI at the next word. -/
def State.w64 (s : State) (a : Nat) (v : Nat) : State :=
  (s.wr a (BitVec.ofNat 32 v)).wr (a + 4) (BitVec.ofNat 32 (v / 4294967296))

/-- Increment a saturating counter field. -/
def State.incSat (s : State) (a : Nat) (f : Fld) : State := s.sf a f (satInc f.w (s.fld a f))

/-- The lane behind link `l`. -/
def State.lane (s : State) (l : Nat) : Lane := tget Lane.init s.lanes l

/-- Change the lane behind link `l`. -/
def State.mapLane (s : State) (l : Nat) (f : Lane → Lane) : State := { s with lanes := tput s.lanes l (f (s.lane l)) }

/-- The hidden state of FC `n`. -/
def State.fc (s : State) (n : Nat) : FcSt := tget FcSt.init s.fcs n

/-- Change the hidden state of FC `n`. -/
def State.mapFc (s : State) (n : Nat) (f : FcSt → FcSt) : State := { s with fcs := tput s.fcs n (f (s.fc n)) }

/-- The hidden state of flight slot `f` of FC `n`. -/
def State.slot (s : State) (n f : Nat) : SlotSt := tget SlotSt.init s.slots (2 * n + f)

/-- Change the hidden state of flight slot `f` of FC `n`. -/
def State.mapSlot (s : State) (n f : Nat) (g : SlotSt → SlotSt) : State :=
  { s with slots := tput s.slots (2 * n + f) (g (s.slot n f)) }

/-- Comparator `c` (0–127) or trip pin `c − 128` (128–143). -/
def State.cmp (s : State) (c : Nat) : CmpSt := tget CmpSt.init s.cmps c

/-- Change a comparator or trip pin. -/
def State.mapCmp (s : State) (c : Nat) (f : CmpSt → CmpSt) : State := { s with cmps := tput s.cmps c (f (s.cmp c)) }

/-- Pulse-width pair `k`. -/
def State.pwm (s : State) (k : Nat) : PwmSt := tget PwmSt.init s.pwms k

/-- Change pulse-width pair `k`. -/
def State.mapPwm (s : State) (k : Nat) (f : PwmSt → PwmSt) : State := { s with pwms := tput s.pwms k (f (s.pwm k)) }

/-- Analog group `g`. -/
def State.adc (s : State) (g : Nat) : AdcSt := tget AdcSt.init s.adcs g

/-- Change an analog group. -/
def State.mapAdc (s : State) (g : Nat) (f : AdcSt → AdcSt) : State := { s with adcs := tput s.adcs g (f (s.adc g)) }

/-- Host port `p`. -/
def State.port (s : State) (p : Nat) : PortSt := tget PortSt.init s.ports p

/-- Change a host port. -/
def State.mapPort (s : State) (p : Nat) (f : PortSt → PortSt) : State := { s with ports := tput s.ports p (f (s.port p)) }

/-- Change the Keeper. -/
def State.mapKeep (s : State) (f : KeepSt → KeepSt) : State := { s with keep := f s.keep }

/-- The next free value's index (an undefined value of the manual, R7). -/
def State.nextFree (s : State) : State := { s with free := s.free + 1 }

/-- An undefined word (R7). -/
def State.freeWord (s : State) : Word := Config.freeWord s.free

/-- Let the time run to a tick, if it lies ahead; TS counts with it (R1). -/
def State.atTick (s : State) (t : Nat) : State :=
  if s.tick < t then { s with tick := t, ts := (s.ts + (t - s.tick)) % 2 ^ 64 } else s

/-- Let the time run until TS reads `t`, if that lies ahead. -/
def State.atTs (s : State) (t : Nat) : State :=
  if s.ts < t then { s with ts := t % 2 ^ 64, tick := s.tick + (t - s.ts) } else s

/-- Make interrupt line `l` of pair `p` pending (R243, R339). -/
def State.line (s : State) (p l : Nat) : State :=
  { s with irq := tput s.irq p (tget 0 s.irq p ||| BitVec.ofNat 64 (2 ^ l)) }

/-- The enabled queues that EVT_ROUTE gives a source, as a mask (R335). -/
def State.routeOf (s : State) (src : Nat) : Nat :=
  forN 32 (fun q m => if nbit (s.rn (Reg.EVT_ROUTE src)) q && s.bit (Reg.EVT_QCFG q) F.EVT_QCFG_EN then m + 2 ^ q else m) 0

/-- Raise an event: its record carries TS, source, code and payload, and is generated in every enabled queue of its route; a
record that no enabled queue takes is discarded (R334–R336). -/
def State.raise (s : State) (src code pay : Nat) : State :=
  let m := s.routeOf src
  let r : EvRec :=
    { ts := s.ts, src := src, code := code, pay := pay % 2 ^ 32, queues := m, slewing := s.rn Reg.TS_SLEW_LEFT != 0 }
  let s1 := if m = 0 then s else { s with hubq := s.hubq ++ [r] }
  forN 32 (fun q s => if nbit m q then s.wr (Reg.EVT_QGEN q) (s.rg (Reg.EVT_QGEN q) + 1) else s) s1

/-- Raise an event when a condition holds. -/
def State.raiseIf (s : State) (c : Bool) (src code pay : Nat) : State := if c then s.raise src code pay else s

/-- Set a flag, and raise an event when the flag goes from 0 to 1. -/
def State.flagOnce (s : State) (a : Nat) (f : Fld) (src code pay : Nat) : State :=
  let was := s.bit a f
  (s.flag a f).raiseIf (!was) src code pay

/-- The outcome of a command: a next state. -/
abbrev Res := Host.Outcome State Fault Refusal

/-- Device state code of HIF_DEVSTATE (spec/22_reset_boot.md). -/
def State.dev (s : State) : Nat := s.fld (Reg.HIF_DEVSTATE 0) F.HIF_DEVSTATE_STATE

end Sys2Proof.Machine
end

