-- ==== Sys2Proof/Machine/Memory.lean ====
section
/-! DEFINITION. The memories of the EJ4 (spec/17_memory_ecc_dma.md, R429) as one list of cells, keyed by the internal address of
the shared SRAM and the scratchpads, and by keys of the model for the memories that each pair sees at the same address. -/

namespace Sys2Proof.Machine

/-- What a byte that nothing has written reads as (log entry 5). -/
def emptyByte : Byte := 0

/-- Read one byte of a memory list. -/
def memGet (m : List Host.Cell) (a : Nat) : Byte := tget emptyByte m a

/-- Write one byte of a memory list, keeping its canonical form: rising addresses, no entry that reads as an empty byte. -/
def memPut (m : List Host.Cell) (a : Nat) (b : Byte) : List Host.Cell :=
  if b = emptyByte then tdel m a else tput m a b

/-- Strictly rising keys. -/
def rising : List Nat → Bool
  | a :: b :: r => decide (a < b) && rising (b :: r)
  | _ => true

/-- The canonical form of memory. -/
def Memory.wf (m : List Host.Cell) : Bool := rising (m.map (·.1)) && m.all fun e => e.2 != emptyByte

/-- Read one byte of memory. -/
def State.rdByte (s : State) (a : Nat) : Byte := memGet s.mem a

/-- Write one byte of memory, with its check bits (R304). A write of data clears the tag of the granule (R270) and ends the
reservations on it (R222). -/
def State.wrByte (s : State) (a : Nat) (b : Byte) : State :=
  { s with mem := memPut s.mem a b, tags := tdel s.tags (a / 8), ecc := tdel s.ecc a,
           resv := s.resv.filter fun e => e.2 != a / 8 }

/-- Read `n` bytes from address `a`. -/
def State.rdBytes (s : State) (a n : Nat) : List Byte := (List.range n).map fun i => s.rdByte (a + i)

/-- Write bytes from address `a`, the first at the lowest address. -/
def State.wrBytes (s : State) (a : Nat) : List Byte → State
  | [] => s
  | b :: r => (s.wrByte a b).wrBytes (a + 1) r

/-- Write a long run of bytes from key `a`, as `wrBytes` does byte by byte; every tag of its granules is cleared. -/
def State.wrRun (s : State) (a : Nat) (l : List Byte) : State :=
  let n := l.length
  let lo := s.mem.filter fun e => decide (e.1 < a)
  let hi := s.mem.filter fun e => decide (a + n ≤ e.1)
  let mid := ((List.range n).zip l).filterMap fun e => if e.2 = emptyByte then none else some (a + e.1, e.2)
  let out := fun k => decide (k < a) || decide (a + n ≤ k)
  { s with mem := lo ++ mid ++ hi, ecc := s.ecc.filter fun e => out e.1,
           tags := s.tags.filter fun e => decide (8 * e.1 + 8 ≤ a) || decide (a + n ≤ 8 * e.1),
           resv := s.resv.filter fun e => decide (8 * e.2 + 8 ≤ a) || decide (a + n ≤ 8 * e.2) }

/-- A little-endian number of `n` bytes at address `a`. -/
def State.rdLe (s : State) (a n : Nat) : Nat := leNat (s.rdBytes a n)

/-- Store a little-endian number of `n` bytes at address `a`. -/
def State.wrLe (s : State) (a n v : Nat) : State := s.wrBytes a (leBytes n v)

/-- Key of the scratchpad of FC `n` at an offset (R429). -/
def scratch (n o : Nat) : Nat := 0x21000000 + 0x200000 * n + o

/-- Key of the shared SRAM at an offset. -/
def sram (o : Nat) : Nat := 0x40000000 + o

/-- Key of the ITCM of pair `p` at an offset (a key of the model: each pair sees its own at 0x0000_0000). -/
def itcm (p o : Nat) : Nat := 0x200000000 + 0x100000 * p + o

/-- Key of the DTCM of pair `p` (seen at 0x1000_0000). -/
def dtcm (p o : Nat) : Nat := 0x200000000 + 0x100000 * p + 0x40000 + o

/-- Key of the fault RAM of pair `p` (seen at 0x1FFF_FC00). -/
def faultRam (p o : Nat) : Nat := 0x200000000 + 0x100000 * p + 0x80000 + o

/-- Key of a control-store word: FC stores 0 Lock, 1 observer, 2 balancer; key spaces of the Keeper port follow. -/
def csKey (n st a : Nat) : Nat := (n * 3 + st) * 4096 + a

/-- Key of a word of the vertical store of pair `p`, and of an entry of its decode table. -/
def csVert (p a : Nat) : Nat := 0x100000 + p * 4096 + a

def csDec (p a : Nat) : Nat := 0x200000 + p * 64 + a

/-- Key of byte `b` of a control-store word in the error map, and of byte `o` of the checkpoint store of pair `p`. -/
def csByte (key b : Nat) : Nat := 0x400000000 + 32 * key + b

def ckptByte (p o : Nat) : Nat := 0x200000000 + 0x100000 * p + 0xC0000 + o

/-- Data bytes of a word of an FC store (R283): Lock, observer, balancer. -/
def csWidth (st : Nat) : Nat := if st = 0 then 3 else if st = 1 then 20 else 16

/-- A memory by a byte's key (R305): its MID and the byte's offset in it. -/
def midOf (k : Nat) : Nat × Nat :=
  if 0x200000000 ≤ k then
    let o := k - 0x200000000
    let p := o / 0x100000
    let i := o % 0x100000
    if i < 0x40000 then (0x01 + 256 * p, i) else if i < 0x80000 then (0x02 + 256 * p, i - 0x40000) else if i < 0xC0000 then (0x03 + 256 * p, i - 0x80000)
    else (0x04 + 256 * p, i - 0xC0000)
  else if 0x40000000 ≤ k then (0x20, k - 0x40000000)
  else (0x10 + 256 * ((k - 0x21000000) / 0x200000), (k - 0x21000000) % 0x200000)

/-- Key and size in bytes of a memory of pairs, FCs or the hub by its MID; `none` for a store or an unknown MID. -/
def memOfMid (mid : Nat) : Option (Nat × Nat) :=
  let u := mid / 256
  match mid % 256 with
  | 0x01 => if u < 21 then some (itcm u 0, 0x40000) else none
  | 0x02 => if u < 21 then some (dtcm u 0, 0x40000) else none
  | 0x03 => if u < 21 then some (faultRam u 0, 0x400) else none
  | 0x10 => if u < 16 then some (scratch u 0, 0x200000) else none
  | 0x20 => if u = 0 then some (sram 0, 0x2000000) else none
  | _ => none

/-- A memory reports a corrected byte (R304). -/
def State.noteCe (mid : Nat) (s : State) : State :=
  (s.incSat Reg.MEM_CE_CNT ⟨0, 32⟩).flagOnce Reg.MEM_STAT F.MEM_STAT_CE_SEEN 1671 0x58 mid

/-- A memory reports an uncorrectable byte at a granule offset, byte `b` of it (R305). -/
def State.noteUe (mid off b : Nat) (s : State) : State :=
  let s := s.incSat Reg.MEM_UE_CNT ⟨0, 32⟩
  let s := s.wr Reg.MEM_ERR_MID (BitVec.ofNat 32 (mid % 65536 + 65536 * (b % 8)))
  let s := s.wr Reg.MEM_ERR_ADDR (BitVec.ofNat 32 off)
  s.flagOnce Reg.MEM_STAT F.MEM_STAT_UE_SEEN 1671 0x59 (mid % 65536 + 65536 * (b % 8))

/-- The error bookkeeping of a read of `n` bytes (R304, R305): every byte in error is counted; answers the key of the first
uncorrectable byte. -/
def State.eccCheck (s : State) (a n : Nat) : Option Nat × State :=
  (List.range n).foldl (fun r i =>
    let k := a + i
    let m := midOf k
    match tget 0 s.ecc k with
    | 0 => r
    | 1 => (r.1, r.2.noteCe m.1)
    | _ => (r.1.or (some k), r.2.noteUe m.1 (m.2 / 8 * 8) (k % 8))) (none, s)

/-- Whether a control-store word of `w` bytes reads with an uncorrectable error (R288). -/
def State.csBad (s : State) (key w : Nat) : Bool := (List.range w).any fun b => decide (2 ≤ tget 0 s.ecc (csByte key b))

/-- A word of an FC control store, if it is usable: its 64-word segment is valid and it reads without an uncorrectable error
(R283, R288). -/
def State.csWord (s : State) (n st a : Nat) : Option Nat :=
  if nbit (s.rn (Reg.MCS_VMAPE n st)) (a / 64) && !s.csBad (csKey n st a) (csWidth st) then some (tget 0 s.cs (csKey n st a))
  else none

/-- What a read of a control-store word counts and reports (R288, R305): `port` is the load port, `sel` the payload's STORE and
PAIR, `off` the word's offset in bytes of its store. -/
def State.csNote (key w mid off port src sel a : Nat) (s : State) : State :=
  let s1 := forN w (fun b s =>
    match tget 0 s.ecc (csByte key b) with
    | 0 => s
    | 1 => s.noteCe mid
    | _ => s.noteUe mid off b) s
  if s.csBad key w then s1.flagOnce (Reg.MCS_STAT port) F.MCS_STAT_UE src 0x53 (sel + 65536 * a) else s1

/-- The same for a word of a store of FC `n`. -/
def State.csNoteFc (n st a : Nat) (s : State) : State :=
  if nbit (s.rn (Reg.MCS_VMAPE n st)) (a / 64) then
    s.csNote (csKey n st a) (csWidth st) (0x11 + st + 256 * n) (a * (if st = 0 then 4 else csWidth st)) n (1024 + 24 * n + 3) st a
  else s

/-- The tag of a granule: the majority of its copies (R306). -/
def State.tagOf (s : State) (g : Nat) : Bool :=
  let c := tget 0 s.tags g
  decide (2 ≤ b2n (nbit c 0) + b2n (nbit c 1) + b2n (nbit c 2))

/-- Set or clear every copy of a tag. -/
def State.setTag (g : Nat) (b : Bool) (s : State) : State :=
  { s with tags := if b then tput s.tags g 7 else tdel s.tags g }

/-- A read of a tag corrects a minority copy (R306). -/
def State.readTag (g : Nat) (s : State) : Bool × State :=
  let c := tget 0 s.tags g
  let t := s.tagOf g
  if c = 0 || c = 7 then (t, s)
  else (t, ((s.setTag g t).incSat Reg.MEM_TAG_FIX ⟨0, 32⟩).flagOnce Reg.MEM_STAT F.MEM_STAT_CE_SEEN 1671 0x58 (midOf (8 * g)).1)

end Sys2Proof.Machine
end

