-- ==== Sys2Proof/Machine/Sluice.lean ====
section
/-! DEFINITION. The Sluice (spec/09_sluice_trip.md): trip sources, trip groups, all-stop sources, the state of flights and
pairs under a trip. -/

namespace Sys2Proof.Machine

/-- The cycle and clock source of FC `n`: itself, or its leader while it follows one (R34). -/
def State.leader (s : State) (n : Nat) : Nat :=
  if s.bit (Reg.FC_CYC_STAT n) F.FC_CYC_STAT_FOLLOWER then s.fld (Reg.FC_CYC_STAT n) F.FC_CYC_STAT_LEADER else n

/-- FC_CYC_COUNT that a FC's cycle carries: its leader's (R34). -/
def State.count (s : State) (n : Nat) : Word := s.rg (Reg.FC_CYC_COUNT (s.leader n))

/-- Cycle length in ticks (R20). -/
def State.tcyc (s : State) (n : Nat) : Nat := 200 * s.fld (Reg.FC_CYC_LEN (s.leader n)) F.FC_CYC_LEN_LEN

/-- L_apply in ticks (R26). -/
def State.lapply (s : State) (n : Nat) : Nat := s.fld (Reg.FC_APPLY_LAT (s.leader n)) F.FC_APPLY_LAT_LAT

/-- RUN of the FC or of its gang leader. -/
def State.runOn (s : State) (n : Nat) : Bool := s.bit (Reg.FC_CYC_CTRL (s.leader n)) F.FC_CYC_CTRL_RUN

/-- RUNNING of the FC or of its gang leader (R34). -/
def State.cycling (s : State) (n : Nat) : Bool := s.bit (Reg.FC_CYC_STAT (s.leader n)) F.FC_CYC_STAT_RUNNING

/-- Whether slot `f` of FC `n` holds a bound flight. -/
def State.bound (s : State) (n f : Nat) : Bool := s.bit (Reg.FC_FLT_CFG n f) F.FC_FLT_CFG_BOUND

/-- Number of FCs of the flight in slot `f` of FC `n`. -/
def State.gangSize (s : State) (n f : Nat) : Nat := 2 ^ s.fld (Reg.FC_FLT_CFG n f) F.FC_FLT_CFG_GANG

/-- Flight number of the flight in slot `f` of FC `n`. -/
def State.flightOf (s : State) (n f : Nat) : Nat := s.fld (Reg.FC_FLT_CFG n f) F.FC_FLT_CFG_FLIGHT

/-- Whether slot `f` of FC `n` is the leader's slot of a bound flight (R10). -/
def State.leads (s : State) (n f : Nat) : Bool := s.bound n f && s.leader n == n

/-- The leader slots of all bound flights, as (FC, slot). -/
def State.boundSlots (s : State) : List (Nat × Nat) :=
  (List.range 32).filterMap fun k => if s.leads (k / 2) (k % 2) then some (k / 2, k % 2) else none

/-- The leader slot of a bound flight, by flight number. -/
def State.slotOf (s : State) (flight : Nat) : Option (Nat × Nat) :=
  s.boundSlots.find? fun p => s.flightOf p.1 p.2 == flight

/-- The FCs of a flight, the leader first. -/
def State.members (s : State) (n f : Nat) : List Nat :=
  if s.bound n f then (List.range (s.gangSize n f)).map (n + ·) else [n]

/-- The links of a flight in ascending gang lane order (R68). -/
def State.slotLinks (s : State) (n f : Nat) : List Nat :=
  (s.members n f).flatMap fun m =>
    (List.range (s.fld (Reg.FC_FLT_CFG m f) F.FC_FLT_CFG_COUNT)).map fun i =>
      64 * m + s.fld (Reg.FC_FLT_CFG m f) F.FC_FLT_CFG_FIRST_LANE + i

/-- The slot of its own FC that a link belongs to, if a bound flight claims it. -/
def State.linkSlot (s : State) (l : Nat) : Option Nat :=
  [0, 1].find? fun f =>
    s.bound (l / 64) f &&
      (s.fld (Reg.FC_FLT_CFG (l / 64) f) F.FC_FLT_CFG_FIRST_LANE ≤ l % 64 &&
        l % 64 < s.fld (Reg.FC_FLT_CFG (l / 64) f) F.FC_FLT_CFG_FIRST_LANE +
          s.fld (Reg.FC_FLT_CFG (l / 64) f) F.FC_FLT_CFG_COUNT)

/-- The leader FC and slot of the flight that claims a link. -/
def State.linkFlight (s : State) (l : Nat) : Option (Nat × Nat) :=
  (s.linkSlot l).map fun f => (s.leader (l / 64), f)

/-- State code of the flight led by slot `f` of FC `n` (R76). -/
def State.fltState (s : State) (n f : Nat) : Nat := s.fld (Reg.FC_FLT_STAT n f) F.FC_FLT_STAT_STATE

/-- RUNNING or HELD. -/
def State.runs (s : State) (n f : Nat) : Bool := s.fltState n f == 3 || s.fltState n f == 4

/-- Whether a source's active condition holds (SLU_SRC_ACT). -/
def State.srcActive (s : State) (k : Nat) : Bool := nbit (s.rn (Reg.SLU_SRC_ACT (k / 32))) (k % 32)

/-- Source mask of group `g`, 176 bits. -/
def State.groupMask (s : State) (g : Nat) : Nat :=
  (forN 6 (fun w m => m + s.rn (Reg.SLU_GSRC g w) * 2 ^ (32 * w)) 0) % 2 ^ 176

/-- Whether any all-stop source is active (R169). -/
def State.allStop (s : State) : Bool := s.srcActive 160 || s.srcActive 161 || s.srcActive 162 || s.srcActive 168

/-- Whether group `g` is latched. -/
def State.latched (s : State) (g : Nat) : Bool := s.bit (Reg.SLU_GSTAT g) F.SLU_GSTAT_LATCHED

/-- The latched groups that map a flight number. -/
def State.flightGroups (s : State) (flight : Nat) : List Nat :=
  (List.range 32).filter fun g => s.latched g && nbit (s.rn (Reg.SLU_GFLT g)) flight

/-- Whether a trip is latched for a bound flight, of whatever action (R169, R170). -/
def State.tripped (s : State) (flight : Nat) : Bool := s.allStop || !(s.flightGroups flight).isEmpty

/-- Whether BLOCK applies to a bound flight: an all-stop source, or a latched BLOCK group that maps it. -/
def State.blockOn (s : State) (flight : Nat) : Bool :=
  s.allStop || (s.flightGroups flight).any fun g => !s.bit (Reg.SLU_GCFG g) F.SLU_GCFG_ACTION

/-- Whether FREEZE applies to a bound flight. BLOCK governs when both apply (R56). -/
def State.freezeOn (s : State) (flight : Nat) : Bool :=
  !s.blockOn flight && (s.flightGroups flight).any fun g => s.bit (Reg.SLU_GCFG g) F.SLU_GCFG_ACTION

/-- Whether a pair is held safe: an all-stop source, or a latched group that maps it. -/
def State.pairSafe (s : State) (k : Nat) : Bool :=
  s.allStop || (List.range 32).any fun g => s.latched g && nbit (s.rn (Reg.SLU_GPWM g)) k

/-- Lowest bit set of a source mask. -/
def lowestBit (m : Nat) : Nat := ((List.range 176).find? fun k => nbit m k).getD 0

/-- The active conditions of all 176 sources as one number. -/
def State.activeMask (s : State) : Nat :=
  (forN 6 (fun w m => m + s.rn (Reg.SLU_SRC_ACT w) * 2 ^ (32 * w)) 0) % 2 ^ 176

/-- Whether the trip output of source `k` was 1 in any of the 4 ticks up to and including the present one (R171). -/
def State.lately (s : State) (k : Nat) : Bool :=
  nbit s.tripOut k || s.outFell.any fun e => e.1 == k && decide (s.tick ≤ e.2 + 3)

/-- FIRST of a group that latches now (R171). -/
def State.firstOf (s : State) (g : Nat) : Nat :=
  ((List.range 176).find? fun k => nbit (s.groupMask g) k && s.lately k).getD 0

/-- The bound flights that group `g` maps go to TRIPPED at their next sample instant, whatever the latch does until then
(R170). -/
def State.noteTrip (g : Nat) (s : State) : State :=
  (s.boundSlots.filter fun p => nbit (s.rn (Reg.SLU_GFLT g)) (s.flightOf p.1 p.2)).foldl
    (fun s p => s.mapSlot p.1 p.2 fun y => { y with tripPend := true }) s

/-- GSTAT and GTS of a group that latches, and its event (R171). -/
def State.showLatch (g first : Nat) (s : State) : State :=
  let s := s.sf (Reg.SLU_GSTAT g) F.SLU_GSTAT_LATCHED 1
  let s := s.sf (Reg.SLU_GSTAT g) F.SLU_GSTAT_FIRST first
  let s := s.incSat (Reg.SLU_GSTAT g) F.SLU_GSTAT_TRIPS
  let s := s.w64 (Reg.SLU_GTS_LO g) s.ts
  s.raise 1664 0x30 (g + 32 * s.fld (Reg.SLU_GCFG g) F.SLU_GCFG_ACTION + 256 * first)

/-- Latch group `g` (R171). -/
def State.latchGroup (g : Nat) (s : State) : State :=
  ({ s with latchTick := tput s.latchTick g s.tick }.noteTrip g).showLatch g (s.firstOf g)

/-- FILT of comparator `c`, or for a pin 1 when its N is not 0. -/
def State.filtOf (s : State) (c : Nat) : Nat :=
  if c < 128 then s.fld (Reg.CMP_CFG c) F.CMP_CFG_FILT
  else if s.fld (Reg.SLU_PINCFG (c - 128)) F.SLU_PINCFG_N = 0 then 0 else 1

/-- The comparators blanked from an edge of pair `k` begin their interval (R164). -/
def State.blankFrom (k : Nat) (s : State) : State :=
  forN 128 (fun c s =>
    if s.filtOf c = 2 && s.fld (Reg.CMP_BLANK c) F.CMP_BLANK_BSRC == 0x20 + k then
      s.mapCmp c fun x => { x with blankEnd := s.tick + s.fld (Reg.CMP_BLANK c) F.CMP_BLANK_BLEN }
    else s) s

/-- The outputs of pair `k` take levels; an edge of either starts the blanking intervals that name the pair. -/
def State.setOut (k : Nat) (a b : Bool) (s : State) : State :=
  let x := s.pwm k
  let s := s.mapPwm k fun x => { x with outA := a, outB := b }
  if x.outA = a && x.outB = b then s else s.blankFrom k

/-- Drive a pair to its safe levels at once; a dead time in progress ends with both outputs safe (R174). -/
def State.pwmMakeSafe (k : Nat) (s : State) : State :=
  let s := s.setOut k (s.bit (Reg.PWM_CTRL k) F.PWM_CTRL_SAFE_A) (s.bit (Reg.PWM_CTRL k) F.PWM_CTRL_SAFE_B)
  let s := s.mapPwm k fun p => { p with dtTo := 0, tripped := true }
  s.flag (Reg.PWM_STAT k) F.PWM_STAT_SAFE_NOW

/-- Refresh the derived registers of the Sluice: SRC_ACTIVE of each group, and the maps of latched groups, of flights under
BLOCK and FREEZE and of pairs held safe. A pair that becomes safe goes to its safe levels. -/
def State.sluRefresh (s : State) : State :=
  let act := s.activeMask
  let s := forN 32 (fun g s => s.sb (Reg.SLU_GSTAT g) F.SLU_GSTAT_SRC_ACTIVE (s.groupMask g &&& act != 0)) s
  let bound := s.boundSlots.map fun p => s.flightOf p.1 p.2
  let mapOf := fun (p : Nat → Bool) => forN 32 (fun i m => if p i then m + 2 ^ i else m) 0
  let was := s.rn Reg.SLU_PWM_SAFE
  let s := s.wr Reg.SLU_LATCHED (BitVec.ofNat 32 (mapOf s.latched))
  let s := s.wr Reg.SLU_FLT_BLOCK (BitVec.ofNat 32 (mapOf fun i => bound.contains i && s.blockOn i))
  let s := s.wr Reg.SLU_FLT_FREEZE (BitVec.ofNat 32 (mapOf fun i => bound.contains i && s.freezeOn i))
  let safe := mapOf s.pairSafe
  let s := s.wr Reg.SLU_PWM_SAFE (BitVec.ofNat 32 safe)
  forN 32 (fun k s => if nbit safe k && !nbit was k then s.pwmMakeSafe k else s) s

/-- Latch every enabled group that a trip output now reaches (R170), and refresh the derived registers. -/
def State.sluEval (s : State) : State :=
  (forN 32 (fun g s =>
    if s.bit (Reg.SLU_GCFG g) F.SLU_GCFG_EN && !s.latched g && (s.groupMask g &&& s.tripOut != 0) then s.latchGroup g
    else s) s).sluRefresh

/-- A trip output that rises in the tick in which a group latched may be the lowest of that tick: FIRST, and the record that is
still on its way, name it (R171). -/
def State.reviseFirst (g k : Nat) (s : State) : State :=
  let f := s.fld (Reg.SLU_GSTAT g) F.SLU_GSTAT_FIRST
  if s.latched g && s.latchTick.contains (g, s.tick) && nbit (s.groupMask g) k && decide (k < f) then
    let q := s.hubq.map fun r =>
      if r.src = 1664 && r.code = 0x30 && r.pay % 32 = g && r.ts = s.r64 (Reg.SLU_GTS_LO g) then
        { r with pay := r.pay - 256 * f + 256 * k }
      else r
    ({ s with hubq := q }).sf (Reg.SLU_GSTAT g) F.SLU_GSTAT_FIRST k
  else s

/-- The trip output of source `k` takes a value (R167, R171). -/
def State.setTrip (k : Nat) (out : Bool) (s : State) : State :=
  if nbit s.tripOut k = out then s
  else if out then forN 32 (fun g s => s.reviseFirst g k) { s with tripOut := setBit s.tripOut k true }
  else { s with tripOut := setBit s.tripOut k false, outFell := tput s.outFell k s.tick }

/-- Set the active condition and the trip output of source `k` (R167), and let the groups see them. -/
def State.setSource (k : Nat) (act out : Bool) (s : State) : State :=
  let a := Reg.SLU_SRC_ACT (k / 32)
  let s := s.wr a (BitVec.ofNat 32 (setBit (s.rn a) (k % 32) act))
  (s.setTrip k out).sluEval

/-- An internal source: its trip output is its active condition. -/
def State.setInternal (k : Nat) (on : Bool) (s : State) : State :=
  if s.srcActive k = on then s else s.setSource k on on

/-- Set or clear a cause of the composite source of FC `n` (R168). -/
def State.setCause (n c : Nat) (on : Bool) (s : State) : State :=
  let v := setBit (s.rn (Reg.SLU_FCSRC n)) c on
  (s.wr (Reg.SLU_FCSRC n) (BitVec.ofNat 32 v)).setInternal (144 + n) (v != 0)

/-- The clear of R172 on group `g`: refused while a masked source is active, where each masked comparator whose FO is 1 sets
CLR_REFUSED (R165); else the latch and the masked Q clear. Answers whether it cleared. -/
def State.clearGroup (g : Nat) (s : State) : Bool × State :=
  let m := s.groupMask g
  if m &&& s.activeMask != 0 then
    (false, forN 128 (fun c s => if nbit m c && (s.cmp c).fo then s.flag (Reg.CMP_STAT c) F.CMP_STAT_CLR_REFUSED else s) s)
  else
    let s := s.sf (Reg.SLU_GSTAT g) F.SLU_GSTAT_LATCHED 0
    let s := forN 176 (fun k s => if nbit m k then s.setTrip k false else s) s
    let s := forN 144 (fun c s =>
      if nbit m c && (s.cmp c).q then
        let s := s.mapCmp c fun x => { x with q := false }
        if c < 128 then s.sf (Reg.CMP_STAT c) F.CMP_STAT_Q 0
        else s.wr Reg.SLU_PINSTAT (BitVec.ofNat 32 (setBit (s.rn Reg.SLU_PINSTAT) (16 + (c - 128)) false))
      else s) s
    (true, s.sluEval)

/-- The lowest active source of group `g`. -/
def State.lowestActive (s : State) (g : Nat) : Nat := lowestBit (s.groupMask g &&& s.activeMask)

/-- Put the FO and Q of comparator or pin `c` into its registers and the Sluice. -/
def State.publishCmp (c : Nat) (s : State) : State :=
  let x := s.cmp c
  let s :=
    if c < 128 then
      (((((s.sb (Reg.CMP_STAT c) F.CMP_STAT_RAW x.raw).sb (Reg.CMP_STAT c) F.CMP_STAT_FO x.fo).sb
        (Reg.CMP_STAT c) F.CMP_STAT_Q x.q).sb (Reg.CMP_STAT c) F.CMP_STAT_HIGH_NOW (x.out == 1)).sb
        (Reg.CMP_STAT c) F.CMP_STAT_LOW_NOW (x.out == 2))
    else
      s.wr Reg.SLU_PINSTAT
        (BitVec.ofNat 32 (setBit (setBit (s.rn Reg.SLU_PINSTAT) (c - 128) x.fo) (16 + (c - 128)) x.q))
  s.setSource c x.fo x.q

/-- FO of comparator or pin `c` takes a value: Q becomes 1 whenever FO is 1 (R165). -/
def State.setFo (c : Nat) (fo : Bool) (s : State) : State :=
  (s.mapCmp c fun x => { x with fo := fo, q := x.q || fo }).publishCmp c

/-- Starts of the blanking intervals of an FC that may reach into the present: the apply-window start plus BOFF of this cycle
and of those before it, back to the first or to one whose interval has ended (R164, R26). -/
def State.blankStarts (s : State) (c : Nat) : List Int :=
  let n := s.fld (Reg.CMP_BLANK c) F.CMP_BLANK_BSRC
  let d := s.lapply n + s.fld (Reg.CMP_BOFF c) F.CMP_BOFF_BOFF
  let back := (d + s.fld (Reg.CMP_BLANK c) F.CMP_BLANK_BLEN) / max 1 (s.tcyc n) + 1
  (List.range (min back ((s.count n).toNat + 1))).map fun j => (((s.fc (s.leader n)).cycTick + d : Nat) : Int) - (j * s.tcyc n : Nat)

/-- Whether comparator `c` is inside a blanking interval (R164). -/
def State.blanked (s : State) (c : Nat) : Bool :=
  let b := s.fld (Reg.CMP_BLANK c) F.CMP_BLANK_BSRC
  if b < 16 then
    s.cycling b && (s.blankStarts c).any fun (t : Int) =>
      decide (t ≤ s.tick) && decide ((s.tick : Int) < t + s.fld (Reg.CMP_BLANK c) F.CMP_BLANK_BLEN)
  else if 0x20 ≤ b && b < 0x40 then decide (s.tick < (s.cmp c).blankEnd)
  else false

/-- Tick at which the blanking interval in progress ends; the present tick when none is. -/
def State.blankStop (s : State) (c : Nat) : Nat :=
  let b := s.fld (Reg.CMP_BLANK c) F.CMP_BLANK_BSRC
  let len := s.fld (Reg.CMP_BLANK c) F.CMP_BLANK_BLEN
  if b < 16 then
    match (s.blankStarts c).find? fun (t : Int) => decide (t ≤ s.tick) && decide ((s.tick : Int) < t + len) with
    | some t => (t + len).toNat
    | none => s.tick
  else (s.cmp c).blankEnd

/-- The raw signal of comparator or pin `c` takes a value: FO follows at once without a filter; in BLANK a change of FO from 0
to 1 waits for the end of the interval; a MAJ filter waits for its samples (R163, R164). -/
def State.setRaw (c : Nat) (raw : Bool) (s : State) : State :=
  let s := s.mapCmp c fun x => { x with raw := raw }
  match s.filtOf c with
  | 0 => s.setFo c raw
  | 2 => if s.blanked c then s.publishCmp c else s.setFo c raw
  | _ => s.publishCmp c

/-- The window of comparator `c` as its registers give it (R162). -/
def State.winRegs (s : State) (c : Nat) : Window where
  since := s.tick
  low := sx 12 (s.fld (Reg.CMP_THR c) F.CMP_THR_LOW)
  high := sx 12 (s.fld (Reg.CMP_THR c) F.CMP_THR_HIGH)
  hyst := s.fld (Reg.CMP_FILT c) F.CMP_FILT_HYST
  hiEn := s.bit (Reg.CMP_CFG c) F.CMP_CFG_HI_EN
  loEn := s.bit (Reg.CMP_CFG c) F.CMP_CFG_LO_EN

/-- The window in force: until a new window has settled the old thresholds stand. The enables of the new one hold at once
(R439); one that it sets asks, until then, that the input lie beyond the old threshold and the new one, since no output may
stand outside both windows (R179). -/
def State.winNow (s : State) (c : Nat) : Window :=
  let n := s.winRegs c
  match (s.cmp c).settle with
  | some o => { o with hiEn := n.hiEn, loEn := n.loEn, high := if o.hiEn then o.high else max o.high n.high,
                       low := if o.loEn then o.low else min o.low n.low }
  | none => n

/-- The output state of a window for an input in 1/16 mV: 0 IN, 1 OUT_HIGH, 2 OUT_LOW. An output leaves OUT_HIGH when the input
falls below HIGH − HYST (R162); `strict` asks that it lie above that, as R439 says of a change of configuration. -/
def cmpOut (w : Window) (strict : Bool) (was : Nat) (x : Int) : Nat :=
  let d : Int := if strict then 1 else 0
  if was = 1 && w.hiEn && 16 * (w.high - w.hyst) + d ≤ x then 1
  else if was = 2 && w.loEn && x ≤ 16 * (w.low + w.hyst) - d then 2
  else if w.hiEn && 16 * w.high < x then 1
  else if w.loEn && x < 16 * w.low then 2
  else 0

/-- Judge comparator `c` against its present input: entries set their flags and raise their events, and the raw signal
follows the output (R162, R165, R182). With `cfg` a change of configuration is judged (R439): the filter judges anew too. -/
def State.judgeCmp (c : Nat) (cfg : Bool) (s : State) : State :=
  let x := s.cmp c
  let w := s.winNow c
  let o := cmpOut w cfg x.out x.input
  let s := s.mapCmp c fun x => { x with out := o }
  let s :=
    if o = x.out then s
    else if o = 1 then s.flagOnce (Reg.CMP_STAT c) F.CMP_STAT_HI_SEEN (1408 + c) 0x38 (enc 12 w.high)
    else if o = 2 then s.flagOnce (Reg.CMP_STAT c) F.CMP_STAT_LO_SEEN (1408 + c) 0x39 (enc 12 w.low)
    else s.flag (Reg.CMP_STAT c) F.CMP_STAT_BACK_IN
  if x.raw = (o != 0) && !cfg then s.publishCmp c else s.setRaw c (o != 0)

/-- LMODE and TBASE of comparator or pin `c`. -/
def State.cycleBase (s : State) (c : Nat) : Option Nat :=
  if c < 128 then
    if s.bit (Reg.CMP_CFG c) F.CMP_CFG_LMODE then some (s.fld (Reg.CMP_CFG c) F.CMP_CFG_TBASE) else none
  else if s.bit (Reg.SLU_PINCFG (c - 128)) F.SLU_PINCFG_LMODE then some (s.fld (Reg.SLU_PINCFG (c - 128)) F.SLU_PINCFG_TBASE)
  else none

/-- A period boundary of time base `tb`: Q of every CYCLE-mode comparator and pin on it takes FO (R165). -/
def State.boundary (tb : Nat) (s : State) : State :=
  forN 144 (fun c s =>
    if s.cycleBase c = some tb && (s.cmp c).q != (s.cmp c).fo then
      (s.mapCmp c fun x => { x with q := x.fo }).publishCmp c
    else s) s

/-- A clear of comparator or pin `c` by its own register: Q clears when FO is 0. -/
def State.clearCmp (c : Nat) (s : State) : State :=
  if (s.cmp c).fo then (if c < 128 then s.flag (Reg.CMP_STAT c) F.CMP_STAT_CLR_REFUSED else s)
  else (s.mapCmp c fun x => { x with q := false }).publishCmp c

/-- New thresholds begin to settle: the window in force stands until WINDOW_SETTLE (R179). -/
def State.beginSettle (c : Nat) (s : State) : State :=
  let w := { s.winNow c with since := s.tick }
  s.mapCmp c fun x => { x with settle := some w }

/-- WINDOW_SETTLE (R179): within 200 ticks of the command the new window is in force; the moment is free. -/
def execWindowSettle (c : Fin 128) (s : State) : Res :=
  match (s.cmp c).settle with
  | none => .next s
  | some w =>
    let s := (s.atTick (w.since + s.freeWord.toNat % 201)).nextFree
    .next ((s.mapCmp c fun x => { x with settle := none }).judgeCmp c true)

/-- CMP_CROSS (R162): the input of comparator `c` takes a value, in raw code of 1/16 mV. -/
def execCmpCross (c : Fin 128) (x : BitVec 16) (s : State) : Res :=
  let s := s.mapCmp c fun y => { y with input := x.toInt }
  .next (if s.pwr.inReset then s else s.judgeCmp c false)

/-- BLANK_END (R164): at the end of the blanking interval FO takes the raw signal within 4 ticks. -/
def execBlankEnd (c : Fin 128) (s : State) : Res :=
  if s.filtOf c = 2 then
    let s := s.atTick (s.blankStop c)
    .next ((s.mapCmp c fun x => { x with blankEnd := min x.blankEnd s.tick }).setFo c (s.cmp c).raw)
  else .next s

/-- FILTER_SAMPLE (R163): one sample of a MAJ filter; FO changes once K of the last N samples agree. -/
def execFilterSample (c : Fin 144) (s : State) : Res :=
  let i := c.val
  if s.filtOf i = 1 then
    let n := if i < 128 then s.fld (Reg.CMP_FILT i) F.CMP_FILT_N else s.fld (Reg.SLU_PINCFG (i - 128)) F.SLU_PINCFG_N
    let k := if i < 128 then s.fld (Reg.CMP_FILT i) F.CMP_FILT_K else s.fld (Reg.SLU_PINCFG (i - 128)) F.SLU_PINCFG_K
    let l := ((s.cmp i).raw :: (s.cmp i).samples).take n
    let s := s.mapCmp i fun x => { x with samples := l }
    if k ≤ l.count true then .next (s.setFo i true)
    else if k ≤ l.count false then .next (s.setFo i false)
    else .next s
  else .next s

/-- CYCLE_BOUNDARY (R165): a period boundary of a time base, 0x00–0x0F an FC, 0x20–0x3F a pulse-width pair. -/
def execCycleBoundary (tb : Fin 64) (s : State) : Res := .next (s.boundary tb)

/-- CMP_CLR (R165): a write of 1 to CMP_CLRc.CLR. -/
def execCmpClr (c : Fin 128) (s : State) : Res := .next (s.clearCmp c)

/-- TRIP_PIN (R166): TRIP_IN pin `p` takes a level; it is active low. -/
def execTripPin (p : Fin 16) (level : Bool) (s : State) : Res :=
  .next (if s.pwr.inReset then s.mapCmp (128 + p) fun x => { x with raw := !level } else s.setRaw (128 + p) (!level))

/-- PIN_CLR (R166): a write to SLU_PINCLR clears the pins named. -/
def execPinClr (m : Half) (s : State) : Res :=
  .next (forN 16 (fun p s => if nbit m.toNat p then s.clearCmp (128 + p) else s) s)

/-- The write of SLU_FWTRIP: sources 169–172 follow its bits (R167). -/
def State.fwTrip (v : Nat) (s : State) : State :=
  forN 4 (fun b s => s.setInternal (169 + b) (nbit v b)) (s.sf Reg.SLU_FWTRIP F.SLU_FWTRIP_FW v)

/-- FWTRIP_WRITE (R167). -/
def execFwtripWrite (v : Word) (s : State) : Res := .next (s.fwTrip v.toNat)

/-- SAFE_LOW (R167): SAFE_n is pulled low by another module; source 175 is active while the EJ4 itself does not drive it. -/
def execSafeLow (s : State) : Res :=
  let s := { s with safePinExt := true }
  .next (if s.safeDriven then s else s.setInternal 175 true)

/-- The EJ4 drives SAFE_n low, or lets it go; source 175 sees only lows that other modules drive (R167, R406). -/
def State.driveSafe (low : Bool) (s : State) : State :=
  ({ s with safeDriven := low }).setInternal 175 (s.safePinExt && !low)

/-- SAFE_LOW_END (R167): SAFE_n reads high again. -/
def execSafeLowEnd (s : State) : Res := .next (({ s with safePinExt := false }).setInternal 175 false)

/-- Addresses of the staged registers of group `g` (spec/09, registers). -/
def groupRegs (g : Nat) : List Nat :=
  [Reg.SLU_GSRC g 0, Reg.SLU_GSRC g 1, Reg.SLU_GSRC g 2, Reg.SLU_GSRC g 3, Reg.SLU_GSRC g 4, Reg.SLU_GSRC g 5,
   Reg.SLU_GFLT g, Reg.SLU_GPWM g, Reg.SLU_GCFG g]

/-- Whether the Sluice is locked. -/
def State.sluLocked (s : State) : Bool := s.bit Reg.SLU_LOCK F.SLU_LOCK_LOCK

/-- What a staged register of a group takes at its commit: under LOCK only the tightening of R180, field by field (R5). -/
def State.groupValue (s : State) (g a : Nat) (v : Nat) : Nat :=
  let old := s.rn a
  if a = Reg.SLU_GCFG g then
    let en := v % 2
    let ac := v / 2 % 2
    let mo := v / 4 % 2
    let tb := v / 256 % 32
    if s.sluLocked then
      let en' := if en = 1 then 1 else old % 2
      let ac' := if ac = 0 then 0 else old / 2 % 2
      let mo' := if mo = 0 && s.rn (Reg.SLU_GFLT g) = 0 then 0 else old / 4 % 2
      en' + 2 * ac' + 4 * mo' + 256 * (old / 256 % 32)
    else en + 2 * ac + 4 * mo + 256 * tb
  else
    let v := if s.sluLocked then old ||| v else v
    if a = Reg.SLU_GSRC g 5 then v % 65536 ||| 0x107 else v

/-- A commit of group `g` applies every staged value at once; the group then judges its sources (R178). -/
def State.commitGroup (g : Nat) (s : State) : State :=
  let vals := (groupRegs g).filterMap fun a =>
    if s.staged.any (fun e => e.1 == a) then some (a, s.groupValue g a (tget 0 s.staged a).toNat) else none
  let s := vals.foldl (fun s e => s.wr e.1 (BitVec.ofNat 32 e.2)) s
  ({ s with staged := s.staged.filter fun e => !(groupRegs g).contains e.1 }).sluEval

/-- GROUP_COMMIT (R178). -/
def execGroupCommit (g : Fin 32) (s : State) : Res := .next (s.commitGroup g)

/-- The automatic clear of the CYCLE groups on pair `k` at its period start (R175). -/
def State.autoClear (k : Nat) (s : State) : State :=
  forN 32 (fun g s =>
    if s.latched g && s.bit (Reg.SLU_GCFG g) F.SLU_GCFG_MODE && s.fld (Reg.SLU_GCFG g) F.SLU_GCFG_TBASE == k then
      match s.clearGroup g with
      | (true, s) => (s.flag (Reg.SLU_GSTAT g) F.SLU_GSTAT_AUTO_CLR).raise 1664 0x31 (g + 256)
      | (false, s) => s
    else s) s

/-- The slot of a cycle that has not yet begun at the serialiser input, `t` ticks into the cycle: the input leads the pins by
8 ticks, and a slot that begins in the same tick counts as begun (R55). -/
def nextSlot (t : Nat) : Nat := (t + 8) / 20 + 1

/-- Slots of a cycle of FC `n`: S = 10 × LEN (R39). -/
def State.slotsOf (s : State) (n : Nat) : Nat := s.tcyc n / 20

/-- K28.7 is sent on a lane from slot `k` on, in a cycle of `S` slots (R55): a slot past the last is one of the next cycle. -/
def Lane.block (S k : Nat) (x : Lane) : Lane :=
  if k < S then { x with blkSlot := some (match x.blkSlot with | some j => min j k | none => k) }
  else { x with blkNext := some (match x.blkNext with | some j => min j (k - S) | none => k - S) }

/-- BLOCK_INJECT (R55, R169): every lane of every flight of a latched BLOCK group, and of every bound flight while an all-stop
source is active, sends K28.7 from the next slot on. -/
def execBlockInject (g : Fin 32) (s : State) : Res :=
  let grp := s.latched g && !s.bit (Reg.SLU_GCFG g) F.SLU_GCFG_ACTION
  .next ((s.boundSlots.filter fun p =>
      s.allStop || (grp && nbit (s.rn (Reg.SLU_GFLT g)) (s.flightOf p.1 p.2))).foldl (fun s p =>
    (s.slotLinks p.1 p.2).foldl (fun s l =>
      s.mapLane l (Lane.block (s.slotsOf p.1) (nextSlot (s.tick - (s.fc p.1).cycTick)))) s) s)

end Sys2Proof.Machine
end

