-- ==== Sys2Proof/Machine/Link.lean ====
section
/-! DEFINITION. Lock links (spec/03_lock_link.md): lane states, training, barges, mailboxes, verdicts on up barges. -/

namespace Sys2Proof.Machine

/-- Address of a per-lane register by link number. -/
def lnkStat (l : Nat) : Nat := Reg.LNK_STAT (l / 64) (l % 64)

/-- Lane state of link `l` (R57): 0 OFF, 1 LOCK, 2 PROBE, 3 ALIGN, 4 MISMATCH, 5 READY, 6 DEGRADED, 7 LOST, 8 TRAIN_FAIL. -/
def State.laneState (s : State) (l : Nat) : Nat := s.fld (lnkStat l) F.LNK_STAT_STATE

/-- READY or DEGRADED. -/
def State.laneUp (s : State) (l : Nat) : Bool := s.laneState l == 5 || s.laneState l == 6

/-- Count the LOST lanes of the flight led by slot `f` of FC `n`, and assert or deassert the link-loss cause (R58). DESIGN CHOICE
(log entry 76): LOSTf, of eight bits, shows 255 for 256 lanes. -/
def State.lossEval (n f : Nat) (s : State) : State :=
  let lost := if s.bound n f then ((s.slotLinks n f).filter fun l => s.laneState l == 7).length else 0
  let on := s.bound n f && decide (s.fld (Reg.LNK_LOSS_CFG n f) F.LNK_LOSS_CFG_LIMIT ≤ lost)
  let s := s.sf (Reg.LNK_LOSS_STAT n) (if f = 0 then F.LNK_LOSS_STAT_LOST0 else F.LNK_LOSS_STAT_LOST1) (min lost 255)
  let s := if on then s.flag (Reg.LNK_LOSS_STAT n) (if f = 0 then F.LNK_LOSS_STAT_LOSS_TRIP0 else F.LNK_LOSS_STAT_LOSS_TRIP1)
           else s
  s.setCause n (1 + f) on

/-- Judge the link-loss count of the flight that claims a link. -/
def State.lossOfLink (l : Nat) (s : State) : State :=
  match s.linkFlight l with
  | some (n, f) => s.lossEval n f
  | none => s

/-- Set bit `i` of a pair of LO/HI map registers. -/
def State.mapBit (s : State) (a i : Nat) (b : Bool) : State :=
  let r := a + 4 * (i / 32)
  s.wr r (BitVec.ofNat 32 (setBit (s.rn r) (i % 32) b))

/-- A lane takes a state: its STATE, the READY and LOST maps and the link-loss count follow. A lane that leaves READY and
DEGRADED loses its admission (R74). -/
def State.setLane (l st : Nat) (s : State) : State :=
  let s := s.sf (lnkStat l) F.LNK_STAT_STATE st
  let s := s.mapBit (Reg.LNK_READY_LO (l / 64)) (l % 64) (st == 5 || st == 6)
  let s := s.mapBit (Reg.LNK_LOST_LO (l / 64)) (l % 64) (st == 7)
  let s := if st == 5 || st == 6 then s else s.mapLane l fun x => { x with adm := false }
  s.lossOfLink l

/-- Payload of a lane event: FC_CYC_COUNT[15:0] and the cell STATUS (R63). -/
def State.lanePay (s : State) (l status : Nat) : Nat := (s.count (l / 64)).toNat % 65536 + 65536 * status

/-- Training of a lane begins at LOCK (R48), with the UP_START that stands then (R44). -/
def State.trainStart (l : Nat) (s : State) : State :=
  (s.mapLane l fun x => { x with tcyc := 0, good := 0, recd := [], probes := [], probeOut := false, pendEn := false,
                                 pendRetrain := false, rej := false, stat := 0,
                                 upStart := s.fld (Reg.LNK_CFG (l / 64) (l % 64)) F.LNK_CFG_UP_START }).setLane l 1

/-- Training fails in a step: 0 LOCK, 1 PROBE, 2 ALIGN (R48). The event carries the STATUS of the reply judged last, if it was good
(R63). -/
def State.trainFail (l step : Nat) (s : State) : State :=
  let s := s.sf (lnkStat l) F.LNK_STAT_FAIL_STEP step
  let s := s.flag (lnkStat l) F.LNK_STAT_TRAIN_FAIL
  (s.setLane l 8).raise l 0x05 (s.lanePay l (s.lane l).stat)

/-- The lane falls silent and goes to OFF (R37, R57). A transmitter that starts again starts with a negative running disparity
(R36), and so does the model's receiver (log entry 75). -/
def State.laneOff (l : Nat) (s : State) : State :=
  (s.mapLane l fun x => { x with rx := none, pendEn := false, pendRetrain := false, kept := false, qual := false,
                                 probeOut := false, txSt := 0, txRd := false, rxRd := false }).setLane l 0

/-- CLR_CNT (R436). -/
def State.clrCnt (l : Nat) (s : State) : State :=
  let s := s.wr (Reg.LNK_ERR (l / 64) (l % 64)) 0
  let s := s.sf (Reg.LNK_MISS (l / 64) (l % 64)) F.LNK_MISS_MISS 0
  (s.sf (Reg.LNK_MISS (l / 64) (l % 64)) F.LNK_MISS_CONSEC 0).mapLane l fun x => { x with pendClr := false }

/-- Lock engine `e` of FC `n`. -/
def State.eng (s : State) (n e : Nat) : EngSt := tget EngSt.init (s.fc n).eng e

/-- Change a Lock engine. -/
def State.mapEng (n e : Nat) (g : EngSt → EngSt) (s : State) : State :=
  s.mapFc n fun x => { x with eng := tput x.eng e (g (tget EngSt.init x.eng e)) }

/-- Whether engine `e` of FC `n` is stalled (R299). -/
def State.stalled (s : State) (n e : Nat) : Bool := nbit (s.fld (Reg.MCS_ENGSTAT n) F.MCS_ENGSTAT_STALL) e

/-- Take the pending control items of a lane: RETRAIN, CLR_CNT and ENABLE changing to 1 (R298). -/
def State.takeItems (l : Nat) (s : State) : State :=
  let x := s.lane l
  let s := if x.pendClr then s.clrCnt l else s
  if x.pendRetrain && s.laneState l != 0 then s.trainStart l
  else if x.pendEn && s.laneState l == 0 && s.runOn (l / 64) then s.trainStart l
  else s.mapLane l fun x => { x with pendRetrain := false, pendEn := false }

/-- The event that engine `e` waits for in WAIT has come: it goes on with the next word (R289). -/
def State.wakeEng (n e ev : Nat) (s : State) : State :=
  s.mapEng n e fun x => if x.waits = ev + 1 then { x with waits := 0, pc := (x.pc + 1) % 1024 } else x

/-- The same for every engine of an FC. -/
def State.wakeAll (n ev : Nat) (s : State) : State := forN 8 (fun e s => s.wakeEng n e ev) s

/-- An item has been written for a lane: an engine that stands at a safe point takes it at once, any other engine at its next
safe point (R298). It wakes an engine that waits in WAIT. -/
def State.itemWritten (l : Nat) (s : State) : State :=
  let n := l / 64
  let e := l % 64 / 8
  let s := forN 4 (fun ev s => s.wakeEng n e ev) s
  if !s.stalled n e && (s.eng n e).run == 0 then s.takeItems l else s

/-- A write of LNK_CTRL.ENABLE (R37, R48): 1 starts training while RUN is 1; 0 silences the lane at once. -/
def State.lnkEnable (l : Nat) (on : Bool) (s : State) : State :=
  let a := Reg.LNK_CTRL (l / 64) (l % 64)
  let was := s.bit a F.LNK_CTRL_ENABLE
  let s := s.sb a F.LNK_CTRL_ENABLE on
  if on then
    if !was && s.runOn (l / 64) then (s.mapLane l fun x => { x with pendEn := true }).itemWritten l else s
  else s.laneOff l

/-- A write of RETRAIN (R59): accepted in any lane state except OFF. -/
def State.retrain (l : Nat) (s : State) : State :=
  if s.laneState l = 0 then s else (s.mapLane l fun x => { x with pendRetrain := true }).itemWritten l

/-- LNK_ENABLE (R48). -/
def execLnkEnable (l : Fin 1024) (on : Bool) (s : State) : Res := .next (s.lnkEnable l on)

/-- RETRAIN (R59). -/
def execRetrain (l : Fin 1024) (s : State) : Res := .next (s.retrain l)

/-- FORCE_BLOCK (R42). -/
def execForceBlock (l : Fin 1024) (on : Bool) (s : State) : Res :=
  .next (s.sb (Reg.LNK_CTRL (l / 64) (l % 64)) F.LNK_CTRL_FORCE_BLOCK on)

/-- ALIGN_NOW (R53): an ALIGN is sent in the next cycle. -/
def execAlignNow (l : Fin 1024) (s : State) : Res := .next (s.mapLane l fun x => { x with alignReq := true })

/-- CLR_CNT (R436, R298): taken at the engine's safe point. -/
def execClrCnt (l : Fin 1024) (s : State) : Res :=
  .next ((s.mapLane l fun x => { x with pendClr := true }).itemWritten l)

/-- SAFE_POINT (R298): the engine takes the pending items of its eight lanes. -/
def State.safePoint (n e : Nat) (s : State) : State :=
  forN 8 (fun j s => s.takeItems (64 * n + 8 * e + j)) (s.mapEng n e fun x => { x with run := 0 })

def execSafePoint (n : Fin 16) (e : Fin 8) (s : State) : Res :=
  .next (if s.stalled n e then s else s.safePoint n e)

/-- An engine stalls (R299): FORCE_BLOCK on its eight lanes, STALL, STALL_SEEN and the event. -/
def State.engStall (n e : Nat) (s : State) : State :=
  let s := forN 8 (fun j s => s.sf (Reg.LNK_CTRL n (8 * e + j)) F.LNK_CTRL_FORCE_BLOCK 1) s
  let s := s.sf (Reg.MCS_ENGSTAT n) F.MCS_ENGSTAT_STALL (setBit (s.fld (Reg.MCS_ENGSTAT n) F.MCS_ENGSTAT_STALL) e true)
  let s := s.sf (Reg.MCS_ENGSTAT n) F.MCS_ENGSTAT_STALL_SEEN
    (setBit (s.fld (Reg.MCS_ENGSTAT n) F.MCS_ENGSTAT_STALL_SEEN) e true)
  s.raise (1024 + 24 * n + 3) 0x52 (e + 256 * (s.eng n e).pc)

/-- ENG_STALL (R299): the engine ran 256 words without a safe point, or met an unusable word. -/
def execEngStall (n : Fin 16) (e : Fin 8) (s : State) : Res :=
  .next (if s.stalled n e then s else s.engStall n e)

/-- A restart of engine `e`: word 0, its registers l1–l15 undefined (R299). -/
def State.engRestart (n e : Nat) (s : State) : State :=
  let k := s.free
  let regs := (List.range 15).map fun i => (i + 1, Config.freeWord (k + i))
  let s := { s with free := k + 15 }
  let s := s.mapEng n e fun x => { x with pc := 0, run := 0, waits := 0, regs := regs }
  s.sf (Reg.MCS_ENGSTAT n) F.MCS_ENGSTAT_STALL (setBit (s.fld (Reg.MCS_ENGSTAT n) F.MCS_ENGSTAT_STALL) e false)

/-- ENGINE_RESTART (R299). -/
def execEngineRestart (n : Fin 16) (e : Fin 8) (s : State) : Res := .next (s.engRestart n e)

/-- Word `w` of the cell descriptor of a link (R64). -/
def State.cdesc (s : State) (l w : Nat) : Nat := s.rn (Reg.FC_CDESC (l / 64) (l % 64) w)

/-- CELL_TYPE of the descriptor. -/
def State.cellType (s : State) (l : Nat) : Nat := nbits (s.cdesc l 0) 8 8

/-- A full-bridge cell. -/
def State.isFb (s : State) (l : Nat) : Bool := s.cellType l == 2

/-- EDGE_RES, MIN_PULSE, CAP_Q and VCAP_OV of the descriptor. -/
def State.edgeRes (s : State) (l : Nat) : Nat := nbits (s.cdesc l 0) 16 8

def State.minPulse (s : State) (l : Nat) : Nat := nbits (s.cdesc l 1) 0 16

def State.capQ (s : State) (l : Nat) : Nat := s.cdesc l 4

def State.vcapOv (s : State) (l : Nat) : Nat := nbits (s.cdesc l 5) 0 16

/-- A 16-bit field of the declaration record that the lane holds in LNK_DECL, at byte `o` (R49). -/
def State.decl16 (s : State) (l o : Nat) : Nat := nbits (s.rn (Reg.LNK_DECL (l / 64) (l % 64) (o / 4))) (8 * (o % 4)) 16

/-- A byte of the declaration record. -/
def State.decl8 (s : State) (l o : Nat) : Nat := s.decl16 l o % 256

/-- VCAP_SCALE of the declaration record. -/
def State.vcapScale (s : State) (l : Nat) : Nat := s.rn (Reg.LNK_DECL (l / 64) (l % 64) 3)

/-- The conditions of R27 and R52 on a lane. -/
def State.passesDelays (s : State) (l : Nat) : Bool :=
  let n := l / 64
  let dly := s.rg (Reg.LNK_DELAY n (l % 64))
  let up := (s.lane l).upStart
  decide (480 + fget dly F.LNK_DELAY_D_DOWN + s.decl16 l 6 ≤ s.lapply n) &&
    decide (s.decl16 l 10 ≤ up + 160) && decide (up + 1280 + fget dly F.LNK_DELAY_D_UP ≤ s.tcyc n + 64)

/-- The items in which a declaration record differs from the lane's descriptor (R51). -/
def State.mismatches (s : State) (l : Nat) : Nat :=
  b2n (s.decl8 l 1 != s.cellType l) + 2 * b2n (s.decl8 l 2 != s.edgeRes l) + 4 * b2n (s.decl16 l 4 != s.minPulse l) +
    8 * b2n (s.decl16 l 16 != nbits (s.cdesc l 2) 0 16) + 16 * b2n (s.decl16 l 18 != nbits (s.cdesc l 2) 16 16) +
    32 * b2n (s.cdesc l 3 != 0 && s.rn (Reg.LNK_DECL (l / 64) (l % 64) 5) != s.cdesc l 3) +
    64 * b2n (decide (nbits (s.cdesc l 1) 16 16 < s.decl16 l 6)) + 128 * b2n (s.decl8 l 0 != 1)

/-- CHECK (R51): in the cycle after ALIGN completes, the record is compared with the descriptor. -/
def execCheck (k : Fin 1024) (s : State) : Res :=
  let l := k.val
  if s.laneState l = 3 && decide (4 ≤ (s.lane l).good) then
    let m := s.mismatches l
    let s := s.sf (lnkStat l) F.LNK_STAT_MISM_MASK m
    if m = 0 then
      let s := s.sf (Reg.LNK_MISS (l / 64) (l % 64)) F.LNK_MISS_CONSEC 0
      let s := s.mapLane l fun x => { x with judgeFrom := s.count (l / 64) + 2, repTs := false, repBlk := false, rej := false }
      .next ((s.setLane l 5).raise l 0x01 (s.lanePay l (s.lane l).stat))
    else
      let s := s.flag (lnkStat l) F.LNK_STAT_MISMATCH
      .next ((s.setLane l 4).raise l 0x04 (s.lanePay l (s.lane l).stat))
  else .next s

/-- TRAIN_LIMIT (R48): 256 cycles in LOCK, 64 in PROBE and in ALIGN. -/
def execTrainLimit (k : Fin 1024) (s : State) : Res :=
  let l := k.val
  let x := s.lane l
  match s.laneState l with
  | 1 => .next (if 256 ≤ x.tcyc then s.trainFail l 0 else s)
  | 2 => .next (if 64 ≤ x.tcyc then s.trainFail l 1 else s)
  | 3 => .next (if 64 ≤ x.tcyc && x.good < 4 then s.trainFail l 2 else s)
  | _ => .next s

/-- Whether slot 72 of the present cycle is taken by a K28.7 (R56). -/
def State.slot72Blocked (s : State) (l : Nat) : Bool :=
  match (s.lane l).blkSlot with
  | some k => k ≤ 72
  | none => false

/-- PROBE_SEND (R50): PROBE goes out in slot 72, at tick 1,440, and its round trip starts. -/
def execProbeSend (k : Fin 1024) (s : State) : Res :=
  let l := k.val
  if s.laneState l = 2 && s.cycling (l / 64) then
    let s := s.atTick ((s.fc (s.leader (l / 64))).cycTick + 1440)
    if s.slot72Blocked l then .next s
    else .next (s.mapLane l fun x => { x with probeOut := true, slot72 := 2 })
  else .next s

/-- PROBE_REPLY (R50): a round trip of `rtt` ticks; a set of four with a spread of at most 2 gives the delays and ends the
step, any other set is discarded whole. -/
def execProbeReply (k : Fin 1024) (rtt : Nat) (s : State) : Res :=
  let l := k.val
  let x := s.lane l
  let s := if s.laneState l = 0 then s else s.mapLane l fun x => { x with rxRd := rdGroup x.rxRd (encodeSym x.rxRd .probe) }
  if s.laneState l = 2 && x.probeOut then
    let ps := x.probes ++ [rtt]
    if ps.length < 4 then .next (s.mapLane l fun x => { x with probes := ps, probeOut := false })
    else
      let spread := ps.foldl max 0 - ps.foldl min (ps.headD 0)
      if 2 < spread then .next (s.mapLane l fun x => { x with probes := [], probeOut := false })
      else
        let r := rhe (ps.foldl (· + ·) 0) 4
        let dd := rhe (r - s.decl16 l 8) 2
        let du := r - s.decl16 l 8 - dd
        let n := l / 64
        let i := l % 64
        let s := s.wr (Reg.LNK_RTT n i) (BitVec.ofNat 32 (enc 16 r + 65536 * spread))
        let s := s.wr (Reg.LNK_DELAY n i) (BitVec.ofNat 32 (enc 16 dd + 65536 * enc 16 du))
        let s := s.mapLane l fun x => { x with probes := [], probeOut := false, tcyc := 0, good := 0 }
        .next (s.setLane l 3)
  else .next s

/-- ALIGN_SEND (R53): at tick 1,440 ALIGN goes out in slot 72 of the lanes that owe one: in a CTRL cycle whose CYC[7:0] is 0, in
the cycle after ALIGN_NOW, and in the ALIGN step. DESIGN CHOICE (log entry 77): where ALIGN_NOW falls due in the PROBE step, slot
72 carries the symbol of the command carried out last. -/
def State.alignSend (n : Nat) (s : State) : State :=
  forN 64 (fun i s =>
    let l := 64 * n + i
    let st := (s.lane l).txSt
    let due := (s.lane l).alignDue || st == 3 || ((s.count n).toNat % 256 == 0 && decide (4 ≤ st))
    if st != 0 && due then
      s.mapLane l fun x => { x with alignDue := false, slot72 := if s.slot72Blocked l then x.slot72 else 1 }
    else s) s

def execAlignSend (n : Fin 16) (s : State) : Res :=
  if s.cycling n then
    .next ((s.atTick ((s.fc (s.leader n)).cycTick + 1440)).alignSend n)
  else .next s

/-- Address of the down mailbox of lane `i` of FC `n`; the up mailbox stands 0x40 above (R61). -/
def mailbox (n i : Nat) : Nat := scratch n (0x1F8000 + 0x80 * i)

/-- The down mailbox of a READY or DEGRADED lane is read (R61): a LEN above 32 is taken as 32, and an uncorrectable byte sends
LEN = 0 (R305). DESIGN CHOICE (log entry 78): a lane in another state goes on sending the bytes of the last read. -/
def State.mbxDown (l : Nat) (s : State) : State :=
  if s.laneUp l then
    let a := mailbox (l / 64) (l % 64)
    let m := s.rdBytes a 34
    let (bad, s) := s.eccCheck a 34
    let len := if bad.isSome then 0 else (m.headD 0).toNat
    s.mapLane l fun x => { x with mbx := BitVec.ofNat 8 (min len 32) :: m.drop 1 }
  else s

/-- The up mailbox of a lane is written from its last good up barge, unless its SEQ is the one last written (R61): data first,
tag last. -/
def State.mbxUp (l : Nat) (s : State) : State :=
  let m := (s.lane l).upMbx
  if m.isEmpty || (s.lane l).upSeq = some (leAt m 1 1) then s
  else
    let a := mailbox (l / 64) (l % 64)
    let s := s.wrBytes (a + 0x42) ((m.drop 2).take 32)
    let s := s.wrBytes (a + 0x40) (m.take 2)
    s.mapLane l fun x => { x with upSeq := some (leAt m 1 1) }

/-- MAILBOX_READ (R61): at tick 600 the engine reads the down mailbox of each READY or DEGRADED lane. -/
def execMailboxRead (n : Fin 16) (s : State) : Res :=
  if s.cycling n then
    let s := s.atTick ((s.fc (s.leader n)).cycTick + 600)
    .next ((forN 64 (fun i s => s.mbxDown (64 * n.val + i)) s).wakeAll n 2)
  else .next s

/-- Whether the up barge of cycle `k` of a lane is judged (R437). -/
def State.judged (s : State) (l : Nat) (k : Word) : Bool := s.laneUp l && decide ((k - (s.lane l).judgeFrom).toNat < 2 ^ 31)

/-- The cycle whose up barge arrives now: the one before until tick 64 has judged it (R28). -/
def State.upCycle (s : State) (n : Nat) : Word :=
  if (s.fc (s.leader n)).done.contains 64 || (s.fc (s.leader n)).fresh then s.count n else s.count n - 1

/-- UP_BARGE (R44): an up barge or TRAIN reply completes at the RX pins, as the code groups there. Its code violations and a CRC
error are counted, but for a barge that R437 leaves unjudged. -/
def execUpBarge (k : Fin 1024) (sof : BitVec 10) (groups : List (BitVec 10)) (s : State) : Res :=
  let l := k.val
  if s.laneState l = 0 then .next s
  else
    let inv := s.bit (Reg.LNK_CFG (l / 64) (l % 64)) F.LNK_CFG_RX_INV
    let r := takeGroups true (s.lane l).rxRd ((sof :: groups).map fun g => if inv then 1023 - g.toNat else g.toNat)
    let a := Reg.LNK_ERR (l / 64) (l % 64)
    let crcOk := crc16 0xFFFF ((r.1.drop 1).take 61) == leAt r.1 62 2
    let s1 := s.sf a F.LNK_ERR_UP_CODE (min 65535 (s.fld a F.LNK_ERR_UP_CODE + r.2.1))
    let s1 := if crcOk then s1 else s1.incSat a F.LNK_ERR_UP_CRC
    let s := if s.laneUp l && !s.judged l (s.upCycle (l / 64)) then s else s1
    .next (s.mapLane l fun x => { x with rx := some { bytes := r.1, viol := r.2.1 }, rxRd := r.2.2 })

/-- The common conditions of a good barge (R47), but for TYPE and CYC. -/
def Rx.sound (r : Rx) (l : Nat) : Bool :=
  r.bytes.length == 64 && r.viol == 0 && leAt r.bytes 4 2 == l &&
    crc16 0xFFFF ((r.bytes.drop 1).take 61) == leAt r.bytes 62 2

/-- A good CTRL reply of cycle `k` (R47). -/
def Rx.goodCtrl (r : Rx) (l k : Nat) : Bool := r.sound l && leAt r.bytes 1 1 == 0x11 && leAt r.bytes 2 2 == k % 65536

/-- A good TRAIN reply, for cycle `k` or the one before: it is accepted until tick 64 of the second cycle after (R48). -/
def Rx.goodTrain (r : Rx) (l k : Nat) : Bool :=
  r.sound l && leAt r.bytes 1 1 == 0x21 && (leAt r.bytes 2 2 == k % 65536 || leAt r.bytes 2 2 == (k + 65535) % 65536)

/-- A good up barge reports BYPASSED (R65, R75): the lane's CELL_TYPE becomes 0x03, and BYPASSED is raised once. -/
def State.bypassReport (l st : Nat) (s : State) : State :=
  let s := s.wr (Reg.FC_CDESC (l / 64) (l % 64) 0) (BitVec.ofNat 32 (s.cdesc l 0 - 256 * s.cellType l + 256 * 3))
  if (s.lane l).bypassDone then s
  else (s.mapLane l fun x => { x with bypassDone := true }).raise l 0x0A (s.lanePay l st)

/-- One cycle of training as the listen deadline judges it (R48, R49). The record stands in slots 16–47 of the reply. DESIGN CHOICE
(log entry 79): a record whose D_TURN or D_CELL ends training is copied to LNK_DECL all the same. DESIGN CHOICE (log entry 80):
LNK_LAST and LNK_MISS.CELL_BAD follow CTRL replies only. -/
def State.trainStep (l k : Nat) (s : State) : State :=
  let x := s.lane l
  let s := s.mapLane l fun x => { x with tcyc := x.tcyc + 1, rx := none, stat := 0 }
  match x.rx with
  | none => if s.laneState l = 3 && 4 ≤ x.good then s else s.mapLane l fun x => { x with good := 0 }
  | some r =>
    if !r.goodTrain l k then s.mapLane l fun x => { x with good := 0 }
    else
      let rc := (r.bytes.drop 16).take 32
      let st := leAt r.bytes 6 2
      let s := s.mapLane l fun x => { x with stat := st }
      let s := if nbit st 9 then s.bypassReport l st else s
      match s.laneState l with
      | 1 =>
        let g := if x.good != 0 && x.recd == rc then x.good + 1 else 1
        let s := s.mapLane l fun x => { x with good := g, recd := rc }
        if g < 4 then s
        else
          let s := forN 8 (fun w s => s.wr (Reg.LNK_DECL (l / 64) (l % 64) w) (BitVec.ofNat 32 (leAt rc (4 * w) 4))) s
          let dt := leAt rc 8 2
          if dt < 40 || 280 < dt || leAt rc 6 2 < 40 then s.trainFail l 0
          else (s.mapLane l fun x => { x with tcyc := 0, good := 0, probes := [], probeOut := false }).setLane l 2
      | 3 =>
        if 4 ≤ x.good then s
        else s.mapLane l fun x => { x with good := if nbit st 3 then x.good + 1 else 0 }
      | _ => s

/-- A good up barge of a READY or DEGRADED lane: LNK registers, reports, mailbox, recovery (R45, R57, R61, R63, R65). -/
def State.goodBarge (l : Nat) (b : List Byte) (s : State) : State :=
  let n := l / 64
  let i := l % 64
  let st := leAt b 6 2
  let x := s.lane l
  let s := s.sf (Reg.LNK_MISS n i) F.LNK_MISS_CONSEC 0
  let s := s.sf (Reg.LNK_MISS n i) F.LNK_MISS_CELL_BAD (leAt b 15 1)
  let s := s.wr (Reg.LNK_LAST n i) (BitVec.ofNat 32 (st + 65536 * leAt b 2 2))
  let s := if s.laneState l = 6 then (s.setLane l 5).raise l 0x09 (s.lanePay l st) else s
  let ts := nbit st 4
  let blk := nbit st 0 && !nbit st 1
  let s := if ts then (s.flag (lnkStat l) F.LNK_STAT_TS_FAULT).raiseIf (!x.repTs) l 0x06 (s.lanePay l st) else s
  let s := if blk then (s.flag (lnkStat l) F.LNK_STAT_CELL_BLOCK).raiseIf (!x.repBlk) l 0x07 (s.lanePay l st) else s
  let s := if nbit st 7 then (s.flag (lnkStat l) F.LNK_STAT_PULSE_VIOL).raise l 0x08 (s.lanePay l st) else s
  let s := s.mapLane l fun x => { x with repTs := ts, repBlk := blk }
  let s :=
    if nbit st 9 then s.bypassReport l st else s
  (s.mapLane l fun x => { x with upMbx := (b.drop 16).take 34 }).mbxUp l

/-- A bad or missing up barge of a READY or DEGRADED lane (R57, R436). -/
def State.badBarge (l : Nat) (missing : Bool) (s : State) : State :=
  let n := l / 64
  let i := l % 64
  let s := if missing then s.incSat (Reg.LNK_MISS n i) F.LNK_MISS_MISS else s
  let s := s.incSat (Reg.LNK_MISS n i) F.LNK_MISS_CONSEC
  let c := s.fld (Reg.LNK_MISS n i) F.LNK_MISS_CONSEC
  if s.laneState l = 5 && c = 2 then
    ((s.flag (lnkStat l) F.LNK_STAT_DEGRADED_SEEN).setLane l 6).raise l 0x02 (s.lanePay l 0)
  else if s.laneState l = 6 && c = 3 then
    ((s.flag (lnkStat l) F.LNK_STAT_LOST_SEEN).setLane l 7).raise l 0x03 (s.lanePay l 0)
  else s

/-- BYPASS_TIMEOUT (R75): 200 ms after the command without a report of BYPASSED. -/
def execBypassTimeout (k : Fin 1024) (s : State) : Res :=
  let l := k.val
  let x := s.lane l
  if x.bypass && !x.bypassDone && !x.bypassOut then
    let s := s.atTick (x.bypassTick + 160000000)
    .next ((s.mapLane l fun x => { x with bypassOut := true }).raise l 0x0B (s.lanePay l 0))
  else .next s

/-- Leg states of a cell at a level: A in bit 0, B in bit 1 (R93). -/
def legs (fb : Bool) (lvl : Int) : Nat := if lvl = 1 then 1 else if lvl = -1 && fb then 2 else 0

/-- BLOCK_CMD of the barge whose sample instant this is (R42). -/
def State.blockCmd (s : State) (l : Nat) : Bool :=
  let x := s.lane l
  let st := s.laneState l
  let fl := match s.linkFlight l with
    | some (n, f) =>
      let sw := s.runs n f || (s.fltState n f == 5 && (s.slot n f).frzRun && !s.blockOn (s.flightOf n f))
      !sw || s.blockOn (s.flightOf n f)
    | none => true
  fl || !x.qual || !(st == 5 || st == 6) || s.bit (Reg.LNK_CTRL (l / 64) (l % 64)) F.LNK_CTRL_FORCE_BLOCK ||
    x.bypassOn

/-- The MODE byte of a lane (R42). -/
def State.modeByte (s : State) (l : Nat) : Nat :=
  let x := s.lane l
  let by_ := if x.bypassOn then 16 else 0
  if s.blockCmd l then 8 + by_
  else
    let frz := match s.linkFlight l with
      | some (n, f) => (s.slot n f).freeze && (s.slot n f).frzRun
      | none => false
    legs (s.isFb l) x.endLvl + 4 * b2n frz + by_

/-- The four edges of a lane as the barge carries them; with BLOCK_CMD all are 0xF_FFFF (R42, R43). -/
def State.edgeField (s : State) (l : Nat) : List Nat :=
  let x := s.lane l
  if nbit x.mode 3 then [0xFFFFF, 0xFFFFF, 0xFFFFF, 0xFFFFF] else (x.edges ++ [0xFFFFF, 0xFFFFF, 0xFFFFF, 0xFFFFF]).take 4

/-- The 72 bytes of the lane's down barge of the present cycle, SOF shown as 0xBC (R41, R47, R48). In training the edge field
carries TSTEP, UP_START and D_DOWN. DESIGN CHOICE (log entry 81): an enabled lane for whose state the spec gives no barge, in
TRAIN_FAIL or not yet in training, sends a CTRL barge with BLOCK_CMD = 1. -/
def State.downBarge (s : State) (l : Nat) : List Byte :=
  let n := s.leader (l / 64)
  let st := (s.lane l).txSt
  let train := st == 1 || st == 2 || st == 3
  let ts := s.r64 (Reg.FC_CYC_TS_LO n)
  let e := s.edgeField l
  let edge := (e.getD 0 0) + 2 ^ 20 * (e.getD 1 0) + 2 ^ 40 * (e.getD 2 0) + 2 ^ 60 * (e.getD 3 0)
  let dd := if st == 3 then s.fld (Reg.LNK_DELAY (l / 64) (l % 64)) F.LNK_DELAY_D_DOWN else 0xFFFF
  let ef := if train then
      leBytes 1 (st - 1) ++ leBytes 2 (s.lane l).upStart ++ leBytes 2 dd ++ leBytes 5 0
    else leBytes 10 edge
  let a := leBytes 1 (if train then 0x20 else 0x10) ++ leBytes 2 (s.count n).toNat ++ leBytes 2 l ++
    leBytes 1 (s.lane l).mode ++
    leBytes 2 (s.fld (Reg.FC_CYC_LEN n) F.FC_CYC_LEN_LEN) ++ leBytes 4 (ts + s.lapply n) ++ leBytes 1 0 ++ ef
  let m := if train then List.replicate 34 0 else ((s.lane l).mbx ++ List.replicate 34 0).take 34
  let b := leBytes 6 ts ++ m ++ leBytes 4 0
  [0xBC] ++ a ++ leBytes 2 (crc16 0xFFFF a) ++ b ++ leBytes 2 (crc16 0xFFFF b)

/-- Whether the lane's transmitter sends in the present cycle (R37): not while ENABLE is 0, nor while the FC does not cycle. A lane
enabled within a cycle begins at the next sample instant. -/
def State.sends (s : State) (l : Nat) : Bool :=
  s.bit (Reg.LNK_CTRL (l / 64) (l % 64)) F.LNK_CTRL_ENABLE && s.cycling (l / 64) && (s.lane l).txSt != 0

/-- The symbols of the slots of the present cycle on a lane (R38–R40, R50, R53, R55): the barge, then IDLE, with ALIGN or PROBE in
slot 72, and K28.7 from the first blocked slot on. A silent transmitter sends none. -/
def State.downSyms (s : State) (l : Nat) : List Sym :=
  if !s.sends l then []
  else
    let x := s.lane l
    let b := s.downBarge l
    (List.range (s.slotsOf (l / 64))).map fun k =>
      if (match x.blkSlot with | some j => decide (j ≤ k) | none => false) then .block
      else if k = 0 then .sof
      else if k < 72 then .d (b.getD k 0)
      else if k = 72 && x.slot72 = 1 then .align
      else if k = 72 && x.slot72 = 2 then .probe
      else .idle

/-- The code groups of the present cycle at the lane's TX pins (R36): bit 9 first, inverted by TX_INV. -/
def State.downGroups (s : State) (l : Nat) : List Nat :=
  let inv := s.bit (Reg.LNK_CFG (l / 64) (l % 64)) F.LNK_CFG_TX_INV
  (encodeSyms (s.lane l).txRd (s.downSyms l)).1.map fun g => if inv then 1023 - g else g

/-- The running disparity of a transmitter after the cycle that ends: past slot 72 no symbol changes it (R36). -/
def State.txRoll (l : Nat) (s : State) : State :=
  if s.sends l then
    let rd := rdSyms (s.lane l).txRd ((s.downSyms l).take 73)
    s.mapLane l fun x => { x with txRd := rd }
  else s.mapLane l fun x => { x with txRd := false }

/-- A lane at the sample instant: what its barge shows of its state, the MODE byte, and the control words of the cycle; slots
blocked ahead are those of this cycle now (R55). -/
def State.laneCycle (l : Nat) (s : State) : State :=
  let m := s.modeByte l
  let st := if s.bit (Reg.LNK_CTRL (l / 64) (l % 64)) F.LNK_CTRL_ENABLE then
      (if s.laneState l = 0 then 9 else s.laneState l)
    else 0
  s.mapLane l fun x => { x with mode := m, txSt := st, blkSlot := x.blkNext, blkNext := none, slot72 := 0,
                                alignDue := x.alignReq, alignReq := false }

end Sys2Proof.Machine
end

