-- ==== Sys2Proof/Machine/Cycle.lean ====
section
/-! DEFINITION. The control cycle (spec/02_control_cycle.md): start and stop of cycling, the Inner pair's obligation, overruns,
overrides, latching at the sample instant. -/

namespace Sys2Proof.Machine

/-- A refused cycle-register or RUN write (R22, R24, R34). -/
def State.cycErr (n : Nat) (s : State) : State := s.flag (Reg.FC_CYC_STAT n) F.FC_CYC_STAT_CFG_ERR

/-- Whether FC `n` follows a gang leader. -/
def State.follower (s : State) (n : Nat) : Bool := s.bit (Reg.FC_CYC_STAT n) F.FC_CYC_STAT_FOLLOWER

/-- The FCs that cycle with FC `n`: itself and the FCs that follow it (R12, R34). -/
def State.cycleFcs (s : State) (n : Nat) : List Nat :=
  n :: ((List.range 3).map (n + 1 + ·)).filter fun m => decide (m < 16) && s.follower m && s.leader m == n

/-- The ranges of R20–R22 on LEN, PHASE and LAT. -/
def cycleOk (len phase lat : Nat) : Bool :=
  decide (8 ≤ len) && decide (len ≤ 800) && decide (phase < 200 * len) && decide (720 ≤ lat) && decide (lat ≤ 200 * len + 720)

/-- The first TS at or after `t` that satisfies R21. -/
def sampleAfter (t cyc phase : Nat) : Nat := t + (cyc + phase - t % cyc) % cyc

/-- The stores and memories of FC `m` let it cycle: every Lock segment valid, no load open at its port, its checkers passed
(R285, R309). -/
def State.fcCan (s : State) (m : Nat) : Bool :=
  s.rn (Reg.MCS_VMAPE m 0) % 65536 == 65535 && !s.bit (Reg.MCS_STAT m) F.MCS_STAT_OPENED && nbit (s.rn Reg.MEM_BIST_FC) m

/-- A write of RUN = 1 (R22, R23, R24, R34, R285, R309). An accepted write starts training on every enabled lane (R48) and every Lock engine
at word 0 (R299). -/
def State.runStart (n : Nat) (s : State) : State :=
  let a := Reg.FC_CYC_CTRL n
  let len := s.fld (Reg.FC_CYC_LEN n) F.FC_CYC_LEN_LEN
  let ph := s.fld (Reg.FC_CYC_PHASE n) F.FC_CYC_PHASE_PHASE
  if s.follower n then s.cycErr n
  else if s.bit a F.FC_CYC_CTRL_RUN then s
  else if s.bit (Reg.FC_CYC_STAT n) F.FC_CYC_STAT_RUNNING then s.cycErr n
  else if !cycleOk len ph (s.fld (Reg.FC_APPLY_LAT n) F.FC_APPLY_LAT_LAT) || !s.fcCan n then s.cycErr n
  else
    let s := s.flag a F.FC_CYC_CTRL_RUN
    let s := s.mapFc n fun x => { x with next := sampleAfter (s.ts + 1600) (200 * len) ph, started := false, done := [] }
    (s.cycleFcs n).foldl (fun s m =>
      let s := forN 8 (fun e s => s.mapEng m e fun x => { x with pc := 0, run := 0, waits := 0 }) s
      forN 64 (fun i s =>
        if s.bit (Reg.LNK_CTRL m i) F.LNK_CTRL_ENABLE && s.laneState (64 * m + i) == 0 then s.trainStart (64 * m + i) else s) s) s

/-- Cycling of the FC and of the gang it leads ends (R24): RUNNING clears and every lane goes to OFF. -/
def State.cycleEnd (n : Nat) (s : State) : State :=
  let s := (s.cycleFcs n).foldl (fun s m => forN 64 (fun i s =>
    if s.laneState (64 * m + i) = 0 then s else s.laneOff (64 * m + i)) s) s
  (s.mapFc n fun x => { x with started := false, done := [] }).sf (Reg.FC_CYC_STAT n) F.FC_CYC_STAT_RUNNING 0

/-- A write of RUN = 0 (R24): only while every flight on the FC is UNBOUND or BOUND. Before the first sample instant no cycle
is in progress, and cycling ends at once. -/
def State.runStop (n : Nat) (s : State) : State :=
  if s.follower n then s.cycErr n
  else if (List.range 2).any fun f => s.bound n f && decide (1 < s.fltState n f) then s.cycErr n
  else
    let s := s.sf (Reg.FC_CYC_CTRL n) F.FC_CYC_CTRL_RUN 0
    if s.bit (Reg.FC_CYC_STAT n) F.FC_CYC_STAT_RUNNING then s else s.cycleEnd n

/-- RUN_START (R22). -/
def execRunStart (n : Fin 16) (s : State) : Res := .next (s.runStart n)

/-- RUN_STOP (R24). -/
def execRunStop (n : Fin 16) (s : State) : Res := .next (s.runStop n)

/-- The FC's cycle-overrun cause follows CONSEC ≥ LIMIT (R33, R168). -/
def State.ovrEval (n : Nat) (s : State) : State :=
  let c := s.fld (Reg.FC_OVR_COUNT n) F.FC_OVR_COUNT_CONSEC
  let l := s.fld (Reg.FC_OVR_CFG n) F.FC_OVR_CFG_LIMIT
  let s := if l ≤ c then s.flag (Reg.FC_CYC_STAT n) F.FC_CYC_STAT_OVR_TRIP else s
  s.setCause n 0 (decide (l ≤ c))

/-- CONSEC returns to 0 after a matching write (R32, R33). -/
def State.consecClear (n : Nat) (s : State) : State := (s.sf (Reg.FC_OVR_COUNT n) F.FC_OVR_COUNT_CONSEC 0).ovrEval n

/-- The judgement of the cycle that ends (R32): without a matching write it is an overrun. Restart cycles neither count nor
reset. DESIGN CHOICE (log entry 63): an overrun while CONSEC stands at LIMIT sets OVR_TRIP again after a W1C cleared it. -/
def State.judgeInner (n : Nat) (s : State) : State :=
  let x := s.fc n
  if x.started && s.bit (Reg.FC_CYC_CTRL n) F.FC_CYC_CTRL_INNER_CHK && !x.innerDone && !x.holdCyc then
    let s := s.flag (Reg.FC_CYC_STAT n) F.FC_CYC_STAT_INNER_LATE
    let c := s.fld (Reg.FC_OVR_COUNT n) F.FC_OVR_COUNT_CONSEC
    let l := s.fld (Reg.FC_OVR_CFG n) F.FC_OVR_CFG_LIMIT
    let s := s.sf (Reg.FC_OVR_COUNT n) F.FC_OVR_COUNT_CONSEC (if c < l then c + 1 else c)
    (s.incSat (Reg.FC_OVR_COUNT n) F.FC_OVR_COUNT_TOTAL).ovrEval n
  else if x.consecDue then s.consecClear n
  else s

/-- A write of FC_INNER_DONE (R32): the first matching write of a cycle ends its obligation and resets CONSEC; in a gang only
the leader's counts (R34). A hold cycle does not reset CONSEC, and whether the cycle is one is known at tick 200 only (R203): a
match before tick 200 resets CONSEC there (DEDUCED, log entry 64). DESIGN CHOICE (log entry 65): a match while INNER_CHK is 0
ends the obligation and leaves CONSEC. -/
def State.innerDone (n : Nat) (cyc : Nat) (s : State) : State :=
  if !s.follower n && s.cycling n && !(s.fc n).innerDone && cyc == (s.rn (Reg.FC_CYC_COUNT n)) % 256 then
    let s := s.mapFc n fun x => { x with innerDone := true }
    if !s.bit (Reg.FC_CYC_CTRL n) F.FC_CYC_CTRL_INNER_CHK then s
    else if (s.fc n).done.contains 200 then (if (s.fc n).holdCyc then s else s.consecClear n)
    else s.mapFc n fun x => { x with consecDue := true }
  else s

/-- INNER_DONE (R32). -/
def execInnerDone (n : Fin 16) (cyc : Byte) (s : State) : Res := .next (s.innerDone n cyc.toNat)

/-- A write of FC_OVR_CFG (R5, R33): 0 is ignored; under LOCK only a smaller LIMIT is taken. A LIMIT at or below CONSEC trips
at once and sets CONSEC to it. DESIGN CHOICE (log entry 66): a LIMIT written above CONSEC deasserts the source. -/
def State.ovrLimitWrite (n v : Nat) (s : State) : State :=
  let old := s.fld (Reg.FC_OVR_CFG n) F.FC_OVR_CFG_LIMIT
  let locked := s.bit (Reg.FC_LOCK n) F.FC_LOCK_LOCK
  if v = 0 || (locked && decide (old ≤ v)) then s
  else
    let s := s.sf (Reg.FC_OVR_CFG n) F.FC_OVR_CFG_LIMIT v
    let c := s.fld (Reg.FC_OVR_COUNT n) F.FC_OVR_COUNT_CONSEC
    let s := if v ≤ c then s.sf (Reg.FC_OVR_COUNT n) F.FC_OVR_COUNT_CONSEC v else s
    s.ovrEval n

/-- OVR_LIMIT_WRITE (R33). -/
def execOvrLimitWrite (n : Fin 16) (v : Word) (s : State) : Res := .next (s.ovrLimitWrite n (v.toNat % 256))

/-- The register words that the control path reads through a latch of the sample instant (R29). -/
def latchAddrs (n : Nat) : List Nat :=
  ((List.range 2).flatMap fun f =>
    [Reg.BAL_FCFG n f, Reg.BAL_SMAX n f, Reg.BAL_TBAND n f, Reg.BAL_IDEAD n f, Reg.FC_N_LIMIT n f, Reg.LED_CFG n f,
     Reg.LED_RLIM n f, Reg.LED_CTRL n f, Reg.OBS_CFG n f]) ++ [Reg.BAL_UC_CTRL n] ++
  ((List.range 8).flatMap fun j => [Reg.OBS_UMIN n j, Reg.OBS_UMAX n j]) ++
  ((List.range 16).flatMap fun j =>
    [Reg.OBS_SHTGT n j, Reg.OBS_SHVMAX n j, Reg.OBS_SHAMAX n j, Reg.OBS_WREG n j])

/-- Latch those words (R29). -/
def State.latchRegs (n : Nat) (s : State) : State :=
  let t := (latchAddrs n).foldl (fun t a => tput t a (s.rg a)) []
  s.mapFc n fun x => { x with lat := t }

/-- A latched word of FC `n`. -/
def State.lv (s : State) (n a : Nat) : Word := tget (s.rg a) (s.fc n).lat a

/-- A field of a latched word. -/
def State.lf (s : State) (n a : Nat) (f : Fld) : Nat := fget (s.lv n a) f

/-- A step of the tick table of R25 at tick `t` of the present cycle: once per cycle, of an FC that leads its cycle. -/
def State.stepDue (s : State) (n t : Nat) : Bool := s.cycling n && !s.follower n && (s.fc n).started && !(s.fc n).done.contains t

/-- The step at tick `t` takes place: the time runs to it. -/
def State.stepAt (n t : Nat) (s : State) : State :=
  (s.atTick ((s.fc n).cycTick + t)).mapFc n fun x => { x with done := t :: x.done }

/-- The number of a flight slot's events (R80). -/
def slotSrc (n f : Nat) : Nat := 1024 + 24 * n + f

/-- The follower's island clock is the leader's from now on (R34). -/
def State.switchEnd (n : Nat) (s : State) : State := s.mapFc n fun x => { x with switching := false }

/-- GANG_CLOCK_SWITCH (R34): the switch of a follower ends. -/
def execGangClockSwitch (n : Fin 16) (s : State) : Res := .next (s.switchEnd n)

/-- An access to a register of FC `n` waits for the end of a clock switch, which comes within 1,600 ticks of its start; the tick
is a free value (R34, log entry 67). -/
def State.switchWait (n : Nat) (s : State) : State :=
  if (s.fc n).switching then
    ((s.atTick ((s.fc n).switchAt + s.freeWord.toNat % 1601)).nextFree).switchEnd n
  else s

/-- The wait of an access to a device address (R34). -/
def State.accWait (a : Nat) (s : State) : State :=
  if 0x60000000 ≤ a && a < 0x61000000 then s.switchWait ((a - 0x60000000) / 0x100000) else s

/-- The hub values on their way reach the island of FC `n` (R30, R328). -/
def State.hubAccept (n : Nat) (s : State) : State :=
  s.mapFc n fun x => { x with hubNext := x.hubSent.foldl (fun t e => tput t e.1 e.2) x.hubNext, hubSent := [] }

/-- CROSSING_ACCEPT (R328): FC `n` accepts the hub values that stand sent; a crossing into an island that switches its clock
waits. -/
def execCrossingAccept (n : Fin 16) (s : State) : Res := .next (if (s.fc n).switching then s else s.hubAccept n)

/-- The link whose CAP_Q stands at an address, if one does (R64). -/
def capQLink (a : Nat) : Option Nat :=
  let o := a % 0x100000
  if 0x60000000 ≤ a && a < 0x61000000 && 0x800 ≤ o && o < 0x1000 && o % 0x20 = 0x10 then
    some (64 * ((a - 0x60000000) / 0x100000) + (o - 0x800) / 0x20)
  else none

/-- A register that the control path reads takes a word. A change of CAP_Q makes the lane's next reconciliation a full one
(R111). -/
def State.ctlPut (a : Nat) (v : Word) (s : State) : State :=
  let was := s.rg a
  let s := s.wr a v
  match capQLink a with
  | some l => if was = v then s else s.mapLane l fun x => { x with capqNew := true }
  | none => s

/-- A write of a register of FC `n` that the control path reads: held for the sample instant while its leader cycles, at once
otherwise (R29, R435, R440). -/
def State.heldWrite (n a : Nat) (v : Word) (s : State) : State :=
  if s.cycling n then s.mapFc n fun x => { x with writes := x.writes ++ [(a, v)] } else s.ctlPut a v

/-- The held writes of FC `n` take effect. -/
def State.applyWrites (n : Nat) (s : State) : State :=
  let l := (s.fc n).writes
  l.foldl (fun s e => s.ctlPut e.1 e.2) (s.mapFc n fun x => { x with writes := [] })

/-- Current value of a register of FC `n`, with the writes that are held. -/
def State.heldReg (s : State) (n a : Nat) : Word :=
  match (s.fc n).writes.reverse.find? fun e => e.1 == a with
  | some e => e.2
  | none => s.rg a

end Sys2Proof.Machine
end

