-- ==== Sys2Proof/Machine/Command.lean ====
section
/-! DEFINITION. The envelope of host commands (spec/20_commands.md): entry fields, the refusals that every command shares,
replies, and the order in which commands are carried out (R357–R365). -/

namespace Sys2Proof.Machine

/-- `n` bytes of an entry from byte `o`, little-endian. -/
def ent (e : Entry) (o n : Nat) : Nat := leAt e.bytes o n

/-- OPCODE, TAG, TARGET, BUF_ADDR and BUF_LEN of an entry (R357). -/
def eOp (e : Entry) : Nat := ent e 0 1

def eTag (e : Entry) : Nat := ent e 2 2

def eTarget (e : Entry) : Nat := ent e 4 4

def eBufAddr (e : Entry) : Nat := ent e 48 8

def eBufLen (e : Entry) : Nat := ent e 56 4

/-- Whether bytes `lo` to `hi − 1` of an entry are all 0. -/
def zeroes (e : Entry) (lo hi : Nat) : Bool := ent e lo (hi - lo) == 0

/-- What R365 says of one opcode: the number of TARGET values in range, whether it has a buffer, whether R16 asks for
ownership, and the device states in which it is legal. -/
structure OpInfo where
  targets : Nat
  buffer : Bool
  owner : Bool
  states : List Nat
deriving DecidableEq, Repr

/-- The table of R365. GET_STATE's TARGET and the TARGETs that a command's own rule judges count as in range here. -/
def opInfo (op : Nat) : Option OpInfo :=
  let all := 2 ^ 32
  match op with
  | 0x01 => some ⟨1, false, false, [0, 1, 2, 3, 4]⟩
  | 0x02 => some ⟨all, true, false, [0, 1]⟩
  | 0x03 => some ⟨1, false, false, [0, 1]⟩
  | 0x04 => some ⟨1, false, false, [1]⟩
  | 0x05 => some ⟨all, false, false, [0, 1, 2, 3, 4]⟩
  | 0x06 => some ⟨1, false, false, [0, 1, 2, 3]⟩
  | 0x07 => some ⟨1, false, true, [0, 1, 2, 3]⟩
  | 0x0F => some ⟨1, false, true, [0, 1, 2, 3, 4]⟩
  | 0x10 => some ⟨1, false, true, [2, 3]⟩
  | 0x11 => some ⟨32, false, true, [2, 3]⟩
  | 0x12 => some ⟨1024, true, true, [2, 3]⟩
  | 0x13 => some ⟨1024, false, true, [2, 3]⟩
  | 0x14 => some ⟨1024, false, true, [2, 3]⟩
  | 0x30 => some ⟨32, true, true, [2, 3]⟩
  | 0x31 => some ⟨32, false, true, [2, 3]⟩
  | 0x32 => some ⟨32, false, true, [2, 3]⟩
  | 0x33 => some ⟨32, false, true, [2, 3]⟩
  | 0x34 => some ⟨32, false, true, [2, 3]⟩
  | 0x35 => some ⟨32, false, true, [2, 3]⟩
  | 0x50 => some ⟨32, false, true, [2, 3]⟩
  | 0x51 => some ⟨all, false, true, [2, 3]⟩
  | 0x52 => some ⟨128, false, true, [2, 3]⟩
  | 0x53 => some ⟨1, false, true, [2]⟩
  | 0x60 => some ⟨96, false, true, [2, 3]⟩
  | 0x61 => some ⟨20, true, false, [2, 3]⟩
  | 0x62 => some ⟨96, false, true, [2, 3]⟩
  | 0x70 => some ⟨all, true, true, [2, 3]⟩
  | 0x80 => some ⟨8, true, false, [2, 3]⟩
  | 0x81 => some ⟨8, false, false, [2, 3]⟩
  | 0x90 => some ⟨1024, true, false, [2, 3]⟩
  | 0x91 => some ⟨8, true, true, [2, 3]⟩
  | 0x92 => some ⟨32, false, true, [2, 3]⟩
  | 0xA0 => some ⟨1, false, false, [2, 3]⟩
  | 0xA1 => some ⟨1, false, false, [2, 3]⟩
  | 0xA2 => some ⟨1, false, false, [2, 3]⟩
  | _ => none

/-- Status codes of R361. -/
def stOk : Nat := 0x00

def stPending : Nat := 0x01

def stBadOpcode : Nat := 0x10

def stBadParam : Nat := 0x11

def stBadLength : Nat := 0x12

def stConflict : Nat := 0x20

def stNotOwner : Nat := 0x21

def stBusy : Nat := 0x22

def stActive : Nat := 0x23

def stAuth : Nat := 0x30

def stLocked : Nat := 0x31

def stFault : Nat := 0x40

/-- OWNER: 0 none, 1 HA, 2 HB (R350). -/
def State.owner (s : State) : Nat := s.fld (Reg.HIF_KOWN 0) F.HIF_KOWN_OWNER

/-- Whether a port owns the device. -/
def State.isOwner (s : State) (p : Nat) : Bool := s.owner == p + 1

/-- The envelope of R357. -/
def envelopeOk (e : Entry) (i : OpInfo) : Bool :=
  ent e 1 1 / 2 == 0 && zeroes e 60 64 && (if i.buffer then eBufAddr e % 8 == 0 else zeroes e 48 60) &&
    (if eOp e = 0x05 then eTarget e == 0xFFFFFFFF || decide (eTarget e < 32) else decide (eTarget e < i.targets))

/-- Whether a command is refused with NOT_OWNER (R16, R351): R365 marks it and the port is not the owner; TAKE_OWNERSHIP while
the other port owns the device and has not lapsed; RELEASE_OWNERSHIP from a port that does not own it. -/
def State.notOwner (s : State) (e : Entry) (i : OpInfo) : Bool :=
  let lapsedOther := s.bit (Reg.HIF_HBSTAT 0) (if e.port = 0 then F.HIF_HBSTAT_LAPSED_B else F.HIF_HBSTAT_LAPSED_A)
  if eOp e = 0xA0 then s.owner != 0 && !s.isOwner e.port && !lapsedOther
  else if eOp e = 0xA1 then !s.isOwner e.port
  else i.owner && !s.isOwner e.port

/-- Steps 1 to 5 of R362: the status of the first refusal that applies, and whether it was for the device state or before it. -/
def State.precheck (s : State) (e : Entry) : Option (Nat × Bool) :=
  match opInfo (eOp e) with
  | none => some (stBadOpcode, true)
  | some i =>
    if (s.dev == 2 || s.dev == 3) && s.notOwner e i then some (stNotOwner, false)
    else if !i.states.contains s.dev || (s.pwr.kpFail && !([0x01, 0x05, 0x06, 0x0F].contains (eOp e))) then some (stConflict, true)
    else if s.keep.started && (eOp e == 2 || eOp e == 3 || eOp e == 4) then some (stConflict, true)
    else if (eOp e == 2 || eOp e == 3 || eOp e == 4) &&
        (match s.keep.session with | some p => p != e.port.val | none => false) then some (stBusy, false)
    else if !envelopeOk e i then some (stBadParam, false)
    else none

/-- The flight that an entry names (R360); BYPASS_CELL names its link's flight (R78). -/
def State.namedFlight (s : State) (e : Entry) : Option Nat :=
  match eOp e with
  | 0x14 => (s.linkFlight (eTarget e)).map fun p => s.flightOf p.1 p.2
  | 0x10 => if ent e 8 1 < 32 then some (ent e 8 1) else none
  | 0x05 => if eTarget e < 32 then some (eTarget e) else none
  | 0x11 | 0x30 | 0x31 | 0x32 | 0x33 | 0x34 | 0x35 | 0x92 => if eTarget e < 32 then some (eTarget e) else none
  | _ => none

/-- State code of a flight by its number; an unbound flight reads 0 (R76). -/
def State.flightState (s : State) (fl : Nat) : Nat :=
  match s.slotOf fl with
  | some (n, f) => s.fltState n f
  | none => 0

/-- Byte 4 of a reply (R359, R360). -/
def State.stateByte (s : State) (e : Entry) (devref : Bool) : Nat :=
  match s.namedFlight e with
  | some fl => if devref then s.dev else s.flightState fl + 8
  | none => s.dev

/-- A send through a port is possible: link up, not in D3hot, Bus Master Enable 1 (R355). -/
def State.portOk (s : State) (p : Nat) : Bool := (s.port p).up && !(s.port p).d3 && (s.port p).bme

/-- FREE of HIF_KOUTSTAT follows the outbox. -/
def State.outFree (p : Nat) (s : State) : State :=
  s.sf (Reg.HIF_KOUTSTAT p) F.HIF_KOUTSTAT_FREE (32 - min 32 (s.port p).outbox.length)

/-- Put a reply into the outbox of a port; a port in D3hot discards it (R346, R353). -/
def State.pushReply (p : Nat) (r : Reply) (s : State) : State :=
  if (s.port p).d3 then s.incSat (Reg.HIF_KDISC p) ⟨0, 32⟩
  else (s.mapPort p fun x => { x with outbox := x.outbox ++ [r] }).outFree p

/-- Reply to an entry; of a port that has been reset since, the reply is discarded and counted (R353). -/
def State.replyTo (e : Entry) (live devref : Bool) (status resx : Nat) (res : List Nat) (s : State) : State :=
  if !live then s.incSat (Reg.HIF_KDISC e.port) ⟨0, 32⟩
  else s.pushReply e.port
    { cq := s.fld (Reg.HIF_SQCFG e.port e.sq) F.HIF_SQCFG_CQ, tag := eTag e, op := eOp e, status := status,
      state := s.stateByte e devref, sq := e.sq, resx := resx % 65536, ts := s.ts, res := res }

/-- Reply at once. -/
def State.reply (e : Entry) (status : Nat) (s : State) : State := s.replyTo e true false status 0 []

/-- Reply OK with result words. -/
def State.replyOk (e : Entry) (resx : Nat) (res : List Nat) (s : State) : State := s.replyTo e true false stOk resx res

/-- The objects that a command names (R363), as numbers: flight, FC, link, group, comparator, analog group, stream, memory.
BIND_FLIGHT counts as naming the links of its range (DEDUCED, log entry 70). -/
def State.objects (s : State) (e : Entry) : List Nat :=
  let fl := fun k => (0x100000 + k) :: (match s.slotOf k with
    | some (n, f) => (s.members n f).map (0x200000 + ·)
    | none => [])
  let t := eTarget e
  match eOp e with
  | 0x10 => fl (ent e 8 1) ++ ((List.range (min 4 (ent e 9 1))).map fun i => 0x200000 + ent e 10 1 + i) ++
    (List.range (min 256 (ent e 12 2))).map fun i => 0x300000 + 64 * ent e 10 1 + ent e 11 1 + i
  | 0x05 => if t < 32 then fl t else []
  | 0x11 | 0x30 | 0x31 | 0x32 | 0x33 | 0x34 | 0x35 | 0x92 => fl t
  | 0x12 => (List.range (min 1024 (ent e 8 2))).map fun i => 0x300000 + t + i
  | 0x13 | 0x14 => (0x300000 + t) :: (match s.linkFlight t with
    | some (n, f) => fl (s.flightOf n f)
    | none => [])
  | 0x50 => [0x400000 + t]
  | 0x51 => (List.range 32).filterMap fun g => if nbit t g then some (0x400000 + g) else none
  | 0x52 => [0x500000 + t]
  | 0x60 | 0x62 => [0x600000 + (if t < 64 then t / 4 else 16 + (t - 64) / 8)]
  | 0x61 => [0x600000 + t]
  | 0x70 => [0x700000 + t]
  | 0x80 | 0x81 => [0x800000 + 16 * e.port + t]
  | _ => []

/-- A RUN_PATH_TEST for a group whose path test runs: it is refused with BUSY and not held back (R157, log entry 84). -/
def State.pathBusy (s : State) (e : Entry) : Bool :=
  let t := eTarget e
  eOp e == 0x62 && s.bit (Reg.ADC_STAT (if t < 64 then t / 4 else 16 + (t - 64) / 8)) F.ADC_STAT_PT_BUSY

/-- Whether the Keeper pair executes, as far as the taking of entries goes: no restart and no debug halt stands (R204, R210). -/
def State.keeperOn (s : State) : Bool :=
  s.fld (Reg.GLV_STAT 20) F.GLV_STAT_STATE != 1 && !(tget CoreSt.init s.cores 20).halt

/-- Whether a command must wait for its turn behind the commands `ws` taken before it: one names the same object, or BARRIER
is 1 and one came from the same submission queue (R363). -/
def State.mustWait (s : State) (ws : List Wait) (e : Entry) : Bool :=
  ws.any fun w => !w.silent && w.on != .keeper &&
    ((ent e 1 1 % 2 == 1 && w.e.port == e.port && w.e.sq == e.sq) ||
      (!s.pathBusy e && (s.objects w.e).any fun k => (s.objects e).contains k))

/-- A command is accepted and waits. -/
def State.await (e : Entry) (on : WaitOn) (st : Nat) (s : State) : State :=
  s.mapKeep fun k => { k with waits := k.waits ++ [{ e := e, live := true, silent := false, on := on, st := st }] }

/-- Commands of a port that are taken and not replied. -/
def State.outstanding (s : State) (p : Nat) : Nat := 
  (s.keep.waits.filter fun w => !w.silent && w.on != .keeper && w.e.port.val == p).length

/-- The Keeper takes the oldest inbox entry when that is the entry it carries out (R354). -/
def State.popEntry (e : Entry) (s : State) : State :=
  s.mapPort e.port fun x =>
    match x.inbox with
    | (q, b) :: r => if q = e.sq.val ∧ b = e.bytes then { x with inbox := r } else x
    | [] => x

/-- What a port's responder does in SAFE_HALT, and the Keeper elsewhere, with an entry of opcode `op` that passes the shared
checks: `body` carries it out (R362–R364). A command behind an earlier one on the same object waits for its turn. An entry of
another opcode is not this command, and before the boot ROM takes entries (R407) none is taken: nothing happens. While the Keeper
pair restarts or stands in a debug halt, the entry stays in its queue and is taken when the pair runs again (R176, R204). -/
def State.take (op : Nat) (e : Entry) (body : Entry → State → State) (s : State) : State :=
  if eOp e ≠ op || (s.dev == 0 && !s.keep.romReady) || s.pwr.inReset then s
  else if s.dev != 4 && !s.keeperOn then s.await e .keeper 0
  else
    match s.precheck e with
    | some (status, devref) => (s.popEntry e).replyTo e true devref status 0 []
    | none =>
      if s.dev = 4 then body e (s.popEntry e)
      else if 64 ≤ s.outstanding e.port then s
      else if s.mustWait s.keep.waits e then (s.popEntry e).await e .turn 0
      else body e (s.popEntry e)

/-- Remove the first waiting command equal to `w`. -/
def State.dropWait (w : Wait) (s : State) : State := s.mapKeep fun k => { k with waits := k.waits.erase w }

/-- A waiting command ends with a reply. -/
def State.finish (w : Wait) (status resx : Nat) (res : List Nat) (s : State) : State :=
  let s := s.dropWait w
  if w.silent then s else s.replyTo w.e w.live false status resx res

/-- The command of an input buffer: INTERNAL_FAULT with cause 9 where the transfer fails (R358), else `body` on its bytes. -/
def State.withBuf (e : Entry) (body : List Byte → State → State) (s : State) : State :=
  match e.buf with
  | none => s.replyTo e true false stFault 0 [9]
  | some b => body b s

/-- Write an output buffer to the host (R358), then reply; INTERNAL_FAULT with cause 9 where the transfer fails. -/
def State.replyBuf (e : Entry) (live : Bool) (b : List Byte) (resx : Nat) (res : List Nat) (s : State) : State :=
  match e.buf with
  | none => s.replyTo e live false stFault 0 [9]
  | some _ => ({ s with out := .wr e.port (eBufAddr e) b :: s.out }).replyTo e live false stOk resx res

/-- FC_CYC_COUNT[15:0]. -/
def State.count16 (s : State) (n : Nat) : Nat := (s.count n).toNat % 65536

/-- BAD_OPCODE (R362): an entry whose opcode R365 does not list. -/
def execBadOpcode (e : Entry) (s : State) : Res :=
  .next (if (opInfo (eOp e)).isNone then s.take (eOp e) e (fun _ s => s) else s)

end Sys2Proof.Machine
end

