-- ==== Sys2Proof/Machine/Adc.lean ====
section
/-! DEFINITION. Analog groups (spec/08_analog_inputs.md): reference buffers, conversions and their correction, sequence tables,
background calibration, path tests. Groups 0–15 are the FCs', 16–19 the hub's. -/

namespace Sys2Proof.Machine

/-- Channels of a group (R139). -/
def chans (g : Nat) : Nat := if g < 16 then 4 else 8

/-- AIN number of channel `c` of a group (R139). -/
def ainOf (g c : Nat) : Nat := if g < 16 then 4 * g + c else 64 + 8 * (g - 16) + c

/-- Group and channel of AIN `m`. -/
def ainGroup (m : Nat) : Nat × Nat := if m < 64 then (m / 4, m % 4) else (16 + (m - 64) / 8, (m - 64) % 8)

/-- Event source of a channel, and of a group (R160). -/
def adcSrc (g c : Nat) : Nat := 1536 + ainOf g c

/-- REF_READY of a group. -/
def State.refReady (s : State) (g : Nat) : Bool := s.bit (Reg.ADC_STAT g) F.ADC_STAT_REF_READY

/-- Whether the flight led by slot `f` of FC `n` uses group `g` (R141). -/
def State.usesGroup (s : State) (n f g : Nat) : Bool :=
  if g < 16 then (s.members n f).contains g
  else nbits (s.rn (Reg.FC_HUB_MASK n f)) (8 * (g - 16)) 8 != 0

/-- Whether a RUNNING or HELD flight uses group `g`. -/
def State.groupBusy (s : State) (g : Nat) : Bool := s.boundSlots.any fun p => s.runs p.1 p.2 && s.usesGroup p.1 p.2 g

/-- The correction chain of R144: the corrected value, and whether sat16 changed it. -/
def correct (x off gf gu ou : Int) : Int × Bool :=
  let p1 := (x - off) * (2 ^ 20 + gf)
  let v := rhe (p1 * (2 ^ 20 + gu)) (2 ^ 40) + ou
  (satI 16 v, satI 16 v != v)

/-- Factory offset and gain of a slice. -/
def State.sliceCal (s : State) (g sl : Nat) : Int × Int :=
  (sx 16 (s.rn (Reg.ADC_SLOFF g sl) % 65536), sx 20 (s.rn (Reg.ADC_SLGAIN g sl) % 2 ^ 20))

/-- A value corrected by the factory coefficients alone (R150). -/
def State.factory (s : State) (g sl : Nat) (x : Int) : Int :=
  let k := s.sliceCal g sl
  (correct x k.1 k.2 0 0).1

/-- Slice that serves a channel; 0xF when none does (R152). -/
def State.sliceOf (s : State) (g c : Nat) : Nat := s.fld (Reg.ADC_MAP g c) F.ADC_MAP_SLICE

/-- User gain and offset in force. -/
def State.userPair (s : State) (g c : Nat) : Int × Int := tget (0, 0) (s.adc g).pairs c

/-- A rotation step in progress ends without a change of the mapping (R150, R156). -/
def State.dropStep (g : Nat) (s : State) : State :=
  (s.mapAdc g fun a => { a with step := 0, again := false, force := none, fails := 0, compared := none }).sf
    (Reg.ADC_STAT g) F.ADC_STAT_CAL_RUN 0

/-- The free slice of a group, if it has one. -/
def State.freeSlice (s : State) (g : Nat) : Option Nat :=
  let f := s.fld (Reg.ADC_CAL_STAT g) F.ADC_CAL_STAT_FREE
  if f = 15 then none else some f

/-- The channel that the step in progress is to hand over. -/
def State.stepChan (s : State) (g : Nat) : Nat :=
  (s.adc g).force.getD (s.fld (Reg.ADC_CAL_STAT g) F.ADC_CAL_STAT_NEXT)

/-- NEXT advances (R153, R154). -/
def State.advanceNext (g c : Nat) (s : State) : State :=
  s.sf (Reg.ADC_CAL_STAT g) F.ADC_CAL_STAT_NEXT ((c + 1) % chans g)

/-- Slice `f` takes over channel `c`; the relieved slice becomes free (R153, R155). Answers the relieved slice. -/
def State.takeOver (g c f : Nat) (s : State) : Nat × State :=
  let old := s.sliceOf g c
  let s := s.sf (Reg.ADC_MAP g c) F.ADC_MAP_SLICE f
  let s := s.sf (Reg.ADC_SLCHK g f) F.ADC_SLCHK_ROLE 0
  let s := if old = 15 then s else s.sf (Reg.ADC_SLCHK g old) F.ADC_SLCHK_ROLE 1
  (old, s.sf (Reg.ADC_CAL_STAT g) F.ADC_CAL_STAT_FREE old)

/-- A conversion of channel `c` is about to start: a handover that waits for it takes place (R153, R155). -/
def State.serve (g c : Nat) (s : State) : State :=
  let a := s.adc g
  match s.freeSlice g with
  | none => s
  | some f =>
    if a.step = 3 && s.stepChan g = c then
      let r := s.takeOver g c f
      if a.force.isSome then
        let s := r.2.sf (Reg.ADC_MAP g c) F.ADC_MAP_SUSPECT 0
        let s := s.flag (Reg.ADC_CAL_STAT g) F.ADC_CAL_STAT_FORCED
        (s.raise (adcSrc g c) 0x23 (f + 16 * r.1 + 256)).dropStep g
      else (r.2.advanceNext g c).dropStep g
    else s

/-- A hold of a channel at TS `t`, with the slice and the user pair of that moment. -/
def State.holdNow (s : State) (g c t : Nat) : Hold := { ts := t, slice := s.sliceOf g c, pair := s.userPair g c }

/-- The later of two holds. -/
def laterOf (a : Option Nat) (t : Nat) : Option Nat :=
  match a with
  | some b => some (max b t)
  | none => some t

/-- The conversion of channel `c` from a hold, with an input of `x` LSB (R140, R142, R144, R152). Without a slice the result is 0;
while REF_READY is 0 its value is undefined (R7, log entry 2). CLIP is raised on its transition (R160). -/
def State.convert (g c : Nat) (h : Hold) (x : Int) (s : State) : Conv × State :=
  let sl := h.slice
  let t := h.ts
  let raw := satI 16 x
  let clip := raw != x
  let test := s.bit (Reg.ADC_MAP g c) F.ADC_MAP_TEST
  let k := s.sliceCal g sl
  let y := correct raw k.1 k.2 h.pair.1 h.pair.2
  let cv : Conv × State :=
    if sl = 15 then ({ ch := c, start := t, slice := sl, raw := 0, val := 0, clip := false, sat := false, noref := true, test := test }, s)
    else if s.refReady g then
      ({ ch := c, start := t, slice := sl, raw := raw, val := y.1, clip := clip, sat := y.2, noref := false, test := test }, s)
    else ({ ch := c, start := t, slice := sl, raw := raw, val := sx 16 (s.freeWord.toNat % 65536), clip := clip, sat := false,
            noref := true, test := test }, s.nextFree)
  let s := cv.2
  let s := if cv.1.clip then s.flagOnce (Reg.ADC_MAP g c) F.ADC_MAP_CLIP (adcSrc g c) 0x20 (enc 16 raw) else s
  let newer := match tget none (s.adc g).last c with
    | some v => decide (v.start ≤ t)
    | none => true
  (cv.1, s.mapAdc g fun a => { a with last := if newer then tput a.last c (some cv.1) else a.last,
                                      held := tput a.held c (laterOf (tget none a.held c) t) })

/-- The SAT flag of a channel and its event (R144, R160). -/
def State.noteSat (g c : Nat) (v : Conv) (s : State) : State :=
  if v.sat then s.flagOnce (Reg.ADC_MAP g c) F.ADC_MAP_SAT (adcSrc g c) 0x21 (enc 16 v.val) else s

/-- The hub channels assigned to the flights that FC `n` leads (R143). -/
def State.hubChans (s : State) (n : Nat) : List Nat :=
  (List.range 32).filter fun h => (List.range 2).any fun f => s.leads n f && nbit (s.rn (Reg.FC_HUB_MASK n f)) h

/-- The hold of one cycle sample at TS `t` (R143, R148): it shares a conversion that started in the same tick. A channel that two
FCs hold in one tick holds once. -/
def State.holdCyc (g c t : Nat) (s : State) : State :=
  match tget none (s.adc g).cycHold c with
  | some h => if h.ts = t then s else hold
  | none => hold
where
  hold : State :=
    let v := tget none (s.adc g).last c
    let shared := match v with
      | some v => v.start == t
      | none => false
    let s := if shared then s else s.serve g c
    let h := s.holdNow g c t
    s.mapAdc g fun a => { a with held := tput a.held c (laterOf (tget none a.held c) t), cycHold := tput a.cycHold c (some h),
                                 cyc := tput a.cyc c (if shared then v else none) }

/-- The hold of the cycle samples at the sample instant of FC `n` (R143, R145): committed user pairs come into force in the FC
groups, and every channel's hold is noted with what serves it. -/
def State.holdChannels (n : Nat) (s : State) : State :=
  let t := s.r64 (Reg.FC_CYC_TS_LO n)
  let s := (s.cycleFcs n).foldl (fun s m =>
    let s := s.mapAdc m fun a => { a with pairs := a.staged.foldl (fun p e => tput p e.1 e.2) a.pairs, staged := [] }
    forN 4 (fun c s => s.holdCyc m c t) s) s
  (s.hubChans n).foldl (fun s h => s.holdCyc (16 + h / 8) (h % 8) t) s

/-- The cycle sample of one channel completes, unless an entry of its tick has been converted for it (R143, R148). -/
def State.cycleSample (g c : Nat) (x : Int) (s : State) : State :=
  match tget none (s.adc g).cyc c, tget none (s.adc g).cycHold c with
  | none, some h =>
    let r := s.convert g c h x
    r.2.mapAdc g fun a => { a with cyc := tput a.cyc c (some r.1) }
  | _, _ => s

/-- CONVERSION_COMPLETE (R143): tick 80. `raw` gives the inputs in LSB: the four channels of each FC of the cycle in order at
4 i + c, and hub channel h at 64 + h. -/
def execConversionComplete (n : Fin 16) (raw : List Int) (s : State) : Res :=
  let n := n.val
  if s.stepDue n 80 then
    let s := (s.cycleFcs n).foldl (fun s m =>
      forN 4 (fun c s => s.cycleSample m c (raw.getD (4 * (m - n) + c) 0)) s) (s.stepAt n 80)
    .next ((s.hubChans n).foldl (fun s h => s.cycleSample (16 + h / 8) (h % 8) (raw.getD (64 + h) 0)) s)
  else .next s

/-- The corrected cycle sample of a channel appears in ADC_CYC at tick 88 (R143). -/
def State.publishCyc (g c : Nat) (s : State) : State :=
  match tget none (s.adc g).cyc c with
  | some v => (s.wr (Reg.ADC_CYC g c) (BitVec.ofNat 32 (enc 16 v.raw + 65536 * enc 16 v.val))).noteSat g c v
  | none => s

/-- Corrected samples go out at tick 88: to the registers, to the observers of the FCs, and from the hub for the next sample
instant (R30, R143). -/
def State.publishSamples (n : Nat) (s : State) : State :=
  let val := fun (s : State) g c => match tget none (s.adc g).cyc c with
    | some (v : Conv) => v.val
    | none => 0
  let s := (s.cycleFcs n).foldl (fun s m =>
    let s := forN 4 (fun c s => s.publishCyc m c) s
    s.mapFc m fun x => { x with cor := (List.range 4).map fun c => val s m c }) s
  (s.hubChans n).foldl (fun s h =>
    let s := s.publishCyc (16 + h / 8) (h % 8)
    s.mapFc n fun x => { x with hubSent := tput x.hubSent h (val s (16 + h / 8) (h % 8)) }) s

/-- A configuration write that a group refuses. -/
def State.adcErr (g : Nat) (s : State) : State := s.flag (Reg.ADC_STAT g) F.ADC_STAT_CFG_ERR

/-- The reference-fault source: any group has REF_LOST (R142). -/
def State.refSource (s : State) : State :=
  s.setInternal 167 ((List.range 20).any fun g => s.bit (Reg.ADC_STAT g) F.ADC_STAT_REF_LOST)

/-- A write of ADC_REF_CTRL.EN (R141, R142). -/
def State.refEnable (g : Nat) (on : Bool) (s : State) : State :=
  if on then
    if s.bit (Reg.ADC_REF_CTRL g) F.ADC_REF_CTRL_EN then s
    else (s.mapAdc g fun a => { a with settle := s.tick }).sf (Reg.ADC_REF_CTRL g) F.ADC_REF_CTRL_EN 1
  else if s.groupBusy g then s.adcErr g
  else
    let s := s.sf (Reg.ADC_REF_CTRL g) F.ADC_REF_CTRL_EN 0
    let s := s.sf (Reg.ADC_STAT g) F.ADC_STAT_REF_READY 0
    ((s.sf (Reg.ADC_STAT g) F.ADC_STAT_REF_LOST 0).dropStep g).refSource

/-- REF_ENABLE (R141). -/
def execRefEnable (g : Fin 20) (on : Bool) (s : State) : Res := .next (s.refEnable g on)

/-- Whether a group's reference is enabled and not ready. -/
def State.settling (s : State) (g : Nat) : Bool := s.bit (Reg.ADC_REF_CTRL g) F.ADC_REF_CTRL_EN && !s.refReady g

/-- REF_SETTLED (R141, R142): never earlier than 1,600,000 ticks after EN became 1 or after the fall. -/
def execRefSettled (g : Fin 20) (s : State) : Res :=
  let g := g.val
  if s.settling g then
    let s := s.atTick ((s.adc g).settle + 1600000)
    let s := s.flag (Reg.ADC_STAT g) F.ADC_STAT_REF_READY
    .next (s.sf (Reg.ADC_STAT g) F.ADC_STAT_REF_LOST 0).refSource
  else .next s

/-- REF_TIMEOUT (R141): not settled 3,200,000 ticks after EN became 1 or after the fall; REF_FAULT only. -/
def execRefTimeout (g : Fin 20) (s : State) : Res :=
  let g := g.val
  if s.settling g then
    .next ((s.atTick ((s.adc g).settle + 3200000)).flag (Reg.ADC_STAT g) F.ADC_STAT_REF_FAULT)
  else .next s

/-- REF_FALL (R142): REF_READY falls while EN is 1. -/
def execRefFall (g : Fin 20) (s : State) : Res :=
  let g := g.val
  if s.bit (Reg.ADC_REF_CTRL g) F.ADC_REF_CTRL_EN && s.refReady g then
    let s := s.sf (Reg.ADC_STAT g) F.ADC_STAT_REF_READY 0
    let s := (s.mapAdc g fun a => { a with settle := s.tick }).dropStep g
    let s := s.flag (Reg.ADC_STAT g) F.ADC_STAT_REF_LOST
    let s := (s.flag (Reg.ADC_STAT g) F.ADC_STAT_REF_FAULT).raise (adcSrc g 0) 0x28 1
    .next s.refSource
  else .next s

/-- Whether a sequence word is legal in group `g` (R146). -/
def seqOk (g : Nat) (v : Word) : Bool :=
  let tr := fget v F.ADC_SEQ_TRIG
  let trigOk := tr == 0 || (decide (1 ≤ tr) && decide (tr ≤ 0x10) && (decide (16 ≤ g) || tr == g + 1)) ||
    (decide (0x20 ≤ tr) && decide (tr ≤ 0x61))
  trigOk && decide (fget v F.ADC_SEQ_CH < chans g)

/-- A write of ADC_SEQk: an illegal word leaves the entry disabled and sets CFG_ERR (R146). -/
def State.seqWrite (g k : Nat) (v : Word) (s : State) : State :=
  let s := s.wr (Reg.ADC_SEQ g k) (v &&& 0xFFFF0FFF)
  if seqOk g v then s else s.adcErr g

/-- The trigger of an entry; 0 when the entry is disabled. -/
def State.trigOf (s : State) (g k : Nat) : Nat :=
  let v := s.rg (Reg.ADC_SEQ g k)
  if seqOk g v then fget v F.ADC_SEQ_TRIG else 0

/-- An entry's trigger arrives at TS `t0`: its start is scheduled with the channel that its word names then (R146), or TRIG_OVR is
set and the pending start stands (R147). -/
def State.schedule (g k t0 : Nat) (s : State) : State :=
  match tget none (s.adc g).pend k with
  | some _ => s.flag (Reg.ADC_STAT g) F.ADC_STAT_TRIG_OVR
  | none =>
    let d := s.fld (Reg.ADC_SEQ g k) F.ADC_SEQ_DELAY
    let tr := s.trigOf g k
    let d := if 0x40 ≤ tr && tr < 0x60 then max d 16 else d
    s.mapAdc g fun a => { a with pend := tput a.pend k (some (t0 + d, s.fld (Reg.ADC_SEQ g k) F.ADC_SEQ_CH)) }

/-- PERIOD of the group timer (spec/08, ADC_TMR): 0 stops it, 1–199 act as 200. -/
def State.tmrPeriod (s : State) (g : Nat) : Nat :=
  let p := s.fld (Reg.ADC_TMR g) F.ADC_TMR_PERIOD
  if p = 0 then 0 else max p 200

/-- SEQ_TRIGGER (R146): the trigger of entry `k` arrives: the last sample instant of its FC, the last period start of its pair,
the last rising edge on its EVT_IO pin, or the group timer's tick. -/
def execSeqTrigger (g : Fin 20) (k : Fin 16) (s : State) : Res :=
  let g := g.val
  let k := k.val
  let tr := s.trigOf g k
  if 1 ≤ tr && tr ≤ 0x10 then
    .next (if s.runOn (tr - 1) then s.schedule g k (s.r64 (Reg.FC_CYC_TS_LO (s.leader (tr - 1)))) else s)
  else if 0x20 ≤ tr && tr < 0x40 then .next (s.schedule g k (s.r64 (Reg.PWM_PSTS_LO (tr - 0x20))))
  else if 0x40 ≤ tr && tr < 0x60 then .next (s.schedule g k (tget 0 s.evtRise (tr - 0x40)))
  else if tr = 0x61 then
    let p := s.tmrPeriod g
    .next (if p = 0 then s else let s := s.atTs (s.ts + (p - s.ts % p) % p); s.schedule g k s.ts)
  else .next s

/-- SWTRIG (R146): every entry with trigger 0x60 starts from the first tick after the write is accepted. -/
def execSwtrig (g : Fin 20) (s : State) : Res :=
  .next (forN 16 (fun k s => if s.trigOf g k = 0x60 then s.schedule g k (s.ts + 1) else s) s)

/-- TS of the coming cycle samples of a channel (R148). -/
def State.coming (s : State) (g c : Nat) : List Nat :=
  if g < 16 then (if s.runOn g then [(s.fc (s.leader g)).next] else [])
  else (List.range 16).filterMap fun n =>
    if s.runOn n && (s.hubChans n).contains (8 * (g - 16) + c) then some (s.fc n).next else none

/-- The conversion of an entry of channel `c` that starts at TS `t` (R148): one of the same tick serves it, the cycle sample of that
tick is converted for both, and any other is its own. -/
def State.entryConv (g c t : Nat) (x : Int) (s : State) : Conv × State :=
  let own := fun (s : State) =>
    let s := s.serve g c
    s.convert g c (s.holdNow g c t) x
  let fresh := fun (s : State) => match tget none (s.adc g).cycHold c with
    | some h =>
      if h.ts = t then
        let r := s.convert g c h x
        (r.1, r.2.mapAdc g fun a => { a with cyc := tput a.cyc c (some r.1) })
      else own s
    | none => own s
  match tget none (s.adc g).last c with
  | some v => if v.start = t then (v, s) else fresh s
  | none => fresh s

/-- SEQ_START (R148): the scheduled start of entry `k`, with the input in LSB. It shares a conversion of the same tick, or is
missed within 80 ticks after another conversion or before a cycle sample of its channel. -/
def execSeqStart (g : Fin 20) (k : Fin 16) (raw : Int) (s : State) : Res :=
  let g := g.val
  let k := k.val
  match tget none (s.adc g).pend k with
  | none => .next s
  | some (t, c) =>
    let s := s.atTs t
    let s := s.mapAdc g fun a => { a with pend := tput a.pend k none }
    let held := tget none (s.adc g).held c
    let near := match held with
      | some h => decide (h < t) && decide (t < h + 80)
      | none => false
    let soon := (s.coming g c).any fun ns => decide (t < ns) && decide (ns < t + 80)
    if held != some t && (near || soon) then
      let s := s.flag (Reg.ADC_RES g k) F.ADC_RES_MISSED
      let s := s.wr (Reg.ADC_RESTS g k) (BitVec.ofNat 32 t)
      .next (s.raise (adcSrc g c) 0x22 (k + 65536 * (t % 65536)))
    else
      let shared := (s.adc g).out.any fun e => e.2.any fun v => v.1.start == t && v.1.ch == c
      let r := s.entryConv g c t raw
      .next (r.2.mapAdc g fun a => { a with out := tput a.out k (tget [] a.out k ++ [(r.1, shared)]) })

/-- SEQ_RESULT (R149): 88 ticks after the start the result is published, all fields at once. -/
def execSeqResult (g : Fin 20) (k : Fin 16) (s : State) : Res :=
  let g := g.val
  let k := k.val
  match tget [] (s.adc g).out k with
  | [] => .next s
  | (v, shared) :: rest =>
    let s := s.atTs (v.start + 88)
    let old := s.rg (Reg.ADC_RES g k)
    let s := s.wr (Reg.ADC_RES g k) (BitVec.ofNat 32 (enc 16 v.val + 2 ^ 16 * b2n v.clip + 2 ^ 17 * b2n v.sat +
      2 ^ 19 * b2n v.noref + 2 ^ 20 * b2n v.test + 2 ^ 21 * b2n shared +
      2 ^ 30 * b2n (fget old F.ADC_RES_NEW == 1 || fget old F.ADC_RES_OVR == 1) + 2 ^ 31))
    let s := s.wr (Reg.ADC_RESTS g k) (BitVec.ofNat 32 v.start)
    let s := s.noteSat g v.ch v
    .next (s.mapAdc g fun a => { a with out := tput a.out k rest })

/-- A read of ADC_RESk returns the register and then clears NEW and OVR (R149). -/
def State.resRead (g k : Nat) (s : State) : State := s.wr (Reg.ADC_RES g k) (s.rg (Reg.ADC_RES g k) &&& 0x3FFFFFFF)

/-- ADC_RES_READ (R149). -/
def execAdcResRead (g : Fin 20) (k : Fin 16) (s : State) : Res := .next (s.resRead g k)

/-- A write of ADC_UGAINc only stages the gain (R145). -/
def State.ugainWrite (g c : Nat) (v : Word) (s : State) : State := s.wr (Reg.ADC_UGAIN g c) (v &&& 0xFFFFF)

/-- The write of ADC_UOFFc commits the staged gain with the written offset: in an FC group from the next sample instant, in a hub
group at once (R145, R29, R435). -/
def State.uoffWrite (g c : Nat) (v : Word) (s : State) : State :=
  let s := s.wr (Reg.ADC_UOFF g c) (v &&& 0xFFFF)
  let p : Int × Int := (sx 20 (s.rn (Reg.ADC_UGAIN g c)), sx 16 (v.toNat % 65536))
  if g < 16 then s.mapAdc g fun a => { a with staged := tput a.staged c p }
  else s.mapAdc g fun a => { a with pairs := tput a.pairs c p }

/-- UGAIN_STAGE (R145). -/
def execUgainStage (g : Fin 20) (c : Fin 8) (v : Word) (s : State) : Res :=
  .next (if c.val < chans g then s.ugainWrite g c v else s)

/-- UOFF_COMMIT (R145). -/
def execUoffCommit (g : Fin 20) (c : Fin 8) (v : Word) (s : State) : Res :=
  .next (if c.val < chans g then s.uoffWrite g c v else s)

/-- The path test that a group runs: its command (R157). -/
def State.pathWait (s : State) (g : Nat) : Option Wait := s.keep.waits.find? fun w => w.on == .path g

/-- Whether the group's path test runs on channel `c`. -/
def State.pathOn (s : State) (g c : Nat) : Bool :=
  match s.pathWait g with
  | some w => (ainGroup (eTarget w.e)).2 == c
  | none => false

/-- A rotation step starts with the check of the free slice (R150); one on the channel of a path test is abandoned at once
(R156). -/
def State.stepStart (g : Nat) (force : Option Nat) (s : State) : State :=
  if s.pathOn g (force.getD (s.fld (Reg.ADC_CAL_STAT g) F.ADC_CAL_STAT_NEXT)) then
    (s.dropStep g).mapAdc g fun a => { a with calTick := s.tick }
  else
    (s.mapAdc g fun a => { a with step := 1, stepTick := s.tick, again := false, force := force, fails := 0, compared := none,
                                  calTick := s.tick }).flag (Reg.ADC_STAT g) F.ADC_STAT_CAL_RUN

/-- A step may start: EN and REF_READY are 1, a slice is free, no step is in progress (R150). -/
def State.stepMay (s : State) (g : Nat) : Bool :=
  s.bit (Reg.ADC_CAL_CFG g) F.ADC_CAL_CFG_EN && s.refReady g && (s.freeSlice g).isSome && (s.adc g).step == 0

/-- CAL_STEP (R150): every INTERVAL milliseconds. -/
def execCalStep (g : Fin 20) (s : State) : Res :=
  let g := g.val
  let s := s.atTick ((s.adc g).calTick + 800000 * max 1 (s.fld (Reg.ADC_CAL_CFG g) F.ADC_CAL_CFG_INTERVAL))
  .next (if s.stepMay g then s.stepStart g none else s)

/-- CHECK_NOW (R150). -/
def execCheckNow (g : Fin 20) (s : State) : Res := .next (if s.stepMay g then s.stepStart g none else s)

/-- A write of FORCE (R155): without a free slice, a channel of that number or a ready reference it changes nothing and sets
CFG_ERR. -/
def State.forceHandover (g c : Nat) (s : State) : State :=
  if (s.freeSlice g).isNone || chans g ≤ c || !s.refReady g then s.adcErr g else s.stepStart g (some c)

/-- FORCE_HANDOVER (R155). -/
def execForceHandover (g : Fin 20) (c : Fin 16) (s : State) : Res := .next (s.forceHandover g c)

/-- A write of ADC_CAL_CTRL. -/
def State.calCtrlWrite (g : Nat) (v : Word) (s : State) : State :=
  let s := if fget v F.ADC_CAL_CTRL_FORCE = 1 then s.forceHandover g (fget v F.ADC_CAL_CTRL_FORCE_CH) else s
  if fget v F.ADC_CAL_CTRL_CHECK_NOW = 1 && s.stepMay g then s.stepStart g none else s

/-- SLICE_CHECK_DONE (R150, R151, R155): the 192 raw codes of the check, 64 of each point. A slice that fails is checked once
more; failing again it is retired and the rotation stops. -/
def execSliceCheckDone (g : Fin 20) (raw : List Int) (s : State) : Res :=
  let g := g.val
  let a := s.adc g
  match a.step, s.freeSlice g with
  | 1, some f =>
    let s := s.atTick (a.stepTick + 15360)
    let avg := fun (j : Nat) => rhe (((List.range 64).map fun i => s.factory g f (satI 16 (raw.getD (64 * j + i) 0))).sum) 64
    let e0 := avg 0
    let e1 := avg 1 - 24576
    let e2 := avg 2 + 24576
    let tol : Int := max 1 (s.fld (Reg.ADC_CAL_CFG g) F.ADC_CAL_CFG_TOL)
    let chk := enc 8 (satI 8 e0) + 256 * enc 8 (satI 8 e1) + 65536 * enc 8 (satI 8 e2)
    let s := s.sf (Reg.ADC_SLCHK g f) ⟨0, 24⟩ chk
    if (e0.natAbs : Int) ≤ tol && (e1.natAbs : Int) ≤ tol && (e2.natAbs : Int) ≤ tol then
      .next (s.mapAdc g fun a => { a with step := 2, stepTick := s.tick })
    else if !a.again then .next (s.mapAdc g fun a => { a with again := true, stepTick := s.tick })
    else
      let s := if a.force.isSome then s.adcErr g else s
      let s := s.sf (Reg.ADC_SLCHK g f) F.ADC_SLCHK_ROLE 2
      let s := s.sf (Reg.ADC_CAL_STAT g) F.ADC_CAL_STAT_FREE 15
      let s := s.flag (Reg.ADC_CAL_STAT g) F.ADC_CAL_STAT_RETIRED
      let s := s.flag (Reg.ADC_STAT g) F.ADC_STAT_CAL_STOP
      let s := s.raise (adcSrc g 0) 0x26 (f + 256 * (chk / 65536 % 256 * 65536 + chk / 256 % 256 * 256 + chk % 256))
      .next ((s.raise (adcSrc g 0) 0x27 0).dropStep g)
  | _, _ => .next s

/-- HANDOVER_COMPARE (R153, R154): both slices hold the sample of the channel's next conversion; `raw` is the incoming slice's
code. A handover that completes changes the mapping at the channel's next conversion (`State.serve`). -/
def execHandoverCompare (g : Fin 20) (raw : Int) (s : State) : Res :=
  let g := g.val
  let a := s.adc g
  let c := s.stepChan g
  match a.step, a.force, s.freeSlice g, tget none a.last c with
  | 2, none, some f, some v =>
    if v.start + (s.tick - a.stepTick) < s.ts + 400 || a.compared = some v.start || v.slice = 15 then .next s
    else
      let x := s.factory g v.slice v.raw
      let d := x - s.factory g f (satI 16 raw)
      if d.natAbs ≤ 4 then
        let s := s.sf (Reg.ADC_CAL_STAT g) F.ADC_CAL_STAT_STEPS ((s.fld (Reg.ADC_CAL_STAT g) F.ADC_CAL_STAT_STEPS + 1) % 256)
        .next ((s.raise (adcSrc g c) 0x23 (f + 16 * v.slice + 65536 * enc 8 d)).mapAdc g fun a => { a with step := 3 })
      else
        let s := s.incSat (Reg.ADC_CAL_STAT g) F.ADC_CAL_STAT_HO_FAILS
        let s := (s.flag (Reg.ADC_CAL_STAT g) F.ADC_CAL_STAT_HO_FAIL).raise (adcSrc g c) 0x24 (f + 65536 * enc 16 (satI 16 d))
        if a.fails + 1 < 3 then
          .next (s.mapAdc g fun a => { a with fails := a.fails + 1, compared := some v.start })
        else
          let s := s.flag (Reg.ADC_MAP g c) F.ADC_MAP_SUSPECT
          let s := s.flag (Reg.ADC_CAL_STAT g) F.ADC_CAL_STAT_SUSPECT
          .next (((s.raise (adcSrc g c) 0x25 v.slice).advanceNext g c).dropStep g)
  | _, _, _, _ => .next s

/-- HANDOVER_CONVERSION (R153): a hub channel that converts nothing within 10 ms of the connection takes a conversion of its
own, which is not published. -/
def execHandoverConversion (g : Fin 20) (raw : Int) (s : State) : Res :=
  let g := g.val
  let a := s.adc g
  let c := s.stepChan g
  let idle := match tget none a.last c with
    | some v => decide (v.start + (s.tick - a.stepTick) < s.ts)
    | none => true
  if 16 ≤ g && a.step = 2 && a.force.isNone && idle then
    let s := s.atTick (a.stepTick + 8000000)
    let r := s.convert g c (s.holdNow g c s.ts) raw
    .next (r.2.noteSat g c r.1)
  else .next s

/-- FORCE_HANDOVER_DONE (R155): 400 ticks after the connection; from the first conversion that starts then or later the free slice
serves the channel (`State.serve`). -/
def execForceHandoverDone (g : Fin 20) (s : State) : Res :=
  let g := g.val
  let a := s.adc g
  match a.step, a.force with
  | 2, some _ => .next ((s.atTick (a.stepTick + 400)).mapAdc g fun a => { a with step := 3 })
  | _, _ => .next s

/-- Level `j` of a path test, in DAC codes. -/
def ptLevel (e : Entry) (j : Nat) : Int := sx 16 (ent e (12 + 2 * j) 2)

/-- RUN_PATH_TEST (R157): its refusals, then the test begins. -/
def State.runPathTest (e : Entry) (s : State) : State :=
  let m := eTarget e
  let gc := ainGroup m
  let g := gc.1
  let c := gc.2
  let cnt := ent e 8 1
  let bad := cnt = 0 || 6 < cnt || ent e 9 1 != 0 || !zeroes e 24 48 ||
    (List.range 6).any fun j =>
      if j < cnt then decide (ptLevel e j < -2048) || decide (2047 < ptLevel e j) else ptLevel e j != 0
  let uses := s.boundSlots.any fun p => s.runs p.1 p.2 &&
    (if g < 16 then (s.members p.1 p.2).contains g else nbit (s.rn (Reg.FC_HUB_MASK p.1 p.2)) (m - 64))
  if bad then s.reply e stBadParam
  else if uses || !s.refReady g then s.reply e stConflict
  else if s.bit (Reg.ADC_STAT g) F.ADC_STAT_PT_BUSY then s.reply e stBusy
  else
    let s := if (s.adc g).step ≠ 0 && s.stepChan g = c then s.dropStep g else s
    let s := s.flag (Reg.ADC_STAT g) F.ADC_STAT_PT_BUSY
    let s := s.flag (Reg.ADC_MAP g c) F.ADC_MAP_TEST
    let s := s.wr (Reg.ADC_TDAC g) (BitVec.ofNat 32 (enc 12 (ptLevel e 0) + 4096 + 65536 * c))
    let s := s.mapAdc g fun a => { a with ptDone := 0, ptAvg := [], ptPass := 0, ptTick := s.tick }
    s.await e (.path g) 0

/-- RUN_PATH_TEST (R157). -/
def execRunPathTest (e : Entry) (s : State) : Res := .next (s.take 0x62 e State.runPathTest)

/-- PATH_TEST_LEVEL (R157): after 800 ticks and 16 conversions one level is averaged and judged; `codes` are the 16 inputs in
LSB. -/
def execPathTestLevel (grp : Fin 20) (codes : List Int) (s : State) : Res :=
  let g := grp.val
  match s.pathWait g with
  | none => .next s
  | some w =>
    let a := s.adc g
    let j := a.ptDone
    if ent w.e 8 1 ≤ j then .next s
    else
      let c := (ainGroup (eTarget w.e)).2
      let s := s.atTick (a.ptTick + 800 + 1280)
      let r := (List.range 16).foldl (fun (r : Int × State) i =>
        let q := r.2.convert g c (r.2.holdNow g c r.2.ts) (codes.getD i 0)
        (r.1 + q.1.val, q.2.noteSat g c q.1)) (0, s)
      let s := r.2
      let avg := rhe r.1 16
      let u := s.userPair g c
      let want := rhe (16 * ptLevel w.e j * (2 ^ 20 + u.1)) (2 ^ 20) + u.2
      let pass := decide ((avg - want).natAbs ≤ ent w.e 10 2)
      let s := s.raiseIf (!pass) (adcSrc g c) 0x29 (j + 65536 * enc 16 avg)
      let s := s.mapAdc g fun a =>
        { a with ptDone := j + 1, ptAvg := a.ptAvg ++ [avg], ptPass := setBit a.ptPass j pass, ptTick := s.tick }
      .next (if j + 1 < ent w.e 8 1 then s.sf (Reg.ADC_TDAC g) F.ADC_TDAC_CODE (enc 12 (ptLevel w.e (j + 1)))
             else s.wr (Reg.ADC_TDAC g) 0)

/-- The end of a path test (R157): 800 ticks after the DAC is disconnected TEST clears, and the reply is sent. -/
def State.pathDone (g : Nat) (s : State) : State :=
  match s.pathWait g with
  | none => s
  | some w =>
    let a := s.adc g
    if a.ptDone < ent w.e 8 1 then s
    else
      let s := s.atTick (a.ptTick + 800)
      let s := s.sf (Reg.ADC_MAP g (ainGroup (eTarget w.e)).2) F.ADC_MAP_TEST 0
      let s := s.sf (Reg.ADC_STAT g) F.ADC_STAT_PT_BUSY 0
      let v := fun i => enc 16 (a.ptAvg.getD i 0)
      s.finish w stOk 0 [v 0 + 65536 * v 1, v 2 + 65536 * v 3, v 4 + 65536 * v 5, a.ptPass]

/-- SET_USER_CAL (R158). -/
def State.setUserCal (e : Entry) (s : State) : State :=
  let gc := ainGroup (eTarget e)
  let gu := sx 32 (ent e 8 4)
  if gu < -(2 ^ 19) || 2 ^ 19 ≤ gu || !zeroes e 14 48 then s.reply e stBadParam
  else
    let g := gc.1
    let c := gc.2
    let old := s.rn (Reg.ADC_UGAIN g c)
    let oldO := s.rn (Reg.ADC_UOFF g c)
    let s := (s.ugainWrite g c (BitVec.ofInt 32 gu)).uoffWrite g c (BitVec.ofNat 32 (ent e 12 2))
    s.replyOk e 0 [enc 32 (sx 20 old), oldO]

/-- SET_USER_CAL (R158). -/
def execSetUserCal (e : Entry) (s : State) : Res := .next (s.take 0x60 e State.setUserCal)

/-- The calibration record of one slice (R159). -/
def State.calRecord (s : State) (g sl : Nat) : List Byte :=
  let k := s.sliceCal g sl
  let ch := (List.range (chans g)).find? fun c => s.sliceOf g c == sl
  leBytes 2 (enc 16 k.1) ++ leBytes 4 (enc 32 k.2) ++ leBytes 1 (s.fld (Reg.ADC_SLCHK g sl) F.ADC_SLCHK_ROLE) ++
    leBytes 1 (ch.getD 0xFF)

/-- GET_FACTORY_CAL (R159). -/
def State.getFactoryCal (e : Entry) (s : State) : State :=
  let g := eTarget e
  let n := chans g + 1
  if eBufLen e ≠ 8 * n then s.reply e stBadLength
  else if !zeroes e 8 48 then s.reply e stBadParam
  else s.replyBuf e true ((List.range n).flatMap fun sl => s.calRecord g sl) 0 []

/-- GET_FACTORY_CAL (R159). -/
def execGetFactoryCal (e : Entry) (s : State) : Res := .next (s.take 0x61 e State.getFactoryCal)

end Sys2Proof.Machine
end

