-- ==== Sys2Proof/Machine/Ledger.lean ====
section
/-! DEFINITION. The charge ledger (spec/06_charge_ledger.md). The books are kept per lane and slot; the registers are a view of
them that changes at ticks 88 and 552 only (R115). -/

namespace Sys2Proof.Machine

/-- An int64 account: every addition wraps (R101). -/
def wrap64 (v : Int) : Int := wrapI 64 v

/-- QM of R102. -/
def qmOf (capQ v qexp : Nat) : Int := rhe ((capQ * v * 2 ^ qexp : Nat) : Int) 65536

/-- QEXP of a flight. -/
def State.qexp (s : State) (n f : Nat) : Nat := s.lf n (Reg.LED_CFG n f) F.LED_CFG_QEXP

/-- Σ ACC over the lanes of a flight. -/
def State.sumAcc (s : State) (n f : Nat) : Int := (s.slotLinks n f).foldl (fun a l => a + (s.lane l).acc) 0

/-- A cell's posting of one window (R103): current, duty, cycle length and its two segment levels. -/
def posting (ip : Int) (d t : Nat) (l1 l2 : Int) : Int := ip * (l1 * d + l2 * ((t : Int) - d))

/-- The posting of window k at tick 480 (R103, R104). -/
def State.post (n f : Nat) (s : State) : State :=
  if !s.runs n f then s
  else
    let sl := s.slot n f
    let t := s.tcyc n
    let blk := s.blockOn (s.flightOf n f)
    let frz := sl.freeze
    let d := if frz then 0 else sl.d
    let ip := if s.lf n (Reg.BAL_FCFG n f) F.BAL_FCFG_I_POL = 1 then -sl.cur else sl.cur
    let links := s.slotLinks n f
    if blk then
      let s := links.foldl (fun s l => s.mapLane l fun x => { x with hist := ((0, 0) :: x.hist).take 3 }) s
      s.mapSlot n f fun y => { y with wins := ({ ip := 0, d := 0, posted := false } :: y.wins).take 3 }
    else
      let s := links.foldl (fun s l => s.mapLane l fun x =>
        let a := if frz then x.endLvl else x.l1
        let b := if frz then x.endLvl else x.l2
        { x with acc := wrap64 (x.acc + posting ip d t a b), hist := ((a, b) :: x.hist).take 3 }) s
      let net : Int := if frz then links.foldl (fun a l => a + (s.lane l).endLvl) 0 * t else sl.na * t + d
      s.mapSlot n f fun y => { y with facc := wrap64 (y.facc + ip * net), fpost := ip * net,
                                      wins := ({ ip := ip, d := d, posted := true } :: y.wins).take 3 }

/-- QS of R108: the estimate at the measurement instant. -/
def State.qs (s : State) (n f l : Nat) : Int :=
  let t := s.tcyc n
  let la := s.lapply n
  let w := if la ≤ t then 1 else 2
  let e := if la ≤ t then t - la else 2 * t - la
  let x := s.lane l
  let win := fun j => (s.slot n f).wins.getD j { ip := 0, d := 0, posted := false }
  let lv := fun j => x.hist.getD j (0, 0)
  let back := (List.range (w + 1)).foldl (fun a j => a + posting (win j).ip (win j).d t (lv j).1 (lv j).2) 0
  let m := min (win w).d e
  wrap64 (x.acc - back + (win w).ip * ((lv w).1 * m + (lv w).2 * ((e : Int) - m)))

/-- Gang lane number of a link in the flight led by FC `n`. -/
def gangLane (n l : Nat) : Nat := l - 64 * n

/-- Payload of a cell event of the ledger (R117). -/
def State.cellPay (s : State) (n l : Nat) : Nat := gangLane n l + 65536 * ((s.count n).toNat % 65536)

/-- Address of the flag word of a cell record. -/
def ledFlags (l : Nat) : Nat := Reg.LED_CELL (l / 64) (l % 64) 6

/-- Set a W1C flag of a cell record; the event is raised when it goes from 0 to 1. -/
def State.cellFlag (n f l b code pay : Nat) (s : State) : State :=
  s.flagOnce (ledFlags l) ⟨b, 1⟩ (slotSrc n f) code pay

/-- Apply a correction (R109): to ACC, RACC and CORR alike. -/
def State.correct (n f l : Nat) (c : Int) (s : State) : State :=
  let s := s.mapLane l fun x => { x with acc := wrap64 (x.acc + c), corr := wrap64 (x.corr + c) }
  s.mapSlot n f fun y => { y with racc := wrap64 (y.racc + c) }

/-- The resynchronisation flags and event (R110, R111). -/
def State.resync (n f l : Nat) (s : State) : State :=
  (s.flag (Reg.LED_STAT n f) F.LED_STAT_RESYNC).cellFlag n f l 17 0x18 (s.cellPay n l)

/-- Reconciliation of a lane with a good up barge of VCAP `v` (R109–R111). A lane counts as measured since START_FLIGHT from its
first reconciliation on (DEDUCED, log entry 69). -/
def State.reconcile (n f l v : Nat) (s : State) : State :=
  let x := s.lane l
  let qexp := s.qexp n f
  let dq := wrap64 (qmOf (s.capQ l) v qexp - s.qs n f l)
  let rlim := (s.lv n (Reg.LED_RLIM n f)).toNat
  let s := s.mapLane l fun x => { x with meas := true }
  if x.capqNew then
    ((s.mapLane l fun x => { x with capqNew := false, outRun := 0 }).correct n f l dq).resync n f l
  else if !x.avail || !x.meas then s.correct n f l dq
  else if rlim != 0 && decide (rlim < dq.natAbs) then
    let lim := max 1 (s.lf n (Reg.LED_CFG n f) F.LED_CFG_RLIM_N)
    let run := x.outRun + 1
    let s := (s.flag (Reg.LED_STAT n f) F.LED_STAT_OUTLIER).cellFlag n f l 16 0x17 (s.cellPay n l)
    if lim ≤ run then ((s.mapLane l fun x => { x with outRun := 0 }).correct n f l dq).resync n f l
    else s.mapLane l fun x => { x with outRun := run }
  else
    (s.mapLane l fun x => { x with outRun := 0 }).correct n f l
      (rhe dq (2 ^ s.lf n (Reg.LED_CFG n f) F.LED_CFG_GAIN))

/-- The cell-over-voltage cause of FC `m`: any lane of it holds OV_NOW (R113). -/
def State.ovEval (m : Nat) (s : State) : State :=
  s.setCause m 5 ((List.range 64).any fun i => (s.lane (64 * m + i)).ovNow)

/-- The comparison of R113 on a good up barge. -/
def State.ovCheck (n f l v : Nat) (s : State) : State :=
  let lim := s.vcapOv l
  let isOver := lim != 0xFFFF && decide (lim < v)
  let s := s.mapLane l fun x => { x with ovNow := isOver, ov := x.ov || isOver }
  let s := if isOver then
      (s.flag (Reg.LED_STAT n f) F.LED_STAT_CELL_OV).cellFlag n f l 18 0x19 (gangLane n l + 65536 * v)
    else s
  s.ovEval (l / 64)

/-- A good up barge reaches the ledger: VMEAS, the comparison of R113, and reconciliation while RUNNING or HELD; in the cycle of
START_FLIGHT the seed has taken its place (R114). -/
def State.ledGood (l v : Nat) (s : State) : State :=
  let s := s.mapLane l fun x => { x with vmeas := v, lastV := some v }
  match s.linkFlight l with
  | some (n, f) =>
    let s := s.ovCheck n f l v
    if s.runs n f && !(s.slot n f).startCyc then s.reconcile n f l v else s
  | none => s

/-- A cycle without a good up barge: MISS counts while the flight is RUNNING or HELD (R109). -/
def State.ledMiss (l : Nat) (s : State) : State :=
  match s.linkFlight l with
  | some (n, f) => if s.runs n f then s.mapLane l fun x => { x with miss := min 65535 (x.miss + 1) } else s
  | none => s

/-- VEST of a lane (R112). -/
def vestOf (acc : Int) (capQ qexp : Nat) : Nat :=
  if capQ = 0 then 0 else (usatI 20 (rhe (acc * 2 ^ 20) (capQ * 2 ^ qexp))).toNat

/-- VEST of every lane of a flight at tick 88. -/
def State.vestAll (n f : Nat) (s : State) : State :=
  (s.slotLinks n f).foldl (fun s l => s.mapLane l fun x => { x with vest := vestOf x.acc (s.capQ l) (s.qexp n f) }) s

/-- The code of a level in LVL fields. -/
def lvlCode (l : Int) : Nat := if l = 1 then 1 else if l = -1 then 3 else 0

/-- The register view of one cell record (R115). -/
def State.viewCell (l : Nat) (s : State) : State :=
  let x := s.lane l
  let a := Reg.LED_CELL (l / 64) (l % 64) 0
  let lv := fun j => let p := x.hist.getD j (0, 0); lvlCode p.1 + 4 * lvlCode p.2
  let s := s.w64 a (enc 64 x.acc)
  let s := s.w64 (a + 8) (enc 64 x.corr)
  let s := s.wr (a + 16) (BitVec.ofNat 32 x.vmeas)
  let s := s.wr (a + 20) (BitVec.ofNat 32 x.vest)
  let s := s.sf (a + 24) ⟨0, 16⟩ (lv 0 + 16 * lv 1 + 256 * lv 2 + 4096 * (min 15 x.outRun))
  let s := s.sf (a + 24) ⟨19, 1⟩ (b2n x.ovNow)
  s.wr (a + 28) (BitVec.ofNat 32 x.miss)

/-- The view of a flight's records and accounts takes the books' values, unless the HOLD_VIEW in force is 1 (R115, R29). -/
def State.view (n f : Nat) (s : State) : State :=
  if s.lf n (Reg.LED_CTRL n f) F.LED_CTRL_HOLD_VIEW = 1 then s
  else
    let s := (s.slotLinks n f).foldl (fun s l => s.viewCell l) s
    let y := s.slot n f
    let s := s.w64 (Reg.LED_FACC n f 0) (enc 64 y.facc)
    let s := s.w64 (Reg.LED_RACC n f 0) (enc 64 y.racc)
    let s := s.w64 (Reg.LED_FPOST n f 0) (enc 64 y.fpost)
    s.w64 (Reg.LED_RES n f 0) (enc 64 y.res)

/-- RES of R106. -/
def State.resOf (s : State) (n f : Nat) : Int := wrap64 (s.sumAcc n f - (s.slot n f).facc - (s.slot n f).racc)

/-- The invariant check of a flight at tick 552 (R106, R107). -/
def State.checkBooks (n f : Nat) (s : State) : State :=
  if !s.runs n f then s
  else
    let r := s.resOf n f
    let s := s.mapSlot n f fun y => { y with res := r }
    if r = 0 then s
    else
      let s := (s.flag (Reg.LED_STAT n f) F.LED_STAT_FAULT).raise (slotSrc n f) 0x15
        (enc 16 r + 65536 * ((s.count n).toNat % 65536))
      (s.flag (Reg.LED_STAT n f) F.LED_STAT_SRC_FAULT).setCause n (3 + f) true

/-- A rebase that was accepted before this check applies after it, at tick 560 (R116). -/
def State.rebaseSeen (n f : Nat) (s : State) : State :=
  let due := s.keep.waits.any fun w => w.on == .rebase n && leAt w.e.bytes 4 4 == s.flightOf n f
  s.mapSlot n f fun y => { y with rebase := due }

/-- LEDGER_CHECK (R106): tick 552. -/
def execLedgerCheck (n : Fin 16) (s : State) : Res :=
  let n := n.val
  if s.stepDue n 552 then
    .next (forN 2 (fun f s => if s.bound n f then (s.rebaseSeen n f).checkBooks n f |>.view n f else s) (s.stepAt n 552))
  else .next s

/-- The seed of R114, with the QEXP that the sample instant latches. MISS counts from it. -/
def State.seed (n f : Nat) (s : State) : State :=
  let q := s.fld (Reg.LED_CFG n f) F.LED_CFG_QEXP
  let s := (s.slotLinks n f).foldl (fun s l => s.mapLane l fun x =>
    { x with acc := (match x.lastV with | some v => qmOf (s.capQ l) v q | none => 0),
             corr := 0, hist := [], miss := 0, capqNew := false, meas := false }) s
  let a := wrap64 (s.sumAcc n f)
  (s.mapSlot n f fun y => { y with facc := a, racc := 0, wins := [] }).flag (Reg.LED_STAT n f) F.LED_STAT_SEEDED

/-- A change of QEXP between the words latched before and those latched now makes the next reconciliation of every lane of the
flight a full one (R111). -/
def State.qexpWatch (n f : Nat) (old : Tbl Word) (s : State) : State :=
  let a := Reg.LED_CFG n f
  if fget (tget (s.lv n a) old a) F.LED_CFG_QEXP = s.qexp n f then s
  else (s.slotLinks n f).foldl (fun s l => s.mapLane l fun x => { x with capqNew := true }) s

end Sys2Proof.Machine
end

