-- ==== Sys2Proof/Machine/Balancer.lean ====
section
/-! DEFINITION. Modulator, balancer and edge scheduler (spec/05_insertion_balancing.md). -/

namespace Sys2Proof.Machine

/-- The conditions of R72 on a cell but for its admission: lane, descriptor, reports; no bypass ordered (R75) and no RETRAIN
written that the engine has not taken yet (R59). -/
def State.meets (s : State) (l : Nat) : Bool :=
  let x := s.lane l
  s.laneUp l && (s.cellType l == 1 || s.cellType l == 2) && !x.repTs && !x.repBlk && !x.bypass && !x.pendRetrain

/-- The conditions of R82 on a cell. -/
def State.fits (s : State) (n f l : Nat) : Bool :=
  s.vcapScale l == s.rn (Reg.BAL_VSCALE n f) && decide (4 * s.minPulse l ≤ s.tcyc n) && decide (s.minPulse l ≤ 16383)

/-- A cell fails its admission (R74, R82). -/
def State.reject (n f l : Nat) (s : State) : State :=
  let s := s.mapLane l fun x => { x with rej := true }
  (s.flag (Reg.FC_FLT_STAT n f) F.FC_FLT_STAT_REJECT).raise (slotSrc n f) 0x12 (l % 64 + 65536 * s.flightOf n f)

/-- Judge one cell of a RUNNING or HELD flight for admission at tick 88 (R74, R82). -/
def State.admitLane (n f l : Nat) (s : State) : State :=
  let x := s.lane l
  if x.adm || x.rej || !s.meets l then s
  else if s.fits n f l && ((s.slot n f).startCyc && x.qual || s.passesDelays l) then
    s.mapLane l fun x => { x with adm := true, lvl := 0 }
  else s.reject n f l

/-- Fix the available cells of a flight at tick 88 (R95): admission, qualification, AVAIL and SHORT (R72–R74, R82). -/
def State.fixAvail (n f : Nat) (s : State) : State :=
  let links := s.slotLinks n f
  let run := s.runs n f
  let s := if (s.slot n f).startCyc then
      match links.find? fun l => s.meets l && (s.lane l).qual with
      | some l => s.wr (Reg.BAL_VSCALE n f) (BitVec.ofNat 32 (s.vcapScale l))
      | none => s
    else s
  let s := if run then links.foldl (fun s l => s.admitLane n f l) s else s
  let s := links.foldl (fun s l =>
    let q := s.meets l && (!run || (s.lane l).adm)
    s.mapLane l fun x => { x with avail := q && x.qual, qual := q }) s
  let a := (links.filter fun l => (s.lane l).avail).length
  let s := s.sf (Reg.FC_FLT_STAT n f) F.FC_FLT_STAT_AVAIL a
  let short := run && decide (a < s.fld (Reg.FC_FLT_REQ n f) F.FC_FLT_REQ_N_REQ)
  let s := if short && !(s.slot n f).short then
      (s.flag (Reg.FC_FLT_STAT n f) F.FC_FLT_STAT_SHORT).raise (slotSrc n f) 0x11
        (a + 65536 * s.flightOf n f)
    else s
  s.mapSlot n f fun y => { y with short := short, startCyc := false }

/-- The available cells of a flight, as links in gang lane order. -/
def State.avail (s : State) (n f : Nat) : List Nat := (s.slotLinks n f).filter fun l => (s.lane l).avail

/-- σ as the balancer uses it (R88). -/
def State.sigma (s : State) (n f : Nat) : Int := (s.slot n f).sigma

/-- The current direction from the corrected arm current at tick 88, inverted by I_POL (R88, R98). -/
def State.direction (n f : Nat) (s : State) : State :=
  if !s.runs n f then s
  else
    let i := (s.fc n).cor.getD (s.lf n (Reg.BAL_FCFG n f) F.BAL_FCFG_ISEL) 0
    let d : Int := s.lf n (Reg.BAL_IDEAD n f) F.BAL_IDEAD_DEAD
    let p : Int := if s.lf n (Reg.BAL_FCFG n f) F.BAL_FCFG_I_POL = 1 then -1 else 1
    let s := s.mapSlot n f fun y => { y with cur := i, sigma := if d < i then p else if i < -d then -p else y.sigma }
    s.sb (Reg.BAL_STAT n f) F.BAL_STAT_DIR (s.sigma n f == -1)

/-- Keys and buckets of the available cells (R89), and the sum S of their VEST (R83). -/
def State.keys (n f : Nat) (s : State) : State :=
  let av := s.avail n f
  let sg := s.sigma n f
  let ref := match av with | l :: _ => (s.lane l).acc | [] => 0
  let s := av.foldl (fun s l => s.mapLane l fun x => { x with keyE := sg * satI 40 (wrap64 (x.acc - ref)) }) s
  let emin := match av with | l :: r => r.foldl (fun m k => min m (s.lane k).keyE) (s.lane l).keyE | [] => 0
  let tb := (s.lv n (Reg.BAL_TBAND n f)).toNat
  let s := av.foldl (fun s l => s.mapLane l fun x =>
    { x with keyB := if tb = 0 then x.keyE - emin else (x.keyE - emin) / tb }) s
  s.mapSlot n f fun y => { y with sum := av.foldl (fun a l => a + (s.lane l).vest) 0, a := av.length,
                                  afb := (av.filter fun l => s.isFb l).length }

/-- The full order of R89 for L = +1 as the key slots hold it: bucket, wear rank when WEAR_EN, gang lane. -/
def State.before (s : State) (n f a b : Nat) : Bool :=
  let x := s.lane a
  let y := s.lane b
  let wear := s.lf n (Reg.BAL_FCFG n f) F.BAL_FCFG_WEAR_EN == 1
  if x.slotB != y.slotB then decide (x.slotB < y.slotB)
  else if wear && x.wrank != y.wrank then decide (x.wrank < y.wrank)
  else decide (a < b)

/-- Insert into a list by an order. -/
def insertBy (lt : Nat → Nat → Bool) (x : Nat) : List Nat → List Nat
  | [] => [x]
  | y :: r => if lt x y then x :: y :: r else y :: insertBy lt x r

/-- Sort a list by an order. -/
def sortBy (lt : Nat → Nat → Bool) (l : List Nat) : List Nat := l.foldr (insertBy lt) []

/-- The order that the token stage uses (R89): the published ranking of the available cells for L = +1; for L = −1 its
full-bridge cells with the buckets in descending order. -/
def State.order (s : State) (n f : Nat) (neg : Bool) : List Nat :=
  let r := (s.slot n f).rank
  if neg then
    (r.filter fun l => s.isFb l).foldr (fun x acc =>
      insertBy (fun a b => decide ((s.lane b).keyB ≤ (s.lane a).keyB)) x acc) []
  else r

/-- Hand a ranking over: a permutation of the available cells, the given order first (R99). -/
def State.publishRank (n f : Nat) (l : List Nat) (s : State) : State :=
  let av := s.avail n f
  let r := (l.filter fun x => av.contains x).eraseDups
  s.mapSlot n f fun y => { y with rank := r ++ av.filter (fun x => !r.contains x), published := true }

/-- The seed and the Newton step of the reciprocal (R83). -/
def recip (sum : Nat) : Nat × Nat :=
  let e := Nat.log2 sum
  let j := (sum - 2 ^ e) * 512 / 2 ^ e
  let y0 := (rhe (65536 * 512) (512 + j)).toNat
  ((rhe (2 ^ 24 * y0 * (2 ^ (e + 17) - sum * y0)) (2 ^ (32 + e))).toNat, e)

/-- The modulator at tick 200 (R83, R84, R97). A hold cycle repeats N and F. -/
def State.modulate (n f : Nat) (s : State) : State :=
  if !s.runs n f then s
  else if (s.fc n).holdCyc then s.mapSlot n f fun y => { y with satNew := false, clamped := false }
  else
    let y := s.slot n f
    let u : Int := (s.rg (Reg.OBS_U n (s.lf n (Reg.BAL_FCFG n f) F.BAL_FCFG_UIDX))).toInt
    let zd := y.sum == 0 || y.a == 0
    let (yy, e) := if zd then (y.yy, y.ee) else recip y.sum
    let xr : Int := if zd then 0 else rhe (u * y.a * yy) (2 ^ (e + 8))
    let hi : Int := 65536 * y.a
    let lo : Int := -65536 * y.afb
    let x := if hi < xr then hi else if xr < lo then lo else xr
    let cl := x != xr
    let was := s.bit (Reg.BAL_STAT n f) F.BAL_STAT_SAT
    let nn := x / 65536
    let fr := (x % 65536).toNat
    let s := if cl then s.flag (Reg.BAL_STAT n f) F.BAL_STAT_SAT else s
    let s := if zd then s.flag (Reg.BAL_STAT n f) F.BAL_STAT_ZDIV else s
    let s := s.mapSlot n f fun y => { y with n := nn, fr := fr, clamped := cl, yy := yy, ee := e, satNew := cl && !was }
    let s := s.wr (Reg.BAL_NOUT n f) (BitVec.ofNat 32 (enc 10 nn + 65536 * fr))
    let s := s.wr (Reg.BAL_XOUT n f) (BitVec.ofNat 32 (enc 26 x))
    s.wr (Reg.BAL_RECIP n f) (BitVec.ofNat 32 (yy + 2 ^ 25 * e))

/-- A value clamped to a range. -/
def clampI (lo hi v : Int) : Int := max lo (min v hi)

/-- Whether an override of slot `f` of FC `m` is valid and of the present cycle (R31). -/
def State.ovrdHits (s : State) (m f : Nat) : Bool :=
  s.bit (Reg.FC_N_OVRD m f) F.FC_N_OVRD_VALID && s.fld (Reg.FC_N_OVRD m f) F.FC_N_OVRD_CYC == (s.count m).toNat % 256

/-- The deadline on an override register of FC `m` (R31): one of another cycle sets OVRD_LATE, and VALID clears, in every cycle
of the FC. A follower's register is judged like any other, and its N is never used (DEDUCED, log entry 68). -/
def State.ovrdEnd (m f : Nat) (s : State) : State :=
  let late := s.bit (Reg.FC_N_OVRD m f) F.FC_N_OVRD_VALID && !s.ovrdHits m f
  (if late then s.flag (Reg.FC_CYC_STAT m) F.FC_CYC_STAT_OVRD_LATE else s).sf (Reg.FC_N_OVRD m f) F.FC_N_OVRD_VALID 0

/-- N_A of the deadline (R31, R85, R97): the modulator's N, an admitted override, or in a hold cycle the repeated N. The flags
OVRD_LATE and OVRD_CLAMP are set, and VALID clears. -/
def State.fixNa (n f : Nat) (s : State) : State :=
  let y := s.slot n f
  let o := s.rg (Reg.FC_N_OVRD n f)
  let hit := s.ovrdHits n f
  let s := s.ovrdEnd n f
  if !s.runs n f then s
  else
    let lo : Int := -y.afb
    let hi : Int := y.a
    if (s.fc n).holdCyc then
      let na := clampI lo hi y.n
      s.mapSlot n f fun y => { y with na := na, noTrim := na != y.n, zeroRho := false }
    else if hit then
      let delta : Int := s.lf n (Reg.FC_N_LIMIT n f) F.FC_N_LIMIT_DELTA
      let v := sx 10 (fget o F.FC_N_OVRD_N)
      let na := clampI lo hi (clampI (y.n - delta) (y.n + delta) v)
      let s := if na = v then s else s.flag (Reg.BAL_STAT n f) F.BAL_STAT_OVRD_CLAMP
      s.mapSlot n f fun y => { y with na := na, noTrim := false, zeroRho := false }
    else s.mapSlot n f fun y => { y with na := y.n, noTrim := false, zeroRho := false }

/-- No room for the trim, and saturation (R85, items 3 and 4). -/
def State.fixTrim (n f : Nat) (s : State) : State :=
  if !s.runs n f then s
  else
    let y := s.slot n f
    let hold := (s.fc n).holdCyc
    let full := decide (0 ≤ y.na) && y.na == y.a
    let sup := !hold && full && y.fr != 0
    let s := s.mapSlot n f fun y =>
      { y with fr := if y.clamped && !hold then 0 else y.fr,
               zeroRho := !hold && (y.clamped || sup),
               noTrim := y.noTrim || full }
    let satSet := sup || (hold && ((s.slot n f).noTrim))
    let was := s.bit (Reg.BAL_STAT n f) F.BAL_STAT_SAT
    let s := if satSet then s.flag (Reg.BAL_STAT n f) F.BAL_STAT_SAT else s
    let s := s.sb (Reg.BAL_STAT n f) F.BAL_STAT_NEG (decide ((s.slot n f).na < 0))
    let s := s.raiseIf (y.satNew || (satSet && !was)) (slotSrc n f) 0x13
      (enc 10 y.na + 65536 * ((s.count n).toNat % 65536))
    s.mapSlot n f fun y => { y with satNew := false }

/-- One swap of R90 step 4 while it is allowed: the incumbents in order, the swaps made, and whether SMAX stopped one. -/
def swapLoop (s : State) (ord : List Nat) (lsgn : Int) (tb : Int) : Nat → List Nat → Nat → List Nat × Nat × Bool
  | fuel, inc, k =>
    match (ord.filter fun x => inc.contains x).getLast?, ord.find? fun x => !inc.contains x with
    | some w, some b =>
      if decide (ord.idxOf b < ord.idxOf w) && decide (tb < lsgn * ((s.lane w).keyE - (s.lane b).keyE)) then
        match fuel with
        | 0 => (inc, k, true)
        | fuel + 1 => swapLoop s ord lsgn tb fuel (b :: inc.erase w) (k + 1)
      else (inc, k, false)
    | _, _ => (inc, k, false)
  termination_by structural fuel => fuel

/-- The incumbent set of the window (R90, steps 1 to 4): the cells, the swaps and SWAP_LIM. -/
def State.tokens (s : State) (n f : Nat) : List Nat × Nat × Bool :=
  let y := s.slot n f
  let neg := decide (y.na < 0)
  let sg : Int := if neg then -1 else 1
  let ord := s.order n f neg
  let cnt := y.na.natAbs
  let prev := y.naPrev
  if y.na != 0 && prev != 0 && decide (prev < 0) != neg then (ord.take cnt, 0, false)
  else
    let inc := ord.filter fun l => (s.lane l).lvl == sg
    let inc := if inc.length < cnt then inc ++ ((ord.filter fun l => !inc.contains l).take (cnt - inc.length))
               else inc.take cnt
    let smax := min 64 (s.lf n (Reg.BAL_SMAX n f) F.BAL_SMAX_SMAX)
    swapLoop s ord sg (s.lv n (Reg.BAL_TBAND n f)).toNat smax inc 0

/-- The trim cell (R92), if the trim is to be realised. -/
def State.trimCell (s : State) (n f : Nat) (inc : List Nat) : Option Nat :=
  let y := s.slot n f
  if y.noTrim then none
  else if 0 ≤ y.na then (s.order n f false).find? fun l => !inc.contains l
  else ((s.order n f true).filter fun l => inc.contains l).getLast?

/-- The token stage (R90–R92): the base level of every cell for the coming window. -/
def State.tokenStage (n f : Nat) (s : State) : State :=
  if !s.runs n f then s
  else
    let y := s.slot n f
    let (inc, swaps, lim) := s.tokens n f
    let sg : Int := if y.na < 0 then -1 else 1
    let links := s.slotLinks n f
    let new := fun l => if (s.lane l).avail && inc.contains l then sg else 0
    let ch := (links.filter fun l => (s.lane l).lvl != new l).length
    let trim := s.trimCell n f inc
    let s := if lim then s.flag (Reg.BAL_STAT n f) F.BAL_STAT_SWAP_LIM else s
    let s := links.foldl (fun s l => s.mapLane l fun x => { x with lvl := new l }) s
    s.mapSlot n f fun y => { y with swaps := swaps, changes := ch, trim := trim,
                                    naPrev := y.na }

/-- BALANCER_DEADLINE (R85): tick 240, on the leader's flights and on the override registers of every FC of the cycle. -/
def execBalancerDeadline (n : Fin 16) (s : State) : Res :=
  let n := n.val
  if s.stepDue n 240 then
    let s := forN 2 (fun f s => ((s.fixNa n f).fixTrim n f).tokenStage n f) (s.stepAt n 240)
    .next (((s.cycleFcs n).drop 1).foldl (fun s m => forN 2 (fun f s => s.ovrdEnd m f) s) s)
  else .next s

/-- Duty and residual of R86; the last component tells 0 none, 1 dropped, 2 stretched. -/
def dutyOf (fr t : Nat) (rho : Int) (res mp : Nat) (stretch : Bool) : Nat × Int × Nat :=
  let tot : Int := fr * t + rho
  let dr : Int := res * rhe tot (65536 * res)
  let d := (clampI 0 t dr).toNat
  if 0 < d && d < mp then
    let d' := if stretch then mp else 0
    (d', tot - 65536 * d', if stretch then 2 else 1)
  else if decide ((t : Int) - mp < d) && d < t then
    let d' := if stretch then t - mp else t
    (d', tot - 65536 * d', if stretch then 2 else 1)
  else (d, tot - 65536 * d, 0)

/-- The duty of a flight at tick 256 (R85, R86, R97, R98): in a cycle whose FREEZE copy is 1 no trim is realised and ρ keeps
its value. -/
def State.dutyStage (n f : Nat) (s : State) : State :=
  let y := s.slot n f
  if !s.runs n f then s
  else
    let rho := if y.zeroRho then 0 else y.rho
    let s :=
      if y.freeze then s.mapSlot n f fun y => { y with d := 0, trim := none }
      else
        match y.trim with
        | none => s.mapSlot n f fun y => { y with d := 0, rho := rho }
        | some l =>
          if (s.fc n).holdCyc then s
          else
            let (d, r, m) := dutyOf y.fr (s.tcyc n) rho (s.edgeRes l) (s.minPulse l)
              (s.lf n (Reg.BAL_FCFG n f) F.BAL_FCFG_MP_MODE == 1)
            let s := if m = 1 then s.flag (Reg.BAL_STAT n f) F.BAL_STAT_MP_DROP
              else if m = 2 then s.flag (Reg.BAL_STAT n f) F.BAL_STAT_MP_STRETCH else s
            s.mapSlot n f fun y => { y with d := d, rho := r }
    let y := s.slot n f
    let s := s.wr (Reg.BAL_DUTY n f) (BitVec.ofNat 32
      (match y.trim with | some l => y.d + 2 ^ 23 + 2 ^ 24 * gangLane n l | none => 0))
    let s := s.wr (Reg.BAL_RHO n f) (BitVec.ofNat 32 (enc 32 y.rho))
    let s := s.wr (Reg.BAL_TOK n f) (BitVec.ofNat 32 (enc 10 y.na + 65536 * (y.swaps % 128) + 2 ^ 23 * (y.changes % 512)))
    s.wr (Reg.BAL_SWAPTOT n f) (BitVec.ofNat 32 (min (2 ^ 32 - 1) (s.rn (Reg.BAL_SWAPTOT n f) + y.swaps)))

/-- The edges of one leg: its entry state, its states under λ1 and λ2, the duty and the cycle length (R94). -/
def legEdges (entry a b : Bool) (d t : Nat) : List Nat :=
  let start := if 0 < d then a else b
  (if start != entry then [0] else []) ++ (if a != b && decide (0 < d) && decide (d < t) then [d] else [])

/-- Fill a list of edges up to two with "no edge". -/
def two (l : List Nat) : List Nat := (l ++ [0xFFFFF, 0xFFFFF]).take 2

/-- The edge fields and segment levels of one lane (R93–R95, R173). A lane whose barge carries BLOCK_CMD gets no edges and its
legs are off; the levels that the books post are those of R94 all the same (R103), which are 0 for a cell that is not available. -/
def State.edgesOf (n f l : Nat) (s : State) : State :=
  let y := s.slot n f
  let x := s.lane l
  let none_ : List Nat := [0xFFFFF, 0xFFFFF, 0xFFFFF, 0xFFFFF]
  let base := x.lvl
  let l1 := if y.trim = some l then base + 1 else base
  if y.freeze then
    s.mapLane l fun x => { x with edges := none_, l1 := x.endLvl, l2 := x.endLvl, endLvl := if nbit x.mode 3 then 0 else x.endLvl }
  else if nbit x.mode 3 then s.mapLane l fun x => { x with edges := none_, l1 := l1, l2 := base, endLvl := 0 }
  else
    let t := s.tcyc n
    let fb := s.isFb l
    let e := legs fb x.endLvl
    let a := legs fb l1
    let b := legs fb base
    let la := legEdges (nbit e 0) (nbit a 0) (nbit b 0) y.d t
    let lb := legEdges (nbit e 1) (nbit a 1) (nbit b 1) y.d t
    s.mapLane l fun x => { x with edges := two la ++ (if fb then two lb else [0xFFFFF, 0xFFFFF]), l1 := l1, l2 := base,
                                  endLvl := if y.d < t then base else l1 }

/-- EDGE_SCHEDULE (R94): tick 256; the FREEZE copy (R173), the duty, and the edge fields of every lane. -/
def State.edgeStage (n f : Nat) (s : State) : State :=
  if !s.bound n f then s
  else
    let frz := s.freezeOn (s.flightOf n f)
    let s := s.mapSlot n f fun y => { y with freeze := frz, frzRun := y.frzRun || (frz && s.runs n f) }
    let s := s.dutyStage n f
    (s.slotLinks n f).foldl (fun s l =>
      if s.runs n f then s.edgesOf n f l
      else s.mapLane l fun x => { x with edges := [0xFFFFF, 0xFFFFF, 0xFFFFF, 0xFFFFF] }) s

def execEdgeSchedule (n : Fin 16) (s : State) : Res :=
  let n := n.val
  if s.stepDue n 256 then .next (forN 2 (fun f s => s.edgeStage n f) (s.stepAt n 256)) else .next s

/-- CMD_SENT (R103): tick 480; line 2 of the Inner pair of every FC of the cycle (R339), and the posting of window k. -/
def execCmdSent (n : Fin 16) (s : State) : Res :=
  let n := n.val
  if s.stepDue n 480 then
    let s := forN 2 (fun f s => if s.bound n f then s.post n f else s) (s.stepAt n 480)
    .next ((s.cycleFcs n).foldl (fun s m => s.line m 2) s)
  else .next s

/-- UC_DEADLINE (R99): at tick 236 a program that has not ended or has not published is stopped, the key slots are published
as they stand, and UC_LATE is set. -/
def State.ucDeadline (n f : Nat) (s : State) : State :=
  if !s.leads n f then s
  else if (s.slot n f).published && !(s.fc n).ucRun then s
  else
    let s := s.publishRank n f (s.fc n).keys
    s.flagOnce (Reg.BAL_STAT n f) F.BAL_STAT_UC_LATE (slotSrc n f) 0x14
      ((s.fc n).ucPc + 65536 * ((s.count n).toNat % 65536))

def execUcDeadline (n : Fin 16) (s : State) : Res :=
  let n := n.val
  if s.stepDue n 236 then
    .next ((s.cycleFcs n).foldl (fun s m => s.mapFc m fun x => { x with ucRun := false })
      (forN 2 (fun f s => s.ucDeadline n f) (s.stepAt n 236)))
  else .next s

end Sys2Proof.Machine
end

