-- ==== Sys2Proof/Machine/Observer.lean ====
section
/-! DEFINITION. Observer engine, coefficient banks and reference shaper (spec/07_observer_engine.md). -/

namespace Sys2Proof.Machine

/-- The image in a bank of a slot. -/
def State.bank (s : State) (n f b : Nat) : List Byte := tget [] s.banks (4 * n + 2 * f + b)

/-- Whether bank `b` of a slot is valid. -/
def State.bankVal (s : State) (n f b : Nat) : Bool :=
  s.bit (Reg.OBS_BANK n f) (if b = 0 then F.OBS_BANK_VAL_A else F.OBS_BANK_VAL_B)

/-- Mark a bank valid or not. -/
def State.setBankVal (n f b : Nat) (v : Bool) (s : State) : State :=
  s.sb (Reg.OBS_BANK n f) (if b = 0 then F.OBS_BANK_VAL_A else F.OBS_BANK_VAL_B) v

/-- The active bank of a slot. -/
def State.actBank (s : State) (n f : Nat) : Nat := s.fld (Reg.OBS_BANK n f) F.OBS_BANK_ACT

/-- The set of the active bank, when valid. -/
def State.actSet (s : State) (n f : Nat) : Option (List Byte) :=
  if s.bankVal n f (s.actBank n f) then some (s.bank n f (s.actBank n f)) else none

/-- The set in force (R128, R131): the active bank's, or the one before a load of the active bank that waits for the sample
instant. -/
def State.effSet (s : State) (n f : Nat) : Option (List Byte) :=
  match (s.slot n f).xinit with
  | some old => old
  | none => s.actSet n f

/-- A byte, a signed byte, an unsigned and a signed field of an image (R130). -/
def imgU (l : List Byte) (o n : Nat) : Nat := leAt l o n

def imgI (l : List Byte) (o n : Nat) : Int := sx (8 * n) (leAt l o n)

/-- Whether a set is whole. -/
def setWhole (l : List Byte) : Bool := imgU l 1 1 == 1

/-- Whether a set in slot `f` owns index `i` of `tot` entries (R128): all for a whole set, its half otherwise. -/
def owns (l : List Byte) (f tot i : Nat) : Bool := decide (i < tot) && (setWhole l || i / (tot / 2) == f)

/-- Whether a set in slot `f` owns row `r`. -/
def ownsRow (l : List Byte) (f r : Nat) : Bool :=
  if r < 32 then owns l f 32 r else if r < 40 then owns l f 8 (r - 32) else if r < 48 then owns l f 8 (r - 40) else false

/-- Coefficient C_rj. -/
def setC (l : List Byte) (r j : Nat) : Int := imgI l (288 + 192 * r + 3 * j) 3

/-- The registers that describe the active set follow it: WHOLE, SET_ID. -/
def State.showSet (n f : Nat) (s : State) : State :=
  match s.actSet n f with
  | some l => (s.sb (Reg.OBS_BANK n f) F.OBS_BANK_WHOLE (setWhole l)).wr (Reg.OBS_SETID n f) (BitVec.ofNat 32 (imgU l 4 4))
  | none => (s.sf (Reg.OBS_BANK n f) F.OBS_BANK_WHOLE 0).wr (Reg.OBS_SETID n f) 0

/-- Set every owned state to its XINIT. -/
def State.setXinit (n f : Nat) (l : List Byte) (s : State) : State :=
  let t := forN 32 (fun i t => if owns l f 32 i then tput t i (imgI l (160 + 4 * i) 4) else t) (s.fc n).obsX
  s.mapFc n fun x => { x with obsX := t }

/-- A number times two to an integer exponent, rounded half to even. -/
def scale2 (v : Int) (e : Int) : Int := if 0 ≤ e then v * 2 ^ e.toNat else rhe v (2 ^ (-e).toNat)

/-- A bank swap at the sample instant (R132); answers the number of states that saturated. -/
def State.swapBank (n f : Nat) (init : Bool) (s : State) : Nat × State :=
  let old := s.actSet n f
  let b := 1 - s.actBank n f
  let s := s.sf (Reg.OBS_BANK n f) F.OBS_BANK_ACT b
  let new := s.bank n f b
  let (k, s) :=
    match init, old with
    | false, some o =>
      let res : List (Nat × Int × Bool) := (List.range 32).filterMap fun (i : Nat) =>
        if owns new f 32 i then
          let v := scale2 (tget 0 (s.fc n).obsX i) (imgI o (8 + i) 1 - imgI new (8 + i) 1)
          some (i, satI 32 v, v != satI 32 v)
        else none
      let t := res.foldl (fun t (e : Nat × Int × Bool) => tput t e.1 e.2.1) (s.fc n).obsX
      ((res.filter fun (e : Nat × Int × Bool) => e.2.2).length, s.mapFc n fun x => { x with obsX := t })
    | _, _ => (0, s.setXinit n f new)
  let s := s.sf (Reg.OBS_BANK n f) F.OBS_BANK_SWAP_PEND 0
  let s := s.sf (Reg.OBS_BANK n f) F.OBS_BANK_SWAP_CYC ((s.count n).toNat % 65536)
  let s := if k = 0 then s else s.flag (Reg.OBS_STAT n f) F.OBS_STAT_SWAP_SAT
  let s := (s.showSet n f).raise (slotSrc n f) 0x1B (b + 256 * k + 65536 * ((s.count n).toNat % 65536))
  (k, s)

/-- The slot whose program word `w` of the schedule belongs to (R127, R128), with its set. -/
def State.wordSlot (s : State) (n w : Nat) : Option (Nat × List Byte) :=
  (List.range 2).findSome? fun f =>
    if s.bound n f then
      match s.effSet n f with
      | some l => if setWhole l || w / 48 == f then some (f, l) else none
      | none => none
    else none

/-- Fields of an observer microword (R126). -/
def owRow (w : Nat) : Nat := nbits w 0 6

def owPass (w : Nat) : Nat := nbits w 6 1

def owIssue (w : Nat) : Bool := nbit w 7

def owLim (w : Nat) : Bool := nbit w 8

def owFrz (w : Nat) : Bool := nbit w 9

def owTrace (w : Nat) : Bool := nbit w 10

def owLanes (w : Nat) : Nat := nbits w 11 64

/-- R127 on the program of a set, with its 48 or 96 words as the store holds them. -/
def State.programOk (s : State) (n f : Nat) (l : List Byte) (ownership : Bool) : Bool :=
  let st := imgU l 2 2
  let len := if setWhole l then 96 else 48
  let w := fun k => s.csWord n 1 (st + k)
  decide (st + len ≤ 1024) &&
    (List.range (len / 2)).all (fun i =>
      match w (2 * i), w (2 * i + 1) with
      | some a, some b =>
        owPass a == 0 && owPass b == 1 && a + 64 == b &&
          (!owIssue a || !ownership || ownsRow l f (owRow a)) && (!owIssue a || decide (owRow a < 48))
      | _, _ => false) &&
    ((List.range (len / 2)).filterMap fun i => match w (2 * i) with
      | some a => if owIssue a then some (owRow a) else none
      | none => none).Nodup

/-- A bank whose program no longer meets R127 counts as not valid from that moment (R132). -/
def State.recheckBanks (n : Nat) (s : State) : State :=
  forN 4 (fun k s =>
    let f := k / 2
    let b := k % 2
    if s.bankVal n f b && !s.programOk n f (s.bank n f b) true then (s.setBankVal n f b false).showSet n f else s) s

/-- The value of measured output column `j` for a flight's set (R119). -/
def State.yCol (s : State) (n c : Nat) : Int :=
  if c < 16 then (s.fc (n + c / 4)).cor.getD (c % 4) 0
  else if 0x20 ≤ c && c < 0x40 then tget 0 (s.fc n).hub (c - 0x20)
  else 0

/-- The value of an input column by its selection (R120). -/
def State.wCol (s : State) (n c : Nat) : Int :=
  if c < 8 then (s.rg (Reg.OBS_SHOUT n c)).toInt
  else if 0x10 ≤ c && c < 0x18 then (s.rg (Reg.OBS_U n (c - 0x10))).toInt
  else if 0x18 ≤ c && c < 0x20 then (s.rg (Reg.OBS_O n (c - 0x18))).toInt
  else if 0x20 ≤ c && c < 0x30 then (s.lv n (Reg.OBS_WREG n (c - 0x20))).toInt
  else 0

/-- The set that owns entry `i` of `tot` selections, if a valid one does. -/
def State.selOwner (s : State) (n tot i : Nat) : Option (List Byte) :=
  (List.range 2).findSome? fun f =>
    if s.bound n f then
      match s.effSet n f with
      | some l => if owns l f tot i then some l else none
      | none => none
    else none

/-- The operand vector z that the engine latches at tick 88 (R118); the freeze map starts the cycle empty (R124). -/
def State.latchZ (n : Nat) (s : State) : State :=
  let col := fun j : Nat =>
    if j < 32 then tget 0 (s.fc n).obsX j
    else if j < 48 then
      match s.selOwner n 16 (j - 32) with
      | some l => s.yCol n (imgU l (120 + (j - 32)) 1)
      | none => 0
    else
      match s.selOwner n 16 (j - 48) with
      | some l => s.wCol n (imgU l (136 + (j - 48)) 1)
      | none => 0
  let z := (List.range 64).map fun j => (j, col j)
  (s.wr (Reg.OBS_FROZEN n) 0).mapFc n fun x =>
    { x with obsZ := z, obsXn := [], obsU := [], obsPc := 0, obsRun := true, obsLow := none }

/-- One pass of a row (R121): the sum over the enabled lanes of coefficient times low or high half. -/
def passSum (l : List Byte) (r lanes : Nat) (z : Tbl Int) (high : Bool) : Int :=
  (List.range 64).foldl (fun a j =>
    if nbit lanes j then
      let zj := tget 0 z j
      a + setC l r j * (if high then zj / 65536 else zj % 65536)
    else a) 0

/-- The integrator freeze of R124 on state row `i`. -/
def State.frozen (s : State) (n i : Nat) (l : List Byte) (res : Int) : Bool :=
  let fz := imgU l (88 + i) 1
  let act := fz % 8
  let sg : Int := if nbit fz 3 then -1 else 1
  let dl := sg * (res - tget 0 (s.fc n).obsZ i)
  nbit fz 4 && ((nbit (s.rn (Reg.OBS_USTAT n)) act && decide (0 < dl)) ||
    (nbit (s.rn (Reg.OBS_USTAT n)) (8 + act) && decide (dl < 0)))

/-- A row result that saturates (R122). -/
def State.rowSat (n f r : Nat) (s : State) : State :=
  let s := s.incSat (Reg.OBS_SATCNT n r) F.OBS_SATCNT_COUNT
  let was := nbit (s.rn (Reg.OBS_SATMAP_LO n + 4 * (r / 32))) (r % 32)
  let s := s.mapBit (Reg.OBS_SATMAP_LO n) r true
  (s.flag (Reg.OBS_STAT n f) F.OBS_STAT_ROW_SAT).raiseIf (!was) (slotSrc n f) 0x1A
    (r + 65536 * ((s.count n).toNat % 65536))

/-- The writeback of a row (R122–R124). -/
def State.writeback (n f : Nat) (l : List Byte) (w : Nat) (acc : Int) (s : State) : State :=
  let r := owRow w
  let v := scale2 acc (imgI l (40 + r) 1 - 23)
  let res := satI 32 v
  let s := if res = v then s else s.rowSat n f r
  let s := if owTrace w then
      let a := enc 72 acc
      let s := s.wr (Reg.OBS_TRACE_LO n) (BitVec.ofNat 32 a)
      let s := s.wr (Reg.OBS_TRACE_MID n) (BitVec.ofNat 32 (a / 2 ^ 32))
      let s := s.wr (Reg.OBS_TRACE_HI n) (BitVec.ofNat 32 (a / 2 ^ 64))
      s.wr (Reg.OBS_TRACE_ROW n) (BitVec.ofNat 32 (r + 65536 * ((s.count n).toNat % 65536)))
    else s
  if r < 32 then
    if owFrz w && s.frozen n r l res then
      let s := s.wr (Reg.OBS_FROZEN n) (BitVec.ofNat 32 (setBit (s.rn (Reg.OBS_FROZEN n)) r true))
      s.mapFc n fun x => { x with obsXn := tput x.obsXn r (tget 0 x.obsZ r) }
    else s.mapFc n fun x => { x with obsXn := tput x.obsXn r res }
  else if r < 40 then
    let j := r - 32
    if owLim w then
      let lo := (s.lv n (Reg.OBS_UMIN n j)).toInt
      let hi := (s.lv n (Reg.OBS_UMAX n j)).toInt
      let us := setBit (setBit (s.rn (Reg.OBS_USTAT n)) j (decide (hi < res))) (8 + j) (decide (res < lo))
      let s := s.wr (Reg.OBS_USTAT n) (BitVec.ofNat 32 us)
      s.mapFc n fun x => { x with obsU := tput (tput x.obsU j (min (max res lo) hi)) (64 + j) res }
    else s.mapFc n fun x => { x with obsU := tput (tput x.obsU j res) (64 + j) res }
  else s.mapFc n fun x => { x with obsU := tput x.obsU (r - 40 + 32) res }

/-- OBS_MICROWORD (R125): word `w` of the schedule, in tick 88 + w. A high pass writes its row only after the low pass of its
pair. -/
def execObsMicroword (n : Fin 16) (s : State) : Res :=
  let n := n.val
  let x := s.fc n
  if s.cycling n && !s.follower n && x.obsRun && decide (x.obsPc < 96) then
    let w := x.obsPc
    let s := s.atTick (x.cycTick + 88 + w + 1)
    let s := s.mapFc n fun x => { x with obsPc := w + 1, obsLow := none }
    match s.wordSlot n w with
    | none => .next s
    | some (f, l) =>
      let a := imgU l 2 2 + (if setWhole l then w else w % 48)
      let s := s.csNoteFc n 1 a
      match s.csWord n 1 a with
      | none => .next s
      | some mw =>
        if !owIssue mw then .next s
        else if owPass mw = 0 then
          .next (s.mapFc n fun x => { x with obsLow := some (passSum l (owRow mw) (owLanes mw) x.obsZ false) })
        else
          match x.obsLow with
          | none => .next s
          | some low =>
            let acc := low + 65536 * passSum l (owRow mw) (owLanes mw) x.obsZ true
            .next ((s.mapFc n fun x => { x with obsAcc := acc }).writeback n f l mw acc)
  else .next s

/-- The commit of a slot's states at tick 184 (R125, R133). -/
def State.commitStates (n f : Nat) (s : State) : State :=
  match s.effSet n f with
  | none => s
  | some l =>
    if s.runs n f || s.lf n (Reg.OBS_CFG n f) F.OBS_CFG_PRERUN == 1 then
      let t := forN 32 (fun i t => if owns l f 32 i then
          (match (s.fc n).obsXn.find? fun e => e.1 == i with
           | some e => tput t i e.2
           | none => t) else t) (s.fc n).obsX
      s.mapFc n fun x => { x with obsX := t }
    else s.setXinit n f l

/-- OBSERVER_COMPLETE (R125): tick 184; the states commit, and actuations and monitors are published. -/
def execObserverComplete (n : Fin 16) (s : State) : Res :=
  let n := n.val
  if s.stepDue n 184 then
    let s := s.stepAt n 184
    let s := forN 2 (fun f s => if s.bound n f then s.commitStates n f else s) s
    let u := (s.fc n).obsU
    let s := u.foldl (fun s e =>
      if e.1 < 8 then s.wr (Reg.OBS_U n e.1) (BitVec.ofInt 32 e.2)
      else if 32 ≤ e.1 && e.1 < 40 then s.wr (Reg.OBS_O n (e.1 - 32)) (BitVec.ofInt 32 e.2)
      else if 64 ≤ e.1 && e.1 < 72 then s.wr (Reg.OBS_URAW n (e.1 - 64)) (BitVec.ofInt 32 e.2)
      else s) s
    let s := forN 32 (fun i s => s.wr (Reg.OBS_X n i) (BitVec.ofInt 32 (tget 0 (s.fc n).obsX i))) s
    .next (s.mapFc n fun x => { x with obsRun := false })
  else .next s

/-- The slot that owns a shaper channel (R128). -/
def State.shOwner (s : State) (n ch : Nat) : Option Nat :=
  (List.range 2).find? fun f =>
    s.bound n f && (match s.effSet n f with
      | some l => owns l f 8 ch
      | none => ch / 4 == f)

/-- Braking distance at rate `w` (R135). -/
def brakeDist (a w : Int) : Int :=
  let nb := w / a
  nb * w - a * nb * (nb + 1) / 2

/-- Sign of an integer. -/
def sgn (v : Int) : Int := if 0 < v then 1 else if v < 0 then -1 else 0

/-- One shaper step (R135): position, rate, whether it braked with s ≠ 0, whether p saturated. -/
def shaperStep (p v t a vm : Int) : Int × Int × Bool × Bool :=
  let e := t * 65536 - p
  let sg := sgn e
  let av : Int := v.natAbs
  let ae : Int := e.natAbs
  let (vn, rev) : Int × Bool :=
    if sg * v < 0 || (sg = 0 && v != 0) then (sgn v * max (av - a) 0, sg != 0)
    else if sg != 0 && decide (ae ≤ a) && decide (av ≤ a) then (e, false)
    else
      let va := min (av + a) vm
      if av ≤ vm && va + brakeDist a va ≤ ae then (sg * va, false)
      else if av ≤ vm && av + brakeDist a av ≤ ae then (sg * av, false)
      else (sg * max (av - a) 0, false)
  let pn := satI 48 (p + vn)
  let sat := pn != p + vn
  (pn, if sat then 0 else vn, rev, sat)

/-- The step of one channel of FC `n` at ticks 8–24 (R134–R136). The sign of target minus position changes when it becomes the
opposite of its last nonzero one (DEDUCED, log entry 85); RATE_LIM looks at the error e of the step (R135). -/
def State.shaperCh (n ch : Nat) (s : State) : State :=
  let t := (s.lv n (Reg.OBS_SHTGT n ch)).toInt
  let x := s.fc n
  let p := tget 0 x.shPos ch
  let v := tget 0 x.shRate ch
  let same := tget t x.shTgt ch == t
  let vm : Int := max 1 ((s.lv n (Reg.OBS_SHVMAX n ch)).toNat % 2 ^ 31)
  let a : Int := max 1 ((s.lv n (Reg.OBS_SHAMAX n ch)).toNat % 2 ^ 31)
  let own := s.shOwner n ch
  let run := match own with | some f => s.runs n f | none => false
  let (pn, vn, rev, sat) := if run then shaperStep p v t a vm else (t * 65536, 0, false, false)
  let was := if same then (if p = t * 65536 then tget 0 x.shSgn ch else sgn (t * 65536 - p)) else sgn (t * 65536 - p)
  let now := sgn (t * 65536 - pn)
  let crossed := run && same && decide (was * now < 0)
  let s := s.mapFc n fun x =>
    { x with shPos := tput x.shPos ch pn, shRate := tput x.shRate ch vn, shTgt := tput x.shTgt ch t,
             shSgn := tput x.shSgn ch (if !run then 0 else if now = 0 then was else now) }
  let st := Reg.OBS_SHSTAT n ch
  let s := s.sb st F.OBS_SHSTAT_RATE_LIM (run && decide ((vn.natAbs : Int) = vm) && p != t * 65536)
  let s := s.sb st F.OBS_SHSTAT_REVERSING rev
  let s := s.sb st F.OBS_SHSTAT_AT_TGT (pn == t * 65536 && vn == 0)
  let s := if sat then s.flag st F.OBS_SHSTAT_POS_SAT else s
  let s := match crossed, own with
    | true, some f => (s.flag (Reg.OBS_STAT n f) F.OBS_STAT_OVERSHOOT).flagOnce st F.OBS_SHSTAT_OVERSHOOT (slotSrc n f) 0x1C
        (ch + 65536 * ((s.count n).toNat % 65536))
    | _, _ => s
  let s := s.wr (Reg.OBS_SHPOS_LO n ch) (BitVec.ofNat 32 (enc 48 pn))
  let s := s.wr (Reg.OBS_SHPOS_HI n ch) (BitVec.ofNat 32 (enc 48 pn / 2 ^ 32))
  let s := s.wr (Reg.OBS_SHRATE n ch) (BitVec.ofInt 32 vn)
  s.wr (Reg.OBS_SHOUT n ch) (BitVec.ofInt 32 (satI 32 (rhe pn 65536)))

/-- The shaper step of an FC. -/
def State.shaper (n : Nat) (s : State) : State := forN 8 (fun ch s => s.shaperCh n ch) s

/-- A write to a shaper target (R14, R76): from the Keeper, or from the Outer pair that REF_SRC of the owning flight names;
while the flight is HELD an Outer pair's write is ignored. A channel that no bound flight owns takes no write but the Keeper's
of a bound one. -/
def State.shtgtWrite (n ch who : Nat) (v : Word) (s : State) : State :=
  match s.shOwner n ch with
  | none => s
  | some f =>
    let src := s.fld (Reg.FC_FLT_CFG n f) F.FC_FLT_CFG_REF_SRC
    if who = 20 then s.wr (Reg.OBS_SHTGT n ch) v
    else if who ≥ 16 && who - 15 == src && s.fltState n f != 4 then s.wr (Reg.OBS_SHTGT n ch) v
    else s.flag (Reg.FC_FLT_STAT n f) F.FC_FLT_STAT_REF_IGN

/-- SHTGT_WRITE (R14): pair `who` writes OBS_SHTGT of channel `ch`. -/
def execShtgtWrite (n : Fin 16) (ch : Fin 8) (who : Fin 21) (v : Word) (s : State) : Res := .next (s.shtgtWrite n ch who v)

/-- The limit pairs latched at the sample instant: a pair with UMIN > UMAX keeps the previous one and sets LIM_ERR (R123). -/
def State.latchLimits (n : Nat) (old : Tbl Word) (s : State) : State :=
  forN 8 (fun j s =>
    let lo := s.rg (Reg.OBS_UMIN n j)
    let hi := s.rg (Reg.OBS_UMAX n j)
    if hi.toInt < lo.toInt then
      let s := s.mapFc n fun x =>
        { x with lat := tput (tput x.lat (Reg.OBS_UMIN n j) (tget (0x80000000 : Word) old (Reg.OBS_UMIN n j)))
                   (Reg.OBS_UMAX n j) (tget (0x7FFFFFFF : Word) old (Reg.OBS_UMAX n j)) }
      match (List.range 2).find? fun f => s.bound n f && (match s.effSet n f with
        | some l => owns l f 8 j
        | none => j / 4 == f) with
      | some f => s.flag (Reg.OBS_STAT n f) F.OBS_STAT_LIM_ERR
      | none => s
    else s) s

end Sys2Proof.Machine
end

