-- ==== Sys2Proof/Machine/Time.lean ====
section
/-! DEFINITION. Time and events (spec/18_time_events.md): slewing, following a time source, event pins, queues, alarms. -/

namespace Sys2Proof.Machine

/-- Whether any flight is RUNNING or HELD. -/
def State.anyRun (s : State) : Bool := s.boundSlots.any fun p => s.runs p.1 p.2

/-- SLEWING and SLEW_HELD follow the remainder and the flights (R330). -/
def State.slewRefresh (s : State) : State :=
  let left := s.rn Reg.TS_SLEW_LEFT != 0
  (s.sb Reg.TS_STAT F.TS_STAT_SLEWING left).sb Reg.TS_STAT F.TS_STAT_SLEW_HELD (left && s.anyRun)

/-- A slew of `v` ticks begins, replacing any remainder; its count starts afresh (R330). -/
def State.slewBegin (v : Int) (s : State) : State :=
  ({ s with slewNext := s.tick + 4096 }.wr Reg.TS_SLEW_LEFT (BitVec.ofInt 32 v)).slewRefresh

/-- SLEW_STEP (R330): every 4,096th tick of the count TS advances by 2 or keeps its value; while a flight is RUNNING or HELD
no step is taken. -/
def execSlewStep (s : State) : Res :=
  let left := (s.rg Reg.TS_SLEW_LEFT).toInt
  if left = 0 then .next s
  else
    let s := s.atTick s.slewNext
    let s := { s with slewNext := s.slewNext + 4096 }
    if s.anyRun then .next s.slewRefresh
    else
      let s := { s with ts := enc 64 (if 0 < left then (s.ts : Int) + 1 else (s.ts : Int) - 1) }
      let s := (s.wr Reg.TS_SLEW_LEFT (BitVec.ofInt 32 (if 0 < left then left - 1 else left + 1))).slewRefresh
      .next (s.raiseIf (s.rn Reg.TS_SLEW_LEFT == 0) 1673 0x68 0)

/-- TS := v in one tick (R329): a STEP cancels any slew. Cycling FCs go on at the next tick of their grid. -/
def State.stepTs (v : Nat) (s : State) : State :=
  let s := ({ s with ts := v % 2 ^ 64 }.wr Reg.TS_SLEW_LEFT 0).slewRefresh
  forN 16 (fun n s =>
    if s.bit (Reg.FC_CYC_CTRL n) F.FC_CYC_CTRL_RUN || s.bit (Reg.FC_CYC_STAT n) F.FC_CYC_STAT_RUNNING then
      let t := 200 * s.fld (Reg.FC_CYC_LEN n) F.FC_CYC_LEN_LEN
      let ph := s.fld (Reg.FC_CYC_PHASE n) F.FC_CYC_PHASE_PHASE
      s.mapFc n fun x => { x with next := s.ts + (t + ph - s.ts % t) % t }
    else s) s

/-- The period P of SYNC_OUT, and of SYNC_IN while MODE is 1 (R331). -/
def State.syncP (s : State) : Nat :=
  let e := s.fld Reg.TS_SYNC_CFG F.TS_SYNC_CFG_PER_EXP
  2 ^ (if 16 ≤ e && e ≤ 30 then e else 20)

/-- The period that a following device expects, 0 when it follows none. -/
def State.followP_ (s : State) : Nat :=
  match s.fld Reg.TS_SYNC_CFG F.TS_SYNC_CFG_MODE with
  | 1 => s.syncP
  | 2 => 800000000
  | _ => 0

/-- A write of TS_SYNC_CFG: following starts or ends (R331). -/
def State.syncCfgWrite (v : Word) (s : State) : State :=
  let s := s.wr Reg.TS_SYNC_CFG (v &&& 0xFF)
  let s := if s.bit Reg.TS_SYNC_CFG F.TS_SYNC_CFG_OUT_EN then s else { s with syncOut := none }
  { s with syncDue := if s.followP_ = 0 then none else some (s.tick + 2 * s.followP_ + 64) }

/-- The error of an edge stamped `ts` (R331): taken in −P/2 < e ≤ P/2. -/
def syncErr (ts dly p : Nat) : Int :=
  let r := ((ts : Int) - dly) % (p : Int)
  if (p : Int) < 2 * r then r - p else r

/-- SYNC_EDGE (R331): a rising edge on SYNC_IN or PPS_IN of a device that follows it. -/
def execSyncEdge (pps : Bool) (s : State) : Res :=
  let m := s.fld Reg.TS_SYNC_CFG F.TS_SYNC_CFG_MODE
  if m ≠ (if pps then 2 else 1) || s.pwr.inReset then .next s
  else
    let p := s.followP_
    let e := syncErr s.ts (s.fld Reg.TS_SYNC_DLY F.TS_SYNC_DLY_DLY) p
    let s := s.wr Reg.TS_SYNC_ERR (BitVec.ofInt 32 e)
    let s := { s with syncDue := some (s.tick + 2 * p + 64) }
    if e.natAbs ≤ 1 then .next (s.flagOnce Reg.TS_STAT F.TS_STAT_SYNC_LOCK 1673 0x6B (enc 32 e))
    else
      let s := s.sf Reg.TS_STAT F.TS_STAT_SYNC_LOCK 0
      if e.natAbs ≤ 65536 then .next (s.slewBegin (-e))
      else .next (s.flagOnce Reg.TS_STAT F.TS_STAT_SYNC_FAR 1673 0x69 (enc 32 e))

/-- SYNC_MISS (R331): no edge by P + 64 ticks after the expected one. -/
def execSyncMiss (s : State) : Res :=
  match s.syncDue with
  | none => .next s
  | some t =>
    let s := (s.atTick t).sf Reg.TS_STAT F.TS_STAT_SYNC_LOCK 0
    .next ({ s with syncDue := some (t + s.followP_) }.flagOnce Reg.TS_STAT F.TS_STAT_SYNC_MISS 1673 0x6A 0)

/-- SYNC_PULSE (R331): SYNC_OUT rises 8 ticks after TS reaches a multiple of P. -/
def execSyncPulse (s : State) : Res :=
  if s.bit Reg.TS_SYNC_CFG F.TS_SYNC_CFG_OUT_EN then
    let p := s.syncP
    let s := s.atTs ((s.ts + p - 1) / p * p)
    .next { s with syncOut := some (s.tick + 8) }
  else .next s

/-- The level on SYNC_OUT (R331): high for 16 ticks from the rise on. -/
def State.syncOutHigh (s : State) : Bool :=
  match s.syncOut with
  | some r => decide (r ≤ s.tick) && decide (s.tick < r + 16)
  | none => false

/-- A write of EVT_IOCFGk (R333): an output drives OUT, which IN then shows; a pin that becomes an input keeps that level until an
edge comes (DESIGN CHOICE, log entry 91). -/
def State.ioCfgWrite (k : Nat) (v : Word) (s : State) : State :=
  let a := Reg.EVT_IOCFG k
  let s := s.wr a ((s.rg a &&& ~~~(0xF : Word)) ||| (v &&& 0xF))
  if s.bit a F.EVT_IOCFG_DIR then s.sf a F.EVT_IOCFG_IN (s.fld a F.EVT_IOCFG_OUT) else s

/-- EVT_IO_EDGE (R333): the level on an event pin changes. -/
def execEvtIoEdge (k : Fin 32) (level : Bool) (s : State) : Res :=
  let k := k.val
  let a := Reg.EVT_IOCFG k
  if s.bit a F.EVT_IOCFG_DIR || s.bit a F.EVT_IOCFG_IN == level then .next s
  else
    let s := s.sb a F.EVT_IOCFG_IN level
    if s.pwr.inReset then .next s
    else if level then
      .next ({ s with evtRise := tput s.evtRise k s.ts }.raiseIf (s.bit a F.EVT_IOCFG_RISE_EN) (1728 + k) 0x60 1)
    else .next (s.raiseIf (s.bit a F.EVT_IOCFG_FALL_EN) (1728 + k) 0x61 0)

/-- Whether an internal address lies in a scratchpad or the shared SRAM. -/
def inSharedMem (a : Nat) : Bool :=
  (decide (0x21000000 ≤ a) && decide (a < 0x23000000)) || (decide (0x40000000 ≤ a) && decide (a < 0x42000000))

/-- Records in the ring of a queue: 2^SIZE_EXP (R337). -/
def State.qSize (s : State) (q : Nat) : Nat :=
  let e := s.fld (Reg.EVT_QCFG q) F.EVT_QCFG_SIZE_EXP
  2 ^ (if 4 ≤ e && e ≤ 16 then e else 4)

/-- The 16 bytes of an event record (R334). -/
def EvRec.bytes (r : EvRec) (after : Bool) : List Byte :=
  leBytes 8 r.ts ++ leBytes 4 (r.src % 2048 + 65536 * (r.code % 256) + 2 ^ 24 * (b2n r.slewing + 2 * b2n after)) ++ leBytes 4 r.pay

/-- Deliver a record to one queue (R337, R338): written while there is space, else dropped and counted. A queue that has been
disabled receives no record, and its counters keep their values (log entry 50). -/
def State.deliverTo (r : EvRec) (q : Nat) (s : State) : State :=
  let w := s.rg (Reg.EVT_QWIDX q)
  let sz := s.qSize q
  if !s.bit (Reg.EVT_QCFG q) F.EVT_QCFG_EN then s
  else if (w - s.rg (Reg.EVT_QRIDX q)).toNat < sz then
    let a := s.rn (Reg.EVT_QBASE q) + 16 * (w.toNat % sz)
    let s := if inSharedMem a then s.wrBytes a (r.bytes (s.dropped.contains q)) else s
    let s := { s with dropped := s.dropped.filter (· != q) }
    (s.wr (Reg.EVT_QWIDX q) (w + 1)).wr (Reg.EVT_QDELIV q) (s.rg (Reg.EVT_QDELIV q) + 1)
  else
    let s := { s with dropped := if s.dropped.contains q then s.dropped else q :: s.dropped }
    (s.wr (Reg.EVT_QDROP q) (s.rg (Reg.EVT_QDROP q) + 1)).flagOnce (Reg.EVT_QSTAT q) F.EVT_QSTAT_DROP_SEEN 1674 0x6C q

/-- The record that the hub releases next: earliest TS, then lowest source, then in the order generated (R335). -/
def firstRec : List EvRec → Option EvRec
  | [] => none
  | r :: l =>
    match firstRec l with
    | none => some r
    | some q => if q.ts < r.ts || (q.ts == r.ts && decide (q.src < r.src)) then some q else some r

/-- RECORD_DELIVER (R337). -/
def execRecordDeliver (s : State) : Res :=
  match firstRec s.hubq with
  | none => .next s
  | some r =>
    .next (forN 32 (fun q s => if nbit r.queues q then s.deliverTo r q else s) { s with hubq := s.hubq.erase r })

/-- A write of EVT_QRIDX (R337): within WIDX − 2^SIZE_EXP … WIDX, else ignored with CFG_ERR. -/
def State.ridxWrite (q : Nat) (v : Word) (s : State) : State :=
  if (s.rg (Reg.EVT_QWIDX q) - v).toNat ≤ s.qSize q then s.wr (Reg.EVT_QRIDX q) v
  else s.flag (Reg.EVT_QSTAT q) F.EVT_QSTAT_CFG_ERR

/-- RIDX_WRITE (R337). -/
def execRidxWrite (q : Fin 32) (v : Word) (s : State) : Res := .next (s.ridxWrite q v)

/-- A write of EVT_QBASE or EVT_QCFG (R337): refused while EN is 1, but for a write with EN = 0, which is taken whole. -/
def State.qbaseWrite (q : Nat) (v : Word) (s : State) : State :=
  if s.bit (Reg.EVT_QCFG q) F.EVT_QCFG_EN then s.flag (Reg.EVT_QSTAT q) F.EVT_QSTAT_CFG_ERR
  else s.wr (Reg.EVT_QBASE q) (v &&& 0xFFFFFFC0)

def State.qcfgWrite (q : Nat) (v : Word) (s : State) : State :=
  if s.bit (Reg.EVT_QCFG q) F.EVT_QCFG_EN && fget v F.EVT_QCFG_EN == 1 then s.flag (Reg.EVT_QSTAT q) F.EVT_QSTAT_CFG_ERR
  else s.wr (Reg.EVT_QCFG q) (v &&& 0x3F1F1F01)

/-- A write of TS_ALM_HIp arms the alarm (R339). -/
def State.alarmArm (p : Nat) (hi : Word) (s : State) : State :=
  let s := s.wr (Reg.TS_ALM_HI p) hi
  { s with alarms := if s.alarms.contains p then s.alarms else p :: s.alarms }

/-- ALARM_ARM (R339). -/
def execAlarmArm (p : Fin 21) (hi : Word) (s : State) : Res := .next (s.alarmArm p hi)

/-- TS_ALARM (R339): at the first tick at which TS ≥ TS_ALMp line 4 of the pair is pulsed. -/
def execTsAlarm (p : Fin 21) (s : State) : Res :=
  let p := p.val
  if s.alarms.contains p then
    let s := s.atTs (s.r64 (Reg.TS_ALM_LO p))
    .next ({ s with alarms := s.alarms.filter (· != p) }.line p 4)
  else .next s

/-- Whether queue `q` holds its line pending (R339). -/
def State.queueLine (s : State) (q : Nat) : Bool :=
  decide (max 1 (s.fld (Reg.EVT_QTHR q) F.EVT_QTHR_THRESH) ≤ (s.rg (Reg.EVT_QWIDX q) - s.rg (Reg.EVT_QRIDX q)).toNat)

/-- The pending lines of a pair (R339): its pulse lines and the levels of the queues that name it. -/
def State.irqPend (s : State) (p : Nat) : DWord :=
  (List.range 32).foldl (fun m q =>
    if s.fld (Reg.EVT_QCFG q) F.EVT_QCFG_PAIR == p && s.queueLine q then
      m ||| BitVec.ofNat 64 (2 ^ max 16 (s.fld (Reg.EVT_QCFG q) F.EVT_QCFG_LINE))
    else m) (tget 0 s.irq p)

end Sys2Proof.Machine
end

