-- ==== Sys2Proof/Machine/Flight.lean ====
section
/-! DEFINITION. Flights, gangs and the cell map (spec/04_flights_cell_map.md): flight states, bindings, cell descriptors, and the
flight commands (R66–R80, R370). -/

namespace Sys2Proof.Machine

/-- AVAIL and N_REQ of a flight. -/
def State.availN (s : State) (n f : Nat) : Nat := s.fld (Reg.FC_FLT_STAT n f) F.FC_FLT_STAT_AVAIL

def State.nReq (s : State) (n f : Nat) : Nat := s.fld (Reg.FC_FLT_REQ n f) F.FC_FLT_REQ_N_REQ

/-- The conditions of READY (R76): AVAIL ≥ N_REQ and a valid set in the active bank. -/
def State.readyOk (s : State) (n f : Nat) : Bool := decide (s.nReq n f ≤ s.availN n f) && (s.actSet n f).isSome

/-- What START_FLIGHT sets at its sample instant (R82, R88, R91, R98, R114): level 0 everywhere, ρ = 0, σ = +1 as BAL_STAT.DIR shows
it, no swaps counted, the books seeded, admission still to be judged. -/
def State.startEffects (n f : Nat) (s : State) : State :=
  let s := (s.slotLinks n f).foldl (fun s l => s.mapLane l fun x =>
    { x with adm := false, rej := false, lvl := 0, endLvl := 0, l1 := 0, l2 := 0 }) s
  let s := (s.sf (Reg.BAL_STAT n f) F.BAL_STAT_DIR 0).wr (Reg.BAL_SWAPTOT n f) 0
  let s := s.mapSlot n f fun y =>
    { y with startCyc := true, short := false, frzRun := false, freeze := false, sigma := 1, rho := 0, na := 0, naPrev := 0,
             n := 0, fr := 0, trim := none, d := 0, swaps := 0, changes := 0 }
  s.seed n f

/-- The state of a flight changes (R76, R80): the leader's STATE and the followers' copies, what entering and leaving RUNNING and
HELD bring, and STATE_CHANGE. -/
def State.setFlt (n f new : Nat) (s : State) : State :=
  let old := s.fltState n f
  if old = new then s
  else
    let was := old == 3 || old == 4
    let runs := new == 3 || new == 4
    let s := if runs && !was then s.startEffects n f
      else if was && !runs then
        ((s.slotLinks n f).foldl (fun s l => s.mapLane l fun x => { x with adm := false }) s).mapSlot n f fun y =>
          { y with startCyc := false }
      else s
    let s := s.mapSlot n f fun y => { y with frzRun := new == 5 && was || runs && y.frzRun }
    let s := (s.members n f).foldl (fun s m => s.sf (Reg.FC_FLT_STAT m f) F.FC_FLT_STAT_STATE new) s
    s.slewRefresh.raise (slotSrc n f) 0x10 (new + 8 * old + 256 * s.flightOf n f + 65536 * s.count16 n)

/-- A held STATE write takes effect (R76, R435). -/
def State.heldFlt (n f : Nat) (s : State) : State :=
  match (s.slot n f).held with
  | some v => (s.mapSlot n f fun y => { y with held := none }).setFlt n f v
  | none => s

/-- Trip, held STATE write and automatic transitions of a flight at its sample instant (R76, R79, R170): a trip wins over a
written STATE, and a latch that has set since the last sample instant counts though it is clear again. -/
def State.autoFlt (n f : Nat) (s : State) : State :=
  let st := s.fltState n f
  let held := (s.slot n f).held
  let pend := (s.slot n f).tripPend
  let s := s.mapSlot n f fun y => { y with held := none, tripPend := false }
  let trip := pend || s.tripped (s.flightOf n f)
  if trip && decide (1 ≤ st) && decide (st ≤ 4) then s.setFlt n f 5
  else
    match held with
    | some v => s.setFlt n f v
    | none =>
      if st = 5 && !trip then s.setFlt n f (if s.readyOk n f then 2 else 1)
      else if st = 1 && s.readyOk n f then s.setFlt n f 2
      else if st = 2 && decide (s.availN n f < s.nReq n f) then s.setFlt n f 1
      else s

/-- A Keeper write of STATE (R76, R435): held until the sample instant, or at once while the FC does not cycle; 6 and 7 are
ignored. -/
def State.fltStateWrite (n f code : Nat) (s : State) : State :=
  if 5 < code then s
  else if s.cycling n then s.mapSlot n f fun y => { y with held := some code }
  else s.setFlt n f code

/-- FLT_STATE_WRITE (R76). -/
def execFltStateWrite (n : Fin 16) (f : Fin 2) (code : Fin 8) (s : State) : Res := .next (s.fltStateWrite n f code)

/-- Reply of a command that waited, or of one carried out at once: with the flight's state (R360). -/
def State.done (w : Wait) (status : Nat) (s : State) : State := s.finish w status 0 []

/-- The wait record of a command that is carried out at once: it is in no list, so `finish` only replies. -/
def nowWait (e : Entry) (st : Nat) : Wait := { e := e, live := true, silent := false, on := .turn, st := st }

/-- A command that takes effect at a sample instant of FC `n` waits for it; it takes effect at once while the FC does not cycle
(R435). -/
def State.atSample (n : Nat) (e : Entry) (st : Nat) (body : Wait → State → State) (s : State) : State :=
  if s.cycling n then s.await e (.sample n) st else body (nowWait e st) s

/-- Lane check of START_FLIGHT (R27, R52): 1 R27, 2 and 3 the conditions of R52, 0 passed. UP_START is the one that the lane's
last training sent (R44). -/
def State.laneFail (s : State) (l : Nat) : Nat :=
  let n := l / 64
  let dly := s.rg (Reg.LNK_DELAY n (l % 64))
  let up := (s.lane l).upStart
  if s.lapply n < 480 + fget dly F.LNK_DELAY_D_DOWN + s.decl16 l 6 then 1
  else if up + 160 < s.decl16 l 10 then 2
  else if s.tcyc n + 64 < up + 1280 + fget dly F.LNK_DELAY_D_UP then 3
  else 0

/-- The first READY or DEGRADED lane of a flight that fails, as RES0 of the refusal (R27, R370). -/
def State.startFail (s : State) (n f : Nat) : Option Nat :=
  ((s.slotLinks n f).filter fun l => s.laneUp l).findSome? fun l =>
    if s.laneFail l = 0 then none else some (gangLane n l + 256 * s.laneFail l)

/-- The objects that START_FLIGHT needs (R142, R152, R285): references ready, every channel with a slice, balancer stores
valid. -/
def State.startReady (s : State) (n f : Nat) : Bool :=
  ((List.range 20).all fun g => !s.usesGroup n f g ||
    (s.refReady g && (List.range (chans g)).all fun c => s.sliceOf g c != 15)) &&
  (s.members n f).all fun m => s.rn (Reg.MCS_VMAPE m 2) % 256 == 255

/-- START_FLIGHT at its sample instant (R76, R79, R370). -/
def State.startAt (w : Wait) (s : State) : State :=
  match s.slotOf (eTarget w.e) with
  | none => s.done w stConflict
  | some (n, f) =>
    match s.startFail n f with
    | some r => s.finish w stBadParam 0 [r]
    | none =>
      if s.fltState n f ≠ 2 || w.st ≠ 2 || !s.startReady n f then s.done w stConflict
      else
        let s := s.setFlt n f 3
        s.finish w stOk (s.count16 n) [s.availN n f]

/-- START_FLIGHT accepted (R370, R362). -/
def State.startFlight (e : Entry) (s : State) : State :=
  if !zeroes e 8 48 then s.reply e stBadParam
  else
    match s.slotOf (eTarget e) with
    | none => s.reply e stConflict
    | some (n, f) =>
      match s.startFail n f with
      | some r => s.replyTo e true false stBadParam 0 [r]
      | none =>
        if s.fltState n f ≠ 2 || !s.startReady n f then s.reply e stConflict
        else s.atSample n e 2 State.startAt

/-- START_FLIGHT (R370). -/
def execStartFlight (e : Entry) (s : State) : Res := .next (s.take 0x33 e State.startFlight)

/-- STOP_FLIGHT at its sample instant (R76): READY where AVAIL ≥ N_REQ, otherwise BOUND. -/
def State.stopAt (w : Wait) (s : State) : State :=
  match s.slotOf (eTarget w.e) with
  | none => s.done w stConflict
  | some (n, f) =>
    if s.fltState n f ≠ w.st || !s.runs n f then s.done w stConflict
    else (s.setFlt n f (if s.nReq n f ≤ s.availN n f then 2 else 1)).done w stOk

/-- STOP_FLIGHT accepted (R78, R370). -/
def State.stopFlight (e : Entry) (s : State) : State :=
  if !zeroes e 8 48 then s.reply e stBadParam
  else
    match s.slotOf (eTarget e) with
    | none => s.reply e stConflict
    | some (n, f) => if s.runs n f then s.atSample n e (s.fltState n f) State.stopAt else s.reply e stConflict

/-- STOP_FLIGHT (R370). -/
def execStopFlight (e : Entry) (s : State) : Res := .next (s.take 0x34 e State.stopFlight)

/-- The retargeting of HOLD = 1 (R137): every channel of the flight takes the shaper's present output. -/
def State.holdTargets (n f : Nat) (s : State) : State :=
  forN 8 (fun ch s => if s.shOwner n ch = some f then s.wr (Reg.OBS_SHTGT n ch) (s.rg (Reg.OBS_SHOUT n ch)) else s) s

/-- HOLD_FLIGHT at its sample instant (R76, R137). -/
def State.holdAt (w : Wait) (s : State) : State :=
  match s.slotOf (eTarget w.e) with
  | none => s.done w stConflict
  | some (n, f) =>
    let on := ent w.e 8 1 % 2 == 1
    if s.fltState n f ≠ w.st || w.st ≠ (if on then 3 else 4) then s.done w stConflict
    else if on then ((s.setFlt n f 4).holdTargets n f).done w stOk
    else (s.setFlt n f 3).done w stOk

/-- HOLD_FLIGHT accepted (R78, R370). -/
def State.holdFlight (e : Entry) (s : State) : State :=
  if 1 < ent e 8 1 || !zeroes e 9 48 then s.reply e stBadParam
  else
    match s.slotOf (eTarget e) with
    | none => s.reply e stConflict
    | some (n, f) =>
      if s.fltState n f = (if ent e 8 1 = 1 then 3 else 4) then s.atSample n e (s.fltState n f) State.holdAt
      else s.reply e stConflict

/-- HOLD_FLIGHT (R370). -/
def execHoldFlight (e : Entry) (s : State) : Res := .next (s.take 0x35 e State.holdFlight)

/-- SET_REFERENCE at its sample instant: every masked target takes effect (R370). -/
def State.setRefAt (w : Wait) (s : State) : State :=
  match s.slotOf (eTarget w.e) with
  | none => s.done w stConflict
  | some (n, f) =>
    if s.fltState n f ≠ w.st || w.st = 4 then s.done w stConflict
    else
      let s := forN 8 (fun ch s => if nbit (ent w.e 8 1) ch then
        s.wr (Reg.OBS_SHTGT n ch) (BitVec.ofNat 32 (ent w.e (12 + 4 * ch) 4)) else s) s
      s.finish w stOk 0 [s.count16 n]

/-- SET_REFERENCE accepted (R14, R76, R128, R370). -/
def State.setReference (e : Entry) (s : State) : State :=
  let mask := ent e 8 1
  if mask = 0 || !zeroes e 9 12 || !zeroes e 44 48 then s.reply e stBadParam
  else
    match s.slotOf (eTarget e) with
    | none => s.reply e stConflict
    | some (n, f) =>
      if (List.range 8).any fun ch => nbit mask ch && s.shOwner n ch != some f then s.reply e stBadParam
      else if s.fltState n f = 4 || s.fltState n f = 0 || s.fld (Reg.FC_FLT_CFG n f) F.FC_FLT_CFG_REF_SRC ≠ 0 then
        s.reply e stConflict
      else s.atSample n e (s.fltState n f) State.setRefAt

/-- SET_REFERENCE (R370). -/
def execSetReference (e : Entry) (s : State) : Res := .next (s.take 0x32 e State.setReference)

/-- A swap at its sample instant (R79, R132). -/
def State.swapAt (w : Wait) (s : State) : State :=
  match s.slotOf (eTarget w.e) with
  | none => s.done w stConflict
  | some (n, f) =>
    if s.fltState n f ≠ w.st || !s.bankVal n f (1 - s.actBank n f) then
      (s.sf (Reg.OBS_BANK n f) F.OBS_BANK_SWAP_PEND 0).done w stConflict
    else
      let r := s.swapBank n f (ent w.e 8 1 % 2 == 1)
      r.2.finish w stOk (r.2.count16 n) [r.2.actBank n f, r.1]

/-- SWAP_COEFF accepted (R132). -/
def State.swapCoeff (e : Entry) (s : State) : State :=
  if 1 < ent e 8 1 || !zeroes e 9 48 then s.reply e stBadParam
  else
    match s.slotOf (eTarget e) with
    | none => s.reply e stConflict
    | some (n, f) =>
      if s.fltState n f = 0 || !s.bankVal n f (1 - s.actBank n f) || s.bit (Reg.OBS_BANK n f) F.OBS_BANK_SWAP_PEND then
        s.reply e stConflict
      else
        let s := s.flag (Reg.OBS_BANK n f) F.OBS_BANK_SWAP_PEND
        s.atSample n e (s.fltState n f) State.swapAt

/-- SWAP_COEFF (R132). -/
def execSwapCoeff (e : Entry) (s : State) : Res := .next (s.take 0x31 e State.swapCoeff)

/-- Clear the wear state of a lane (R393). -/
def State.clearWear (l : Nat) (s : State) : State :=
  let s := forN 15 (fun w s => s.wr (Reg.WEAR_REC (l / 64) (l % 64) (w + 1)) 0) s
  let s := s.wr (Reg.WEAR_REC (l / 64) (l % 64) 0) (BitVec.ofNat 32 (l + 65536 * nbits (s.cdesc l 0) 24 8))
  ({ s with wears := tdel s.wears l }).mapLane l fun x => { x with wrank := 0 }

/-- A descriptor that meets R64. -/
def descOk (d : List Byte) : Bool :=
  let ty := leAt d 1 1
  let res := leAt d 2 1
  leAt d 0 1 == 1 && leAt d 22 10 == 0 && (ty == 0 ||
    (decide (ty ≤ 3) && (res == 1 || res == 2 || res == 4 || res == 8) && decide (leAt d 3 1 ≤ 7) &&
      leAt d 4 2 % res == 0 && decide (40 ≤ leAt d 6 2)))

/-- Write the descriptor of a link. -/
def State.putDesc (l : Nat) (d : List Byte) (s : State) : State :=
  forN 8 (fun w s => s.wr (Reg.FC_CDESC (l / 64) (l % 64) w) (BitVec.ofNat 32 (leAt d (4 * w) 4))) s

/-- Whether the VCAP_OV of a link is locked (R15). -/
def State.fcLocked (s : State) (n : Nat) : Bool := s.bit (Reg.FC_LOCK n) F.FC_LOCK_LOCK

/-- SET_CELL_MAP (R66, R393). -/
def State.setCellMap (e : Entry) (s : State) : State :=
  let l0 := eTarget e
  let cnt := ent e 8 2
  if eBufLen e ≠ 32 * cnt then s.reply e stBadLength
  else s.withBuf e (fun b s =>
    let d := fun i => (b.drop (32 * i)).take 32
    if cnt = 0 || 1024 < l0 + cnt || !zeroes e 10 48 || !(List.range cnt).all fun i => descOk (d i) then s.reply e stBadParam
    else if (List.range cnt).any fun i => (s.linkSlot (l0 + i)).isSome then s.reply e stConflict
    else if (List.range cnt).any fun i =>
        s.fcLocked ((l0 + i) / 64) && decide (s.vcapOv (l0 + i) < leAt (d i) 20 2) then s.reply e stLocked
    else
      (forN cnt (fun i s => ((s.putDesc (l0 + i) (d i)).clearWear (l0 + i)).mapLane (l0 + i) fun x =>
        { x with descNew := true }) s).reply e stOk)

/-- SET_CELL_MAP (R66). -/
def execSetCellMap (e : Entry) (s : State) : Res := .next (s.take 0x12 e State.setCellMap)

/-- SET_CELL_PARAMS at its sample instant: only the named fields change (R67, R111, R372). -/
def State.cellParamsAt (w : Wait) (s : State) : State :=
  let l := eTarget w.e
  let fl := ent w.e 8 1
  let a := fun k => Reg.FC_CDESC (l / 64) (l % 64) k
  if nbit fl 2 && s.fcLocked (l / 64) && decide (s.vcapOv l < ent w.e 16 2) then s.done w stLocked
  else
    let s := if nbit fl 0 then s.sf (a 0) ⟨24, 8⟩ (ent w.e 9 1) else s
    let s := if nbit fl 1 then s.ctlPut (a 4) (BitVec.ofNat 32 (ent w.e 12 4)) else s
    let s := if nbit fl 2 then s.sf (a 5) ⟨0, 16⟩ (ent w.e 16 2) else s
    s.done w stOk

/-- SET_CELL_PARAMS accepted (R67, R372). -/
def State.setCellParams (e : Entry) (s : State) : State :=
  let l := eTarget e
  let fl := ent e 8 1
  if fl = 0 || 7 < fl || s.cellType l = 0 || (nbit fl 0 && decide (7 < ent e 9 1)) || (!nbit fl 0 && ent e 9 1 != 0) ||
      (!nbit fl 1 && ent e 12 4 != 0) || (!nbit fl 2 && ent e 16 2 != 0) || !zeroes e 10 12 || !zeroes e 18 48 then
    s.reply e stBadParam
  else if nbit fl 2 && s.fcLocked (l / 64) && decide (s.vcapOv l < ent e 16 2) then s.reply e stLocked
  else s.atSample (s.leader (l / 64)) e 0 State.cellParamsAt

/-- SET_CELL_PARAMS (R67). -/
def execSetCellParams (e : Entry) (s : State) : Res := .next (s.take 0x13 e State.setCellParams)

/-- BYPASS_CELL (R75). -/
def State.bypassCell (e : Entry) (s : State) : State :=
  let l := eTarget e
  let decl := s.decl8 l 0 != 0
  if !zeroes e 8 48 || !(s.cellType l == 1 || s.cellType l == 2) || (decl && !nbit (s.decl8 l 28) 1) then s.reply e stBadParam
  else
    match s.linkFlight l with
    | none => s.reply e stConflict
    | some (n, f) =>
      if s.fltState n f = 0 || !s.laneUp l then s.reply e stConflict
      else
        (s.mapLane l fun x => if x.bypass then x else { x with bypass := true, bypassTick := s.tick }).await e (.bypass l) 0

/-- BYPASS_CELL (R75). -/
def execBypassCell (e : Entry) (s : State) : Res := .next (s.take 0x14 e State.bypassCell)

/-- The fields of a flight descriptor (R68). -/
structure FltDesc where
  flight : Nat
  gang : Nat
  ld : Nat
  first : Nat
  cnt : Nat
  nreq : Nat
  len : Nat
  phase : Nat
  lat : Nat
  refsrc : Nat
  hub : Nat
deriving DecidableEq, Repr

/-- The flight descriptor in an entry (R68). -/
def fltDesc (e : Entry) : FltDesc :=
  { flight := ent e 8 1, gang := ent e 9 1, ld := ent e 10 1, first := ent e 11 1, cnt := ent e 12 2, nreq := ent e 14 2,
    len := ent e 16 2, phase := ent e 18 4, lat := ent e 22 4, refsrc := ent e 26 1, hub := ent e 28 4 }

/-- The links of a flight descriptor's range. -/
def FltDesc.links (d : FltDesc) : List Nat := (List.range d.cnt).map fun i => 64 * d.ld + d.first + i

/-- The FCs of a flight descriptor. -/
def FltDesc.fcs (d : FltDesc) : List Nat := (List.range d.gang).map (d.ld + ·)

/-- Flight slot of a flight descriptor (R70). -/
def FltDesc.slot (d : FltDesc) : Nat := if 1 < d.gang || d.first = 0 then 0 else 1

/-- R68 and the first cases of R69, which need no state. -/
def FltDesc.formOk (d : FltDesc) (e : Entry) : Bool :=
  decide (d.flight < 32) && (d.gang == 1 || d.gang == 2 || d.gang == 4) && decide (d.ld < 16) && d.ld % d.gang == 0 &&
    d.first % 8 == 0 && (d.gang == 1 || d.first == 0) && decide (8 ≤ d.cnt) && decide (d.cnt ≤ 256) && d.cnt % 8 == 0 &&
    decide (1 ≤ d.nreq) && decide (d.nreq ≤ d.cnt) && cycleOk d.len d.phase d.lat && decide (d.refsrc ≤ 4) &&
    zeroes e 27 28 && zeroes e 32 48 && decide (d.first + d.cnt ≤ 64 * d.gang) && (d.gang == 1 || decide (64 < d.cnt))

/-- LEN, PHASE and LAT of an FC. -/
def State.cycVals (s : State) (n : Nat) : Nat × Nat × Nat :=
  let n := s.leader n
  (s.fld (Reg.FC_CYC_LEN n) F.FC_CYC_LEN_LEN, s.fld (Reg.FC_CYC_PHASE n) F.FC_CYC_PHASE_PHASE,
   s.fld (Reg.FC_APPLY_LAT n) F.FC_APPLY_LAT_LAT)

/-- Whether FC `m` belongs to a bound gang. -/
def State.inGang (s : State) (m : Nat) : Bool := s.bound m 0 && decide (1 < s.gangSize m 0)

/-- The BAD_PARAM cases of R69 that depend on the state. -/
def State.bindBad (s : State) (d : FltDesc) : Bool :=
  decide ((d.links.filter fun l => s.cellType l == 1 || s.cellType l == 2).length < d.nreq) ||
  (d.gang == 1 && !s.inGang d.ld && (List.range 2).any fun f =>
    let lo := s.fld (Reg.FC_FLT_CFG d.ld f) F.FC_FLT_CFG_FIRST_LANE
    let hi := lo + s.fld (Reg.FC_FLT_CFG d.ld f) F.FC_FLT_CFG_COUNT
    s.bound d.ld f && ((decide (d.first < hi) && decide (lo < d.first + d.cnt)) ||
      s.cycVals d.ld != (d.len, d.phase, d.lat) || (f == 1 && d.first != 0))) ||
  (s.boundSlots.any fun p => s.rn (Reg.FC_HUB_MASK p.1 p.2) &&& d.hub != 0 &&
    ((s.cycVals p.1).1 != d.len || (s.cycVals p.1).2.1 != d.phase))

/-- The STATE_CONFLICT cases of R69, R129 and R181. -/
def State.bindConflict (s : State) (d : FltDesc) : Bool :=
  (s.slotOf d.flight).isSome ||
  (if 1 < d.gang then d.fcs.any fun m => s.bound m 0 || s.bound m 1
   else (s.bound d.ld 0 && s.bound d.ld 1) || s.inGang d.ld ||
     (List.range 2).any fun f => s.bound d.ld f &&
       (List.range 2).any fun b => s.bankVal d.ld f b && setWhole (s.bank d.ld f b)) ||
  (d.fcs.any fun m => !s.fcCan m) || !(s.flightGroups d.flight).isEmpty

/-- Step 1 of R71: the configuration registers of leader and members, which an FC that cycles takes at its next sample instant
(R440); the slot's own state begins anew. -/
def State.bindRegs (d : FltDesc) (s : State) : State :=
  let f := d.slot
  let s := forN d.gang (fun i s =>
    let m := d.ld + i
    let lo := max d.first (64 * i)
    let hi := min (d.first + d.cnt) (64 * (i + 1))
    s.heldWrite m (Reg.FC_FLT_CFG m f) (BitVec.ofNat 32 (d.flight + 32 + 64 * (d.gang / 2) + 256 * (lo - 64 * i) + 65536 * (hi - lo) +
      2 ^ 24 * d.refsrc))) s
  let s := s.heldWrite d.ld (Reg.FC_FLT_REQ d.ld f) (BitVec.ofNat 32 d.nreq)
  let s := s.heldWrite d.ld (Reg.FC_HUB_MASK d.ld f) (BitVec.ofNat 32 d.hub)
  let s := d.links.foldl (fun s l => s.mapLane l fun x => { x with lastV := none, hist := [] }) s
  s.mapSlot d.ld f fun _ => SlotSt.init

/-- SPLIT of an FC: both slots hold bound flights (R129). -/
def State.splitBits (m : Nat) (s : State) : State :=
  forN 2 (fun f s => s.sb (Reg.OBS_BANK m f) F.OBS_BANK_SPLIT (s.bound m 0 && s.bound m 1)) s

/-- What follows a change of the flight registers of FC `m` (R440): link-loss counts and sources, SPLIT, and the Sluice's maps. -/
def State.cfgFollow (m : Nat) (s : State) : State :=
  ((((s.lossEval (s.leader m) 0).lossEval (s.leader m) 1)).splitBits m).sluRefresh

/-- The held writes of FC `m` take effect, and what follows from a change of its flight registers (R29, R440). -/
def State.takeWrites (m : Nat) (s : State) : State :=
  let cfg := (s.fc m).writes.any fun e => decide (0x40 ≤ e.1 % 0x100000) && decide (e.1 % 0x100000 < 0x60)
  let s := s.applyWrites m
  if cfg then s.cfgFollow m else s

/-- FOLLOWER and LEADER of the members of a gang that is formed (R12, R34). -/
def State.gangForm (d : FltDesc) (s : State) : State :=
  forN (d.gang - 1) (fun i s =>
    let m := d.ld + i + 1
    (((s.flag (Reg.FC_CYC_STAT m) F.FC_CYC_STAT_FOLLOWER).sf (Reg.FC_CYC_STAT m) F.FC_CYC_STAT_LEADER d.ld).mapFc m
      fun x => { x with switching := true, switchAt := s.tick })) s

/-- Step 3 of R71: enable the lanes of the range that hold a descriptor; a kept lane stays as it is, or retrains when its
descriptor was written since (R66, R77). A lane whose descriptor is NONE is never enabled (R65). -/
def State.bindLanes (d : FltDesc) (s : State) : State :=
  d.links.foldl (fun s l =>
    let x := s.lane l
    let kept := x.kept && s.laneState l != 0
    let s := s.mapLane l fun x => { x with kept := false, descNew := false }
    if s.cellType l = 0 then (if s.bit (Reg.LNK_CTRL (l / 64) (l % 64)) F.LNK_CTRL_ENABLE then s.lnkEnable l false else s)
    else if kept then (if x.descNew then s.retrain l else s)
    else s.lnkEnable l true) s

/-- The configuration registers of a flight read 0, with its slot's hidden state at its initial value. -/
def State.clearCfg (n f : Nat) (ms : List Nat) (s : State) : State :=
  let s := ms.foldl (fun s m => s.wr (Reg.FC_FLT_CFG m f) 0) s
  let s := (s.wr (Reg.FC_FLT_REQ n f) 0).wr (Reg.FC_HUB_MASK n f) 0
  (s.sf (Reg.FC_FLT_STAT n f) F.FC_FLT_STAT_AVAIL 0).mapSlot n f fun _ => SlotSt.init

/-- The followers of a gang that ends return to their own clocks with RUN = 0, every lane of theirs disabled (R77). -/
def State.gangEnd (ms : List Nat) (s : State) : State :=
  (ms.drop 1).foldl (fun s m =>
    let s := forN 64 (fun i s => if s.bit (Reg.LNK_CTRL m i) F.LNK_CTRL_ENABLE then s.lnkEnable (64 * m + i) false else s) s
    let s := (s.sf (Reg.FC_CYC_STAT m) F.FC_CYC_STAT_FOLLOWER 0).sf (Reg.FC_CYC_STAT m) F.FC_CYC_STAT_LEADER m
    ((s.sf (Reg.FC_CYC_CTRL m) F.FC_CYC_CTRL_RUN 0).sf (Reg.FC_CYC_STAT m) F.FC_CYC_STAT_RUNNING 0).switchEnd m) s

/-- The end of a binding: STATE becomes BOUND at the sample instant, or at once while the FC does not cycle, and the reply is OK
(R71, R76, R435). Where STATE was written meanwhile the command is refused, and what it had written is taken back (R79, log
entry 71). -/
def State.bindState (w : Wait) (s : State) : State :=
  let d := fltDesc w.e
  if s.fltState d.ld d.slot = w.st then (s.setFlt d.ld d.slot 1).done w stOk
  else
    let ms := s.members d.ld d.slot
    let s := d.links.foldl (fun s l => s.lnkEnable l false) s
    let s := (s.gangEnd ms).clearCfg d.ld d.slot ms
    (ms.foldl (fun s m => s.cfgFollow m) s).done w stConflict

/-- Steps 2 to 4 of R71 once every member has stopped, or at once where cycling continues. -/
def State.bindRest (w : Wait) (restart : Bool) (s : State) : State :=
  let d := fltDesc w.e
  let s := if restart then
      let s := s.gangForm d
      let s := s.sf (Reg.FC_CYC_LEN d.ld) F.FC_CYC_LEN_LEN d.len
      let s := s.sf (Reg.FC_CYC_PHASE d.ld) F.FC_CYC_PHASE_PHASE d.phase
      (s.sf (Reg.FC_APPLY_LAT d.ld) F.FC_APPLY_LAT_LAT d.lat).runStart d.ld
    else s
  let s := s.bindLanes d
  let s := d.fcs.foldl (fun s m => s.cfgFollow m) s
  if s.cycling d.ld then
    (s.dropWait w).mapKeep fun k => { k with waits := k.waits ++ [{ w with on := .sample d.ld }] }
  else s.bindState w

/-- BIND_FLIGHT (R68–R71). -/
def State.bindFlight (e : Entry) (s : State) : State :=
  let d := fltDesc e
  if !d.formOk e || s.bindBad d then s.reply e stBadParam
  else if s.bindConflict d then s.reply e stConflict
  else
    let restart := 1 < d.gang || !s.runOn d.ld || s.cycVals d.ld != (d.len, d.phase, d.lat)
    let st := s.fltState d.ld d.slot
    let s := s.bindRegs d
    if restart then
      let s := d.fcs.foldl (fun s m => if s.runOn m then s.runStop m else s) s
      if d.fcs.any fun m => s.cycling m then s.await e .stop st else s.bindRest (nowWait e st) true
    else s.bindRest (nowWait e st) false

/-- BIND_FLIGHT (R71). -/
def execBindFlight (e : Entry) (s : State) : Res := .next (s.take 0x10 e State.bindFlight)

/-- UNBIND_FLIGHT at its sample instant (R77, R107, R113). -/
def State.unbindAt (w : Wait) (s : State) : State :=
  match s.slotOf (eTarget w.e) with
  | none => s.done w stConflict
  | some (n, f) =>
    if s.fltState n f ≠ w.st || w.st = 3 || w.st = 4 then s.done w stConflict
    else
      let keep := ent w.e 8 1 % 2 == 1
      let links := s.slotLinks n f
      let ms := s.members n f
      let s := s.setFlt n f 0
      let s := links.foldl (fun s l =>
        let s := s.mapLane l fun x => { x with ovNow := false, avail := false, qual := false, adm := false }
        let s := s.sf (ledFlags l) ⟨19, 1⟩ 0
        if keep && l / 64 = n then s.mapLane l fun x => { x with kept := s.laneState l != 0, descNew := false }
        else s.lnkEnable l false) s
      let s := ms.foldl (fun s m => s.ovEval m) s
      let s := ((s.sf (Reg.LED_STAT n f) F.LED_STAT_SRC_FAULT 0).setCause n (3 + f) false)
      let s := forN 2 (fun b s => s.setBankVal n f b false) s
      let s := (s.sf (Reg.OBS_BANK n f) F.OBS_BANK_SWAP_PEND 0).showSet n f
      let s := (s.clearCfg n f ms).gangEnd ms
      (ms.foldl (fun s m => s.cfgFollow m) s).finish w stOk 0 []

/-- UNBIND_FLIGHT accepted (R77, R78). -/
def State.unbindFlight (e : Entry) (s : State) : State :=
  if 1 < ent e 8 1 || !zeroes e 9 48 then s.reply e stBadParam
  else
    match s.slotOf (eTarget e) with
    | none => s.reply e stConflict
    | some (n, f) =>
      let st := s.fltState n f
      if st = 1 || st = 2 || st = 5 then s.atSample n e st State.unbindAt else s.reply e stConflict

/-- UNBIND_FLIGHT (R77). -/
def execUnbindFlight (e : Entry) (s : State) : Res := .next (s.take 0x11 e State.unbindFlight)

/-- Whether a YSEL code is one of R119, and for a bound flight names a channel of its gang or of its hub mask. -/
def State.yselOk (s : State) (fl : Option (Nat × Nat)) (c : Nat) : Bool :=
  c == 0xFF || match fl with
    | some (n, f) => (decide (c < 4 * s.gangSize n f)) ||
        (decide (0x20 ≤ c) && decide (c < 0x40) && nbit (s.rn (Reg.FC_HUB_MASK n f)) (c - 0x20))
    | none => decide (c < 16) || (decide (0x20 ≤ c) && decide (c < 0x40))

/-- Whether a WSEL code is one of R120. -/
def wselOk (c : Nat) : Bool :=
  c == 0xFF || decide (c < 8) || (decide (0x10 ≤ c) && decide (c < 0x30))

/-- The checks of R131 on an image: the form, the codes, the ownership and the program. Without a binding the checks that need
one are not made; of R127 there stays the range of the program. -/
def State.imageOk (s : State) (fl : Option (Nat × Nat)) (l : List Byte) : Bool :=
  let slot := fl.map (·.2)
  let own := fun tot i => match slot with
    | some f => owns l f tot i
    | none => true
  let ownR := fun r => match slot with
    | some f => ownsRow l f r
    | none => true
  imgU l 0 1 == 1 && decide (imgU l 1 1 ≤ 1) && imgU l 152 8 == 0 && imgU l 9506 6 == 0 &&
  ((List.range 80).all fun i => decide (-16 ≤ imgI l (8 + i) 1) && decide (imgI l (8 + i) 1 ≤ 15)) &&
  ((List.range 32).all fun i =>
    let z := imgU l (88 + i) 1
    decide (z < 32) && (!nbit z 4 || own 8 (z % 8)) &&
      (own 32 i || (z == 0 && imgU l (8 + i) 1 == 0 && imgU l (160 + 4 * i) 4 == 0))) &&
  ((List.range 16).all fun j => s.yselOk fl (imgU l (120 + j) 1) && wselOk (imgU l (136 + j) 1) &&
    (own 16 j || (imgU l (120 + j) 1 == 0xFF && imgU l (136 + j) 1 == 0xFF))) &&
  ((List.range 48).all fun r => ownR r || (List.range 64).all fun j => imgU l (288 + 192 * r + 3 * j) 3 == 0) &&
  crc16 0xFFFF (l.take 9504) == imgU l 9504 2 &&
  (match fl with
   | some (n, f) => s.programOk n f l true
   | none => decide (imgU l 2 2 + (if setWhole l then 96 else 48) ≤ 1024))

/-- LOAD_OBSERVER (R129, R131, R435): a load of the active bank reaches the states, and the ownership of R128, at the next sample
instant, or at once while the FC does not cycle. -/
def State.loadObserver (e : Entry) (s : State) : State :=
  if eBufLen e ≠ 9512 then s.reply e stBadLength
  else s.withBuf e (fun b s =>
    let fl := s.slotOf (eTarget e)
    let bank := ent e 8 1
    if 1 < bank || !zeroes e 9 48 || b.length ≠ 9512 || !s.imageOk fl b then s.reply e stBadParam
    else
      match fl with
      | none => s.reply e stConflict
      | some (n, f) =>
        let act := s.actBank n f == bank
        if s.fltState n f = 0 || (act && s.fltState n f != 1) ||
            (!act && s.bit (Reg.OBS_BANK n f) F.OBS_BANK_SWAP_PEND) ||
            (setWhole b && s.bound n (1 - f)) then s.reply e stConflict
        else
          let old := s.effSet n f
          let s := { s with banks := tput s.banks (4 * n + 2 * f + bank) b }
          let s := (s.setBankVal n f bank true).showSet n f
          (if !act then s
           else if s.cycling n then s.mapSlot n f fun y => { y with xinit := some old }
           else s.setXinit n f b).reply e stOk)

/-- LOAD_OBSERVER (R131). -/
def execLoadObserver (e : Entry) (s : State) : Res := .next (s.take 0x30 e State.loadObserver)

/-- REBASE_LEDGER accepted (R116): it waits for tick 560. -/
def State.rebaseLedger (e : Entry) (s : State) : State :=
  if !zeroes e 16 48 then s.reply e stBadParam
  else
    match s.slotOf (eTarget e) with
    | none => s.reply e stConflict
    | some (n, f) => if s.runs n f then s.await e (.rebase n) (s.fltState n f) else s.reply e stConflict

/-- REBASE_LEDGER (R116). -/
def execRebaseLedger (e : Entry) (s : State) : Res := .next (s.take 0x92 e State.rebaseLedger)

end Sys2Proof.Machine
end

