-- ==== Sys2Proof/Machine/MemCtl.lean ====
section
/-! DEFINITION. The memory controller (spec/17_memory_ecc_dma.md): scrubbing, the image window and the image fill. -/

namespace Sys2Proof.Machine

/-- Geometry of a memory of R305 for the scrub engine: bytes of a granule's address range, data bytes that carry check bits,
granules. A control-store word counts as its parts of R284 (log entry 21). -/
def scrubGeom (mid : Nat) : Option (Nat × Nat × Nat) :=
  let u := mid / 256
  match memOfMid mid with
  | some (_, size) => some (8, 8, size / 8)
  | none =>
    match mid % 256 with
    | 0x04 => if u < 21 then some (8, 8, 256) else none
    | 0x05 => if u < 21 then some (4, 3, 2048) else none
    | 0x06 => if u < 21 then some (4, 4, 32) else none
    | 0x11 => if u < 16 then some (4, 3, 1024) else none
    | 0x12 => if u < 16 then some (20, 20, 1024) else none
    | 0x13 => if u < 16 then some (16, 16, 512) else none
    | _ => none

/-- Key of byte `b` of granule `g` of a memory in the error map. -/
def scrubKey (mid g b : Nat) : Nat :=
  let u := mid / 256
  match memOfMid mid with
  | some (k, _) => k + 8 * g + b
  | none =>
    match mid % 256 with
    | 0x04 => ckptByte u (8 * g + b)
    | 0x05 => csByte (csVert u g) b
    | 0x06 => csByte (csDec u g) b
    | 0x11 => csByte (csKey u 0 g) b
    | 0x12 => csByte (csKey u 1 g) b
    | _ => csByte (csKey u 2 g) b

/-- The range conditions of R312. -/
def scrubRangeOk (mid off len : Nat) : Bool :=
  match scrubGeom mid with
  | none => false
  | some (gb, _, n) => off % gb == 0 && len % gb == 0 && len != 0 && decide (off + len ≤ gb * n)

/-- Granules of a range. -/
def ScrubSt.total (x : ScrubSt) : Nat := match scrubGeom x.mid with | some (gb, _, _) => x.len / gb | none => 0

/-- A scrub is running (R315). -/
def State.scrubBusy (s : State) : Bool := s.bit Reg.MEM_STAT F.MEM_STAT_SCRUB_BUSY

/-- GO of the scrub engine over the range in its registers (R315). -/
def State.scrubGo (wb slice : Bool) (s : State) : State :=
  let mid := s.fld Reg.MEM_SCRUB_MID F.MEM_SCRUB_MID_MID
  let off := s.rn Reg.MEM_SCRUB_OFF
  let len := s.rn Reg.MEM_SCRUB_LEN
  if s.scrubBusy || !scrubRangeOk mid off len then s.flag Reg.MEM_SCRUB_CTRL F.MEM_SCRUB_CTRL_SCRUB_REFUSED
  else
    { s.flag Reg.MEM_STAT F.MEM_STAT_SCRUB_BUSY with
      scrub := some { mid := mid, off := off, len := len, wb := wb, slice := slice, done := 0, ce := 0, ue := 0, fix := 0,
                      firstUe := none, lastUe := none, ueKeys := [], tsStart := s.ts, next := s.tick } }

/-- SCRUB_GO (R315). -/
def execScrubGo (wb : Bool) (s : State) : Res := .next (s.scrubGo wb false)

/-- The scrub's range registers. -/
def State.scrubRegs (mid off len : Nat) (s : State) : State :=
  ((s.wr Reg.MEM_SCRUB_MID (BitVec.ofNat 32 mid)).wr Reg.MEM_SCRUB_OFF (BitVec.ofNat 32 off)).wr Reg.MEM_SCRUB_LEN
    (BitVec.ofNat 32 len)

/-- SCRUB_RANGE (R312): the Keeper carries it out through the scrub registers. -/
def State.scrubRange (e : Entry) (s : State) : State :=
  let mid := eTarget e
  let off := ent e 8 4
  let len := ent e 12 4
  if eBufLen e ≠ 64 then s.reply e stBadLength
  else if 65536 ≤ mid || mid % 256 == 4 || !scrubRangeOk mid off len || ent e 16 1 / 2 != 0 || !zeroes e 17 48 then
    s.reply e stBadParam
  else if s.scrubBusy then s.reply e stBusy
  else ((s.scrubRegs mid off len).scrubGo (ent e 16 1 % 2 == 1) false).await e .scrub 0

def execScrubRange (e : Entry) (s : State) : Res := .next (s.take 0x70 e State.scrubRange)

/-- The scrub of one byte of a granule (R304, R312). -/
def State.scrubByte (x : ScrubSt) (off k b : Nat) (s : State) : ScrubSt × State :=
  match tget 0 s.ecc k with
  | 0 => (x, s)
  | 1 => ({ x with ce := x.ce + 1 }, if x.wb then { s.noteCe x.mid with ecc := tdel (s.noteCe x.mid).ecc k } else s.noteCe x.mid)
  | _ => ({ x with ue := x.ue + 1, firstUe := x.firstUe.or (some off), lastUe := some off, ueKeys := x.ueKeys ++ [off] },
          s.noteUe x.mid off b)

/-- SCRUB_GRANULE (R313): the engine reads one granule, and rewrites it when it holds a correctable error. -/
def execScrubGranule (s : State) : Res :=
  match s.scrub with
  | none => .next s
  | some x =>
    match scrubGeom x.mid with
    | none => .next s
    | some (gb, nb, _) =>
      if x.total ≤ x.done then .next s
      else
        let s := s.atTick x.next
        let x := if x.done = 0 then { x with tsStart := s.ts } else x
        let off := x.off + gb * x.done
        let g := off / gb
        let (y, s) := (List.range nb).foldl (fun r b => r.2.scrubByte r.1 off (scrubKey x.mid g b) b) (x, s)
        let gk := scrubKey x.mid g 0 / 8
        let tagged := (memOfMid x.mid).isSome
        let split := tagged && tget 0 s.tags gk != 0 && tget 0 s.tags gk != 7
        let s := if split then (s.readTag gk).2 else s
        let s := s.atTick (x.next + 1)
        .next { s with scrub := some { y with done := x.done + 1, fix := y.fix + b2n split,
                                              next := x.next + 1 + b2n (x.wb && decide (x.ce < y.ce)) } }

/-- The summary record of R314. -/
def ScrubSt.record (x : ScrubSt) (tsEnd : Nat) : List Byte :=
  leBytes 2 x.mid ++ leBytes 1 (b2n x.wb) ++ leBytes 1 1 ++ leBytes 4 x.off ++ leBytes 4 x.len ++ leBytes 4 x.done ++
    leBytes 4 x.ce ++ leBytes 4 x.ue ++ leBytes 4 x.fix ++ leBytes 4 (x.firstUe.getD 0xFFFFFFFF) ++
    leBytes 4 (x.lastUe.getD 0xFFFFFFFF) ++ leBytes 8 x.tsStart ++ leBytes 8 tsEnd ++ leBytes 12 0

/-- The completion of a scrub (R315): its result registers, SCRUB_BUSY and SCRUB_DONE. -/
def State.scrubEnd (x : ScrubSt) (s : State) : State :=
  let n := BitVec.ofNat 32
  let s := { s with scrub := none }
  let s := (s.wr Reg.MEM_SCRUB_GRAN (n x.done)).wr Reg.MEM_SCRUB_CE (n x.ce)
  let s := (s.wr Reg.MEM_SCRUB_UE (n x.ue)).wr Reg.MEM_SCRUB_TAGFIX (n x.fix)
  let s := (s.wr Reg.MEM_SCRUB_FIRST (n (x.firstUe.getD 0xFFFFFFFF))).wr Reg.MEM_SCRUB_LAST (n (x.lastUe.getD 0xFFFFFFFF))
  let s := (s.w64 Reg.MEM_SCRUB_TSS_LO x.tsStart).w64 Reg.MEM_SCRUB_TSE_LO s.ts
  (s.sf Reg.MEM_STAT F.MEM_STAT_SCRUB_BUSY 0).raise 1671 0x5A (x.mid + 65536 * min 65535 x.ue)

/-- Slice `i` of the Keeper's rotation over every memory of R305 (R387): MID, offset and length. The order of the memories and
of a memory's slices is the model's (log entry 22). -/
def scrubSlice (i : Nat) : Nat × Nat × Nat :=
  let k := 0x10000
  if i < 252 then
    let u := 256 * (i / 12)
    let r := i % 12
    if r < 4 then (u + 1, k * r, k) else if r < 8 then (u + 2, k * (r - 4), k) else if r = 8 then (u + 3, 0, 0x400)
    else if r = 9 then (u + 4, 0, 0x800) else if r = 10 then (u + 5, 0, 0x2000) else (u + 6, 0, 0x80)
  else if i < 812 then
    let u := 256 * ((i - 252) / 35)
    let r := (i - 252) % 35
    if r < 32 then (u + 0x10, k * r, k) else if r = 32 then (u + 0x11, 0, 0x1000) else if r = 33 then (u + 0x12, 0, 0x5000)
    else (u + 0x13, 0, 0x2000)
  else (0x20, k * (i - 812), k)

/-- Slices of a full round. -/
def scrubSlices : Nat := 1324

/-- The Keeper starts its next slice. -/
def State.sliceGo (s : State) : State :=
  let (mid, off, len) := scrubSlice s.keep.slice
  ((s.scrubRegs mid off len).scrubGo true true).mapKeep fun k =>
    { k with slice := (k.slice + 1) % scrubSlices, sliceWait := false }

/-- Whether the Keeper firmware has started (R382): CONFIGURED or OPERATIONAL. -/
def State.fwUp (s : State) : Bool := s.dev == 2 || s.dev == 3

/-- Whether the firmware acts: it has started, and its pair executes (R204, R210). -/
def State.fwRuns (s : State) : Bool := s.fwUp && s.keeperOn

/-- SCRUB_SLICE (R387): every 10 ms, or 80 ms while shedding; a slice that falls due during a scrub waits for its end. -/
def execScrubSlice (s : State) : Res :=
  if s.fwRuns then
    let s := s.atTick s.keep.sliceDue
    let s := s.mapKeep fun k =>
      { k with sliceDue := k.sliceDue + (if s.bit (Reg.HIF_KSHED 0) F.HIF_KSHED_SHED then 64000000 else 8000000) }
    .next (if s.scrubBusy then s.mapKeep fun k => { k with sliceWait := true } else s.sliceGo)
  else .next s

/-- Whether the image window of a pair is open (R310, R385). -/
def State.imgOpen (s : State) (p : Nat) : Bool := decide (p < 20) && !s.rel.contains p

/-- A write of MEM_IMG_CDST copies a granule with its tag from KP's DTCM (R310). A granule with an uncorrectable byte is
counted and not copied (log entry 23). -/
def State.capCopy (v : Word) (s : State) : State :=
  let p := fget v F.MEM_IMG_CDST_PAIR
  if !s.imgOpen p then s.flag Reg.MEM_STAT F.MEM_STAT_IMG_REFUSED
  else
    let src := dtcm 20 (s.fld Reg.MEM_IMG_CSRC F.MEM_IMG_CSRC_OFFSET / 8 * 8)
    let dst := dtcm p (fget v F.MEM_IMG_CDST_OFFSET / 8 * 8)
    let b := s.rdBytes src 8
    let (bad, s) := s.eccCheck src 8
    let (t, s) := s.readTag (src / 8)
    if bad.isSome then s else (s.wrBytes dst b).setTag (dst / 8) t

/-- CAP_COPY (R310). -/
def execCapCopy (v : Word) (s : State) : Res := .next (s.capCopy v)

/-- Every byte of a key range reads 0, without error and untagged. -/
def State.zeroRange (k n : Nat) (s : State) : State :=
  let out := fun a => decide (a < k) || decide (k + n ≤ a)
  { s with mem := s.mem.filter fun e => out e.1, ecc := s.ecc.filter fun e => out e.1,
           tags := s.tags.filter fun e => out (8 * e.1) }

/-- Key and size of the memory that MEM names of a pair (R311). -/
def fillMem (p m : Nat) : Nat × Nat :=
  if m = 0 then (itcm p 0, 0x40000) else if m = 1 then (dtcm p 0, 0x40000) else (faultRam p 0, 0x400)

/-- A write of MEM_IMG_FILL (R311). -/
def State.imageFill (v : Word) (s : State) : State :=
  let p := fget v F.MEM_IMG_FILL_PAIR
  let m := fget v F.MEM_IMG_FILL_MEM
  if s.imgFill.isSome || !s.imgOpen p || m == 3 then s.flag Reg.MEM_STAT F.MEM_STAT_IMG_REFUSED
  else { s.flag Reg.MEM_IMG_FILL F.MEM_IMG_FILL_BUSY with imgFill := some (p, m, s.tick + (fillMem p m).2 / 8) }

/-- IMAGE_FILL (R311). -/
def execImageFill (v : Word) (s : State) : Res := .next (s.imageFill v)

/-- IMAGE_FILL_DONE (R311). -/
def execImageFillDone (s : State) : Res :=
  match s.imgFill with
  | none => .next s
  | some (p, m, t) =>
    let s := (s.atTick t).zeroRange (fillMem p m).1 (fillMem p m).2
    .next { s.sf Reg.MEM_IMG_FILL F.MEM_IMG_FILL_BUSY 0 with imgFill := none }

end Sys2Proof.Machine
end

