-- ==== Sys2Proof/Machine/Pwm.lean ====
section
/-! DEFINITION. Direct pulse-width outputs (spec/10_hrpwm.md). -/

namespace Sys2Proof.Machine

/-- The applied period of pair `k`. -/
def State.pwmPer (s : State) (k : Nat) : Nat := s.fld (Reg.PWM_APER k) F.PWM_APER_PER

/-- The applied dead times of pair `k`. -/
def State.pwmDtR (s : State) (k : Nat) : Nat := s.fld (Reg.PWM_ADT k) F.PWM_ADT_DT_R

def State.pwmDtF (s : State) (k : Nat) : Nat := s.fld (Reg.PWM_ADT k) F.PWM_ADT_DT_F

/-- The compare derived at a period start (R186), all in 1/16 tick: the written compare, the period, the two bounds. -/
def pwmCompare (cw per lo hi : Nat) (loLeHi stretch : Bool) : Nat :=
  if cw = 0 || per ≤ cw then cw
  else if loLeHi then
    if cw < lo then (if stretch then lo else 0)
    else if hi < cw then (if stretch then hi else per)
    else cw
  else if 2 * cw < per then 0 else per

/-- The compare in force for a period of pair `k` from its applied values. -/
def State.pwmDerive (s : State) (k : Nat) : Nat :=
  let x := s.pwm k
  let minp := nbits x.mp.toNat 0 8
  let lo := s.pwmDtR k + minp
  let off := s.pwmDtF k + minp
  let per := s.pwmPer k
  pwmCompare x.cw (16 * per) (16 * lo) (16 * (per - off)) (decide (lo + off ≤ per)) (nbit x.mp.toNat 8)

/-- The outputs follow P after a change of P, at a period start, and at a trip release (R185, R187): an output turns off at once,
and on at the first whole tick at which P has held its level for its dead time. -/
def State.followP (k : Nat) (fresh : Bool) (s : State) : State :=
  let x := s.pwm k
  let wantA := x.p
  let wantB := !x.p && !nbit x.mp.toNat 9
  let a := x.outA && wantA
  let b := x.outB && wantB
  let to_ := if wantA && !a then 1 else if wantB && !b then 2 else 0
  let end_ := x.since + b2n (x.fine != 0) + (if to_ = 1 then s.pwmDtR k else s.pwmDtF k)
  let now := decide (end_ ≤ s.tick)
  let s := s.setOut k (a || (to_ == 1 && now)) (b || (to_ == 2 && now))
  s.mapPwm k fun x => { x with dtTo := if now then 0 else to_, dtEnd := end_,
                               tripped := if fresh then false else x.tripped }

/-- Raise an event of pair `k` with its flag, once on each transition (R195). -/
def State.pwmFlag (k : Nat) (f : Fld) (code pay : Nat) (s : State) : State := s.flagOnce (Reg.PWM_STAT k) f (1632 + k) code pay

/-- A refused write of pair `k` (R195). -/
def State.pwmErr (k off : Nat) (s : State) : State := s.pwmFlag k F.PWM_STAT_CFG_ERR 0x44 off

/-- Move the shadow values named by `m` (bit 0 PER, 1 CMP, 2 DT, 3 MP, 4 TOW) to the applied registers. -/
def State.pwmApply (k m : Nat) (s : State) : State :=
  let s := if nbit m 0 then s.wr (Reg.PWM_APER k) (s.rg (Reg.PWM_PER k)) else s
  let s := if nbit m 2 then s.wr (Reg.PWM_ADT k) (s.rg (Reg.PWM_DT k)) else s
  s.mapPwm k fun x => { x with cw := if nbit m 1 then s.rn (Reg.PWM_CMP k) else x.cw,
                               mp := if nbit m 3 then s.rg (Reg.PWM_MP k) else x.mp,
                               ofs := if nbit m 4 then s.rn (Reg.PWM_TOW k) else x.ofs }

/-- The commit at a period start (R187, R190, R191). -/
def State.pwmCommit (k : Nat) (first : Bool) (s : State) : State :=
  let pend := s.fld (Reg.PWM_PEND k) F.PWM_PEND_PEND
  if first then (s.pwmApply k 31).wr (Reg.PWM_PEND k) 0
  else if s.bit (Reg.PWM_PEND k) F.PWM_PEND_ARMED || s.bit (Reg.PWM_CTRL k) F.PWM_CTRL_AUTO then
    if nbit pend 0 && !nbit pend 1 && s.bit (Reg.PWM_CTRL k) F.PWM_CTRL_STRICT then
      s.pwmFlag k F.PWM_STAT_HELD_COMMIT 0x41 pend
    else
      let skew := nbit pend 0 && !nbit pend 1
      let s := (s.pwmApply k pend).wr (Reg.PWM_PEND k) 0
      if skew then s.pwmFlag k F.PWM_STAT_PAIR_SKEW 0x40 (s.pwmPer k) else s
  else s

/-- A tow pulse reaches pair `k` at tick `t` (R192, R193). One that meets a period start of that tick has no further effect. -/
def State.towTo (k sync t : Nat) (s : State) : State :=
  if s.bit (Reg.PWM_CTRL k) F.PWM_CTRL_EN && s.fld (Reg.PWM_CTRL k) F.PWM_CTRL_SYNC == sync &&
      !(s.bit (Reg.PWM_STAT k) F.PWM_STAT_RUNNING && (s.pwm k).start == t) then
    s.mapPwm k fun x => { x with tow := some t }
  else s

/-- Pair 0 receives the TOW_IN pulses that are due by the present tick (R194). -/
def State.towArrive (s : State) : State :=
  (s.towRx.filter fun t => decide (t ≤ s.tick)).foldl (fun s t => s.towTo 0 1 t)
    { s with towRx := s.towRx.filter fun t => decide (s.tick < t) }

/-- The same for pair `k` where no tow has reached it yet: the time runs to the next TOW_IN pulse on its way to pair 0. -/
def State.towDue (k : Nat) (s : State) : State :=
  match (s.pwm k).tow, s.towRx with
  | none, t :: _ => if k = 0 then (s.atTick t).towArrive else s
  | _, _ => s

/-- A period start of pair `k` at the present tick (R183–R191, R165, R174, R175). -/
def State.periodStart (k : Nat) (s : State) : State :=
  let s := if k = 0 then s.towArrive else s
  let first := !s.bit (Reg.PWM_STAT k) F.PWM_STAT_RUNNING
  let s := (s.boundary (0x20 + k)).autoClear k
  let s := s.pwmCommit k first
  let c := s.pwmDerive k
  let cw := (s.pwm k).cw
  let per := 16 * s.pwmPer k
  let s :=
    if c = cw then s
    else if c = 0 || c = per then s.pwmFlag k F.PWM_STAT_MP_DROP 0x42 (2 * (cw % 2 ^ 24))
    else s.pwmFlag k F.PWM_STAT_MP_STRETCH 0x42 (1 + 2 * (cw % 2 ^ 24))
  let s := s.wr (Reg.PWM_ACMP k) (BitVec.ofNat 32 c)
  let x := s.pwm k
  let safe := s.pairSafe k
  let fresh := first || (x.tripped && !safe)
  let p := decide (0 < c)
  let turn := fresh || x.p != p
  let s := s.mapPwm k fun x => { x with start := s.tick, p := p, since := if turn then s.tick else x.since,
                                        fine := if turn then 0 else x.fine, tow := none, towSent := false }
  let s := if safe then s.mapPwm k fun x => { x with tripped := true, dtTo := 0 }
           else s.followP k fresh
  let s := s.sb (Reg.PWM_STAT k) F.PWM_STAT_SAFE_NOW safe
  let s := s.sf (Reg.PWM_STAT k) F.PWM_STAT_WAIT_TOW 0
  let s := s.w64 (Reg.PWM_PSTS_LO k) s.ts
  s.sf (Reg.PWM_STAT k) F.PWM_STAT_RUNNING 1

/-- Tick of the next period start that needs no tow: the wrap, or the tick after the enable (R183, R187). -/
def State.pwmNext (s : State) (k : Nat) : Nat :=
  if s.bit (Reg.PWM_STAT k) F.PWM_STAT_RUNNING then (s.pwm k).start + s.pwmPer k else (s.pwm k).start + 1

/-- PERIOD_START (R183): the counter wraps, or the pair starts. A pair that waits for its first tow starts with that tow. -/
def execPeriodStart (k : Fin 32) (s : State) : Res :=
  let k := k.val
  if s.bit (Reg.PWM_CTRL k) F.PWM_CTRL_EN then
    if s.bit (Reg.PWM_STAT k) F.PWM_STAT_WAIT_TOW then
      let s := s.towDue k
      match (s.pwm k).tow with
      | some t => .next ((s.atTick t).periodStart k)
      | none => .next s
    else .next ((s.atTick (s.pwmNext k)).periodStart k)
  else .next s

/-- A period start of pair `k` that is due by the present tick has taken place before a write of this tick (R190). -/
def State.pwmDue (k : Nat) (s : State) : State :=
  if s.bit (Reg.PWM_CTRL k) F.PWM_CTRL_EN && !s.bit (Reg.PWM_STAT k) F.PWM_STAT_WAIT_TOW && decide (s.pwmNext k ≤ s.tick) then
    s.periodStart k
  else s

/-- PWM_ENABLE (R187): a write of PWM_CTRLk.EN. -/
def State.pwmEnable (k : Nat) (on : Bool) (s : State) : State :=
  let s := if k = 0 then s.towArrive else s
  let was := s.bit (Reg.PWM_CTRL k) F.PWM_CTRL_EN
  let s := s.sb (Reg.PWM_CTRL k) F.PWM_CTRL_EN on
  if on then
    if was then s
    else
      let s := s.mapPwm k fun x => { x with start := s.tick, tow := none, p := false, since := s.tick, fine := 0 }
      s.sb (Reg.PWM_STAT k) F.PWM_STAT_WAIT_TOW (s.fld (Reg.PWM_CTRL k) F.PWM_CTRL_SYNC != 0)
  else
    let s := s.sf (Reg.PWM_STAT k) F.PWM_STAT_RUNNING 0
    let s := s.sf (Reg.PWM_STAT k) F.PWM_STAT_WAIT_TOW 0
    let s := s.flag (Reg.PWM_STAT k) F.PWM_STAT_SAFE_NOW
    let s := s.sf (Reg.PWM_PEND k) F.PWM_PEND_ARMED 0
    let s := s.mapPwm k fun x => { x with dtTo := 0, tow := none, tripped := false }
    s.setOut k (s.bit (Reg.PWM_CTRL k) F.PWM_CTRL_SAFE_A) (s.bit (Reg.PWM_CTRL k) F.PWM_CTRL_SAFE_B)

def execPwmEnable (k : Fin 32) (on : Bool) (s : State) : Res := .next (s.pwmEnable k on)

/-- COMPARE_MATCH (R184): the counter reaches the compare in force, and P falls C[3:0] / 16 tick after the tick of C[24:4]. -/
def execCompareMatch (k : Fin 32) (s : State) : Res :=
  let k := k.val
  let c := s.fld (Reg.PWM_ACMP k) F.PWM_ACMP_C
  if s.bit (Reg.PWM_STAT k) F.PWM_STAT_RUNNING && (s.pwm k).p && decide (c < 16 * s.pwmPer k) then
    let s := s.atTick ((s.pwm k).start + c / 16)
    let s := s.mapPwm k fun x => { x with p := false, since := s.tick, fine := c % 16 }
    .next (if (s.pwm k).tripped then s else s.followP k false)
  else .next s

/-- DEAD_TIME_END (R185): after its dead time an output turns on. -/
def execDeadTimeEnd (k : Fin 32) (s : State) : Res :=
  let k := k.val
  let x := s.pwm k
  if x.dtTo = 0 || x.tripped then .next s
  else
    let s := s.atTick x.dtEnd
    let s := s.setOut k (x.outA || x.dtTo == 1) (x.outB || x.dtTo == 2)
    .next (s.mapPwm k fun x => { x with dtTo := 0 })

/-- TOW_PULSE (R192): the counter equals OFS, and the pulse reaches the next pair or TOW_OUT 8 ticks later (R194). -/
def execTowPulse (k : Fin 32) (s : State) : Res :=
  let k := k.val
  let x := s.pwm k
  if s.bit (Reg.PWM_STAT k) F.PWM_STAT_RUNNING && decide (x.ofs < s.pwmPer k) && !x.towSent then
    let s := s.atTick (x.start + x.ofs)
    let s := s.mapPwm k fun x => { x with towSent := true }
    .next (if k < 31 then s.towTo (k + 1) 1 s.tick
      else if s.bit Reg.PWM_TOWCFG F.PWM_TOWCFG_OUT_EN then 
        { s with towOut := (s.tick + 8) :: s.towOut.filter fun r => decide (s.tick < r + 16) }
      else s)
  else .next s

/-- TOW_RESTART (R193): a received tow restarts the pair once P has held its level for its dead time and minimum pulse; if the
counter wraps first, the wrap is the period start and the tow has no further effect. -/
def execTowRestart (k : Fin 32) (s : State) : Res :=
  let k := k.val
  let s := s.towDue k
  let x := s.pwm k
  match x.tow with
  | none => .next s
  | some t =>
    if !s.bit (Reg.PWM_STAT k) F.PWM_STAT_RUNNING then .next s
    else
      let e := max t (x.since + b2n (x.fine != 0) + (if x.p then s.pwmDtR k else s.pwmDtF k) + nbits x.mp.toNat 0 8)
      if x.start + s.pwmPer k ≤ e then .next (s.mapPwm k fun x => { x with tow := none })
      else
        let s := s.atTick e
        let s := if t < e then s.pwmFlag k F.PWM_STAT_TOW_LATE 0x43 (e - t) else s
        .next (s.periodStart k)

/-- TOW_IN_EDGE (R194): a rising edge on TOW_IN is stamped, and pair 0 receives the tow 24 ticks later. -/
def execTowInEdge (s : State) : Res := .next { s with towIn := s.ts, towRx := s.towRx ++ [s.tick + 24] }

/-- The level of TOW_OUT (R194): high for 16 ticks from each rise while OUT_EN is 1. -/
def State.towOutHigh (s : State) : Bool :=
  s.bit Reg.PWM_TOWCFG F.PWM_TOWCFG_OUT_EN && s.towOut.any fun r => decide (r ≤ s.tick) && decide (s.tick < r + 16)

/-- A write of PWM_TOWCFG (R194): TOW_OUT is low while OUT_EN is 0. -/
def State.towCfgWrite (v : Word) (s : State) : State :=
  let s := s.sb Reg.PWM_TOWCFG F.PWM_TOWCFG_OUT_EN (fget v F.PWM_TOWCFG_OUT_EN != 0)
  if s.bit Reg.PWM_TOWCFG F.PWM_TOWCFG_OUT_EN then s else { s with towOut := [] }

/-- The shadow registers of a pair (R189). -/
def shadowAddr : ShadowReg → Nat → Nat
  | .per, k => Reg.PWM_PER k
  | .cmp, k => Reg.PWM_CMP k
  | .dt, k => Reg.PWM_DT k
  | .mp, k => Reg.PWM_MP k
  | .tow, k => Reg.PWM_TOW k

/-- Bits of a shadow register, and its pending bit. -/
def shadowMask : ShadowReg → Word
  | .per => 0x1FFFFF
  | .cmp => 0x1FFFFFF
  | .dt => 0x3FF03FF
  | .mp => 0x3FF
  | .tow => 0xFFFFF

def shadowBit : ShadowReg → Nat
  | .per => 0
  | .cmp => 1
  | .dt => 2
  | .mp => 3
  | .tow => 4

/-- A write to a shadow register (R189): PER outside 2–1,048,576 is refused. -/
def State.shadowWrite (k : Nat) (r : ShadowReg) (v : Word) (s : State) : State :=
  let w := v &&& shadowMask r
  let s := s.pwmDue k
  if r = .per && (w.toNat < 2 || 1048576 < w.toNat) then s.pwmErr k 4
  else
    let s := s.wr (shadowAddr r k) w
    s.sf (Reg.PWM_PEND k) F.PWM_PEND_PEND (setBit (s.fld (Reg.PWM_PEND k) F.PWM_PEND_PEND) (shadowBit r) true)

def execShadowWrite (k : Fin 32) (r : ShadowReg) (v : Word) (s : State) : Res := .next (s.shadowWrite k r v)

/-- PWM_COMMIT (R190): arms every enabled pair of the named groups. -/
def State.pwmArm (m : Nat) (s : State) : State :=
  forN 32 (fun k s =>
    if s.bit (Reg.PWM_CTRL k) F.PWM_CTRL_EN && nbit m (s.fld (Reg.PWM_CTRL k) F.PWM_CTRL_CGRP) then
      (s.pwmDue k).flag (Reg.PWM_PEND k) F.PWM_PEND_ARMED
    else s) s

def execPwmCommit (m : Byte) (s : State) : Res := .next (s.pwmArm m.toNat)

/-- PWM_CNTk: the period counter (R183). -/
def State.pwmCount (s : State) (k : Nat) : Nat :=
  if s.bit (Reg.PWM_STAT k) F.PWM_STAT_RUNNING then (s.tick - (s.pwm k).start) % (max 1 (s.pwmPer k)) else 0

/-- A write of PWM_CTRLk (R187, R192): SAFE, SYNC and CGRP only while EN is 0; both safe levels 1, and SYNC 2 on a pair other
than pair 0, are refused. The SYNC code 3 stands in no row of R192: it is refused in the same way (log entry 6). -/
def State.pwmCtrlWrite (k : Nat) (v : Word) (s : State) : State :=
  let a := Reg.PWM_CTRL k
  let old := s.rg a
  let s := s.sb a F.PWM_CTRL_STRICT (fget v F.PWM_CTRL_STRICT != 0)
  let s := s.sb a F.PWM_CTRL_AUTO (fget v F.PWM_CTRL_AUTO != 0)
  let en := fget old F.PWM_CTRL_EN != 0
  let cfgMask : Word := 0x3730
  let sync := fget v F.PWM_CTRL_SYNC
  let badSafe := fget v F.PWM_CTRL_SAFE_A != 0 && fget v F.PWM_CTRL_SAFE_B != 0
  let badSync := sync == 3 || (sync == 2 && k != 0)
  let s :=
    if v &&& cfgMask = old &&& cfgMask then s
    else if en then s.pwmErr k 0
    else
      let s := s.sf a F.PWM_CTRL_CGRP (fget v F.PWM_CTRL_CGRP)
      let s := if badSafe then s.pwmErr k 0
        else (s.sf a F.PWM_CTRL_SAFE_A (fget v F.PWM_CTRL_SAFE_A)).sf a F.PWM_CTRL_SAFE_B (fget v F.PWM_CTRL_SAFE_B)
      let s := if badSync then s.pwmErr k 0 else s.sf a F.PWM_CTRL_SYNC sync
      s.setOut k (s.bit a F.PWM_CTRL_SAFE_A) (s.bit a F.PWM_CTRL_SAFE_B)
  if fget v F.PWM_CTRL_EN != fget old F.PWM_CTRL_EN then s.pwmEnable k (fget v F.PWM_CTRL_EN != 0) else s

end Sys2Proof.Machine
end

