-- ==== Sys2Proof/Machine/HostIf.lean ====
section
/-! DEFINITION. The host interface (spec/19_host_interface.md): notices and messages, ownership and heartbeats, the queues, the
ports' resets, and entry into SAFE_HALT. -/

namespace Sys2Proof.Machine

/-- What R342 fixes in the configuration space of each endpoint: offset, mask and value of a word of the Type 0 header. No row of
the table reads the space (log entry 61). -/
def pciFixed : List (Nat × Word × Word) :=
  [(0x00, 0xFFFFFFFF, 0xE4101D7A), (0x08, 0xFFFFFF00, 0x11800000), (0x0C, 0x007F0000, 0), (0x2C, 0xFFFFFFFF, 0x00011D7A),
   (0x3C, 0x0000FF00, 0)]

/-- Event source of a host port (R356). -/
def portSrc (p : Nat) : Nat := 1675 + p

/-- Whether the mask bit of an MSI-X vector is 1; every vector is masked from reset (R353). -/
def State.vecMasked (s : State) (p v : Nat) : Bool := (tget 1 (s.port p).msix (4 * v + 3)).getLsbD 0

/-- Send an MSI-X message, or set its pending bit while it is masked (R349). -/
def State.msiSend (p v : Nat) (s : State) : State :=
  if s.portOk p && !(s.port p).fmask && !s.vecMasked p v then { s with out := .msi p v :: s.out }
  else s.mapPort p fun x => { x with pba := setBit x.pba v true }

/-- The pending message of a vector goes out once nothing masks it (R349). -/
def State.msiFlush (p v : Nat) (s : State) : State :=
  if nbit (s.port p).pba v && s.portOk p && !(s.port p).fmask && !s.vecMasked p v then
    { s.mapPort p fun x => { x with pba := setBit x.pba v false } with out := .msi p v :: s.out }
  else s

/-- MSIX_UNMASK (R349): the mask of a vector clears. -/
def execMsixUnmask (p : Fin 2) (v : Fin 64) (s : State) : Res :=
  let s := s.mapPort p fun x => { x with msix := tput x.msix (4 * v + 3) (tget 1 x.msix (4 * v + 3) &&& 0xFFFFFFFE) }
  .next (s.msiFlush p v)

/-- A notice bit sets, with its message (R343). -/
def State.notice (p : Nat) (f : Fld) (s : State) : State :=
  if s.bit (Reg.HIF_NOTESTAT p) f then s
  else
    let s := s.flag (Reg.HIF_NOTESTAT p) f
    if s.bit (Reg.HIF_NOTE p) F.HIF_NOTE_EN then s.msiSend p (s.fld (Reg.HIF_NOTE p) F.HIF_NOTE_VEC) else s

/-- The device state changes (R366): both ports show it and notice it. -/
def State.setDev (v : Nat) (s : State) : State :=
  if s.dev = v then s
  else
    let s := (s.sf (Reg.HIF_DEVSTATE 0) F.HIF_DEVSTATE_STATE v).sf (Reg.HIF_DEVSTATE 1) F.HIF_DEVSTATE_STATE v
    (s.notice 0 F.HIF_NOTESTAT_STATE_CHANGE).notice 1 F.HIF_NOTESTAT_STATE_CHANGE

/-- OWNER changes through a command of port `p` (R351, R356). -/
def State.setOwner (p new : Nat) (s : State) : State :=
  let old := s.owner
  if old = new then s
  else
    let s := (s.sf (Reg.HIF_KOWN 0) F.HIF_KOWN_OWNER new).sf (Reg.HIF_KOWN 1) F.HIF_KOWN_OWNER new
    let s := s.raise (portSrc p) 0x73 (new + 4 * old)
    (s.notice 0 F.HIF_NOTESTAT_OWN_CHANGE).notice 1 F.HIF_NOTESTAT_OWN_CHANGE

/-- The LAPSED bit of a port. -/
def lapsedFld (p : Nat) : Fld := if p = 0 then F.HIF_HBSTAT_LAPSED_A else F.HIF_HBSTAT_LAPSED_B

def State.lapsed (s : State) (p : Nat) : Bool := s.bit (Reg.HIF_HBSTAT 0) (lapsedFld p)

def State.setLapsed (p : Nat) (b : Bool) (s : State) : State :=
  (s.sb (Reg.HIF_HBSTAT 0) (lapsedFld p) b).sb (Reg.HIF_HBSTAT 1) (lapsedFld p) b

/-- Cancel the stop of the host-loss policy (R396). -/
def State.cancelLoss (s : State) : State :=
  if s.keep.loss.isSome then (s.mapKeep fun k => { k with loss := none }).raise 1677 0x79 2 else s

/-- A heartbeat of a port (R350). -/
def State.heartbeat (p : Nat) (s : State) : State :=
  let s := (s.mapPort p fun x => { x with hb := some s.tick }).setLapsed p false
  if s.owner = p + 1 then s.cancelLoss else s

/-- HB_WRITE (R350). -/
def State.hbWrite (p : Nat) (v : Word) (s : State) : State := (s.wr (Reg.HIF_HB p) v).heartbeat p

def execHbWrite (p : Fin 2) (v : Word) (s : State) : Res := .next (s.hbWrite p v)

/-- HB_TIMEOUT in milliseconds, 0 acting as 1 (R354). -/
def State.hbTimeout (s : State) : Nat := max 1 (s.fld (Reg.HIF_KHB 0) F.HIF_KHB_TIMEOUT)

/-- AGE of a port: whole milliseconds since its last heartbeat, saturating (R343). -/
def State.hbAge (s : State) (p : Nat) : Nat :=
  match (s.port p).hb with
  | none => 65535
  | some t => min 65535 ((s.tick - t) / 800000)

/-- Bytes of the Keeper's configuration (R377); the defaults where the package gives none. -/
def State.cfgVal (s : State) (o n dflt : Nat) : Nat := if s.keep.cfg.isEmpty then dflt else leAt s.keep.cfg o n

/-- A command entry of the Keeper's own (R396). -/
def ownEntry (op fl b8 : Nat) : Entry :=
  { port := 0, sq := 0, bytes := leBytes 1 op ++ leBytes 3 0 ++ leBytes 4 fl ++ leBytes 1 b8 ++ leBytes 55 0, buf := none }

/-- The Keeper carries out a flight command of its own at the next sample instant of the flight's leader. -/
def State.ownCommand (op fl b8 : Nat) (s : State) : State :=
  match s.slotOf fl with
  | none => s
  | some (n, f) =>
    let w : Wait := { e := ownEntry op fl b8, live := true, silent := true, on := .sample n, st := s.fltState n f }
    s.mapKeep fun k => { k with waits := k.waits ++ [w] }

/-- Bound flights in a state, as flight numbers. -/
def State.flightsIn (s : State) (st : Nat) : List Nat :=
  (List.range 32).filter fun fl => match s.slotOf fl with | some (n, f) => s.fltState n f == st | none => false

/-- The host-loss policy begins (R396): HOLD_FLIGHT for every RUNNING flight in HLP_MASK, and HOST_LOSS with phase 0. -/
def State.lossBegin (s : State) : State :=
  let held := (s.flightsIn 3).filter fun fl => nbit (s.cfgVal 4 4 0xFFFFFFFF) fl
  let s := held.foldl (fun s fl => s.ownCommand 0x35 fl 1) s
  (s.mapKeep fun k => { k with loss := some (held.foldl (fun m fl => m + 2 ^ fl) 0, s.tick) }).raise 1677 0x79 0

/-- HB_LAPSE (R350): no heartbeat within HB_TIMEOUT. -/
def execHbLapse (p : Fin 2) (s : State) : Res :=
  let p := p.val
  match (s.port p).hb with
  | none => .next s
  | some t =>
    if s.lapsed p then .next s
    else
      let s := (s.atTick (t + s.hbTimeout * 800000)).setLapsed p true
      let s := (s.raise (portSrc p) 0x72 (s.hbAge p)).notice (1 - p) F.HIF_NOTESTAT_PEER_LAPSED
      .next (if s.owner = p + 1 && s.fwUp then s.lossBegin else s)

/-- HOST_LOSS_STOP (R396): HOST_LOSS_HOLD has passed. With HOST_LOSS_HOLD = 0 it follows the sample instants of the hold. -/
def execHostLossStop (s : State) : Res :=
  match s.keep.loss with
  | none => .next s
  | some (m, t) =>
    if !s.fwRuns || (s.flightsIn 3).any (fun fl => nbit m fl) then .next s
    else
      let s := s.atTick (t + s.cfgVal 2 2 100 * 800000)
      let s := ((s.flightsIn 4).filter fun fl => nbit m fl).foldl (fun s fl => s.ownCommand 0x34 fl 0) s
      let s := forN 32 (fun k s => s.pwmEnable k false) s
      .next ((s.mapKeep fun k => { k with loss := none }).raise 1677 0x79 1)

/-- Entries of a ring, 2^SIZE_EXP. -/
def ringSize (e : Nat) : Nat := 2 ^ (if 4 ≤ e && e ≤ 12 then e else 4)

def State.sqSize (s : State) (p q : Nat) : Nat := ringSize (s.fld (Reg.HIF_SQCFG p q) F.HIF_SQCFG_SIZE_EXP)

def State.cqSize (s : State) (p q : Nat) : Nat := ringSize (s.fld (Reg.HIF_CQCFG p q) F.HIF_CQCFG_SIZE_EXP)

def State.sqOn (s : State) (p q : Nat) : Bool := s.bit (Reg.HIF_SQCFG p q) F.HIF_SQCFG_EN

def State.cqOn (s : State) (p q : Nat) : Bool := s.bit (Reg.HIF_CQCFG p q) F.HIF_CQCFG_EN

def State.cqHead (s : State) (p q : Nat) : Nat := s.fld (Reg.HIF_CQHDB p q) F.HIF_CQHDB_HEAD

def State.cqTail (s : State) (p q : Nat) : Nat := s.fld (Reg.HIF_CQTAIL p q) F.HIF_CQTAIL_TAIL

/-- The completion ring is full (R346). -/
def State.ringFull (s : State) (p q : Nat) : Bool := (s.cqTail p q + 1) % s.cqSize p q == s.cqHead p q

/-- CQ_FULL: a reply waits for space (R346). -/
def State.cqFull (s : State) (p q : Nat) : Bool :=
  s.cqOn p q && s.ringFull p q && (s.port p).outbox.any fun r => r.cq == q

/-- An error flag of a queue sets: once per transition QUEUE_ERR and the notice (R343, R356). -/
def State.qErr (p q : Nat) (f : Fld) (s : State) : State :=
  if s.bit (Reg.HIF_QSTAT p q) f then s
  else
    let s := s.flag (Reg.HIF_QSTAT p q) f
    let st := s.fld (Reg.HIF_QSTAT p q) ⟨0, 4⟩ + 16 * b2n (s.cqFull p q)
    (s.raise (portSrc p) 0x74 (q + 8 * st)).notice p F.HIF_NOTESTAT_QUEUE_ERR

/-- SQ_DOORBELL (R345). -/
def State.sqDoorbell (p q tail : Nat) (s : State) : State :=
  if s.sqSize p q ≤ tail then s.qErr p q F.HIF_QSTAT_SQ_DB_ERR else s.wr (Reg.HIF_SQTDB p q) (BitVec.ofNat 32 tail)

def execSqDoorbell (p : Fin 2) (q : Fin 8) (tail : Half) (s : State) : Res := .next (s.sqDoorbell p q tail.toNat)

/-- CQ_DOORBELL (R346). -/
def State.cqDoorbell (p q head : Nat) (s : State) : State :=
  if s.cqSize p q ≤ head then s.qErr p q F.HIF_QSTAT_CQ_DB_ERR else s.wr (Reg.HIF_CQHDB p q) (BitVec.ofNat 32 head)

def execCqDoorbell (p : Fin 2) (q : Fin 8) (head : Half) (s : State) : Res := .next (s.cqDoorbell p q head.toNat)

/-- Whether a submission queue has entries to fetch. -/
def State.sqWork (s : State) (p q : Nat) : Bool :=
  s.sqOn p q && s.fld (Reg.HIF_SQHEAD p q) F.HIF_SQHEAD_HEAD != s.fld (Reg.HIF_SQTDB p q) F.HIF_SQTDB_TAIL

/-- The queue that round-robin serves next (R345). -/
def State.nextQueue (s : State) (p : Nat) : Option Nat :=
  ((List.range 8).map fun i => ((s.port p).rr + i) % 8).find? fun q => s.sqWork p q

/-- Exactly 64 bytes. -/
def fit64 (l : List Byte) : List Byte := (l ++ List.replicate 64 0).take 64

/-- ENTRY_FETCH (R345): the next entry reaches the Keeper's inbox, or its fetch fails (`none`). -/
def execEntryFetch (p : Fin 2) (bytes : Option (List Byte)) (s : State) : Res :=
  let p := p.val
  match s.nextQueue p with
  | none => .next s
  | some q =>
    if !s.portOk p || decide (32 ≤ (s.port p).inbox.length) then .next s
    else
      match bytes with
      | none => .next ((s.sf (Reg.HIF_SQCFG p q) F.HIF_SQCFG_EN 0).qErr p q F.HIF_QSTAT_FETCH_ERR)
      | some b =>
        let h := (s.fld (Reg.HIF_SQHEAD p q) F.HIF_SQHEAD_HEAD + 1) % s.sqSize p q
        let s := s.wr (Reg.HIF_SQHEAD p q) (BitVec.ofNat 32 h)
        .next ((s.mapPort p fun x => { x with inbox := x.inbox ++ [(q, fit64 b)], rr := (q + 1) % 8 }).line 20 p)

/-- The 32 bytes of a reply (R359). -/
def Reply.bytes (r : Reply) : List Byte :=
  leBytes 2 r.tag ++ leBytes 1 r.op ++ leBytes 1 r.status ++ leBytes 1 r.state ++ leBytes 1 r.sq ++ leBytes 2 r.resx ++
    leBytes 8 r.ts ++ ((List.range 4).map fun i => leBytes 4 (r.res.getD i 0)).flatten

/-- Write a reply into its completion ring, with the tail write-back and the message (R346). -/
def State.replyOut (p : Nat) (r : Reply) (s : State) : State :=
  let q := r.cq
  let t := s.cqTail p q
  let nt := (t + 1) % s.cqSize p q
  let s := { s with out := .wr p (s.r64 (Reg.HIF_CQBASE_LO p q) + 32 * t) r.bytes :: s.out }
  let s := s.wr (Reg.HIF_CQTAIL p q) (BitVec.ofNat 32 nt)
  let s := { s with out := .wr p (s.r64 (Reg.HIF_CQTWB_LO p q)) (leBytes 4 nt) :: s.out }
  if s.bit (Reg.HIF_CQCFG p q) F.HIF_CQCFG_IRQ_EN then s.msiSend p (s.fld (Reg.HIF_CQCFG p q) F.HIF_CQCFG_VEC) else s

/-- The oldest reply of a port whose completion ring has room; replies of a full or disabled ring wait (R346). -/
def State.nextReply (s : State) (p : Nat) : Option Reply :=
  (s.port p).outbox.find? fun r => s.cqOn p r.cq && !s.ringFull p r.cq

/-- REPLY_WRITE (R346). -/
def State.replyWrite (p : Nat) (s : State) : State :=
  match s.nextReply p with
  | none => s
  | some r =>
    if s.portOk p then ((s.mapPort p fun x => { x with outbox := x.outbox.erase r }).outFree p).replyOut p r else s

def execReplyWrite (p : Fin 2) (s : State) : Res := .next (s.replyWrite p)

/-- KINPOP (R354): the oldest inbox entry is removed. -/
def State.kinPop (p : Nat) (s : State) : State := s.mapPort p fun x => { x with inbox := x.inbox.drop 1 }

def execKinpop (p : Fin 2) (s : State) : Res := .next (s.kinPop p)

/-- The reply in HIF_KOUTSLOT, for a completion queue (R354, R359). -/
def State.outSlot (s : State) (p cq : Nat) : Reply :=
  let b := ((List.range 8).map fun i => leBytes 4 (s.rn (Reg.HIF_KOUTSLOT p i))).flatten
  { cq := cq, tag := leAt b 0 2, op := leAt b 2 1, status := leAt b 3 1, state := leAt b 4 1, sq := leAt b 5 1,
    resx := leAt b 6 2, ts := leAt b 8 8, res := (List.range 4).map fun i => leAt b (16 + 4 * i) 4 }

/-- KOUTPUSH (R354): the reply is queued, or a full outbox refuses it. -/
def State.koutPush (p cq : Nat) (s : State) : State :=
  if 32 ≤ (s.port p).outbox.length then s.flag (Reg.HIF_KOUTSTAT p) F.HIF_KOUTSTAT_PUSH_REFUSED
  else s.pushReply p (s.outSlot p cq)

def execKoutpush (p : Fin 2) (cq : Fin 8) (s : State) : Res := .next (s.koutPush p cq)

/-- A discarded BAR0 or BAR2 write sets BAD_ACCESS (R343, R347). -/
def State.badAccess (p : Nat) (s : State) : State := s.flag (Reg.HIF_STAT p) F.HIF_STAT_BAD_ACCESS

/-- BAR2_WRITE (R347). -/
def execBar2Write (p : Fin 2) (s : State) : Res := .next (s.badAccess p)

/-- BAR0_BAD_ACCESS (R343): a malformed read only completes with Unsupported Request; a malformed write also sets BAD_ACCESS. -/
def execBar0BadAccess (p : Fin 2) (write : Bool) (s : State) : Res := .next (if write then s.badAccess p else s)

/-- BAR0 registers that a port's reset keeps: identity, device state, firmware version, ownership and heartbeat (R353). -/
def keptBar0 (o : Nat) : Bool := decide (o < 0x14) || o == 0x100 || o == 0x108 || o == 0x10C

/-- Replies of a port are discarded and counted (R353). -/
def State.discardOut (p : Nat) (s : State) : State :=
  let n := (s.port p).outbox.length
  let c := s.rn (Reg.HIF_KDISC p) + n
  let s := s.wr (Reg.HIF_KDISC p) (BitVec.ofNat 32 (min c 0xFFFFFFFF))
  (s.mapPort p fun x => { x with outbox := [] }).outFree p

/-- A port's interface logic is reset (R353): commands of the port that are taken lose their bulk buffers and their replies. -/
def State.portReset (p : Nat) (linkDown : Bool) (s : State) : State :=
  let lo := 0x100000000 + 0x10000 * p
  let s := { s with regs := s.regs.filter fun e => decide (e.1 < lo) || decide (lo + 0x10000 ≤ e.1) || keptBar0 (e.1 - lo) }
  let s := s.discardOut p
  let s := s.mapPort p fun x =>
    { x with up := x.up && !linkDown, d3 := false, bme := false, fmask := false, msix := [], pba := 0, inbox := [], rr := 0,
             streams := [] }
  s.mapKeep fun k => { k with waits := (k.waits.filter fun w => w.on != .keeper || w.e.port.val != p).map fun w =>
    if w.e.port.val = p && !w.silent then { w with live := false, e := { w.e with buf := none } } else w }

/-- PORT_RESET (R353): 0 PERST, 1 hot reset or link down, 2 FLR, 3 D3hot exit (R356). -/
def execPortReset (p : Fin 2) (kind : Fin 4) (s : State) : Res :=
  .next ((s.portReset p (decide (kind.val < 2))).raise (portSrc p) 0x70 kind)

/-- D3HOT_ENTRY (R353). -/
def execD3hotEntry (p : Fin 2) (s : State) : Res :=
  .next ((s.discardOut p).mapPort p fun x => { x with d3 := true })

/-- LINK_UP (R356): the link comes up, and the host sets Bus Master Enable; messages that were pending for want of it go out
(R349). -/
def execLinkUp (p : Fin 2) (rate width : Fin 8) (bme : Bool) (s : State) : Res :=
  if s.pwr.inReset then .next s
  else
    let s := { s with pwr := { s.pwr with train := s.pwr.train.filter (· != p.val) } }
    let s := (s.mapPort p fun x => { x with up := true, bme := bme }).raise (portSrc p) 0x71 (rate + 16 * width)
    .next (forN 64 (fun v s => s.msiFlush p v) s)

/-- A queue's configuration write is refused (R344). -/
def State.qCfgErr (p q : Nat) (s : State) : State := s.qErr p q F.HIF_QSTAT_CFG_ERR

/-- Whether SIZE_EXP of a configuration word is in 4–12. -/
def sizeOk (v : Word) : Bool := decide (4 ≤ fget v ⟨4, 4⟩) && decide (fget v ⟨4, 4⟩ ≤ 12)

/-- A write of a queue register (R344). -/
def State.queueWrite (p q o : Nat) (v : Word) (s : State) : State :=
  let sq := s.sqOn p q
  let cq := s.cqOn p q
  let en := v.getLsbD 0
  match o with
  | 0x00 => if sq then s.qCfgErr p q else s.wr (Reg.HIF_SQBASE_LO p q) (v &&& 0xFFFFF000)
  | 0x04 => if sq then s.qCfgErr p q else s.wr (Reg.HIF_SQBASE_HI p q) v
  | 0x08 =>
    let v := v &&& 0x7F1
    if !en then s.wr (Reg.HIF_SQCFG p q) v
    else if sq || !s.cqOn p (fget v F.HIF_SQCFG_CQ) || !sizeOk v then s.qCfgErr p q
    else ((s.wr (Reg.HIF_SQCFG p q) v).wr (Reg.HIF_SQHEAD p q) 0).wr (Reg.HIF_SQTDB p q) 0
  | 0x10 => if cq then s.qCfgErr p q else s.wr (Reg.HIF_CQBASE_LO p q) (v &&& 0xFFFFF000)
  | 0x14 => if cq then s.qCfgErr p q else s.wr (Reg.HIF_CQBASE_HI p q) v
  | 0x18 =>
    let v := v &&& 0x3FF3
    if !en then
      if cq && (List.range 8).any (fun k => s.sqOn p k && s.fld (Reg.HIF_SQCFG p k) F.HIF_SQCFG_CQ == q) then s.qCfgErr p q
      else s.wr (Reg.HIF_CQCFG p q) v
    else if cq || !sizeOk v then s.qCfgErr p q
    else ((s.wr (Reg.HIF_CQCFG p q) v).wr (Reg.HIF_CQHDB p q) 0).wr (Reg.HIF_CQTAIL p q) 0
  | 0x20 => if cq then s.qCfgErr p q else s.wr (Reg.HIF_CQTWB_LO p q) (v &&& 0xFFFFFFFC)
  | 0x24 => if cq then s.qCfgErr p q else s.wr (Reg.HIF_CQTWB_HI p q) v
  | 0x28 => s.wr (Reg.HIF_QSTAT p q) (s.rg (Reg.HIF_QSTAT p q) &&& ~~~(v &&& 0xF))
  | _ => s

/-- A write of a BAR0 register (R343); an offset that no register occupies ignores it. -/
def State.bar0Write (p o : Nat) (v : Word) (s : State) : State :=
  if o = 0x14 then s.wr (Reg.HIF_STAT p) (s.rg (Reg.HIF_STAT p) &&& ~~~(v &&& 1))
  else if o = 0x104 then s.hbWrite p v
  else if o = 0x110 then s.wr (Reg.HIF_NOTE p) (v &&& 0x7F)
  else if o = 0x114 then s.wr (Reg.HIF_NOTESTAT p) (s.rg (Reg.HIF_NOTESTAT p) &&& ~~~(v &&& 0xF))
  else if 0x1000 ≤ o && o < 0x1040 && o % 8 == 0 then s.sqDoorbell p ((o - 0x1000) / 8) (v.toNat % 65536)
  else if 0x2000 ≤ o && o < 0x2040 && o % 8 == 0 then s.cqDoorbell p ((o - 0x2000) / 8) (v.toNat % 65536)
  else if 0x3000 ≤ o && o < 0x3200 then s.queueWrite p ((o - 0x3000) / 0x40) ((o - 0x3000) % 0x40) v
  else if 0x8000 ≤ o && o < 0x8400 && o % 4 == 0 then
    let i := (o - 0x8000) / 4
    let s := s.mapPort p fun x => { x with msix := tput x.msix i (if i % 4 = 3 then v &&& 1 else v) }
    s.msiFlush p (i / 4)
  else s

/-- Entry into SAFE_HALT through source `src`, with the cause that GET_STATE reports (R169, R364, R366): the source acts and source
168 with it (R167), SAFE_n goes low, and the commands that the Keeper has taken end with INTERNAL_FAULT. -/
def State.safeHalt (src cause : Nat) (s : State) : State :=
  let s := (s.setInternal src true).setInternal 168 true
  if s.dev = 4 then s
  else
    let ws := s.keep.waits.filter fun w => !w.silent && w.on != .keeper
    let s := (s.setDev 4).mapKeep fun k => { k with cause := cause, waits := [], loss := none }
    let s := (s.sf Reg.GLV_SAFE F.GLV_SAFE_RELEASE 0).driveSafe true
    ws.foldl (fun s w => s.replyTo w.e w.live true stFault 0 [0]) s

end Sys2Proof.Machine
end

