-- ==== Sys2Proof/Machine/Capability.lean ====
section
/-! DEFINITION. Capabilities (spec/15_capabilities_faults.md): format, bounds, derivation, the order of checks, and the address
map that a pair sees (spec/24_address_map.md). -/

namespace Sys2Proof.Machine

/-- Exponent, base mantissa, top mantissa, otype, permissions and address of a capability (R261). -/
def Cap.e (c : Cap) : Nat := nbits c.w.toNat 60 4

def Cap.b (c : Cap) : Nat := nbits c.w.toNat 52 8

def Cap.t (c : Cap) : Nat := nbits c.w.toNat 45 7

def Cap.otype (c : Cap) : Nat := nbits c.w.toNat 42 3

def Cap.perms (c : Cap) : Nat := nbits c.w.toNat 32 10

def Cap.addr (c : Cap) : Nat := c.w.toNat % 2 ^ 32

/-- A capability word from its fields; with E = 15 the mantissas are 0 (R261). -/
def capWord (e b t otype perms addr : Nat) : DWord :=
  BitVec.ofNat 64 (addr % 2 ^ 32 + 2 ^ 32 * (perms % 1024) + 2 ^ 42 * (otype % 8) +
    (if e = 15 then 0 else 2 ^ 45 * (t % 128) + 2 ^ 52 * (b % 256)) + 2 ^ 60 * (e % 16))

/-- The permissions of R261, as masks of TREAD k = 3. -/
def pLoad : Nat := 1

def pStore : Nat := 2

def pExec : Nat := 4

def pLoadCap : Nat := 8

def pStoreCap : Nat := 16

def pSeal : Nat := 32

def pUnseal : Nat := 64

def pGlobal : Nat := 128

def pSysreg : Nat := 256

def pDevice : Nat := 512

/-- Whether a capability carries every permission of a mask. -/
def Cap.has (c : Cap) (m : Nat) : Bool := c.perms &&& m == m

/-- The bounds [base, top) of R262. -/
def Cap.bounds (c : Cap) : Nat × Nat :=
  if c.e = 15 then (0, 2 ^ 32)
  else
    let g := 2 ^ (2 * c.e)
    let hi := c.b / 128
    let tm := if c.b % 128 ≤ c.t then 128 * hi + c.t else 128 * (1 - hi) + c.t
    let l := (tm + 256 - c.b) % 256
    let ar := (c.addr / g + 256 + 64 - c.b) % 256
    let base := enc 32 ((g * (c.addr / g) : Int) - g * ((ar : Int) - 64))
    (base, base + g * l)

def Cap.base (c : Cap) : Nat := c.bounds.1

def Cap.top (c : Cap) : Nat := c.bounds.2

/-- A byte address lies within the bounds (R262). -/
def Cap.covers (c : Cap) (x : Nat) : Bool := decide (c.base ≤ x) && decide (x < c.top)

/-- Whether an address is representable (R262). -/
def Cap.repr (c : Cap) (a : Nat) : Bool :=
  c.e == 15 || decide (enc 32 ((a : Int) - c.base + 64 * 2 ^ (2 * c.e)) < 256 * 2 ^ (2 * c.e))

/-- The capability with another address; outside the representable range its tag clears (R224). -/
def Cap.point (c : Cap) (a : Nat) : Cap :=
  let a := a % 2 ^ 32
  { w := capWord c.e c.b c.t c.otype c.perms a, tag := c.tag && c.repr a }

/-- The capability with other permissions, and with another otype. -/
def Cap.withPerms (c : Cap) (m : Nat) : Cap := { c with w := capWord c.e c.b c.t c.otype m c.addr }

def Cap.withType (c : Cap) (t : Nat) : Cap := { c with w := capWord c.e c.b c.t t c.perms c.addr }

/-- The exponent of R263 for requested base and length. -/
def narrowExp (b n : Nat) : Nat :=
  ((List.range 15).find? fun e =>
    let g := 2 ^ (2 * e)
    decide ((b + n + g - 1) / g - b / g ≤ 127)).getD 14

/-- Bounds that R263 gives for requested base and length. -/
def narrowBounds (b n : Nat) : Nat × Nat :=
  let g := 2 ^ (2 * narrowExp b n)
  (g * (b / g), g * ((b + n + g - 1) / g))

/-- The narrowed capability of R263: its address stays. -/
def Cap.narrow (c : Cap) (n : Nat) : Cap :=
  let e := narrowExp c.addr n
  let g := 2 ^ (2 * e)
  { c with w := capWord e (c.addr / g) ((c.addr + n + g - 1) / g) c.otype c.perms c.addr }

/-- A capability over a range of memory. -/
def capOver (b n perms addr : Nat) : Cap :=
  ({ w := capWord 15 0 0 0 perms b, tag := true } : Cap).narrow n |>.point addr

/-- The root of R271. -/
def capRoot : Cap where
  w := capWord 15 0 0 0 1023 0
  tag := true

/-- The register image at pair reset and first release (R271); `entry` is the address in pcc. Registers g1–g31 and f0–f31 have
no reset value in the spec (log entry 3). -/
def resetImg (p entry tick : Nat) : CoreImg :=
  let lsc := pLoad + pStore + pLoadCap + pStoreCap
  { CoreImg.init with
    pcc := capOver 0 0x40000 (pLoad + pExec + pSysreg) entry
    c := [(3, capOver 0x10000000 0x40000 lsc 0x10000000)] ++ (if p = 20 then [(4, capRoot)] else [])
    cfs := capOver 0x1FFFFC00 0x400 lsc 0x20000000
    cycBase := tick }

/-- What stands at an internal address for an agent (R429). -/
inductive Region where
  | mem (key : Nat)
  | dev
  | host
  | none
deriving DecidableEq, Repr

/-- Whether an address of the device range lies in a block's extent (R431). -/
def devWindow (a : Nat) : Bool :=
  if a < 0x61000000 then decide (0x60000000 ≤ a) && decide (a % 0x100000 < 0x20100)
  else (decide (0x70000000 ≤ a) && decide (a < 0x70080000)) || (decide (0x78000000 ≤ a) && decide (a < 0x78040000)) ||
    (decide (0x78100000 ≤ a) && decide (a < 0x78B00000))

/-- The device range of R266. -/
def inDevice (a : Nat) : Bool := decide (0x60000000 ≤ a) && decide (a < 0x80000000)

/-- The address map as pair `p` sees it (R429). -/
def region (p a : Nat) : Region :=
  if a < 0x40000 then .mem (itcm p a)
  else if 0x10000000 ≤ a ∧ a < 0x10040000 then .mem (dtcm p (a - 0x10000000))
  else if 0x1FFFFC00 ≤ a ∧ a < 0x20000000 then .mem (faultRam p (a - 0x1FFFFC00))
  else if 0x20000000 ≤ a ∧ a < 0x20200000 then if p < 16 then .mem (scratch p (a - 0x20000000)) else .none
  else if inSharedMem a then .mem a
  else if inDevice a then if devWindow a then .dev else .none
  else if 0x80000000 ≤ a ∧ a < 0xC0000000 then .host
  else .none

/-- Whether a memory key lies in a pair's private memories (R268). -/
def privKey (k : Nat) : Bool := decide (0x200000000 ≤ k)

/-- What an access asks for: permissions, alignment (1: none), and whether it is an atomic or capability transfer, a plain LW
or SW, or an atomic (R264–R266). -/
structure Acc where
  need : Nat
  align : Nat
  special : Bool
  word : Bool
  atomic : Bool
deriving DecidableEq, Repr

/-- The checks of R264, steps 1 to 6, on `n` bytes at address `a`: the cause and EADDR of the first that fails. -/
def capCheck (p : Nat) (c : Cap) (x : Acc) (a n : Nat) : Option (Nat × Nat) :=
  if !c.tag then some (3, a)
  else if c.otype ≠ 0 then some (4, a)
  else if !c.has x.need || c.has pDevice != inDevice a || (x.atomic && c.has pDevice) then some (6, a)
  else if a % x.align ≠ 0 then some (7, a)
  else
    match (List.range n).find? fun i => !c.covers ((a + i) % 2 ^ 32) with
    | some i => some (5, (a + i) % 2 ^ 32)
    | none =>
      match (List.range n).find? fun i =>
        match region p ((a + i) % 2 ^ 32) with
        | .mem _ => false
        | .dev => !(x.word && n == 4 && a % 4 == 0)
        | .host => x.special
        | .none => true with
      | some i => some (9, (a + i) % 2 ^ 32)
      | none => none

/-- The parts of an access of size `n` at `a` (R240): two where the address is not a multiple of the size. -/
def accParts (a n : Nat) : List (Nat × Nat) :=
  let r := a % n
  if n = 1 ∨ r = 0 then [(a, n)] else [(a, n - r), ((a + n - r) % 2 ^ 32, r)]

/-- The checks of R264 and R240 on an access that hardware may split. Where R240 names the faulting part's address and R264 the first
byte that failed, or the access address for steps 1 to 3, EADDR is the latter (DESIGN CHOICE, log entry 88). An unaligned access
through a DEVICE capability raises BUS. -/
def accCheck (p : Nat) (c : Cap) (x : Acc) (a n : Nat) : Option (Nat × Nat) :=
  match accParts a n with
  | [u, v] =>
    match capCheck p c { x with word := false } u.1 u.2 with
    | some f => some f
    | none => (capCheck p c { x with word := false } v.1 v.2).map fun f => (f.1, if f.1 = 5 ∨ f.1 = 9 then f.2 else a)
  | _ => capCheck p c x a n

end Sys2Proof.Machine
end

