-- ==== Sys2Proof/Machine/Glove.lean ====
section
/-! DEFINITION. Glove pairs (spec/11_glove_pairs.md): the store buffer, checkpoints, mismatches and restarts, failure, cuff tests,
debug halts, release, recall, pair resets and watchdogs (R397, R384, R385, R280). -/

namespace Sys2Proof.Machine

/-- Pair `p`. -/
def State.core (s : State) (p : Nat) : CoreSt := tget CoreSt.init s.cores p

/-- Change a pair. -/
def State.mapCore (p : Nat) (f : CoreSt → CoreSt) (s : State) : State := { s with cores := tput s.cores p (f (s.core p)) }

/-- Change the register image of a pair. -/
def State.mapImg (p : Nat) (f : CoreImg → CoreImg) (s : State) : State := s.mapCore p fun x => { x with img := f x.img }

/-- Event source of a pair (R212). -/
def glvSrc (p : Nat) : Nat := if p < 16 then 1024 + 24 * p + 2 else if p < 20 then 1665 + (p - 16) else 1669

/-- GLV_STAT.STATE: 0 RUN, 1 RESTART, 2 FAILED, 3 HALTED. -/
def State.glvState (s : State) (p : Nat) : Nat := s.fld (Reg.GLV_STAT p) F.GLV_STAT_STATE

def State.setGlv (p st : Nat) (s : State) : State := s.sf (Reg.GLV_STAT p) F.GLV_STAT_STATE st

/-- Whether a pair has been released and not recalled since, and no pair reset runs. -/
def State.started (s : State) (p : Nat) : Bool := s.rel.contains p && (s.core p).reset.isNone

/-- A pair takes a checkpoint (R200): it stalls for 4 cycles. -/
def State.checkpoint (p : Nat) (s : State) : State :=
  s.mapCore p fun x =>
    { x with ck := x.img, ckTick := s.tick, undo := [], since := 0, sb := x.sb.map fun e => { e with old := true },
             free := max x.free s.tick + 4 }

/-- Whether a granule lies in an ITCM or DTCM. -/
def tcmGran (g : Nat) : Bool := decide (0x200000000 ≤ 8 * g) && decide ((8 * g - 0x200000000) % 0x100000 < 0x80000)

/-- Write the masked bytes of a granule and its tag for pair `p`, whose own reservation stays (R222). -/
def State.putGran (p g mask : Nat) (b : List Byte) (tag : Bool) (s : State) : State :=
  let mine := s.resv.find? fun e => e.1 == p
  let s := forN 8 (fun i s => if nbit mask i then s.wrByte (8 * g + i) (b.getD i 0) else s) s
  let s := s.setTag g tag
  match mine with
  | some e => { s with resv := tput s.resv e.1 e.2 }
  | none => s

/-- A store reaches its memory (R200): to ITCM or DTCM it writes the undo log. What a replay writes back is the granule before the
store; after it where the checkpoint already holds the store, which a restart must keep (DEDUCED from R202, log entry 86). -/
def State.putStore (p : Nat) (e : SbEnt) (s : State) : State :=
  if tcmGran e.g then
    let t := s.putGran p e.g e.mask e.bytes e.tag
    let k := if e.old then t else s
    t.mapCore p fun x => { x with undo := { g := e.g, mask := e.mask, bytes := k.rdBytes (8 * e.g) 8, tag := k.tagOf e.g } :: x.undo }
  else s.putGran p e.g e.mask e.bytes e.tag

/-- Whether a store that has reached its memory closes the checkpoint (R200, R240): to TCM when the undo log is full, elsewhere
unless it is the first part of a split store. A pair that restarts takes none. -/
def State.closes (s : State) (p : Nat) (e : SbEnt) : Bool :=
  s.glvState p != 1 && (if tcmGran e.g then decide (96 ≤ (s.core p).undo.length) else !e.half)

/-- The oldest store-buffer entry drains (R238). -/
def State.drainOne (p : Nat) (s : State) : State :=
  match (s.core p).sb with
  | [] => s
  | e :: r =>
    let s := (s.mapCore p fun x => { x with sb := r }).putStore p e
    if s.closes p e then s.checkpoint p else s

/-- Every entry drains. -/
def State.drainAll (p : Nat) (s : State) : State := Nat.repeat (State.drainOne p) (s.core p).sb.length s

/-- A store takes an entry of the store buffer; a full buffer drains one first. It enters at M, is released after the hold of 2
cycles, and drains no sooner than a tick after the entry before it (R199, R238). -/
def State.sbPush (p : Nat) (e : SbEnt) (s : State) : State :=
  let s := if 4 ≤ (s.core p).sb.length then s.drainOne p else s
  s.mapCore p fun x =>
    let last := match x.sb.getLast? with
      | some y => y.due + 1
      | none => 0
    { x with sb := x.sb ++ [{ e with due := max (s.tick + 3) last }] }

/-- STORE_DRAIN (R238): the oldest entry of a pair's store buffer drains, once it is released. -/
def State.storeDrain (p : Nat) (s : State) : State :=
  match (s.core p).sb with
  | [] => s
  | e :: _ => (s.atTick e.due).drainOne p

/-- A pair stops for good (R205): STATE and FAIL_CAUSE show it, and PAIR_FAILED is raised. -/
def State.pairStop (p cause path : Nat) (s : State) : State :=
  let s := (s.setGlv p 2).sf (Reg.GLV_STAT p) F.GLV_STAT_FAIL_CAUSE cause
  let s := s.mapCore p fun x => { x with restart := none, reset := none, forced := false, sb := [] }
  { s with resv := tdel s.resv p }.raise (glvSrc p) 0x4A (cause + 4 * path)

/-- A pair is declared failed (R205, R207). -/
def State.pairFail (p cause path : Nat) (s : State) : State :=
  let s := s.pairStop p cause path
  if p < 16 then s.setCause p 6 true
  else if p < 20 then s.setInternal (163 + (p - 16)) true
  else s.safeHalt 162 162

/-- The mismatches of a pair within the last second, the present tick included (R205). -/
def State.recent (s : State) (p : Nat) : Nat := ((s.core p).mism.filter fun t => decide (s.tick ≤ t + 800000000)).length

/-- A mismatch of a running pair on a path group (R201, R205): the restart begins, or the third within a second fails the
pair. -/
def State.mismatch (p path : Nat) (s : State) : State :=
  if s.glvState p ≠ 0 then s
  else
    let s := s.mapCore p fun x => { x with mism := (s.tick :: x.mism).filter fun t => decide (s.tick ≤ t + 800000000) }
    let n := min 3 (s.recent p)
    let s := (s.flag (Reg.GLV_STAT p) F.GLV_STAT_MISMATCH).w64 (Reg.GLV_MTS_LO p) s.ts
    let s := ((s.incSat (Reg.GLV_MISM p) F.GLV_MISM_TOTAL).sf (Reg.GLV_MISM p) F.GLV_MISM_PATH path).sf (Reg.GLV_MISM p)
      F.GLV_MISM_RECENT n
    let s := s.raise (glvSrc p) 0x48 (path + 64 * n + 65536 * (s.ts % 65536))
    if 3 ≤ n then s.pairFail p 1 path
    else
      let s := (s.setGlv p 1).mapCore p fun x => { x with restart := some s.tick, sb := x.sb.filter (·.old) }
      { s with resv := tdel s.resv p }

/-- MISMATCH (R201). -/
def execMismatch (p : Fin 21) (path : Fin 48) (s : State) : Res := .next (s.mismatch p path)

/-- A pair reset begins (R280): stores already made stay made; within 64 ticks the pair resumes. A pair reset restarts the pair's
watchdog (log entry 28). KP enters SAFE_HALT instead and stays HALTED. -/
def State.pairReset (p cause : Nat) (s : State) : State :=
  let s := (s.drainAll p).setGlv p 3
  let s := { s with resv := tdel s.resv p }
  let s := s.mapCore p fun x => { x with restart := none, forced := false, undo := [], wdPend := false, inLong := false, inWfi := false }
  if p = 20 then { s with rel := s.rel.filter (· != 20) }.safeHalt 168 168
  else
    (s.mapCore p fun x => { x with reset := some s.tick }).raise (glvSrc p) 0x4D (cause + 65536 * (s.ts % 65536))

/-- The pair starts at a register image: it is its first checkpoint. A debug halt that stands keeps it halted. -/
def State.startAtImg (p : Nat) (i : CoreImg) (s : State) : State :=
  let s := s.mapCore p fun x =>
    { x with img := i, ck := i, ckTick := s.tick, undo := [], since := 0, sb := [], free := s.tick, reset := none, restart := none,
             forced := false, kick := s.tick, kickSeq := false, wdPend := false, step := false, inLong := false,
             inWfi := false }
  let s := s.sf (Reg.GLV_WDKICK p) F.GLV_WDKICK_STAGE1 0
  s.setGlv p (if (s.core p).halt then 3 else 0)

/-- PAIR_RESET_DONE (R280): the pair resumes at the state of R271, within 64 ticks. -/
def execPairResetDone (p : Fin 21) (s : State) : Res :=
  let p := p.val
  match (s.core p).reset with
  | none => .next s
  | some t =>
    let s := (s.atTick (t + s.freeWord.toNat % 65)).nextFree
    .next (s.startAtImg p (resetImg p 0 s.tick))

/-- Whether the checkpoint store of a pair reads with an uncorrectable error: the key of its first such byte (R305). -/
def State.ckptBad (s : State) (p : Nat) : Option Nat :=
  (s.ecc.find? fun e => decide (ckptByte p 0 ≤ e.1) && decide (e.1 < ckptByte p 0x800) && decide (2 ≤ e.2)).map (·.1)

/-- RESTART_DONE (R201, R202): the undo log is replayed, newest entry first, the register image is restored, and the leader
executes at the checkpoint's pcc 304 to 320 ticks after the mismatch. An uncorrectable checkpoint store makes it a pair reset
(R305). A mismatch forced meanwhile follows (R211). -/
def State.restartDone (p t : Nat) (s : State) : State :=
  match s.ckptBad p with
  | some k => (s.noteUe (0x04 + 256 * p) ((midOf k).2 / 8 * 8) (k % 8)).pairReset p 8
  | none =>
    let last := 304 + s.freeWord.toNat % 17
    let s := (s.atTick (t + last)).nextFree
    let x := s.core p
    let s := x.undo.foldl (fun s u => s.putGran p u.g u.mask u.bytes u.tag) s
    let img := { x.ck with cycBase := s.tick - (x.ckTick - x.ck.cycBase) }
    let s := s.mapCore p fun x => { x with img := img, ck := img, ckTick := s.tick, undo := [], since := 0, free := s.tick,
                                           restart := none, forced := false, inLong := false, inWfi := false }
    let s := s.setGlv p (if x.halt then 3 else 0)
    let s := (s.sf (Reg.GLV_RST p) F.GLV_RST_LAST last).incSat (Reg.GLV_RST p) F.GLV_RST_RESTARTS
    let s := s.raise (glvSrc p) 0x49 last
    if x.forced then (s.atTick (s.tick + 1)).mismatch p 47 else s

/-- CUFF_FAULT (R206): the two checker halves disagree. The path group of the record is not stated (log entry 29). -/
def execCuffFault (p : Fin 21) (s : State) : Res :=
  let p := p.val
  if s.glvState p = 2 then .next s
  else
    let k := s.freeWord.toNat % 48
    .next ((s.nextFree.flag (Reg.GLV_STAT p) F.GLV_STAT_CUFF_FAULT).pairFail p 2 k)

/-- CUFF_TEST (R209): every 10 ms every pair's checker tests the next 6 path groups; `bad` names the pairs whose checker failed
and the failing group of the six. -/
def execCuffTest (bad : List (Fin 21 × Fin 6)) (s : State) : Res :=
  let s := s.atTick ((s.tick / 8000000 + 1) * 8000000)
  let n := s.fld Reg.GLV_BGPOS F.GLV_BGPOS_NEXT
  let r := s.fld Reg.GLV_BGPOS F.GLV_BGPOS_ROUNDS
  let s := s.sf Reg.GLV_BGPOS F.GLV_BGPOS_NEXT ((n + 6) % 48)
  let s := if n + 6 = 48 then s.sf Reg.GLV_BGPOS F.GLV_BGPOS_ROUNDS (r + 1) else s
  .next (bad.foldl (fun s b =>
    if s.glvState b.1 = 2 then s
    else (s.flag (Reg.GLV_STAT b.1) F.GLV_STAT_TEST_FAIL).pairFail b.1 3 ((n + b.2) % 48)) s)

/-- A write of GLV_FORCE.FORCE = 1 (R211). -/
def State.glvForce (p : Nat) (s : State) : State :=
  if s.glvState p = 0 then (s.atTick (s.tick + 1)).mismatch p 47
  else if s.glvState p = 1 then s.mapCore p fun x => { x with forced := true }
  else s

def execGlvForce (p : Fin 21) (s : State) : Res := .next (s.glvForce p)

/-- DEVMODE (R343). -/
def State.devMode (s : State) : Bool := s.bit (Reg.HIF_DEVSTATE 0) F.HIF_DEVSTATE_DEVMODE

/-- The pair stops for a debug halt that has been asked for (R210). -/
def State.haltNow (p : Nat) (s : State) : State :=
  if (s.core p).halt && s.glvState p == 0 && (s.core p).img.micro.isNone then
    (if p < 16 then s.sb (Reg.GLV_DBG_CTRL p) F.GLV_DBG_CTRL_HALTED true else s).setGlv p 3
  else s

/-- A debug halt of both cores begins or ends (R210, R433), at an instruction boundary: a CX in progress ends first. A long
instruction stands at a boundary between its elements (DEDUCED, log entry 87). While DEVMODE is 1 the halt stops the watchdog's
count (R397). A pair that is failed or restarting ignores it. -/
def State.debugHalt (p : Nat) (on : Bool) (s : State) : State :=
  if s.glvState p = 1 || s.glvState p = 2 then s
  else
    let s := if p < 16 then
        (s.sb (Reg.GLV_DBG_CTRL p) F.GLV_DBG_CTRL_HALT on).sb (Reg.GLV_DBG_CTRL p) F.GLV_DBG_CTRL_HALTED
          (on && (s.glvState p == 3 || (s.core p).img.micro.isNone))
      else s
    let x := s.core p
    let kick := match x.haltAt with
      | some t => if !on && s.devMode then x.kick + (s.tick - t) else x.kick
      | none => x.kick
    let at_ := if on then x.haltAt.or (some s.tick) else none
    let s := s.mapCore p fun x => { x with halt := on, step := false, kick := kick, haltAt := at_ }
    if on then s.haltNow p else if s.started p then s.setGlv p 0 else s

/-- DBG_HALT (R433): a write of GLV_DBG_CTRL.HALT. -/
def execDbgHalt (n : Fin 16) (on : Bool) (s : State) : Res := .next (s.debugHalt n on)

/-- A write of GLV_DBG_CTRL.STEP = 1 (R433): one instruction executes while halted. -/
def State.dbgStep (p : Nat) (s : State) : State :=
  if s.glvState p = 3 && (s.core p).halt && s.started p then s.mapCore p fun x => { x with step := true } else s

def execDbgStep (n : Fin 16) (s : State) : Res := .next (s.dbgStep n)

/-- Load port `m` of the control stores. -/
def State.mcsPort (s : State) (m : Nat) : McsSt := tget McsSt.init s.mcs m

/-- Whether a load into a store of pair `p` is open (R285). -/
def State.loadOpen (s : State) (p : Nat) : Bool := s.bit (Reg.MCS_STAT 16) F.MCS_STAT_OPENED && (s.mcsPort 16).pair == p

/-- Whether a pair may be released (R384): it passed its start-up tests and has not failed. -/
def State.mayRelease (s : State) (p : Nat) : Bool :=
  decide (p < 20) && !s.rel.contains p && nbit (s.fld Reg.GLV_BIST F.GLV_BIST_START_PASS) p && nbit (s.rn Reg.MEM_BIST_PAIR) p &&
    s.glvState p != 2

/-- A pair starts at pcc 0 with the capabilities of R271. -/
def State.releaseNow (p : Nat) (s : State) : State :=
  let s := { s with rel := if s.rel.contains p then s.rel else p :: s.rel }
  let s := (s.mapBit Reg.GLV_RECALL p false).mapBit Reg.GLV_RELEASE p false
  s.startAtImg p (resetImg p 0 s.tick)

/-- A write of GLV_RELEASE (R384): a pair whose store is being loaded is released when the load has ended (R285). -/
def State.release (m : Nat) (s : State) : State :=
  forN 20 (fun p s =>
    if nbit m p && s.mayRelease p then (if s.loadOpen p then s.mapBit Reg.GLV_RELEASE p true else s.releaseNow p) else s) s

def execRelease (v : Word) (s : State) : Res := .next (s.release v.toNat)

/-- The load at port `m` has ended: a release that waited for it takes place (R285). -/
def State.releasePending (m : Nat) (s : State) : State :=
  let p := (s.mcsPort 16).pair
  if m = 16 && nbit (s.rn Reg.GLV_RELEASE) p && s.mayRelease p then s.releaseNow p else s

/-- A write of GLV_RECALL (R385): both cores stop without rollback; released stores have drained. -/
def State.recall (m : Nat) (s : State) : State :=
  forN 20 (fun p s =>
    if nbit m p && s.rel.contains p && s.glvState p != 2 then
      let s := (s.drainAll p).setGlv p 3
      let s := { s with rel := s.rel.filter (· != p), resv := tdel s.resv p }
      let s := s.mapCore p fun x => { x with restart := none, reset := none, forced := false, undo := [], sb := [], wdPend := false }
      s.mapBit Reg.GLV_RECALL p true
    else s) s

def execRecall (v : Word) (s : State) : Res := .next (s.recall v.toNat)

/-- A write of GLV_WDKICK.KICK (R397). -/
def State.wdKick (p v : Nat) (s : State) : State :=
  let x := s.core p
  if v = 0xA5 && x.kickSeq then
    (s.mapCore p fun x => { x with kick := s.tick, kickSeq := false }).sf (Reg.GLV_WDKICK p) F.GLV_WDKICK_STAGE1 0
  else s.mapCore p fun x => { x with kickSeq := v == 0x5A }

def execWdkick (p : Fin 21) (v : Byte) (s : State) : Res := .next (s.wdKick p v.toNat)

/-- PERIOD and GRACE of a watchdog in ticks. -/
def State.wdPeriod (s : State) (p : Nat) : Nat := 8000 * s.fld (Reg.GLV_WDCFG p) F.GLV_WDCFG_PERIOD

def State.wdGrace (s : State) (p : Nat) : Nat := 8000 * s.fld (Reg.GLV_WDCFG p) F.GLV_WDCFG_GRACE

/-- Whether a watchdog counts (R397): KP's runs from START_FW, another pair's while EN is 1 and the pair is released. A debug halt
stops it while DEVMODE is 1. -/
def State.wdRuns (s : State) (p : Nat) : Bool :=
  (if p = 20 then s.keep.started else s.bit (Reg.GLV_WDCFG p) F.GLV_WDCFG_EN && s.rel.contains p) && s.glvState p != 2 &&
    !((s.core p).halt && s.devMode)

/-- WATCHDOG_STAGE2 (R397): the second stage expires. -/
def execWatchdogStage2 (p : Fin 21) (s : State) : Res :=
  let p := p.val
  if s.wdRuns p && s.bit (Reg.GLV_WDKICK p) F.GLV_WDKICK_STAGE1 then
    let s := s.atTick ((s.core p).kick + s.wdPeriod p + s.wdGrace p)
    .next (if p = 20 then s.safeHalt 161 161 else s.pairReset p 14)
  else .next s

/-- The firmware's decision to halt (R398): GLV_HALT.HALT with its cause; source 168 acts, and the firmware raises
FW_SAFE_HALT. -/
def State.fwHalt (cause step : Nat) (s : State) : State :=
  let s := (s.flag Reg.GLV_HALT F.GLV_HALT_HALT).sf Reg.GLV_HALT F.GLV_HALT_CAUSE cause
  (s.safeHalt 168 168).raise 1677 0x7C (cause + 256 * step)

def execFwHalt (cause step : Byte) (s : State) : Res := .next (s.fwHalt cause.toNat step.toNat)

end Sys2Proof.Machine
end

