-- ==== Sys2Proof/Machine/Boot.lean ====
section
/-! DEFINITION. Power-up, device reset, the boot ROM's path and the OTP (spec/22_reset_boot.md), clock holdover, supplies,
temperature and ageing (spec/23_electrical_thermal.md). -/

namespace Sys2Proof.Machine

/-- Change the power and reset state. -/
def State.mapPwr (f : PowerSt → PowerSt) (s : State) : State := { s with pwr := f s.pwr }

/-- A device reset begins (R403, R405): every register at its reset value, every tag 0, every array as never written, BOOT_ROM.
The levels on the input pins, what the OTP holds, the TAP and what has been sent to the hosts stay. The links of the host ports
stay up in the Function Level Reset scope (R353). -/
def State.deviceReset (flr : Bool) (s : State) : State :=
  let ports : Tbl PortSt := (List.range 2).map fun p => (p, { PortSt.init with up := flr && (s.port p).up })
  let cmps := s.cmps.map fun e => (e.1, { CmpSt.init with input := e.2.input, raw := decide (128 ≤ e.1) && e.2.raw })
  let z : State :=
    { State.reset with pending := s.pending, free := s.free, out := s.out, safePinExt := s.safePinExt, ports := ports,
                       cmps := cmps, pwr := { PowerSt.init with inReset := true, fuse := s.pwr.fuse, tapReset := s.pwr.tapReset } }
  let z := s.pwr.fuse.foldl (fun z e => z.wr e.1 e.2) z
  forN 32 (fun k z => z.sf (Reg.EVT_IOCFG k) F.EVT_IOCFG_IN (s.fld (Reg.EVT_IOCFG k) F.EVT_IOCFG_IN)) z

/-- PORST (R402): a low pulse of `len` ticks on PORST_n. Between 800 and 8,000 ticks the outcome is free. -/
def execPorst (len : Nat) (s : State) : Res :=
  if len < 800 then .next s
  else if len < 8000 then
    .next (if s.freeWord.getLsbD 0 then s.nextFree.deviceReset false else s.nextFree)
  else .next (s.deviceReset false)

/-- RAIL_RESET (R401): a rail below its reset threshold for 2 µs acts as PORST_n. -/
def execRailReset (rail : Fin 8) (s : State) : Res :=
  let _ := rail
  .next (s.deviceReset false)

/-- TAP_RESET (R403): TRST_n resets the TAP and nothing else. -/
def execTapReset (s : State) : Res := .next (s.mapPwr fun x => { x with tapReset := true })

/-- RESET_RELEASE (R407): the boot sequence starts at tick 0 with TS 0; the inputs count from here on (R405). -/
def execResetRelease (s : State) : Res :=
  if s.pwr.inReset then
    let s := { s.mapPwr fun x => { x with inReset := false } with tick := 0, ts := 0 }
    let s := forN 128 (fun c s => s.judgeCmp c false) s
    .next (forN 16 (fun p s => if (s.cmp (128 + p)).raw then s.setRaw (128 + p) true else s) s)
  else .next s

/-- Analog group and slice of a slice number of R409. -/
def sliceNo (i : Nat) : Nat × Nat := if i < 80 then (i / 5, i % 5) else (16 + (i - 80) / 9, (i - 80) % 9)

/-- The slices of group `g` that the OTP cannot calibrate are retired, and the free slice serves the first channel that lost
its own (R151, R152, R410). -/
def State.retireOtp (g : Nat) (bad : List Nat) (s : State) : State :=
  let f := chans g
  if bad.isEmpty then s
  else
    let s := bad.foldl (fun s i => s.sf (Reg.ADC_SLCHK g i) F.ADC_SLCHK_ROLE 2) s
    let lost := (List.range f).filter fun c => bad.contains c
    let s := lost.zipIdx.foldl (fun s e =>
      if e.2 = 0 && !bad.contains f then
        (s.sf (Reg.ADC_MAP g e.1) F.ADC_MAP_SLICE f).sf (Reg.ADC_SLCHK g f) F.ADC_SLCHK_ROLE 0
      else s.sf (Reg.ADC_MAP g e.1) F.ADC_MAP_SLICE 15) s
    let s := s.sf (Reg.ADC_CAL_STAT g) F.ADC_CAL_STAT_FREE 15
    let s := (s.flag (Reg.ADC_CAL_STAT g) F.ADC_CAL_STAT_RETIRED).flag (Reg.ADC_STAT g) F.ADC_STAT_CAL_STOP
    (bad.foldl (fun s i => s.raise (adcSrc g 0) 0x26 i) s).raise (adcSrc g 0) 0x27 0

/-- OTP_READ (R409, R410): `bad` are the internal addresses of the words that read with an uncorrectable error, in the order
read. MEM_REPAIR counts the spares in use (R308); a repair entry that cannot be read shows in the self-tests. -/
def execOtpRead (bad : List Nat) (s : State) : Res :=
  if s.pwr.inReset || s.pwr.otpRead then .next s
  else
    let s := s.mapPwr fun x => { x with otpRead := true }
    let s := s.flag Reg.OTP_STAT F.OTP_STAT_READ_DONE
    let used := (List.range 1024).filter fun j => !bad.contains (Reg.OTP_REPAIR j) && s.bit (Reg.OTP_REPAIR j) F.OTP_REPAIR_VALID
    let s := s.wr Reg.MEM_REPAIR (BitVec.ofNat 32 used.length)
    let s := match bad with
      | [] => s.mapKeep fun k => { k with otpOk := true }
      | a :: _ => (s.flag Reg.OTP_STAT F.OTP_STAT_UE).sf Reg.OTP_STAT F.OTP_STAT_UE_WORD ((a - Reg.OTP_STAT) / 4)
    let s := if bad.contains Reg.OTP_STAT then s.flag Reg.OTP_STAT F.OTP_STAT_KEY_FUSED else s
    let fused := s.bit Reg.OTP_STAT F.OTP_STAT_KEY_FUSED
    let s := if fused && (List.range 8).any (fun k => bad.contains (Reg.OTP_KEYHASH k)) then
        s.mapPwr fun x => { x with keyBad := true } else s
    let s := if bad.contains Reg.OTP_IDENT then
        ((s.sf Reg.OTP_IDENT F.OTP_IDENT_SIREV 0).sf (Reg.HIF_IDENT 0) F.HIF_IDENT_SIREV 0).sf (Reg.HIF_IDENT 1) F.HIF_IDENT_SIREV 0
      else s
    let s := if bad.contains Reg.OTP_SERIAL_LO then
        ((s.wr Reg.OTP_SERIAL_LO 0).wr (Reg.HIF_SERIAL_LO 0) 0).wr (Reg.HIF_SERIAL_LO 1) 0 else s
    let s := if bad.contains Reg.OTP_SERIAL_HI then
        ((s.wr Reg.OTP_SERIAL_HI 0).wr (Reg.HIF_SERIAL_HI 0) 0).wr (Reg.HIF_SERIAL_HI 1) 0 else s
    let lost := (List.range 116).filter fun i => bad.contains (Reg.OTP_CAL i) || bad.contains (Reg.OTP_CALG i)
    let s := forN 20 (fun g s => s.retireOtp g ((lost.filter fun i => (sliceNo i).1 == g).map fun i => (sliceNo i).2)) s
    .next ((s.sb (Reg.HIF_DEVSTATE 0) F.HIF_DEVSTATE_DEVMODE (!fused)).sb (Reg.HIF_DEVSTATE 1) F.HIF_DEVSTATE_DEVMODE (!fused))

/-- A pair fails its start-up test (R205, R207, R208); the row names no path group: a free value (log entry 29). A failure of KP
acts through source 162 and leaves the device in BOOT_ROM. -/
def State.bistFail (p : Nat) (s : State) : State :=
  let k := s.freeWord.toNat % 48
  let s := s.nextFree.flag (Reg.GLV_STAT p) F.GLV_STAT_TEST_FAIL
  if p = 20 then (s.pairStop 20 3 k).setInternal 162 true else s.pairFail p 3 k

/-- BIST_FAIL of a failing memory (R309): the row names the pair or the FC; which of its memories failed is a free value
(log entry 90). -/
def State.bistMid (unit : Nat) (kinds : List Nat) (s : State) : State :=
  s.nextFree.raise 1671 0x5B (kinds.getD (s.freeWord.toNat % kinds.length) 0 + 256 * unit)

/-- SELFTEST_DONE (R208, R309, R407, R408): the pairs that pass the cuff test, the pairs and the FCs whose memory tests pass, and
the shared SRAM in bit 16 of the last. A pair that fails R208 is declared failed; a failure of KP or of the shared SRAM leaves the
device in BOOT_ROM, where the responder serves the ports. -/
def execSelftestDone (glv memPair memFc : Word) (s : State) : Res :=
  if s.pwr.inReset || s.pwr.tested then .next s
  else
    let s := s.mapPwr fun x => { x with tested := true }
    let s := (s.sf Reg.GLV_BIST F.GLV_BIST_START_PASS glv.toNat).flag Reg.GLV_BIST F.GLV_BIST_DONE
    let s := (s.wr Reg.MEM_BIST_PAIR (memPair &&& 0x1FFFFF)).wr Reg.MEM_BIST_FC (memFc &&& 0x1FFFF)
    let s := s.flag Reg.MEM_STAT F.MEM_STAT_BIST_DONE
    let s := forN 21 (fun p s => if nbit glv.toNat p then s else s.bistFail p) s
    let s := forN 21 (fun p s => if nbit memPair.toNat p then s else s.bistMid p [1, 2, 3, 4, 5, 6]) s
    let s := forN 16 (fun n s => if nbit memFc.toNat n then s else s.bistMid n [0x10, 0x11, 0x12, 0x13]) s
    let s := s.raiseIf (!nbit memFc.toNat 16) 1671 0x5B 0x20
    if nbit glv.toNat 20 && nbit memPair.toNat 20 && nbit memFc.toNat 16 then .next s
    else .next ((s.mapPwr fun x => { x with kpFail := true }).mapKeep fun k => { k with romReady := true })

/-- BOOT_ROM_COPY (R407): the boot ROM stands in the top 16 KiB of KP's ITCM, and KP starts at its entry. -/
def execBootRomCopy (s : State) : Res :=
  if s.pwr.inReset || !s.pwr.tested || s.pwr.kpFail || s.pwr.copied then .next s
  else
    let s := (s.mapPwr fun x => { x with copied := true }).wrRun (itcm 20 0x3C000) ((List.range 0x4000).map Config.bootRom)
    let s := { s with rel := 20 :: s.rel }
    .next (s.startAtImg 20 (resetImg 20 0x3C000 s.tick))

/-- LINK_TRAINING_START (R404, R407): a port whose PERSTx_n is released starts link training. -/
def execLinkTrainingStart (p : Fin 2) (s : State) : Res :=
  if s.pwr.inReset || (s.port p).up then .next s
  else .next (s.mapPwr fun x => { x with train := if x.train.contains p.val then x.train else p.val :: x.train })

/-- BOOT_ROM_READY (R407, R408): the known-answer tests are over; the boot ROM takes entries. -/
def execBootRomReady (dur : Half) (katOk : Bool) (s : State) : Res :=
  if s.pwr.inReset || !s.pwr.copied || s.keep.romReady then .next s
  else
    .next ((s.mapPwr fun x => { x with katFail := !katOk }).mapKeep fun k => { k with romReady := true, selftest := dur.toNat })

/-- PROGRAM_KEY_HASH (R409): the boot ROM takes the private instruction only in BOOT_ROM and only once; the fuses stay. -/
def execProgramKeyHash (hash : List Byte) (s : State) : Res :=
  if s.dev != 0 || !s.keep.romReady || s.pwr.inReset || s.pwr.kpFail || s.bit Reg.OTP_STAT F.OTP_STAT_KEY_FUSED then .next s
  else
    let f := fun (k : Nat) => BitVec.ofNat 32 (leAt hash (4 * k) 4)
    let s := forN 8 (fun k s => (s.wr (Reg.OTP_KEYHASH k) (f k)).mapPwr fun x =>
      { x with fuse := tput x.fuse (Reg.OTP_KEYHASH k) (f k) }) s
    let s := (s.flag Reg.OTP_STAT F.OTP_STAT_KEY_FUSED).mapPwr fun x =>
      { x with fuse := tput x.fuse Reg.OTP_STAT (resetWord Reg.OTP_STAT ||| 4), tapReset := false }
    .next ((s.sf (Reg.HIF_DEVSTATE 0) F.HIF_DEVSTATE_DEVMODE 0).sf (Reg.HIF_DEVSTATE 1) F.HIF_DEVSTATE_DEVMODE 0)

/-- A write of GLV_SAFE (R406). -/
def State.safeWrite (v : Word) (s : State) : State :=
  let s := if fget v F.GLV_SAFE_REL_REFUSED = 1 then s.sf Reg.GLV_SAFE F.GLV_SAFE_REL_REFUSED 0 else s
  if fget v F.GLV_SAFE_RELEASE = 0 then (s.sf Reg.GLV_SAFE F.GLV_SAFE_RELEASE 0).driveSafe true
  else if (s.dev == 2 || s.dev == 3) && !s.allStop then (s.flag Reg.GLV_SAFE F.GLV_SAFE_RELEASE).driveSafe false
  else s.flag Reg.GLV_SAFE F.GLV_SAFE_REL_REFUSED

/-- SAFE_RELEASE (R406). -/
def execSafeRelease (v : Word) (s : State) : Res := .next (s.safeWrite v)

/-- Warning thresholds of the rails in mV (R413). -/
def warnMv (k : Nat) : Nat := [720, 815, 955, 1690, 1740, 815, 1130, 3050].getD k 0

/-- A rail reads `mv` (R414): WARN follows its warning threshold, and source 174 SUPPLY acts while any rail stays below its own. -/
def State.railMv (k mv : Nat) (s : State) : State :=
  let s := (s.sf (Reg.THM_VMON k) F.THM_VMON_MV mv).sb (Reg.THM_VMON k) F.THM_VMON_WARN (decide (mv < warnMv k))
  let s := if mv < warnMv k then s.flagOnce Reg.THM_STAT F.THM_STAT_SUP_WARN 1678 0x8C (k + 65536 * mv) else s
  s.setInternal 174 ((List.range 8).any fun j => s.bit (Reg.THM_VMON j) F.THM_VMON_WARN)

/-- SUPPLY_WARN (R414). -/
def execSupplyWarn (rail : Fin 8) (mv : Half) (s : State) : Res :=
  if s.pwr.inReset || decide (warnMv rail ≤ mv.toNat) then .next s else .next (s.railMv rail mv.toNat)

/-- SUPPLY_RESTORED (R414). -/
def execSupplyRestored (rail : Fin 8) (mv : Half) (s : State) : Res :=
  if s.pwr.inReset || decide (mv.toNat < warnMv rail) then .next s else .next (s.railMv rail mv.toNat)

/-- CLK_FAULT (R417): the reference fails; the island clocks enter holdover, whose count a further failure leaves running. A
failure after the 10 ms enters SAFE_HALT at once. -/
def execClkFault (s : State) : Res :=
  if s.pwr.inReset then .next s
  else
    match s.pwr.hold with
    | some _ => .next (if s.pwr.holdLate then s.safeHalt 168 173 else s)
    | none =>
      let s := (s.mapPwr fun x => { x with hold := some s.tick, holdLate := false }).flag Reg.THM_STAT F.THM_STAT_CLK_HOLD
      .next ((s.setInternal 173 true).raise 1678 0x8E 1)

/-- HOLDOVER_END (R417): the reference has stayed within limits for 1 ms. -/
def execHoldoverEnd (s : State) : Res :=
  if s.pwr.hold.isSome then
    let s := (s.mapPwr fun x => { x with hold := none, holdLate := false }).sf Reg.THM_STAT F.THM_STAT_CLK_HOLD 0
    .next ((s.setInternal 173 false).raise 1678 0x8E 0)
  else .next s

/-- HOLDOVER_EXPIRY (R417): 10 ms after the entry into holdover; `within`: the reference is within limits at that moment. -/
def execHoldoverExpiry (within : Bool) (s : State) : Res :=
  match s.pwr.hold with
  | some t =>
    if s.pwr.holdLate then .next s
    else
      let s := (s.atTick (t + 8000000)).mapPwr fun x => { x with holdLate := true }
      .next (if within then s else s.safeHalt 168 173)
  | none => .next s

/-- The reading of a sensor (R422, R423). -/
def State.sense (k : Nat) (t : Option Half) (s : State) : State :=
  let a := Reg.THM_TEMP k
  if s.bit a F.THM_TEMP_FAILED then s
  else
    match t with
    | some v =>
      if -880 ≤ v.toInt && v.toInt ≤ 2400 then s.sf a F.THM_TEMP_TEMP v.toNat
      else ((s.flag a F.THM_TEMP_FAILED).flag Reg.THM_STAT F.THM_STAT_SENS_FAIL).raise 1678 0x8B k
    | none => ((s.flag a F.THM_TEMP_FAILED).flag Reg.THM_STAT F.THM_STAT_SENS_FAIL).raise 1678 0x8B k

def State.sensorFailed (s : State) (k : Nat) : Bool := s.bit (Reg.THM_TEMP k) F.THM_TEMP_FAILED

/-- The sensor that has not failed with the highest reading, the lowest number of several (R422). -/
def State.hottest (s : State) : Option (Nat × Int) :=
  (List.range 24).foldl (fun b k =>
    if s.sensorFailed k then b
    else
      let v := sx 16 (s.fld (Reg.THM_TEMP k) F.THM_TEMP_TEMP)
      match b with
      | some (_, w) => if w < v then some (k, v) else b
      | none => some (k, v)) none

/-- MAX as a signed number. -/
def State.thmMax (s : State) : Int := sx 16 (s.fld Reg.THM_MAX F.THM_MAX_MAX)

/-- THERMAL_CRIT (R425). -/
def State.critEval (s : State) : State :=
  let m := s.thmMax
  if 1840 ≤ m && !s.bit Reg.THM_STAT F.THM_STAT_CRIT then
    ((s.flag Reg.THM_STAT F.THM_STAT_CRIT).flag Reg.THM_STAT F.THM_STAT_CRIT_SEEN).raise 1678 0x88 (s.fld Reg.THM_MAX ⟨0, 21⟩)
  else if m < 1792 && s.bit Reg.THM_STAT F.THM_STAT_CRIT then
    (s.sf Reg.THM_STAT F.THM_STAT_CRIT 0).raise 1678 0x89 (s.fld Reg.THM_MAX F.THM_MAX_MAX)
  else s

/-- The thermal trip (R423, R425). -/
def State.tripEval (s : State) : State :=
  let fails := ((List.range 24).filter fun k => s.sensorFailed k).length
  if (2 ≤ s.pwr.hot || 3 ≤ fails) && !s.bit Reg.THM_STAT F.THM_STAT_TRIP then
    let s := (s.flag Reg.THM_STAT F.THM_STAT_TRIP).raise 1678 0x8A (s.fld Reg.THM_MAX ⟨0, 21⟩ + 2097152 * b2n (decide (s.pwr.hot < 2)))
    s.safeHalt 160 160
  else s

/-- SENSOR_SAMPLE (R422–R425): one sample of every sensor, in 1/16 °C; a sample that is missing or fails its self-check is
`none`. -/
def execSensorSample (temps : List (Option Half)) (s : State) : Res :=
  if s.pwr.inReset then .next s
  else
    let s := forN 24 (fun k s => s.sense k (temps.getD k none)) s
    let s := match s.hottest with
      | some (k, v) =>
        let s := s.wr Reg.THM_MAX (BitVec.ofNat 32 (enc 16 v + 65536 * k))
        if sx 16 (s.fld Reg.THM_PEAK F.THM_PEAK_PEAK) < v then s.sf Reg.THM_PEAK F.THM_PEAK_PEAK (enc 16 v) else s
      | none => s
    let s := s.mapPwr fun x => { x with hot := if 2000 ≤ s.thmMax then x.hot + 1 else 0 }
    .next s.critEval.tripEval

/-- e^(n/d) in units of 2^-80, by its series; exact to far below 2^-64 for n/d up to 16. -/
def expFix (n d : Nat) : Nat :=
  ((List.range 90).foldl (fun (r : Nat × Nat) k =>
    let t := r.2 * n / (d * (k + 1))
    (r.1 + t, t)) (2 ^ 80, 2 ^ 80)).1

/-- AF(T) of R426 in units of 2^-16, rounded to nearest: exp(8,123 × (1/368.15 − 1/(T + 273.15))). -/
def ageFactor (t : Int) : Nat :=
  let k := (100 * t + 27315).toNat
  let num : Int := 812300 * (100 * t - 9500)
  let den := 36815 * k
  let v := if 0 ≤ num then expFix num.toNat den else 2 ^ 160 / expFix (-num).toNat den
  (v + 2 ^ 63) / 2 ^ 64

/-- LIFE_TICK (R426): every 1 ms AF is added to THM_LIFE; `ages` are the words that the ring-oscillator pairs measure. -/
def execLifeTick (ages : List Word) (s : State) : Res :=
  if s.pwr.inReset then .next s
  else
    let s := (s.atTick s.pwr.lifeDue).mapPwr fun x => { x with lifeDue := x.lifeDue + 800000 }
    let sum := s.pwr.lifeFrac + ageFactor (s.thmMax / 16)
    let s := (s.w64 Reg.THM_LIFE_LO (s.r64 Reg.THM_LIFE_LO + sum / 65536)).mapPwr fun x => { x with lifeFrac := sum % 65536 }
    let s := forN 8 (fun k s => s.wr (Reg.THM_AGE k) (ages.getD k 0)) s
    let warn := fun (pct : Nat) (done : Bool) (s : State) =>
      match (List.range 8).find? fun k => decide (256 * pct ≤ s.fld (Reg.THM_AGE k) F.THM_AGE_PCT) with
      | some k => if done then (false, s) else
          (true, (s.flag Reg.THM_STAT F.THM_STAT_AGE_WARN).raise 1678 0x8D (k + 256 * (s.fld (Reg.THM_AGE k) F.THM_AGE_PCT / 256)))
      | none => (false, s)
    let (w80, s) := warn 80 s.pwr.age80 s
    let (w100, s) := warn 100 s.pwr.age100 s
    .next (s.mapPwr fun x => { x with age80 := x.age80 || w80, age100 := x.age100 || w100 })

end Sys2Proof.Machine
end

