-- ==== Sys2Proof/Machine/Dma.lean ====
section
/-! DEFINITION. DMA channels and engines (R316–R325), and the host window (R355). -/

namespace Sys2Proof.Machine

/-- Host port and host address behind an address of the host window; `none` where the access is refused with BUS (R355). -/
def State.hostAddr (s : State) (a : Nat) : Option (Nat × Nat) :=
  let k := (a - 0x80000000) / 0x4000000
  let p := s.fld (Reg.HIF_HWINCFG k) F.HIF_HWINCFG_PORT
  if s.bit (Reg.HIF_HWINCFG k) F.HIF_HWINCFG_EN && s.portOk p then
    some (p, s.r64 (Reg.HIF_HWIN_LO k) + (a - 0x80000000) % 0x4000000)
  else none

/-- A read of `n` bytes of host memory: what the host holds is not state of the block, and the read may fail (R355). -/
def State.hostRead (n : Nat) (s : State) : Option (List Byte) × State :=
  let b := leBytes n (s.freeWord.toNat + 2 ^ 32 * (Config.freeWord (s.free + 1)).toNat)
  (if Config.hostReadFails s.free then none else some b, s.nextFree.nextFree)

/-- A posted write into host memory. -/
def State.hostWrite (p a : Nat) (b : List Byte) (s : State) : State := { s with out := .wr p a b :: s.out }

/-- Channel `c`. -/
def State.dma (s : State) (c : Nat) : DmaSt := tget DmaSt.init s.dmas c

def State.mapDma (c : Nat) (f : DmaSt → DmaSt) (s : State) : State := { s with dmas := tput s.dmas c (f (s.dma c)) }

/-- DMA_STAT.STATE: 0 IDLE, 1 ACTIVE, 2 DONE, 3 FAULTED, 4 ABORTED. -/
def State.dmaState (s : State) (c : Nat) : Nat := s.fld (Reg.DMA_STAT c) F.DMA_STAT_STATE

/-- Elements completed in the current descriptor. -/
def State.dmaProg (s : State) (c : Nat) : Nat := s.rn (Reg.DMA_PROG c)

/-- Engine and event source of a channel (R316, R326). -/
def dmaEngine (c : Nat) : Nat := if c < 32 then c / 2 else 16

def dmaSrc (c : Nat) : Nat := if c < 32 then 1024 + 24 * (c / 2) + 4 else 1672

/-- Fields of a descriptor (R318). -/
def DmaSt.src (x : DmaSt) : Cap where
  w := BitVec.ofNat 64 (leAt x.desc 0 8)
  tag := x.srcTag

def DmaSt.dst (x : DmaSt) : Cap where
  w := BitVec.ofNat 64 (leAt x.desc 8 8)
  tag := x.dstTag

def DmaSt.count (x : DmaSt) : Nat := leAt x.desc 16 4

def DmaSt.ctrl (x : DmaSt) : Nat := leAt x.desc 20 4

def DmaSt.esize (x : DmaSt) : Nat := 2 ^ (x.ctrl % 4)

def DmaSt.fill (x : DmaSt) : Bool := nbit x.ctrl 2

def DmaSt.prio (x : DmaSt) : Nat := nbits x.ctrl 3 3

/-- Address of element `k` on a side, modulo 2^32. -/
def elemAddr (c : Cap) (stride k : Nat) : Nat := enc 32 (c.addr + k * sx 32 stride)

/-- A write of DMA_STARTc (R319). -/
def State.dmaStart (c doff : Nat) (s : State) : State :=
  if s.dmaState c = 1 then s.flag (Reg.DMA_STAT c) F.DMA_STAT_CFG_ERR
  else
    let s := ((s.wr (Reg.DMA_PROG c) 0).wr (Reg.DMA_DOFF c) (BitVec.ofNat 32 (doff % 2 ^ 24))).sf (Reg.DMA_STAT c) F.DMA_STAT_STATE 1
    s.mapDma c fun x => { x with reading := true, keepProg := false, doff := doff, ready := s.tick + 16, burst := 0 }

def execDmaStart (c : Fin 48) (v : Word) (s : State) : Res := .next (s.dmaStart c (v.toNat % 2 ^ 24))

/-- Address of the current descriptor. -/
def State.dmaDesc (s : State) (c : Nat) : Nat := s.rn (Reg.DMA_DBASE c) + (s.dma c).doff

/-- The descriptor offset lies inside the channel's region (R317, R319). -/
def State.dmaOffOk (s : State) (c : Nat) : Bool :=
  let o := (s.dma c).doff
  o % 64 == 0 && decide (o + 64 ≤ s.fld (Reg.DMA_DLEN c) F.DMA_DLEN_LEN) && inSharedMem (s.dmaDesc c) &&
    inSharedMem (s.dmaDesc c + 63)

/-- PROG and RESULT written back to the descriptor (R323, R325), and FADDR where given. -/
def State.dmaBack (c st cause : Nat) (desc : Bool) (faddr : Option Nat) (s : State) : State :=
  if !s.dmaOffOk c then s
  else
    let a := s.dmaDesc c
    let s := (s.wrLe (a + 40) 4 (s.dmaProg c)).wrLe (a + 44) 4 (st + 8 * cause + 256 * b2n desc)
    match faddr with
    | some f => s.wrLe (a + 48) 4 f
    | none => s

/-- The channel faults (R319, R323). -/
def State.dmaFault (c cause faddr : Nat) (desc : Bool) (s : State) : State :=
  let a := Reg.DMA_STAT c
  let s := ((s.sf a F.DMA_STAT_STATE 3).sf a F.DMA_STAT_CAUSE cause).sb a ⟨8, 1⟩ desc
  let s := s.wr (Reg.DMA_FADDR c) (BitVec.ofNat 32 faddr)
  let s := (s.dmaBack c 3 cause desc (some faddr)).mapDma c fun x => { x with reading := false, burst := 0 }
  (s.flag a F.DMA_STAT_FAULT).raise (dmaSrc c) 0x5D (c + 64 * cause + 2048 * b2n desc)

/-- A descriptor is complete (R325): write-back, DMA_DONE where EVT = 1, then the next descriptor or DONE. -/
def State.dmaDone (c : Nat) (s : State) : State :=
  let x := s.dma c
  let a := Reg.DMA_STAT c
  let s := s.wr (Reg.DMA_PROG c) (BitVec.ofNat 32 x.count)
  let s := s.dmaBack c 2 0 false none
  let s := s.raiseIf (nbit x.ctrl 7) (dmaSrc c) 0x5C (c + 256 * (x.doff % 2 ^ 24))
  if nbit x.ctrl 6 then
    let nx := leAt x.desc 36 4
    let s := (s.wr (Reg.DMA_DOFF c) (BitVec.ofNat 32 (nx % 2 ^ 24))).wr (Reg.DMA_PROG c) 0
    s.mapDma c fun x => { x with reading := true, keepProg := false, doff := nx, burst := 0 }
  else ((s.sf a F.DMA_STAT_STATE 2).flag a F.DMA_STAT_DONE).mapDma c fun x => { x with burst := 0 }

/-- DESCRIPTOR_READ (R319): the descriptor read completes, or faults with DESC set. -/
def execDescriptorRead (c : Fin 48) (s : State) : Res :=
  let c := c.val
  if !(s.dma c).reading || s.dmaState c != 1 then .next s
  else
    let a := s.dmaDesc c
    if !s.dmaOffOk c then .next (s.dmaFault c 9 (a % 2 ^ 32) true)
    else
      let b := s.rdBytes a 64
      let (bad, s) := s.eccCheck a 64
      match bad with
      | some k => .next (s.dmaFault c 8 k true)
      | none =>
        if leAt b 20 4 / 256 ≠ 0 ∨ leAt b 44 4 / 512 ≠ 0 ∨ leAt b 52 12 ≠ 0 then .next (s.dmaFault c 2 a true)
        else
          let (t1, s) := s.readTag (a / 8)
          let (t2, s) := s.readTag (a / 8 + 1)
          let s := s.mapDma c fun x => { x with desc := b, srcTag := t1, dstTag := t2, reading := false }
          .next (if (s.dma c).count ≤ s.dmaProg c then s.dmaDone c else s)

/-- One step of R320 on both sides, the source first: the cause and address of a failure. -/
def dmaStep (fill : Bool) (cause : Nat) (src dst : Option Nat) : Option (Nat × Nat) :=
  match (if fill then none else src), dst with
  | some a, _ => some (cause, a)
  | none, some a => some (cause, a)
  | none, none => none

/-- An engine reaches an address (R316): the hub also the host window. -/
def State.dmaReach (s : State) (c a : Nat) : Bool :=
  inSharedMem a || (decide (32 ≤ c) && decide (0x80000000 ≤ a) && decide (a < 0xC0000000) && (s.hostAddr a).isSome)

/-- Steps 1 to 6 of R320 for the next element of a channel. -/
def State.dmaChecks (s : State) (c : Nat) : Option (Nat × Nat) :=
  let x := s.dma c
  let k := s.dmaProg c
  let n := x.esize
  let a := elemAddr x.src (leAt x.desc 24 4) k
  let d := elemAddr x.dst (leAt x.desc 28 4) k
  let all := fun (v : Nat) (ok : Bool) => if ok then (none : Option Nat) else some v
  let byte := fun (v : Nat) (ok : Nat → Bool) => ((List.range n).map fun i => (v + i) % 2 ^ 32).find? fun y => !ok y
  let perm := fun (p : Cap) (m : Nat) => p.has (m + pGlobal) && !p.has pDevice
  (dmaStep x.fill 3 (all a x.src.tag) (all d x.dst.tag)).or <|
  (dmaStep x.fill 4 (all a (x.src.otype == 0)) (all d (x.dst.otype == 0))).or <|
  (dmaStep x.fill 6 (all a (perm x.src pLoad)) (all d (perm x.dst pStore))).or <|
  (dmaStep x.fill 7 (all a (a % n == 0)) (all d (d % n == 0))).or <|
  (dmaStep x.fill 5 (byte a x.src.covers) (byte d x.dst.covers)).or <|
  dmaStep x.fill 9 (byte a (s.dmaReach c)) (byte d (s.dmaReach c))

/-- The bytes of the next element, or the cause and address of a read that fails (step 7 of R320). -/
def State.dmaFetch (c : Nat) (s : State) : Sum (Nat × Nat) (List Byte) × State :=
  let x := s.dma c
  let k := s.dmaProg c
  let n := x.esize
  if x.fill then
    let d := elemAddr x.dst (leAt x.desc 28 4) k
    (.inr ((List.range n).map fun i => x.desc.getD (32 + (d + i) % 4) 0), s)
  else
    let a := elemAddr x.src (leAt x.desc 24 4) k
    if inSharedMem a then
      let b := s.rdBytes a n
      let (bad, s) := s.eccCheck a n
      match bad with
      | some y => (.inl (8, y), s)
      | none => (.inr b, s)
    else
      match s.hostRead n with
      | (some b, s) => (.inr b, s)
      | (none, s) => (.inl (9, a), s)

/-- The channel's next element is checked and moved (R320, R321). -/
def State.dmaElement (c : Nat) (s : State) : State :=
  match s.dmaChecks c with
  | some f => s.dmaFault c f.1 f.2 false
  | none =>
    match s.dmaFetch c with
    | (.inl f, s) => s.dmaFault c f.1 f.2 false
    | (.inr b, s) =>
      let x := s.dma c
      let k := s.dmaProg c
      let d := elemAddr x.dst (leAt x.desc 28 4) k
      let s := if inSharedMem d then s.wrBytes d b
        else match s.hostAddr d with
          | some h => s.hostWrite h.1 h.2 b
          | none => s
      let s := s.wr (Reg.DMA_PROG c) (BitVec.ofNat 32 (k + 1))
      let s := s.mapDma c fun x => { x with burst := (x.burst + x.esize) % 64 }
      if x.count ≤ k + 1 then s.dmaDone c else s

/-- Channels of an engine. -/
def dmaChans (e : Nat) : List Nat := if e < 16 then [2 * e, 2 * e + 1] else (List.range 16).map (· + 32)

/-- A channel may move an element at tick `t`. -/
def State.dmaReady (s : State) (t c : Nat) : Bool :=
  s.dmaState c == 1 && !(s.dma c).reading && decide ((s.dma c).ready ≤ t)

/-- The channel that takes the datapath of engine `e` (R322): the holder inside its burst, else the highest PRIO, rotating in
channel order after the channel that last held it. Before any has held it the lowest comes first (DESIGN CHOICE, log entry
49). -/
def State.dmaPick (s : State) (e t : Nat) : Option Nat :=
  let cs := (dmaChans e).filter (s.dmaReady t)
  let h := tget 48 s.dmaHold e
  if cs.contains h && (s.dma h).burst != 0 then some h
  else
    let top := cs.foldl (fun m c => max m (s.dma c).prio) 0
    let best := cs.filter fun c => (s.dma c).prio == top
    ((best.find? (h < ·)).or best.head?)

/-- DMA_ELEMENT (R320–R322): engine `e` moves one element, one per tick at most. -/
def execDmaElement (e : Fin 17) (s : State) : Res :=
  let e := e.val
  let act := (dmaChans e).filter fun c => s.dmaState c == 1 && !(s.dma c).reading
  match act with
  | [] => .next s
  | c0 :: _ =>
    let first := act.foldl (fun m c => min m (s.dma c).ready) (s.dma c0).ready
    let s := s.atTick (max first (tget 0 s.dmaFree e))
    match s.dmaPick e s.tick with
    | none => .next s
    | some c =>
      .next ({ s with dmaHold := tput s.dmaHold e c, dmaFree := tput s.dmaFree e (s.tick + 1) }.dmaElement c)

/-- A write of ABORT (R324): the channel stops at the element boundary where it stands; a fault on the element there is
recorded instead. -/
def State.dmaAbort (c : Nat) (s : State) : State :=
  if s.dmaState c ≠ 1 then s
  else
    match (if (s.dma c).reading then none else s.dmaChecks c) with
    | some f => s.dmaFault c f.1 f.2 false
    | none =>
      let s := ((s.sf (Reg.DMA_STAT c) F.DMA_STAT_STATE 4).dmaBack c 4 0 false none).flag (Reg.DMA_STAT c) F.DMA_STAT_ABORTED
      s.mapDma c fun x => { x with reading := false, burst := 0 }

def execDmaAbort (c : Fin 48) (s : State) : Res := .next (s.dmaAbort c)

/-- A write of RESUME (R324): the descriptor is read again, and the channel continues at PROG. -/
def State.dmaResume (c : Nat) (s : State) : State :=
  if s.dmaState c = 3 || s.dmaState c = 4 then
    (s.sf (Reg.DMA_STAT c) F.DMA_STAT_STATE 1).mapDma c fun x =>
      { x with reading := true, keepProg := true, doff := s.fld (Reg.DMA_DOFF c) F.DMA_DOFF_DOFF, ready := s.tick + 16, burst := 0 }
  else s.flag (Reg.DMA_STAT c) F.DMA_STAT_CFG_ERR

def execDmaResume (c : Fin 48) (s : State) : Res := .next (s.dmaResume c)

end Sys2Proof.Machine
end

