-- ==== Sys2Proof/Machine/Crypto.lean ====
section
/-! DEFINITION. SHA-256 and the ECDSA P-256 verification that the load ports and the boot ROM use (R284, R380). -/

namespace Sys2Proof.Machine

/-- The largest number of `n` more bits under `r` whose `k`-th power does not exceed `v`, found from the top bit down. -/
def rootFrom (k v : Nat) : Nat → Nat → Nat
  | 0, r => r
  | n + 1, r => rootFrom k v n (if (r + 2 ^ n) ^ k ≤ v then r + 2 ^ n else r)

/-- The first 32 bits of the fraction of the `k`-th root of a number below 512. -/
def rootFrac (k x : Nat) : Word := BitVec.ofNat 32 (rootFrom k (x * 2 ^ (32 * k)) 37 0)

/-- The first 64 primes: the numbers to 311 that no smaller number from 2 to 17 divides. -/
def primes64 : List Nat := (List.range 312).filter fun x => 2 ≤ x && (List.range 18).all fun d => d < 2 || x ≤ d || x % d != 0

/-- The constants of the 64 rounds of SHA-256: fractions of the cube roots of the primes. -/
def shaK : List Word := primes64.map (rootFrac 3)

/-- The hash value that SHA-256 starts from: fractions of the square roots of the first eight primes. -/
def shaInit : List Word := (primes64.take 8).map (rootFrac 2)

/-- The big-endian number of a list of bytes. -/
def beNat (l : List Byte) : Nat := l.foldl (fun a b => a * 256 + b.toNat) 0

/-- The `n` big-endian bytes of a number. -/
def beBytes (n v : Nat) : List Byte := (leBytes n v).reverse

/-- The padded message. -/
def shaPad (m : List Byte) : List Byte :=
  m ++ [0x80] ++ List.replicate ((119 - m.length % 64) % 64) 0 ++ beBytes 8 (8 * m.length)

/-- The sum of three right rotations of a word. -/
def rot3 (i j k : Nat) (x : Word) : Word := x.rotateRight i ^^^ x.rotateRight j ^^^ x.rotateRight k

/-- A window of 16 schedule words, oldest first, moves on by one word. -/
def shaSlide (w : List Word) : List Word :=
  let at_ := fun i => w.getD i 0
  let small := fun (i j k : Nat) (x : Word) => x.rotateRight i ^^^ x.rotateRight j ^^^ x >>> k
  w.drop 1 ++ [small 17 19 10 (at_ 14) + at_ 9 + small 7 18 3 (at_ 1) + at_ 0]

/-- What a round adds for the word `x` of its schedule and its constant `k` to the working variables `v` (a to h in order). -/
def shaMix (v : List Word) (x k : Word) : Word :=
  let at_ := fun i => v.getD i 0
  let choice := at_ 6 ^^^ (at_ 4 &&& (at_ 5 ^^^ at_ 6))
  at_ 7 + rot3 6 11 25 (at_ 4) + choice + k + x

/-- One round: every working variable moves on by one place, and the two sums enter at a and e. -/
def shaRound (r : List Word × List Word) (k : Word) : List Word × List Word :=
  let v := r.1
  let at_ := fun i => v.getD i 0
  let t := shaMix v (r.2.getD 0 0) k
  let majority := (at_ 0 &&& (at_ 1 ||| at_ 2)) ||| (at_ 1 &&& at_ 2)
  ((t + rot3 2 13 22 (at_ 0) + majority) :: (v.take 3 ++ (at_ 3 + t) :: (v.drop 4).take 3), shaSlide r.2)

/-- The compression of one 64-byte block. -/
def shaBlock (h : List Word) (blk : List Byte) : List Word :=
  let w := (List.range 16).map fun i => BitVec.ofNat 32 (beNat ((blk.drop (4 * i)).take 4))
  List.zipWith (· + ·) h (shaK.foldl shaRound (h, w)).1

/-- The blocks of a padded message. -/
def shaBlocks : Nat → List Word → List Byte → List Word
  | 0, h, _ => h
  | n + 1, h, m => shaBlocks n (shaBlock h (m.take 64)) (m.drop 64)

/-- SHA-256: 32 bytes. -/
def sha256 (m : List Byte) : List Byte :=
  let p := shaPad m
  ((shaBlocks (p.length / 64) shaInit p).map fun x => beBytes 4 x.toNat).flatten

/-- The field prime, the group order, the coefficient b and the base point of P-256. -/
def p256P : Nat := 0xffffffff00000001000000000000000000000000ffffffffffffffffffffffff

def p256N : Nat := 0xffffffff00000000ffffffffffffffffbce6faada7179e84f3b9cac2fc632551

def p256B : Nat := 0x5ac635d8aa3a93e7b3ebbd55769886bc651d06b0cc53b0f63bce3c3e27d2604b

def p256G : Nat × Nat :=
  (0x6b17d1f2e12c4247f8bce6e563a440f277037d812deb33a0f4a13945d898c296,
   0x4fe342e2fe1a7f9b8ee7eb4a7c0f9e162bce33576b315ececbb6406837bf51f5)

/-- x to the power of a number of `n` bits, modulo m. -/
def powMod : Nat → Nat → Nat → Nat → Nat
  | 0, _, _, _ => 1
  | n + 1, m, x, e => powMod n m (x * x % m) (e / 2) * (if e % 2 = 1 then x else 1) % m

/-- The inverse modulo a prime. -/
def invMod (m x : Nat) : Nat := powMod 256 m (x % m) (m - 2)

/-- The difference modulo the field prime. -/
def subP (a b : Nat) : Nat := (a + p256P - b % p256P) % p256P

/-- Addition of points of P-256; `none` is the point at infinity. -/
def ecAdd (u v : Option (Nat × Nat)) : Option (Nat × Nat) :=
  match u, v with
  | none, v => v
  | u, none => u
  | some (x1, y1), some (x2, y2) =>
    if x1 = x2 ∧ (y1 + y2) % p256P = 0 then none
    else
      let l := if x1 = x2 then subP (3 * x1 * x1) 3 * invMod p256P (2 * y1) % p256P
        else subP y2 y1 * invMod p256P (subP x2 x1) % p256P
      let x := subP (l * l) (x1 + x2)
      some (x, subP (l * subP x1 x) y1)

/-- The multiple of a point by a number of `n` bits. -/
def ecMul : Nat → Nat → Option (Nat × Nat) → Option (Nat × Nat)
  | 0, _, _ => none
  | n + 1, k, q => ecAdd (if k % 2 = 1 then q else none) (ecMul n (k / 2) (ecAdd q q))

/-- ECDSA verification on P-256: public key, message digest, signature. -/
def ecdsaOk (x y : Nat) (digest : List Byte) (r t : Nat) : Bool :=
  if !(decide (0 < r) && decide (r < p256N) && decide (0 < t) && decide (t < p256N) && decide (x < p256P) && decide (y < p256P) &&
      y * y % p256P == subP (x * x * x + p256B) (3 * x)) then false
  else
    let w := invMod p256N t
    let u1 := beNat digest * w % p256N
    let u2 := r * w % p256N
    match ecAdd (ecMul 256 u1 (some p256G)) (ecMul 256 u2 (some (x, y))) with
    | none => false
    | some (vx, _) => vx % p256N == r

end Sys2Proof.Machine
end

