-- ==== Sys2Proof/Machine/Mcs.lean ====
section
/-! DEFINITION. The load ports of the control stores, the vertical microword and the Lock engines' microcode
(spec/16_microcode.md). -/

namespace Sys2Proof.Machine

def State.mapMcs (m : Nat) (f : McsSt → McsSt) (s : State) : State := { s with mcs := tput s.mcs m (f (s.mcsPort m)) }

/-- Event source of a load port (R300). -/
def mcsSrc (m : Nat) : Nat := if m < 16 then 1024 + 24 * m + 3 else 1670

/-- Words of a store of a port and parts of a word (R283, R284); 0 words for a code that is not listed. -/
def mcsGeom (m store : Nat) : Nat × Nat :=
  if m < 16 then
    (match store with | 0 => (1024, 1) | 1 => (1024, 5) | 2 => (512, 4) | _ => (0, 1))
  else (match store with | 0 => (2048, 1) | 1 => (32, 1) | _ => (0, 1))

/-- Key of a word of the store that a port names. -/
def mcsKey (m : Nat) (x : McsSt) (a : Nat) : Nat :=
  if m < 16 then csKey m x.store a else if x.store = 0 then csVert x.pair a else csDec x.pair a

/-- Data bytes of a word of that store. -/
def mcsWidth (m store : Nat) : Nat := if m < 16 then csWidth store else if store = 0 then 3 else 4

/-- Mark the segments of a range valid or invalid (R283). -/
def State.mcsMark (m : Nat) (x : McsSt) (v : Bool) (s : State) : State :=
  if m = 16 && x.store == 1 then s.mapBit Reg.MCS_DTVAL x.pair v
  else
    let a := if m < 16 then Reg.MCS_VMAPE m x.store else Reg.MCS_VMAPP x.pair
    forN (x.count / 64) (fun j s => s.mapBit a (x.start / 64 + j) v) s

/-- The range condition of a load (R284, R286). -/
def mcsRangeOk (m : Nat) (x : McsSt) : Bool :=
  let n := (mcsGeom m x.store).1
  if m = 16 && x.store == 1 then x.start == 0 && x.count == 32 && decide (x.pair < 21)
  else decide (0 < n) && (decide (m < 16) || decide (x.pair < 21)) && x.start % 64 == 0 && x.count % 64 == 0 &&
    x.count != 0 && decide (x.start + x.count ≤ n)

/-- Whether the store is in use (R285). -/
def State.mcsInUse (s : State) (m : Nat) (x : McsSt) : Bool :=
  if m = 16 then if x.pair < 20 then s.rel.contains x.pair else s.keep.started
  else
    match x.store with
    | 0 => s.runOn m || s.cycling m
    | 1 => (List.range 4).any fun k =>
        let f := k / 2
        let b := k % 2
        let l := s.bank m f b
        let st := imgU l 2 2
        s.bankVal m f b && decide (st < x.start + x.count) && decide (x.start < st + (if setWhole l then 96 else 48))
    | _ => s.boundSlots.any fun p => s.runs p.1 p.2 && (s.members p.1 p.2).contains m

/-- The reserved fields and codes of a vertical microword (R289): `lock` says which store it is loaded into. A reserved FN, COND
or size counts as a reserved bit (log entry 24). -/
def vertOk (lock : Bool) (w : Nat) : Bool :=
  let z := fun lo n => nbits w lo n == 0
  match nbits w 19 4 with
  | 0 => nbits w 15 4 != 15 && nbits w 15 4 != 14
  | 1 => nbits w 15 4 != 15
  | 2 => decide (nbits w 16 3 < 5)
  | 3 => z 11 8
  | 4 => !lock && z 0 6 && decide (nbits w 16 2 < 3)
  | 5 => !lock && z 5 14 && decide (2 ≤ nbits w 0 5) && decide (nbits w 0 5 ≤ 9)
  | 6 => z 0 19
  | 7 => lock && z 4 15 && decide (nbits w 0 4 < 4)
  | 8 => lock && z 0 6
  | 9 => lock && z 1 18
  | _ => false

/-- A decode entry may be loaded (R230, R286). -/
def decOk (w : Nat) : Bool :=
  let b := fun i => nbit w i
  nbits w 21 11 == 0 && (!b 18 || b 19) && (!b 18 || nbits w 14 2 == 3)

/-- A word of a store may be loaded (R286). -/
def mcsWordOk (m store w : Nat) : Bool :=
  if m < 16 then
    (match store with
    | 0 => decide (w < 2 ^ 24) && vertOk true w
    | 1 => decide (w < 2 ^ 75)
    | _ => decide (w < 2 ^ 61) && nbits w 23 1 == 0)
  else if store = 0 then decide (w < 2 ^ 24) && vertOk false w else decOk w

/-- A load ends with an error (R286). -/
def State.mcsFail (m err : Nat) (s : State) : State :=
  let a := Reg.MCS_STAT m
  let s := ((s.sf a F.MCS_STAT_OPENED 0).flag a F.MCS_STAT_LOAD_ERR).sf a F.MCS_STAT_ERR err
  ((s.mapMcs m fun x => { x with bytes := [], check := none }).raise (mcsSrc m) 0x51
    (err + 16 * s.fld a F.MCS_STAT_WRITTEN)).releasePending m

def State.mcsOpened (s : State) (m : Nat) : Bool := s.bit (Reg.MCS_STAT m) F.MCS_STAT_OPENED

/-- A write of MCS_CTRL.OPEN (R284–R286). -/
def State.mcsOpen (m : Nat) (s : State) : State :=
  let x : McsSt :=
    { store := s.fld (Reg.MCS_SEL m) F.MCS_SEL_STORE, pair := if m = 16 then s.fld (Reg.MCS_SEL m) F.MCS_SEL_PAIR else 0,
      start := s.fld (Reg.MCS_SEL m) F.MCS_SEL_START, count := s.fld (Reg.MCS_COUNT m) F.MCS_COUNT_COUNT,
      bytes := [], check := none }
  if s.mcsOpened m then s.mcsFail m 6
  else
    let s := s.sf (Reg.MCS_STAT m) F.MCS_STAT_WRITTEN 0
    if !mcsRangeOk m x then s.mcsFail m 1
    else if s.mcsInUse m x then s.mcsFail m 2
    else
      let s := ((s.flag (Reg.MCS_STAT m) F.MCS_STAT_OPENED).mapMcs m fun _ => x).mcsMark m x false
      if m < 16 && x.store == 1 then s.recheckBanks m else s

def execMcsOpen (m : Fin 17) (s : State) : Res := .next (s.mcsOpen m)

/-- Store a word of a store, with its check bits (R304). -/
def State.csPut (key w v : Nat) (s : State) : State :=
  { s with cs := tput s.cs key v, ecc := s.ecc.filter fun e => !(decide (csByte key 0 ≤ e.1) && decide (e.1 < csByte key w)) }

/-- A write of MCS_DATA (R284, R286): one part; a word is stored when its last part arrives. -/
def State.mcsData (m : Nat) (v : Word) (s : State) : State :=
  let x := s.mcsPort m
  let np := (mcsGeom m x.store).2
  if !s.mcsOpened m then s.mcsFail m 6
  else
    let n := s.fld (Reg.MCS_STAT m) F.MCS_STAT_WRITTEN
    if x.check.isSome || decide (x.count ≤ n) then s.mcsFail m 5
    else
      let bytes := x.bytes ++ leBytes 4 v.toNat
      if bytes.length % (4 * np) ≠ 0 then s.mapMcs m fun x => { x with bytes := bytes }
      else
        let w := leNat (bytes.drop (bytes.length - 4 * np))
        if !mcsWordOk m x.store w then s.mcsFail m 3
        else
          let s := s.csPut (mcsKey m x (x.start + n)) (mcsWidth m x.store) w
          (s.mapMcs m fun x => { x with bytes := bytes }).sf (Reg.MCS_STAT m) F.MCS_STAT_WRITTEN (n + 1)

def execMcsData (m : Fin 17) (v : Word) (s : State) : Res := .next (s.mcsData m v)

/-- A write of MCS_CTRL.COMMIT (R284, R286). A further COMMIT while the digest check runs changes nothing. -/
def State.mcsCommit (m : Nat) (s : State) : State :=
  let x := s.mcsPort m
  if !s.mcsOpened m then s.mcsFail m 6
  else if x.check.isSome then s
  else if s.fld (Reg.MCS_STAT m) F.MCS_STAT_WRITTEN ≠ x.count || x.bytes.length % (4 * (mcsGeom m x.store).2) != 0 then s.mcsFail m 5
  else s.mapMcs m fun x => { x with check := some s.tick }

def execMcsCommit (m : Fin 17) (s : State) : Res := .next (s.mcsCommit m)

/-- A write of MCS_CTRL.ABORT ends an open load; the range stays invalid (R284). -/
def State.mcsAbort (m : Nat) (s : State) : State :=
  if s.mcsOpened m then
    ((s.mapMcs m fun x => { x with bytes := [], check := none }).sf (Reg.MCS_STAT m) F.MCS_STAT_OPENED 0).releasePending m
  else s

def execMcsAbort (m : Fin 17) (s : State) : Res := .next (s.mcsAbort m)

/-- The digest in MCS_DIGEST0–7 (R284). -/
def State.mcsDigest (s : State) (m : Nat) : List Byte :=
  ((List.range 8).map fun k => leBytes 4 (s.rn (Reg.MCS_DIGEST m k))).flatten

/-- The digest of the parts is compared (R284), and the segments become valid or the load fails. -/
def State.mcsCheck (m : Nat) (s : State) : State :=
  let x := s.mcsPort m
  match x.check with
  | none => s
  | some _ =>
    if sha256 x.bytes = s.mcsDigest m then
      let s := ((s.sf (Reg.MCS_STAT m) F.MCS_STAT_OPENED 0).flag (Reg.MCS_STAT m) F.MCS_STAT_DONE).mcsMark m x true
      ((s.mapMcs m fun x => { x with bytes := [], check := none }).raise (mcsSrc m) 0x50
        (x.store + 256 * x.pair + 65536 * x.start)).releasePending m
    else s.mcsFail m 4

/-- DIGEST_CHECK (R284): within 256 ticks of COMMIT; the tick is a free value. -/
def execDigestCheck (m : Fin 17) (s : State) : Res :=
  match (s.mcsPort m).check with
  | none => .next s
  | some t => .next (((s.atTick (t + s.freeWord.toNat % 257)).nextFree).mcsCheck m)

/-- A write of MCS_CTRL: each bit written 1 acts. -/
def State.mcsCtrl (m : Nat) (v : Word) (s : State) : State :=
  let s := if v.getLsbD 0 then s.mcsOpen m else s
  let s := if v.getLsbD 1 then s.mcsCommit m else s
  if v.getLsbD 2 then s.mcsAbort m else s

/-- A pair's store word: vertical store, by its segment (R283, R288). -/
def State.vertWord (s : State) (p a : Nat) : Option Nat :=
  if nbit (s.rn (Reg.MCS_VMAPP p)) (a / 64) && !s.csBad (csVert p a) 3 then some (tget 0 s.cs (csVert p a)) else none

/-- The decode entry of CX `k`; 0 (VALID = 0) where the table is invalid or the entry unusable (R288). -/
def State.decEntry (s : State) (p k : Nat) : Nat :=
  if nbit (s.rn Reg.MCS_DTVAL) p && !s.csBad (csDec p k) 4 then tget 0 s.cs (csDec p k) else 0

/-- FN of a vertical microword (R289), on 32-bit values; `imm` is true in ALUI. -/
def microAlu (fn : Nat) (a b : Word) : Word :=
  let sh := b.toNat % 32
  match fn with
  | 0 => a + b
  | 1 => a - b
  | 2 => a &&& b
  | 3 => a ||| b
  | 4 => a ^^^ b
  | 5 => a <<< sh
  | 6 => a >>> sh
  | 7 => a.sshiftRight sh
  | 8 => if a = b then 1 else 0
  | 9 => if a.slt b then 1 else 0
  | 10 => if a.ult b then 1 else 0
  | 11 => if a.slt b then a else b
  | 12 => if a.slt b then b else a
  | 13 => BitVec.ofInt 32 (satI 32 (a.toInt + b.toInt))
  | 14 => (a &&& 0x3FFFFF) ||| (b <<< 22)
  | _ => a

/-- COND of BR (R289) for a value that is not DEC. -/
def microCond (c : Nat) (a : Word) : Bool :=
  match c with
  | 0 => a = 0
  | 1 => a ≠ 0
  | 2 => a.msb
  | 3 => !a.msb
  | _ => false

/-- The sign-extended imm10 of ALUI. -/
def microImm (w : Nat) : Word := BitVec.ofInt 32 (sx 10 (nbits w 0 10))

/-- The lane that an engine's registers 16–31 show (R290). -/
def State.engLane (s : State) (n e : Nat) : Nat := 64 * n + 8 * e + (tget 0 (s.eng n e).regs 1).toNat % 8

/-- A register of a Lock engine (R290). -/
def State.engReg (s : State) (n e r : Nat) : Word :=
  if r = 0 then 0
  else if r < 16 then tget 0 (s.eng n e).regs r
  else s.rg (Reg.LNK_CTRL n (s.engLane n e % 64) + 4 * (r - 16))

/-- A write of a register of a Lock engine (R290): words 0 and 1 of the lane's block are not written. -/
def State.engSet (n e r : Nat) (v : Word) (s : State) : State :=
  if r = 0 || r = 16 || r = 17 then s
  else if r < 16 then s.mapEng n e fun x => { x with regs := tput x.regs r v }
  else s.wr (Reg.LNK_CTRL n (s.engLane n e % 64) + 4 * (r - 16)) v

/-- Whether a lane of engine `e` has a pending control item. -/
def State.engItem (s : State) (n e : Nat) : Bool :=
  (List.range 8).any fun j =>
    let x := s.lane (64 * n + 8 * e + j)
    x.pendClr || x.pendRetrain || x.pendEn

/-- A Lock engine executes the word at its program counter, if the word's OP is `op` (R289–R291, R298, R299). `body` answers the
state and the next word. An unusable word, and the 256th word without a safe point, stall it. -/
def State.engStep (n e op : Nat) (body : Nat → State → State × Nat) (s : State) : State :=
  let x := s.eng n e
  if s.stalled n e || x.waits != 0 || !s.runOn n then s
  else
    match s.csWord n 0 x.pc with
    | none => (s.csNoteFc n 0 x.pc).engStall n e
    | some w =>
      if nbits w 19 4 ≠ op then s
      else
        let (s, pc) := body w (s.csNoteFc n 0 x.pc)
        let s := s.mapEng n e fun x => { x with pc := pc % 1024, run := x.run + 1 }
        if nbit w 23 || op == 7 then s.safePoint n e
        else if 256 ≤ (s.eng n e).run then s.engStall n e else s

/-- ALU and ALUI of a Lock engine. -/
def State.engAlu (n e : Nat) (w : Nat) (s : State) : State × Nat :=
  let imm := nbits w 19 4 == 1
  let d := nbits w 10 5
  let a := if imm then s.engReg n e d else s.engReg n e (nbits w 5 5)
  let b := if imm then microImm w else s.engReg n e (nbits w 0 5)
  (s.engSet n e d (microAlu (nbits w 15 4) a b), (s.eng n e).pc + 1)

/-- BR of a Lock engine. -/
def State.engBr (n e : Nat) (w : Nat) (s : State) : State × Nat :=
  let r := nbits w 11 5
  let a := s.engReg n e r
  let pc := (s.eng n e).pc
  if nbits w 16 3 = 4 then
    (s.engSet n e r (a - 1), if a - 1 ≠ 0 then nbits w 0 11 else pc + 1)
  else (s, if microCond (nbits w 16 3) a then nbits w 0 11 else pc + 1)

/-- WAIT (R289): the engine waits for its event; a pending control item is taken at this safe point. -/
def execWait (n : Fin 16) (e : Fin 8) (s : State) : Res :=
  .next (s.engStep n e 7 fun w s =>
    let pc := (s.eng n e).pc
    if s.engItem n e then (s, pc + 1) else (s.mapEng n e fun x => { x with waits := nbits w 0 4 + 1 }, pc))

/-- EVT (R289): an event of the selected lane, its payload from a register (log entry 25). -/
def execEvt (n : Fin 16) (e : Fin 8) (s : State) : Res :=
  .next (s.engStep n e 8 fun w s =>
    (s.raise (s.engLane n e) (nbits w 11 8) (s.engReg n e (nbits w 6 5)).toNat, (s.eng n e).pc + 1))

/-- MBX (R289, R61): the mailbox of the selected lane moves. -/
def execMbx (n : Fin 16) (e : Fin 8) (s : State) : Res :=
  .next (s.engStep n e 9 fun w s =>
    let l := s.engLane n e
    (if nbit w 0 then s.mbxUp l else s.mbxDown l, (s.eng n e).pc + 1))

/-- END of a Lock engine: the program has ended, and the engine executes nothing more until it is started again (log entry 25). -/
def State.engEnd (n e : Nat) (s : State) : State :=
  s.engStep n e 6 fun _ s => (s.mapEng n e fun x => { x with waits := 5 }, (s.eng n e).pc)

end Sys2Proof.Machine
end

