-- ==== Sys2Proof/Machine/Firmware.lean ====
section
/-! DEFINITION. The firmware package: staging, authentication, its load and the firmware's start (spec/20_commands.md R367,
spec/21_keeper_background.md R378–R384). -/

namespace Sys2Proof.Machine

/-- Key of the staging area (R367). -/
def staging : Nat := sram 0x1800000

/-- `n` bytes of a memory list from key `a`, in one pass over its cells. -/
def runBytes : Nat → Nat → List Host.Cell → List Byte
  | 0, _, _ => []
  | n + 1, a, m =>
    let m := m.dropWhile fun e => decide (e.1 < a)
    match m with
    | [] => List.replicate (n + 1) emptyByte
    | (k, b) :: r => if k = a then b :: runBytes n (a + 1) r else emptyByte :: runBytes n (a + 1) m

/-- The staged image of `n` bytes. -/
def State.image (s : State) (n : Nat) : List Byte := runBytes n staging s.mem

/-- A section entry of a package (R379). -/
structure Sec where
  kind : Nat
  unit : Nat
  start : Nat
  offset : Nat
  len : Nat
  digest : List Byte
  /-- its reserved bytes are 0 -/
  clean : Bool
deriving DecidableEq, Repr

/-- Section `j` of a package (R378, R379). -/
def secAt (im : List Byte) (j : Nat) : Sec :=
  let e := (im.drop (256 + 64 * j)).take 64
  { kind := leAt e 0 1, unit := leAt e 1 1, start := leAt e 2 4, offset := leAt e 8 4, len := leAt e 12 4,
    digest := (e.drop 16).take 32, clean := leAt e 6 2 == 0 && leAt e 48 16 == 0 }

/-- The sections of a package. -/
def sections (im : List Byte) : List Sec := (List.range (leAt im 6 2)).map (secAt im)

/-- The data of a section. -/
def Sec.data (im : List Byte) (x : Sec) : List Byte := (im.drop x.offset).take x.len

/-- Whether a section's KIND is listed and its UNIT valid for it (R379). -/
def Sec.unitOk (x : Sec) : Bool :=
  match x.kind with
  | 0x01 | 0x02 => x.unit == 20
  | 0x10 | 0x11 => decide (x.unit < 21)
  | 0x20 | 0x21 | 0x22 => decide (x.unit < 16) || x.unit == 0xFF
  | 0x30 | 0x31 | 0x33 => decide (x.unit < 20)
  | 0x40 => x.unit == 0 && x.len == 64
  | _ => false

/-- Two sections share no byte of the image. -/
def Sec.apart (x y : Sec) : Bool := decide (x.offset + x.len ≤ y.offset) || decide (y.offset + y.len ≤ x.offset)

/-- No two of a list of sections overlap. -/
def secsApart : List Sec → Bool
  | [] => true
  | x :: r => r.all (x.apart ·) && secsApart r

/-- The format check of R380 on an image of `n` bytes. -/
def formatOk (im : List Byte) (n : Nat) : Bool :=
  let ns := leAt im 6 2
  let ss := sections im
  leAt im 0 4 == 0x57464A45 && leAt im 4 2 == 1 && decide (1 ≤ ns) && decide (ns ≤ 64) && leAt im 8 4 == n &&
    leAt im 16 4 % 4 == 0 && leAt im 20 2 == 0x0401 && leAt im 22 10 == 0 && leAt im 96 160 == 0 &&
    ss.all (fun x => x.clean && x.unitOk && x.len % 8 == 0 && x.offset % 64 == 0 && decide (256 + 64 * ns ≤ x.offset) &&
      decide (x.offset + x.len + 64 ≤ n) &&
      (x.kind != 0x01 || decide (x.start + x.len ≤ 0x3C000)) && (x.kind != 0x02 || decide (x.start + x.len ≤ 0x3F000)) &&
      (x.kind != 0x40 || leAt (x.data im) 19 45 == 0)) &&
    secsApart ss && (ss.filter fun x => x.kind == 0x01).length == 1

/-- The signature check of R380 and R381. -/
def State.signatureOk (s : State) (im : List Byte) (n : Nat) : Bool :=
  let key := (im.drop 32).take 64
  let hash := ((List.range 8).map fun k => leBytes 4 (s.rn (Reg.OTP_KEYHASH k))).flatten
  !s.pwr.keyBad && (s.devMode || sha256 key == hash) &&
    ecdsaOk (beNat (key.take 32)) (beNat (key.drop 32)) (sha256 (im.take (n - 64))) (beNat ((im.drop (n - 64)).take 32))
      (beNat ((im.drop (n - 32)).take 32))

/-- The digest check of R380. -/
def digestsOk (im : List Byte) : Bool := (sections im).all fun x => sha256 (x.data im) == x.digest

/-- Exactly `n` bytes of a buffer. -/
def fitBuf (n : Nat) (l : List Byte) : List Byte := (l ++ List.replicate (n - l.length) 0).take n

/-- A boot command after a failed known-answer test (R408). -/
def State.katRefuse (e : Entry) (body : State → State) (s : State) : State :=
  if s.pwr.katFail then s.reply e stFault else body s

/-- LOAD_FW_CHUNK (R352, R366, R367). -/
def State.loadFwChunk (e : Entry) (s : State) : State :=
  s.katRefuse e fun s =>
    let n := eBufLen e
    if n % 64 != 0 || n == 0 || decide (65536 < n) then s.reply e stBadLength
    else if eTarget e % 64 != 0 || decide (8388608 < eTarget e + n) || !zeroes e 8 48 then s.reply e stBadParam
    else
      s.withBuf e fun b s =>
        let s := s.mapKeep fun k => { k with session := some (k.session.getD e.port) }
        ((s.setDev 0).wrRun (staging + eTarget e) (fitBuf n b)).replyOk e 0 []

def execLoadFwChunk (e : Entry) (s : State) : Res := .next (s.take 0x02 e State.loadFwChunk)

/-- AUTH_FW fails: the load session closes (R352, R367). -/
def State.authFail (e : Entry) (code : Nat) (s : State) : State :=
  (s.mapKeep fun k => { k with session := none }).replyTo e true false stAuth 0 [code]

/-- AUTH_FW (R367, R380). -/
def State.authFw (e : Entry) (s : State) : State :=
  s.katRefuse e fun s =>
    let n := ent e 8 4
    if n % 64 != 0 || n == 0 || decide (8388608 < n) || !zeroes e 12 48 then s.reply e stBadParam
    else
      let im := s.image n
      let (bad, s) := s.eccCheck staging n
      if bad.isSome || !formatOk im n then s.authFail e 1
      else if !s.signatureOk im n then s.authFail e 3
      else if !digestsOk im then s.authFail e 2
      else ((s.mapKeep fun k => { k with imgLen := n }).setDev 1).replyOk e 0 []

def execAuthFw (e : Entry) (s : State) : Res := .next (s.take 0x03 e State.authFw)

/-- Load a store section through load port `m` with its manifest digest (R284, R287). -/
def State.loadStore (m store pair : Nat) (im : List Byte) (x : Sec) (s : State) : State :=
  let d := x.data im
  let np := (mcsGeom m store).2
  let s := s.wr (Reg.MCS_SEL m) (BitVec.ofNat 32 (store + 256 * pair + 65536 * x.start))
  let s := s.wr (Reg.MCS_COUNT m) (BitVec.ofNat 32 (x.len / (4 * np)))
  let s := forN 8 (fun k s => s.wr (Reg.MCS_DIGEST m k) (BitVec.ofNat 32 (leAt x.digest (4 * k) 4))) s
  let s := s.mcsOpen m
  let s := forN (x.len / 4) (fun i s => if s.mcsOpened m then s.mcsData m (BitVec.ofNat 32 (leAt d (4 * i) 4)) else s) s
  if s.mcsOpened m then (s.mcsCommit m).mcsCheck m else s

/-- The load at port `m` that has just ended did not fail. -/
def State.loadedOk (s : State) (m : Nat) : Bool := s.bit (Reg.MCS_STAT m) F.MCS_STAT_DONE && !s.bit (Reg.MCS_STAT m) F.MCS_STAT_LOAD_ERR

/-- A fresh load: the flags of the port's last one are cleared first. -/
def State.freshLoad (m store pair : Nat) (im : List Byte) (x : Sec) (s : State) : State :=
  ((s.sf (Reg.MCS_STAT m) F.MCS_STAT_DONE 0).sf (Reg.MCS_STAT m) F.MCS_STAT_LOAD_ERR 0).loadStore m store pair im x

/-- START_FW (R287, R351, R367, R382): the boot ROM loads KP's sections and jumps to ENTRY. -/
def State.startFw (e : Entry) (s : State) : State :=
  s.katRefuse e fun s =>
    if !zeroes e 8 48 then s.reply e stBadParam
    else
      let im := s.image s.keep.imgLen
      let ss := sections im
      let s := ss.foldl (fun s x =>
        if x.kind = 0x01 then s.wrRun (itcm 20 x.start) (x.data im)
        else if x.kind = 0x02 then s.wrRun (dtcm 20 x.start) (x.data im)
        else if x.kind = 0x10 ∧ x.unit = 20 then s.freshLoad 16 0 20 im x
        else if x.kind = 0x11 ∧ x.unit = 20 then s.freshLoad 16 1 20 im x
        else s) s
      let cfg := match ss.find? fun x => x.kind == 0x40 with
        | some x => x.data im
        | none => []
      let s := s.mapKeep fun k => { k with started := true, session := none, cfg := cfg }
      let s := s.setOwner e.port (e.port + 1)
      let i := resetImg 20 (leAt im 16 4) s.tick
      let s := s.mapImg 20 fun j => { j with pcc := i.pcc, cfs := i.cfs, c := tput (tput j.c 3 (tget Cap.null i.c 3)) 4 capRoot }
      let s := s.mapCore 20 fun x => { x with kick := s.tick, kickSeq := false }
      (s.checkpoint 20).replyOk e 0 []

def execStartFw (e : Entry) (s : State) : Res := .next (s.take 0x04 e State.startFw)

/-- A grant of a grant list (R383). -/
structure Grant where
  slot : Nat
  base : Nat
  len : Nat
  perms : Nat
  clean : Bool
deriving DecidableEq, Repr

/-- The grants of a section's data (R383). -/
def grants (d : List Byte) : List Grant :=
  (List.range (d.length / 16)).map fun i =>
    let e := (d.drop (16 * i)).take 16
    { slot := leAt e 0 1, base := leAt e 4 4, len := leAt e 8 4, perms := leAt e 12 2,
      clean := decide (leAt e 0 1 < 32) && leAt e 1 3 == 0 && decide (leAt e 12 2 < 1024) && leAt e 14 2 == 0 }

/-- Whether [b, t) meets [lo, hi). -/
def meets (b t lo hi : Nat) : Bool := decide (b < hi) && decide (lo < t) && decide (b < t) && decide (lo < hi)

/-- The capability of a grant, as TNARROW and TMASK derive it from the root (R263, R383). -/
def Grant.cap (g : Grant) : Cap := capOver g.base g.len g.perms g.base

/-- Whether a range reaches the registers of an FC other than the pair's own; an Outer pair may reach the shaper target
registers of every FC (R14). The reach is judged on whole FC windows (log entry 31). -/
def otherFc (p b t : Nat) : Bool :=
  (List.range 16).any fun n =>
    let w := 0x60000000 + 0x100000 * n
    n != p && meets b t w (w + 0x100000) &&
      !(decide (16 ≤ p) && (List.range 8).any fun k => decide (Reg.OBS_SHTGT n k ≤ b) && decide (t ≤ Reg.OBS_SHTGT n k + 4))

/-- Whether the firmware refuses the package for a grant of pair `p` (R383). The bounds judged are those that the derived
capability has. -/
def Grant.refused (p : Nat) (g : Grant) : Bool :=
  let (b, t) := g.cap.bounds
  !g.clean || meets b t 0x78000000 0x80000000 || meets b t 0x70030000 0x70040000 || meets b t 0x70060000 0x70070000 ||
    meets b t 0x70058000 0x70059000 || otherFc p b t || meets b t 0x41800000 0x42000000 ||
    meets b t 0x417F0000 (0x417F0000 + 0x200 * p) || meets b t (0x417F0200 + 0x200 * p) 0x41800000 ||
    g.perms &&& (pSysreg ||| pSeal ||| pUnseal) != 0

/-- Place a pair's sections and grants through the image window (R310, R382, R383). -/
def State.placePair (p : Nat) (im : List Byte) (ss : List Sec) (s : State) : State :=
  (ss.filter fun x => x.unit == p).foldl (fun s x =>
    if x.kind = 0x30 then s.wrRun (itcm p x.start) (x.data im)
    else if x.kind = 0x31 then s.wrRun (dtcm p x.start) (x.data im)
    else if x.kind = 0x33 then
      (grants (x.data im)).foldl (fun s g =>
        let k := dtcm p (0x3FF00 + 8 * g.slot)
        (s.wrLe k 8 g.cap.w.toNat).setTag (k / 8) g.cap.tag) s
    else s) s

/-- Load every store section but KP's own, through its port (R284, R382); whether all loads succeeded. -/
def State.loadStores (im : List Byte) (ss : List Sec) (s : State) : Bool × State :=
  ss.foldl (fun r x =>
    let one := fun (m store pair : Nat) (r : Bool × State) =>
      let s := r.2.freshLoad m store pair im x
      (r.1 && s.loadedOk m, s)
    if x.kind = 0x10 ∧ x.unit ≠ 20 then one 16 0 x.unit r
    else if x.kind = 0x11 ∧ x.unit ≠ 20 then one 16 1 x.unit r
    else if 0x20 ≤ x.kind ∧ x.kind ≤ 0x22 then
      (if x.unit = 0xFF then forN 16 (fun n r => one n (x.kind - 0x20) 0 r) r else one x.unit (x.kind - 0x20) 0 r)
    else r) (true, s)

/-- PERIOD and GRACE of a watchdog; a value of 0 is ignored (R377, spec/21 registers). -/
def State.wdConfig (p period grace : Nat) (s : State) : State :=
  let s := if period = 0 then s else s.sf (Reg.GLV_WDCFG p) F.GLV_WDCFG_PERIOD period
  if grace = 0 then s else s.sf (Reg.GLV_WDCFG p) F.GLV_WDCFG_GRACE grace

/-- Step 2 of R382: every memory but the staging area, and KP's own TCMs where the firmware stands, is filled with zeros. -/
def State.fillAll (s : State) : State :=
  let s := forN 20 (fun p s => s.zeroRange (itcm p 0) 0x80400) s
  let s := forN 16 (fun n s => s.zeroRange (scratch n 0) 0x200000) s
  (s.zeroRange (faultRam 20 0) 0x400).zeroRange (sram 0) 0x1800000

/-- The configuration of R377 that the firmware writes into registers. -/
def State.applyConfig (s : State) : State :=
  let s := s.wdConfig 20 (s.cfgVal 8 2 1000) (s.cfgVal 10 1 100)
  let s := forN 20 (fun p s => (s.wdConfig p (s.cfgVal 16 2 1000) (s.cfgVal 18 1 100)).sb (Reg.GLV_WDCFG p) F.GLV_WDCFG_EN
    (nbit (s.cfgVal 12 4 0) p)) s
  let s := forN 16 (fun n s => s.sf (Reg.WEAR_CFG n) F.WEAR_CFG_WSHIFT (s.cfgVal 11 1 33)) s
  let s := forN 20 (fun g s => ((s.sf (Reg.ADC_CAL_CFG g) F.ADC_CAL_CFG_EN 1).sf (Reg.ADC_CAL_CFG g) F.ADC_CAL_CFG_TOL 2).sf
    (Reg.ADC_CAL_CFG g) F.ADC_CAL_CFG_INTERVAL 100) s
  forN 2 (fun p s => s.sf (Reg.HIF_KHB p) F.HIF_KHB_TIMEOUT (s.cfgVal 0 2 50)) s

/-- FW_STARTED (R382): the firmware's start, step by step; a step that fails enters SAFE_HALT with its number, a package that
R383 refuses with cause 3. -/
def execFwStarted (s : State) : Res :=
  if s.dev != 1 || !s.keep.started then .next s
  else
    let im := s.image s.keep.imgLen
    let ss := sections im
    let s := s.applyConfig.fillAll
    let (ok, s) := s.loadStores im ss
    if !ok then .next (s.fwHalt 1 3)
    else if ss.any fun x => x.kind == 0x33 && (grants (x.data im)).any fun g => g.refused x.unit then .next (s.fwHalt 3 4)
    else if ss.any fun x => (x.kind == 0x30 || x.kind == 0x31) && decide (0x40000 < x.start + x.len) then .next (s.fwHalt 1 4)
    else
      let s := forN 20 (fun p s => s.placePair p im ss) s
      let s := ss.foldl (fun s x => if x.kind = 0x30 then s.release (2 ^ x.unit) else s) s
      let s := forN 20 (fun g s => s.refEnable g true) s
      let v := leAt im 12 4
      let s := forN 2 (fun p s => (s.wr (Reg.HIF_KFWVER p) (BitVec.ofNat 32 v)).wr (Reg.HIF_FWVER p) (BitVec.ofNat 32 v)) s
      .next ((s.setDev 2).raise 1677 0x78 v)

end Sys2Proof.Machine
end

