-- ==== Sys2Proof/Machine/Tick.lean ====
section
/-! DEFINITION. Steps of the fixed path (R25) that touch several units: tick 88, the balancer's program, tick 200, the listen
deadline, and the wear pass (spec/02, spec/05, spec/03, spec/06, spec/21). -/

namespace Sys2Proof.Machine

/-- The flight slots whose flight FC `n` leads. -/
def State.led (s : State) (n : Nat) : List Nat := (List.range 2).filter fun f => s.leads n f

/-- What tick 88 does to one flight (R72–R74, R83, R88, R89, R95, R112, R115). -/
def State.correctFlight (n f : Nat) (s : State) : State :=
  let s := (s.slotLinks n f).foldl (fun s l => s.mapLane l fun x => { x with bypassOn := x.bypass }) s
  let s := ((s.fixAvail n f).vestAll n f).direction n f
  let s := (s.keys n f).mapSlot n f fun y => { y with published := false }
  s.view n f

/-- The balancer program of FC `m` begins at tick 88 (R99). -/
def State.ucStart (m : Nat) (s : State) : State :=
  s.mapFc m fun x => { x with ucPc := s.lf m (Reg.BAL_UC_CTRL m) F.BAL_UC_CTRL_START, ucRun := true, ucTick := 88, lists := [] }

/-- CORRECTION_COMPLETE (R95): tick 88. -/
def execCorrectionComplete (n : Fin 16) (s : State) : Res :=
  let n := n.val
  if s.stepDue n 88 then
    let s := (s.stepAt n 88).publishSamples n
    let s := (s.led n).foldl (fun s f => s.correctFlight n f) s
    let s := s.latchZ n
    .next ((s.cycleFcs n).foldl (fun s m => s.ucStart m) s)
  else .next s

/-- The flight slot that the conditions of FC `m`'s balancer program refer to: slot 0 where it holds a flight, else slot 1 (of
the leader; log entry 20). -/
def State.ucSlot (s : State) (m : Nat) : Nat × Nat :=
  let n := s.leader m
  (n, if s.bound n 0 then 0 else 1)

/-- COND of a balancer word (R99). -/
def State.ucCond (s : State) (m c : Nat) : Bool :=
  let (n, f) := s.ucSlot m
  match c with
  | 0 => s.inGang m
  | 1 => n == m
  | 2 => ((s.members n 0).drop 1).all fun k => (s.fc n).lists.any fun e => e.1 == k - n
  | 3 => s.sigma n f == -1
  | 4 => (s.lv n (Reg.BAL_TBAND n f)).toNat == 0
  | 5 => s.lf n (Reg.BAL_FCFG n f) F.BAL_FCFG_WEAR_EN == 1
  | _ => false

/-- The order of two key slots: available cells first, then R89. -/
def State.keyBefore (s : State) (m a b : Nat) : Bool :=
  let x := s.lane a
  let y := s.lane b
  if x.avail != y.avail then x.avail
  else if !x.avail then decide (a < b)
  else
    match s.linkFlight a, s.linkFlight b with
    | some (n, f), some (n', f') => if (n, f) = (n', f') then s.before n f a b else decide (f < f')
    | _, _ => decide (a < b && m < 16)

/-- One compare-exchange stage on the 64 key slots: distance 2^`d`, direction alternating every 2^`blk` slots, comparator `k` of
the stage under bit `k` of the mask (R99). -/
def State.cxStage (s : State) (m d blk mask : Nat) (keys : List Nat) : List Nat :=
  let d := min d 5
  let pairs := (List.range 64).filter fun i => !nbit i d
  (List.range 32).foldl (fun ks k =>
    let i := pairs.getD k 0
    let j := i + 2 ^ d
    let a := ks.getD i 0
    let b := ks.getD j 0
    let asc := blk == 7 || !nbit i (max 1 blk)
    let swap := if asc then s.keyBefore m b a else s.keyBefore m a b
    if nbit mask k && swap then (ks.set i b).set j a else ks) keys

/-- Merge two ordered lists of key slots. -/
def State.mergeKeys (s : State) (m : Nat) (a b : List Nat) : List Nat :=
  a.foldr (fun x acc => insertBy (fun p q => s.keyBefore m p q) x acc) b

/-- The ranking goes to the token stage of every flight that the FC leads (R99). -/
def State.ucPublish (m : Nat) (s : State) : State :=
  (s.led m).foldl (fun s f => s.publishRank m f (s.fc m).keys) s

/-- The program of FC `m` stops at once on an unusable word, as R99 gives for tick 236 (R288). -/
def State.ucAbort (m : Nat) (s : State) : State :=
  let s := (s.led m).foldl (fun s f => s.ucDeadline m f) s
  s.mapFc m fun x => { x with ucRun := false }

/-- One balancer word of FC `m` (R99). LOAD fills the key slots with the lanes of the FC, whose E stands since tick 88 (R89);
BUCKET gives them their B. -/
def State.ucWord (m w : Nat) (s : State) : State :=
  let x := s.fc m
  let keyop := nbits w 14 2
  let mrg := nbits w 56 2
  let src := nbits w 58 2
  let dur := (if keyop = 1 then 4 else if keyop = 2 then 2 else if mrg = 2 then 8 else 1)
  if mrg = 2 && !x.lists.any (fun e => e.1 == src) then s.mapFc m fun x => { x with ucTick := x.ucTick + 1 }
  else
    let n := s.leader m
    let s := s.atTick ((s.fc n).cycTick + x.ucTick + dur)
    let s := if keyop = 1 then s.mapFc m fun x => { x with keys := (List.range 64).map (64 * m + ·) } else s
    let s := if keyop = 2 then forN 64 (fun i s => s.mapLane (64 * m + i) fun x => { x with slotB := x.keyB }) s else s
    let s := if nbit w 16 then
        let ks := s.cxStage m (nbits w 17 3) (nbits w 20 3) (nbits w 24 32) (s.fc m).keys
        s.mapFc m fun x => { x with keys := ks }
      else s
    let s := if mrg = 1 then
        let ks := (s.fc m).keys
        if n = m then s else s.mapFc n fun x => { x with lists := tput x.lists (m - n) ks }
      else if mrg = 2 then
        let ks := s.mergeKeys m (tget [] (s.fc m).lists src) (s.fc m).keys
        s.mapFc m fun x => { x with keys := ks }
      else s
    let s := if nbit w 60 then s.ucPublish m else s
    let jump := nbits w 9 2 == 1 || (nbits w 9 2 == 2 && s.ucCond m (nbits w 11 3))
    s.mapFc m fun x => { x with ucPc := if jump then nbits w 0 9 else (x.ucPc + 1) % 512, ucTick := x.ucTick + dur,
                                ucRun := nbits w 9 2 != 3 }

/-- BAL_MICROWORD (R99): the balancer of an FC executes one word between ticks 88 and 236. -/
def execBalMicroword (m : Fin 16) (s : State) : Res :=
  let m := m.val
  let x := s.fc m
  if s.cycling m && x.ucRun && decide (x.ucTick < 236) then
    let s := s.csNoteFc m 2 x.ucPc
    match s.csWord m 2 x.ucPc with
    | none => .next (s.ucAbort m)
    | some w => .next (s.ucWord m w)
  else .next s

/-- Whether Inner pair `n` does not run in the sense of R203: it is restarting, failed, in a pair reset, or recalled. -/
def State.pairDown (s : State) (n : Nat) : Bool :=
  let st := s.fld (Reg.GLV_STAT n) F.GLV_STAT_STATE
  st == 1 || st == 2 || (tget CoreSt.init s.cores n).reset.isSome || nbit (s.rn Reg.GLV_RECALL) n

/-- The hold rule at tick 200 (R203): the governing pair does not run. The cause, once asserted, stays for the run of hold cycles,
whose first excess alone sets the flag and raises the event. A cycle that is none lets a matching FC_INNER_DONE of its first 200
ticks reset CONSEC (R32, log entry 64). -/
def State.judgeHold (n : Nat) (s : State) : State :=
  let h := s.pairDown n
  let lim := s.fld (Reg.GLV_CFG n) F.GLV_CFG_HOLD_LIMIT
  let old := s.fld (Reg.GLV_HOLD n) F.GLV_HOLD_HOLD_CNT
  let c := if h then min 15 (old + 1) else 0
  let on := nbit (s.rn (Reg.SLU_FCSRC n)) 7
  let due := (s.fc n).consecDue
  let s := s.sf (Reg.GLV_HOLD n) F.GLV_HOLD_HOLD_CNT c
  let s := s.mapFc n fun x => { x with holdCyc := h, consecDue := false }
  let s := if due && !h then s.consecClear n else s
  let s := s.setCause n 7 (h && (on || decide (lim < c)))
  if h && !on && decide (lim < c) then
    (s.flag (Reg.GLV_STAT n) F.GLV_STAT_HOLD_EXC).raise (1024 + 24 * n + 2) 0x4B (c + 65536 * s.count16 n)
  else s

/-- N_READY (R84): tick 200; the hold cycle is judged, N, F, x and the reciprocal are published, and line 1 of the Inner pair of
every FC of the cycle is pulsed (R339). -/
def execNReady (n : Fin 16) (s : State) : Res :=
  let n := n.val
  if s.stepDue n 200 then
    let s := (s.stepAt n 200).judgeHold n
    let s := (s.led n).foldl (fun s f => s.modulate n f) s
    .next ((s.cycleFcs n).foldl (fun s m => s.line m 1) s)
  else .next s

/-- The verdict on one lane at the listen deadline; `k` is the cycle whose up barges are judged (R28, R47, R48, R57). A lane that is
neither READY nor DEGRADED has no good up barge, and its MISS counts (R109); a reply in training carries no VCAP for the ledger
(DEDUCED, log entry 82). -/
def State.listenLane (l : Nat) (k : Word) (s : State) : State :=
  let st := s.laneState l
  let x := s.lane l
  let s0 := s.mapLane l fun x => { x with rx := none }
  if st = 1 || st = 2 || st = 3 then (s.trainStep l k.toNat).ledMiss l
  else if !s.laneUp l then s0.ledMiss l
  else if !s.judged l k then s0
  else
    match x.rx with
    | none => (s0.badBarge l true).ledMiss l
    | some r =>
      if r.goodCtrl l k.toNat then
        let s := s0.mapLane l fun x => { x with temp := sx 16 (leAt r.bytes 12 2) }
        (s.goodBarge l r.bytes).ledGood l (leAt r.bytes 8 2)
      else (s0.badBarge l false).ledMiss l

/-- LISTEN_DEADLINE (R28): tick 64 judges the up barges of the previous cycle. -/
def execListenDeadline (n : Fin 16) (s : State) : Res :=
  let n := n.val
  if s.stepDue n 64 && !(s.fc n).fresh then
    let s := s.stepAt n 64
    let k := s.count n - 1
    .next ((s.cycleFcs n).foldl (fun s m => (forN 64 (fun i s => s.listenLane (64 * m + i) k) s).wakeAll m 1) s)
  else .next s

/-- A field of the class table of FC `m`: `n` bytes from byte `o` (R394). -/
def State.wearTbl (s : State) (m c o n : Nat) : Nat :=
  nbits (s.rn (Reg.WEAR_TBL m c (o / 4))) (8 * (o % 4)) (8 * n)

/-- A counted cycle of the rainflow counter: range, maximum, full or half (R392). -/
def State.wearCount (l c : Nat) (a b : Int) (full : Bool) (s : State) : State :=
  let m := l / 64
  let y := (b - a).natAbs
  let top := max a b
  let r := min (y / s.wearTbl m c 46 2) 15
  let tbin := s.wearTbl m c 50 2
  let bin := ((top - 1024 * sx 16 (s.wearTbl m c 48 2)) / (1024 * tbin : Int))
  let mm := min (max bin 0) 15
  let d := s.wearTbl m c (64 + 4 * (16 * mm.toNat + r)) 4
  let s := { s with wears := tput s.wears l (let w := tget WearSt.init s.wears l
                                             { w with dmg := (w.dmg + (if full then 2 * d else d)) % 2 ^ 64 }) }
  let rec_ := Reg.WEAR_REC m (l % 64)
  let s := s.wr (rec_ 7) (BitVec.ofNat 32 (max (s.rn (rec_ 7)) y))
  s.incSat (if full then rec_ 4 else rec_ 5) ⟨0, 32⟩

/-- Change the wear state of a lane. -/
def State.mapWear (s : State) (l : Nat) (f : WearSt → WearSt) : State :=
  { s with wears := tput s.wears l (f (tget WearSt.init s.wears l)) }

/-- The wear state of a lane. -/
def State.wear (s : State) (l : Nat) : WearSt := tget WearSt.init s.wears l

/-- The counting after a push (R391): while at least three points stand, the newest `z`, `y` and `x` under it. -/
def State.rainflow (l c : Nat) : Nat → State → State
  | 0, s => s
  | k + 1, s =>
    match (s.wear l).stack with
    | z :: y :: x :: rest =>
      if (z - y).natAbs < (y - x).natAbs then s
      else if rest = [] then
        State.rainflow l c k ((s.wearCount l c x y false).mapWear l fun w => { w with stack := [z, y] })
      else State.rainflow l c k ((s.wearCount l c x y true).mapWear l fun w => { w with stack := z :: rest })
    | _ => s

/-- A reversal is pushed (R391): onto a full stack only after the oldest range is counted as a half cycle. -/
def State.wearPush (l c : Nat) (v : Int) (s : State) : State :=
  let st := (s.wear l).stack
  let s := if st.length < 8 then s
    else
      let old := st.getD 7 0
      ((s.wearCount l c old (st.getD 6 0) false).mapWear l fun w => { w with stack := st.take 7 })
  State.rainflow l c 8 (s.mapWear l fun w => { w with stack := v :: w.stack })

/-- The rainflow counter takes a temperature (R391). Before the first movement the pending extreme has no direction. -/
def State.wearFollow (l c : Nat) (tj : Int) (s : State) : State :=
  let w := s.wear l
  let hyst : Int := s.wearTbl (l / 64) c 44 2
  match w.up with
  | none =>
    if tj = w.pend then s else s.mapWear l fun w => { w with pend := tj, up := some (decide (w.pend < tj)) }
  | some true =>
    if w.pend ≤ tj then s.mapWear l fun w => { w with pend := tj }
    else if hyst ≤ w.pend - tj then
      (s.wearPush l c w.pend).mapWear l fun w => { w with pend := tj, up := some false }
    else s
  | some false =>
    if tj ≤ w.pend then s.mapWear l fun w => { w with pend := tj }
    else if hyst ≤ tj - w.pend then
      (s.wearPush l c w.pend).mapWear l fun w => { w with pend := tj, up := some true }
    else s

/-- The loss p of a lane (R389). -/
def State.wearLoss (s : State) (n f l c : Nat) : Int :=
  let t := s.tcyc n
  let x := s.lane l
  let w := (s.slot n f).wins.getD 0 { ip := 0, d := 0, posted := false }
  let lv := x.hist.getD 0 (0, 0)
  let ton := (if lv.1 = 0 then 0 else w.d) + (if lv.2 = 0 then 0 else t - w.d)
  let ne := ((s.edgeField l).filter fun e => e != 0xFFFFF).length
  if !x.avail then 0
  else usatI 32 (rhe ((w.ip.natAbs * (s.wearTbl (l / 64) c 4 4 * ton + s.wearTbl (l / 64) c 8 4 * ne) : Nat) : Int) t)

/-- One thermal stage (R390). -/
def wearStage (th : Int) (r tau dt : Nat) (p : Int) : Int :=
  let a := rhe (65536 * dt) (tau + dt)
  satI 32 (th + rhe (a * (rhe (r * p) (2 ^ 22) - th)) 65536)

/-- The wear pass of one lane (R389–R392). -/
def State.wearLane (n f l : Nat) (s : State) : State :=
  let m := l / 64
  let i := l % 64
  let c := nbits (s.cdesc l 0) 24 8 % 8
  let dt := if s.bit (Reg.WEAR_CFG m) F.WEAR_CFG_DIV then 512 * s.tcyc n else s.tcyc n
  let p := s.wearLoss n f l c
  let th := (List.range 4).map fun k =>
    wearStage ((s.wear l).th.getD k 0) (s.wearTbl m c (12 + 4 * k) 4) (s.wearTbl m c (28 + 4 * k) 4) dt p
  let tj := satI 32 (th.foldl (· + ·) (64 * (s.lane l).temp))
  let s := (s.mapWear l fun w => { w with th := th }).wearFollow l c tj
  let rank := min ((s.wear l).dmg / 2 ^ s.fld (Reg.WEAR_CFG m) F.WEAR_CFG_WSHIFT) 255
  let s := s.mapLane l fun x => { x with wrank := rank }
  let r := Reg.WEAR_REC m i
  let s := s.wr (r 0) (BitVec.ofNat 32 (l + 65536 * c + 2 ^ 24 * rank))
  let s := s.wr (r 1) (BitVec.ofInt 32 tj)
  let s := s.w64 (r 2) (s.wear l).dmg
  let s := s.wr (r 6) (BitVec.ofInt 32 (max tj (s.rg (r 6)).toInt))
  let s := forN 4 (fun k s => s.wr (r (8 + k)) (BitVec.ofInt 32 (th.getD k 0))) s
  let s := s.w64 (r 12) s.ts
  s.wr (r 14) (BitVec.ofNat 32 (s.wear l).stack.length)

/-- The wear unit of FC `m` (R389): every lane of it that belongs to a RUNNING or HELD flight. -/
def State.wearUnit (n m : Nat) (s : State) : State :=
  if s.bit (Reg.WEAR_CFG m) F.WEAR_CFG_DIV && (s.count n).toNat % 512 != 0 then s
  else
    let s := (s.led n).foldl (fun s f =>
      if s.runs n f then ((s.slotLinks n f).filter fun l => l / 64 == m).foldl (fun s l => s.wearLane n f l) s else s) s
    s.sf (Reg.WEAR_STAT m) F.WEAR_STAT_PASS_CYC (s.count16 n)

/-- WEAR_PASS (R389): ticks 552–680, dated at its start. -/
def execWearPass (n : Fin 16) (s : State) : Res :=
  let n := n.val
  if s.stepDue n 553 then
    let s := (s.atTick ((s.fc n).cycTick + 552)).mapFc n fun x => { x with done := 553 :: x.done }
    .next ((s.cycleFcs n).foldl (fun s m => s.wearUnit n m) s)
  else .next s

end Sys2Proof.Machine
end

