-- ==== Sys2Proof/Machine/Keeper.lean ====
section
/-! DEFINITION. The Keeper's own commands (spec/20_commands.md), trip policy and windows (spec/09_sluice_trip.md R177–R180),
streams, wear records, request rings and shedding (spec/21_keeper_background.md). -/

namespace Sys2Proof.Machine

/-- IDENTIFY (R368). -/
def State.identify (e : Entry) (s : State) : State :=
  if !zeroes e 8 48 then s.reply e stBadParam
  else
    let p := e.port.val
    s.replyOk e (b2n s.devMode + 2 * b2n s.pwr.kpFail + 256 * Config.bootRomVersion.toNat)
      [s.rn (Reg.HIF_IDENT p), s.rn (Reg.HIF_SERIAL_LO p), s.rn (Reg.HIF_SERIAL_HI p), s.rn (Reg.HIF_FWVER p)]

def execIdentify (e : Entry) (s : State) : Res := .next (s.take 0x01 e State.identify)

/-- The mask of the flights whose state satisfies `f`. -/
def State.flightMask (s : State) (f : Nat → Bool) : Nat :=
  forN 32 (fun fl m => if f (s.flightState fl) then m + 2 ^ fl else m) 0

/-- The groups that are latched and whose flight mask holds a flight. -/
def State.groupsOf (s : State) (fl : Nat) : Nat := (s.flightGroups fl).foldl (fun m g => m + 2 ^ g) 0

/-- GET_STATE (R368). -/
def State.getState (e : Entry) (s : State) : State :=
  if !zeroes e 8 48 then s.reply e stBadParam
  else if eTarget e < 32 then
    let fl := eTarget e
    let (cnt, r0, r1) := match s.slotOf fl with
      | some (n, f) =>
        (s.count16 n, s.availN n f + 65536 * s.nReq n f, n + 16 * s.fld (Reg.FC_FLT_CFG n f) F.FC_FLT_CFG_GANG + 64 * f)
      | none => (0, 0, 0)
    s.replyOk e cnt [r0, r1, s.groupsOf fl, 0]
  else
    s.replyOk e (if s.dev = 4 then s.keep.cause else 0)
      [s.flightMask (· != 0), s.flightMask fun st => st == 3 || st == 4, s.flightMask (· == 5),
        s.owner + 4 * b2n s.keep.locked + 8 * b2n s.devMode]

def execGetState (e : Entry) (s : State) : Res := .next (s.take 0x05 e State.getState)

/-- GET_SELFTEST (R368). -/
def State.getSelftest (e : Entry) (s : State) : State :=
  if !zeroes e 8 48 then s.reply e stBadParam
  else
    s.replyOk e s.keep.selftest
      [s.fld Reg.GLV_BIST F.GLV_BIST_START_PASS, s.rn Reg.MEM_BIST_PAIR, s.rn Reg.MEM_BIST_FC,
        s.fld Reg.GLV_BIST F.GLV_BIST_DONE + 2 * s.fld Reg.MEM_STAT F.MEM_STAT_BIST_DONE + 4 * b2n s.keep.otpOk]

def execGetSelftest (e : Entry) (s : State) : Res := .next (s.take 0x06 e State.getSelftest)

/-- SET_TIME (R329). -/
def State.setTime (e : Entry) (s : State) : State :=
  let mode := ent e 8 1
  let v := sx 64 (ent e 16 8)
  if 1 < mode || !zeroes e 9 16 || !zeroes e 24 48 || (mode == 1 && decide (2147483648 ≤ v.natAbs)) then s.reply e stBadParam
  else if mode = 0 then (if s.anyRun then s.reply e stConflict else (s.stepTs (ent e 16 8)).replyOk e 0 [])
  else (s.slewBegin v).replyOk e 0 []

def execSetTime (e : Entry) (s : State) : Res := .next (s.take 0x07 e State.setTime)

/-- RESET_DEVICE (R369): the reply goes out, then the device reset begins. -/
def State.resetDevice (e : Entry) (s : State) : State :=
  if ent e 8 1 ≠ 0xA5 || !zeroes e 9 48 then s.reply e stBadParam
  else if s.anyRun then s.reply e stConflict
  else
    let p := e.port.val
    let s := s.replyOk e 0 []
    (Nat.repeat (State.replyWrite p) (s.port p).outbox.length s).deviceReset true

def execResetDevice (e : Entry) (s : State) : Res := .next (s.take 0x0F e State.resetDevice)

/-- The nine values of a SET_TRIP_POLICY for the registers of its group (R178). -/
def tripValues (e : Entry) : List Nat :=
  ((List.range 5).map fun i => ent e (8 + 4 * i) 4) ++ [ent e 28 2 ||| 0x107, ent e 32 4, ent e 36 4,
    ent e 43 1 % 2 + 2 * (ent e 40 1 % 2) + 4 * (ent e 41 1 % 2) + 256 * (ent e 42 1 % 32)]

/-- Whether a SET_TRIP_POLICY tightens every field that it changes (R180). -/
def State.tripTightens (s : State) (g : Nat) (e : Entry) : Bool :=
  let old := (groupRegs g).map s.rn
  let new := tripValues e
  let o := s.rn (Reg.SLU_GCFG g)
  ((List.range 8).all fun i => old.getD i 0 &&& new.getD i 0 == old.getD i 0) &&
    (o % 2 == 0 || ent e 43 1 == 1) && (ent e 40 1 == 0 || o / 2 % 2 == 1) && (ent e 41 1 == o / 4 % 2 ||
      (ent e 41 1 == 0 && ent e 32 4 == 0)) && ent e 42 1 == o / 256 % 32

/-- SET_TRIP_POLICY (R178, R180). -/
def State.setTripPolicy (e : Entry) (s : State) : State :=
  let g := eTarget e
  if 1 < ent e 40 1 || 1 < ent e 41 1 || 31 < ent e 42 1 || 1 < ent e 43 1 || !zeroes e 30 32 || !zeroes e 44 48 ||
      (ent e 41 1 == 1 && ent e 32 4 != 0) then s.reply e stBadParam
  else if s.latched g then s.reply e stConflict
  else if s.sluLocked && !s.tripTightens g e then s.reply e stLocked
  else
    let s := ((groupRegs g).zip (tripValues e)).foldl (fun s x =>
      { s with staged := tput s.staged x.1 (BitVec.ofNat 32 x.2) }) s
    (s.commitGroup g).replyOk e 0 []

def execSetTripPolicy (e : Entry) (s : State) : Res := .next (s.take 0x50 e State.setTripPolicy)

/-- CLEAR_TRIP (R172, R177). -/
def State.clearTrip (e : Entry) (s : State) : State :=
  let m := eTarget e
  if m = 0 || !zeroes e 8 48 then s.reply e stBadParam
  else
    let gs := (List.range 32).filter fun g => nbit m g && s.latched g
    let bad := gs.filter fun g => s.groupMask g &&& s.activeMask != 0
    let mask := fun (l : List Nat) => l.foldl (fun a g => a + 2 ^ g) 0
    if bad.isEmpty then
      (gs.foldl (fun s g => (s.clearGroup g).2.raise 1664 0x31 g) s).replyOk e 0 [mask gs]
    else
      let low := bad.foldl (fun a g => min a (s.lowestActive g)) 255
      (bad.foldl (fun s g => (s.flag (Reg.SLU_GSTAT g) F.SLU_GSTAT_CLR_REFUSED).raise 1664 0x32 (g + 256 * s.lowestActive g)) s).replyTo
        e true false stActive 0 [mask bad, low]

def execClearTrip (e : Entry) (s : State) : Res := .next (s.take 0x51 e State.clearTrip)

/-- Whether the RWL fields of comparator `c` are locked (R15). -/
def State.cmpLocked (s : State) (c : Nat) : Bool :=
  if c < 64 then s.fcLocked (c / 4) else s.bit Reg.CMP_LOCK F.CMP_LOCK_LOCK

/-- A TBASE that R165 gives. -/
def tbaseOk (t : Nat) : Bool := decide (t < 0x10) || (decide (0x20 ≤ t) && decide (t < 0x40))

/-- K and N within the limits of R163. -/
def majOk (k n : Nat) : Bool := decide (1 ≤ n) && decide (n ≤ 15) && decide (n < 2 * k) && decide (k ≤ n)

/-- The register words of a SET_WINDOW, from CMP_CFG to CMP_BOFF (R179). -/
def windowWords (e : Entry) : List Nat :=
  let f := fun o n => ent e o n
  [f 13 1 % 4 + 4 * f 14 1 + 16 * f 24 1 + 256 * f 25 1, f 8 2 % 4096 + 65536 * (f 10 2 % 4096),
    f 15 1 + 16 * f 16 1 + 256 * f 12 1, f 17 1 + 65536 * f 18 2, f 20 4]

/-- Whether the values of a SET_WINDOW are in range (R179). -/
def windowOk (e : Entry) : Bool :=
  let f := fun o n => ent e o n
  let lo := sx 16 (f 8 2)
  let hi := sx 16 (f 10 2)
  decide (-2048 ≤ lo) && decide (lo ≤ 2047) && decide (-2048 ≤ hi) && decide (hi ≤ 2047) && decide (f 12 1 ≤ 31) &&
    decide (f 13 1 ≤ 3) && decide (f 14 1 ≤ 2) && majOk (f 15 1) (f 16 1) && decide (f 20 4 < 262144) && decide (f 24 1 ≤ 1) &&
    tbaseOk (f 25 1) && zeroes e 26 48 && !(f 13 1 == 3 && decide (hi - f 12 1 ≤ lo + f 12 1))

/-- Whether a SET_WINDOW tightens every field that it changes (R180). -/
def State.windowTightens (s : State) (c : Nat) (e : Entry) : Bool :=
  let w := s.winRegs c
  let cfg := s.rn (Reg.CMP_CFG c)
  decide (sx 16 (ent e 10 2) ≤ w.high) && decide (w.low ≤ sx 16 (ent e 8 2)) && (cfg % 4) &&& ent e 13 1 == cfg % 4 &&
    decide (ent e 18 2 ≤ s.fld (Reg.CMP_BLANK c) F.CMP_BLANK_BLEN) && cfg / 4 % 4 == ent e 14 1 && cfg / 16 % 2 == ent e 24 1 &&
    cfg / 256 % 256 == ent e 25 1 && s.rn (Reg.CMP_FILT c) == (windowWords e).getD 2 0 &&
    s.fld (Reg.CMP_BLANK c) F.CMP_BLANK_BSRC == ent e 17 1 && s.rn (Reg.CMP_BOFF c) == ent e 20 4

/-- SET_WINDOW (R179, R439). -/
def State.setWindow (e : Entry) (s : State) : State :=
  let c := eTarget e
  if !windowOk e then s.reply e stBadParam
  else if s.cmpLocked c && !s.windowTightens c e then s.reply e stLocked
  else
    let s := s.beginSettle c
    let s := ([Reg.CMP_CFG c, Reg.CMP_THR c, Reg.CMP_FILT c, Reg.CMP_BLANK c, Reg.CMP_BOFF c].zip (windowWords e)).foldl
      (fun s x => s.wr x.1 (BitVec.ofNat 32 x.2)) s
    (s.judgeCmp c true).replyOk e 0 []

def execSetWindow (e : Entry) (s : State) : Res := .next (s.take 0x52 e State.setWindow)

/-- LOCK_LIMITS (R371). -/
def State.lockLimits (e : Entry) (s : State) : State :=
  if !zeroes e 8 48 then s.reply e stBadParam
  else
    let s := forN 16 (fun n s => s.flag (Reg.FC_LOCK n) F.FC_LOCK_LOCK) s
    let s := ((s.flag Reg.CMP_LOCK F.CMP_LOCK_LOCK).flag Reg.SLU_LOCK F.SLU_LOCK_LOCK).flag Reg.GLV_LOCK F.GLV_LOCK_LOCK
    ((s.mapKeep fun k => { k with locked := true }).setDev 3).replyOk e 0 []

def execLockLimits (e : Entry) (s : State) : Res := .next (s.take 0x53 e State.lockLimits)

/-- An internal address of a range that BAR2 mirrors (R347). -/
def mirrored (a : Nat) : Bool :=
  (decide (0x40000000 ≤ a) && decide (a < 0x42000000)) || (decide (0x60000000 ≤ a) && decide (a < 0x61000000)) ||
    (decide (0x70000000 ≤ a) && decide (a < 0x70080000))

/-- Stream `t` of a port. -/
def State.stream (s : State) (p t : Nat) : Option Stream := tget none (s.port p).streams t

def State.setStream (p t : Nat) (x : Option Stream) (s : State) : State :=
  s.mapPort p fun y => { y with streams := tput y.streams t x }

/-- OPEN_STREAM (R374). -/
def State.openStream (e : Entry) (s : State) : State :=
  let t := eTarget e
  let f := fun o n => ent e o n
  if eBufLen e ≠ 4 * f 9 1 then s.reply e stBadLength
  else if 15 < f 8 1 || f 9 1 == 0 || 11 < f 9 1 || f 10 2 == 0 || f 12 1 < 4 || 16 < f 12 1 || 63 < f 13 1 || 1 < f 14 1 ||
      f 15 1 != 0 || f 16 8 % 4096 != 0 || f 24 8 % 4 != 0 || !zeroes e 32 48 then s.reply e stBadParam
  else
    s.withBuf e fun b s =>
      let ws := (List.range (f 9 1)).map fun k => leAt b (4 * k) 4
      if ws.any fun a => a % 4 != 0 || !mirrored a then s.reply e stBadParam
      else if (s.stream e.port t).isSome || !s.runOn (f 8 1) then s.reply e stConflict
      else
        (s.setStream e.port t (some
          { fc := f 8 1, words := ws, decim := f 10 2, sizeExp := f 12 1, vec := f 13 1, irq := f 14 1 == 1, ring := f 16 8,
            twb := f 24 8, left := 0, seq := 0, due := none, written := 0, skipped := 0, lastSeq := 0 })).replyOk e 0 []

def execOpenStream (e : Entry) (s : State) : Res := .next (s.take 0x80 e State.openStream)

/-- CLOSE_STREAM (R376). A record that is due and whose words have not been read is not in progress (DEDUCED, log entry 94). -/
def State.closeStream (e : Entry) (s : State) : State :=
  if !zeroes e 8 48 then s.reply e stBadParam
  else
    match s.stream e.port (eTarget e) with
    | none => s.reply e stConflict
    | some x => (s.setStream e.port (eTarget e) none).replyOk e 0 [x.written % 2 ^ 32, x.skipped % 2 ^ 32, x.lastSeq]

def execCloseStream (e : Entry) (s : State) : Res := .next (s.take 0x81 e State.closeStream)

/-- The wear record of a link, in the layout of WEAR_RECi (R393). -/
def State.wearRecord (s : State) (l : Nat) : List Byte :=
  ((List.range 16).map fun k => leBytes 4 (s.rn (Reg.WEAR_REC (l / 64) (l % 64) k))).flatten

/-- GET_WEAR (R372). -/
def State.getWear (e : Entry) (s : State) : State :=
  let n := ent e 8 2
  if eBufLen e ≠ 64 * n then s.reply e stBadLength
  else if n == 0 || 1024 < n || 1024 < eTarget e + n || !zeroes e 10 48 then s.reply e stBadParam
  else s.replyBuf e true ((List.range n).map fun i => s.wearRecord (eTarget e + i)).flatten 0 []

def execGetWear (e : Entry) (s : State) : Res := .next (s.take 0x90 e State.getWear)

/-- Whether a damage table is acceptable (R394). -/
def wearTblOk (b : List Byte) : Bool :=
  leAt b 0 2 == 1 && leAt b 2 2 == 0 && leAt b 44 2 != 0 && leAt b 46 2 != 0 && leAt b 50 2 != 0 && leAt b 52 12 == 0 &&
    leAt b 1088 3008 == 0

/-- SET_WEAR_MODEL (R372, R394). -/
def State.setWearModel (e : Entry) (s : State) : State :=
  if eBufLen e ≠ 4096 then s.reply e stBadLength
  else if !zeroes e 8 48 then s.reply e stBadParam
  else
    s.withBuf e fun b s =>
      if !wearTblOk b then s.reply e stBadParam
      else
        (forN 16 (fun n s => forN 272 (fun k s =>
          s.wr (Reg.WEAR_TBL n (eTarget e) k) (BitVec.ofNat 32 (leAt b (4 * k) 4))) s) s).replyOk e 0 []

def execSetWearModel (e : Entry) (s : State) : Res := .next (s.take 0x91 e State.setWearModel)

/-- TAKE_OWNERSHIP (R351, R396). -/
def State.takeOwnership (e : Entry) (s : State) : State :=
  if !zeroes e 8 48 then s.reply e stBadParam
  else (s.setOwner e.port (e.port + 1)).cancelLoss.replyOk e 0 []

def execTakeOwnership (e : Entry) (s : State) : Res := .next (s.take 0xA0 e State.takeOwnership)

/-- RELEASE_OWNERSHIP (R351). -/
def State.releaseOwnership (e : Entry) (s : State) : State :=
  if !zeroes e 8 48 then s.reply e stBadParam else (s.setOwner e.port 0).replyOk e 0 []

def execReleaseOwnership (e : Entry) (s : State) : Res := .next (s.take 0xA1 e State.releaseOwnership)

/-- HEARTBEAT (R350, R373). -/
def State.heartbeatCmd (e : Entry) (s : State) : State :=
  if !zeroes e 8 48 then s.reply e stBadParam
  else
    let s := s.heartbeat e.port
    s.replyOk e 0 [s.owner]

def execHeartbeat (e : Entry) (s : State) : Res := .next (s.take 0xA2 e State.heartbeatCmd)

/-- Address of record `k` of the request ring of pair `p` (R386). -/
def ringRec (p k : Nat) : Nat := 0x417F0000 + 0x200 * p + 32 * k

/-- A record that the Keeper has not served yet: its SEQ differs from the one last served there (log entry 32). -/
def State.ringNew (s : State) (p k : Nat) : Bool := (s.rdByte (ringRec p k + 1)).toNat != tget 0 s.rings (16 * p + k)

/-- The reply to a record: bytes 2 to 31, and SEQ last. -/
def State.ringReply (p k : Nat) (b : List Byte) (s : State) : State :=
  let seq := s.rdByte (ringRec p k + 1)
  let s := (s.wrBytes (ringRec p k + 2) b).wrByte (ringRec p k + 1) seq
  { s with rings := tput s.rings (16 * p + k) seq.toNat }

/-- A service of the Keeper for record `k` of pair `p`, if it is the service that the record asks for. -/
def State.ringServe (svc p k : Nat) (body : State → State) (s : State) : State :=
  if s.fwRuns && p < 20 && s.ringNew p k && (s.rdByte (ringRec p k)).toNat == svc then body s else s

/-- RING_POLL (R386): the Keeper polls every ring; a record with an unknown SERVICE receives 0xFF in byte 2. -/
def execRingPoll (s : State) : Res :=
  if s.fwRuns then
    .next (forN 20 (fun p s => forN 16 (fun k s =>
      let v := (s.rdByte (ringRec p k)).toNat
      if s.ringNew p k && v != 1 && v != 2 && v != 3 then s.ringReply p k (0xFF :: List.replicate 29 0) else s) s) s)
  else .next s

/-- FW_TRIP (R386): the service sets or clears the SLU_FWTRIP bit that the package assigns to the pair. -/
def execFwTrip (p : Fin 21) (k : Fin 16) (bit : Fin 4) (on : Bool) (s : State) : Res :=
  .next (s.ringServe 1 p k (fun s =>
    (s.fwTrip (setBit (s.rn Reg.SLU_FWTRIP) bit on)).ringReply p k (List.replicate 30 0)))

/-- LOG (R386, R399): the record is queued as event 0x7E; its text stays in the ring. -/
def execLog (p : Fin 21) (k : Fin 16) (s : State) : Res :=
  .next (s.ringServe 2 p k fun s => (s.raise 1677 0x7E p).ringReply p k (List.replicate 2 0))

/-- TIME (R386): the service returns TS, in bytes 4 to 11 of the record (log entry 32). -/
def execTime (p : Fin 21) (k : Fin 16) (s : State) : Res :=
  .next (s.ringServe 3 p k fun s => s.ringReply p k (List.replicate 2 0 ++ leBytes 8 s.ts ++ List.replicate 20 0))

/-- Shedding begins or ends (R387, R395). -/
def State.setShed (on : Bool) (s : State) : State :=
  let s := forN 16 (fun n s => s.sb (Reg.WEAR_CFG n) F.WEAR_CFG_DIV on) s
  let s := forN 2 (fun p s => s.sb (Reg.HIF_KSHED p) F.HIF_KSHED_SHED on) s
  (s.mapKeep fun k => { k with cool := none }).raise 1677 0x7A (b2n on + 256 * (enc 8 (s.thmMax / 16)))

/-- THERMAL_READ (R395): the Keeper's reading of the hottest sensor. -/
def execThermalRead (s : State) : Res :=
  let shed := s.bit (Reg.HIF_KSHED 0) F.HIF_KSHED_SHED
  let m := s.thmMax
  if !s.fwRuns then .next s
  else if 1680 < m then .next (if shed then s.mapKeep fun k => { k with cool := none } else s.setShed true)
  else if !shed then .next s
  else if 1648 ≤ m then .next (s.mapKeep fun k => { k with cool := none })
  else
    match s.keep.cool with
    | none => .next (s.mapKeep fun k => { k with cool := some s.tick })
    | some t => .next (if t + 800000000 ≤ s.tick then s.setShed false else s)

end Sys2Proof.Machine
end

