-- ==== Sys2Proof/Machine/Sample.lean ====
section
/-! DEFINITION. The sample instant and the end of cycling (spec/02_control_cycle.md), what the Keeper's waiting commands do then
(R29, R76, R79, R363), and the ends of rebases, path tests and scrubs. -/

namespace Sys2Proof.Machine

/-- Carry out a command whose turn has come (R363), by its opcode. -/
def State.runBody (e : Entry) (s : State) : State :=
  match eOp e with
  | 0x01 => s.identify e
  | 0x02 => s.loadFwChunk e
  | 0x03 => s.authFw e
  | 0x04 => s.startFw e
  | 0x05 => s.getState e
  | 0x06 => s.getSelftest e
  | 0x07 => s.setTime e
  | 0x0F => s.resetDevice e
  | 0x10 => s.bindFlight e
  | 0x11 => s.unbindFlight e
  | 0x12 => s.setCellMap e
  | 0x13 => s.setCellParams e
  | 0x14 => s.bypassCell e
  | 0x30 => s.loadObserver e
  | 0x31 => s.swapCoeff e
  | 0x32 => s.setReference e
  | 0x33 => s.startFlight e
  | 0x34 => s.stopFlight e
  | 0x35 => s.holdFlight e
  | 0x50 => s.setTripPolicy e
  | 0x51 => s.clearTrip e
  | 0x52 => s.setWindow e
  | 0x53 => s.lockLimits e
  | 0x60 => s.setUserCal e
  | 0x61 => s.getFactoryCal e
  | 0x62 => s.runPathTest e
  | 0x70 => s.scrubRange e
  | 0x80 => s.openStream e
  | 0x81 => s.closeStream e
  | 0x90 => s.getWear e
  | 0x91 => s.setWearModel e
  | 0x92 => s.rebaseLedger e
  | 0xA0 => s.takeOwnership e
  | 0xA1 => s.releaseOwnership e
  | 0xA2 => s.heartbeatCmd e
  | _ => s

/-- The first command that waits for its turn and need wait no longer: no earlier command holds it back (R363). -/
def State.nextTurn (s : State) : List Wait → List Wait → Option Wait
  | _, [] => none
  | before, w :: r =>
    if w.on == .turn && !s.mustWait before w.e then some w else s.nextTurn (before ++ [w]) r

/-- Run a command whose turn has come; of a port that has been reset since it was taken, replies are discarded and counted
(R353). -/
def State.runTurn (w : Wait) (s : State) : State :=
  let t := (s.dropWait w).runBody w.e
  if w.live then t
  else
    let p := w.e.port.val
    let n := (t.port p).outbox.length - (s.port p).outbox.length
    let t := t.wr (Reg.HIF_KDISC p) (BitVec.ofNat 32 (min (t.rn (Reg.HIF_KDISC p) + n) 0xFFFFFFFF))
    let t := (t.mapPort p fun x => { x with outbox := (s.port p).outbox }).outFree p
    t.mapKeep fun k => { k with waits := k.waits.map fun v => if v.e = w.e then { v with live := false } else v }

/-- One command whose turn has come. -/
def State.pump1 (s : State) : State :=
  match s.nextTurn [] s.keep.waits with
  | some w => s.runTurn w
  | none => s

/-- Every command whose turn has come takes effect, in the order taken. -/
def State.pump (s : State) : State := Nat.repeat State.pump1 s.keep.waits.length s

/-- The Keeper pair executes again: the entries that stayed in their queues meanwhile are taken, in the order of their arrival
(R176, R204). -/
def State.keeperBack (s : State) : State :=
  if !s.keeperOn then s
  else
    (s.keep.waits.filter fun w => w.on == .keeper).foldl (fun s w => (s.dropWait w).take (eOp w.e) w.e State.runBody) s

/-- RESTART_DONE (R201, R204). -/
def execRestartDone (p : Fin 21) (s : State) : Res :=
  match (s.core p).restart with
  | none => .next s
  | some t => .next (s.restartDone p t).keeperBack

/-- DEBUG_HALT (R210): through IEEE 1149.1. -/
def execDebugHalt (p : Fin 21) (on : Bool) (s : State) : Res := .next (s.debugHalt p on).keeperBack

/-- A command that waited for a sample instant takes effect (R76, R79). -/
def State.runAt (w : Wait) (s : State) : State :=
  match eOp w.e with
  | 0x10 => s.bindState w
  | 0x11 => s.unbindAt w
  | 0x13 => s.cellParamsAt w
  | 0x31 => s.swapAt w
  | 0x32 => s.setRefAt w
  | 0x33 => s.startAt w
  | 0x34 => s.stopAt w
  | 0x35 => s.holdAt w
  | _ => s

/-- The commands that wait for the sample instant of FC `n` take effect, in the order taken. -/
def State.samplesDone (n : Nat) (s : State) : State :=
  (s.keep.waits.filter fun w => w.on == .sample n).foldl (fun s w => s.runAt w) s

/-- BYPASS_CELL replies ACCEPTED_PENDING when the first barge with BYPASS_CMD on its lane, which FC `n` leads, has been sent (R75):
the barge of the cycle that ends. -/
def State.bypassDone (n : Nat) (s : State) : State :=
  s.keep.waits.foldl (fun s w =>
    match w.on with
    | .bypass l => if s.leader (l / 64) = n && nbit (s.lane l).mode 4 then s.finish w stPending 0 [] else s
    | _ => s) s

/-- The record of a stream falls due, or is skipped (R375, R387). -/
def State.streamDue (p t : Nat) (x : Stream) (s : State) : State :=
  if x.left ≠ 0 then s.setStream p t (some { x with left := x.left - 1 })
  else
    let q := x.seq % 2 ^ 32
    let y := { x with left := x.decim - 1, seq := x.seq + 1 }
    let shed := s.bit (Reg.HIF_KSHED p) F.HIF_KSHED_SHED && q % 16 != 0
    s.setStream p t (some (if shed || x.due.isSome then { y with skipped := y.skipped + 1 }
      else { y with due := some (s.r64 (Reg.FC_CYC_TS_LO (s.leader x.fc)), q, (s.count x.fc).toNat) }))

/-- Every stream whose time base is FC `m`. -/
def State.streamsDue (m : Nat) (s : State) : State :=
  forN 2 (fun p s => forN 8 (fun t s =>
    match s.stream p t with
    | some x => if x.fc = m then s.streamDue p t x else s
    | none => s) s) s

/-- The cycle counter, its time stamp and the hidden state of a cycle that begins (R23). -/
def State.cycleBegin (n : Nat) (s : State) : State :=
  let x := s.fc n
  let first := !x.started
  let cnt := if first then 0 else s.rg (Reg.FC_CYC_COUNT n) + 1
  let s := (s.wr (Reg.FC_CYC_COUNT n) cnt).w64 (Reg.FC_CYC_TS_LO n) s.ts
  let s := s.flag (Reg.FC_CYC_STAT n) F.FC_CYC_STAT_RUNNING
  s.mapFc n fun y =>
    { y with next := y.next + s.tcyc n, cycTick := s.tick, started := true, fresh := first, done := [], innerDone := false,
             holdCyc := false, hub := y.hubNext }

/-- A load of the active bank takes effect: the states take its XINIT (R131). -/
def State.takeXinit (n f : Nat) (s : State) : State :=
  if (s.slot n f).xinit.isNone then s
  else
    let s := s.mapSlot n f fun y => { y with xinit := none }
    match s.actSet n f with
    | some l => s.setXinit n f l
    | none => s

/-- The states of the flights that an FC leads: loads of the active bank, held writes and automatic transitions, then the
commands that wait (R76, R79, R131). -/
def State.flightsAt (n : Nat) (s : State) : State :=
  let s := (s.led n).foldl (fun s f => (s.takeXinit n f).autoFlt n f) s
  (s.samplesDone n).bypassDone n

/-- What the sample instant latches of the registers (R29, R111, R123). -/
def State.latchAll (n : Nat) (s : State) : State :=
  let old := (s.fc n).lat
  let s := (s.cycleFcs n).foldl (fun s m => s.latchRegs m) s
  let s := s.latchLimits n old
  (s.led n).foldl (fun s f => s.qexpWatch n f old) s

/-- The shaper targets as the commands of this sample instant leave them (R370). -/
def State.latchTgts (n : Nat) (s : State) : State :=
  forN 8 (fun ch s => s.mapFc n fun x => { x with lat := tput x.lat (Reg.OBS_SHTGT n ch) (s.rg (Reg.OBS_SHTGT n ch)) }) s

/-- What the sample instant starts (R25, R134, R165, R203, R299). -/
def State.cycleLatch (n : Nat) (s : State) : State :=
  let s := (s.latchTgts n).shaper n
  let ms := s.cycleFcs n
  let s := ms.foldl (fun s m => forN 64 (fun i s => s.laneCycle (64 * m + i)) s) s
  let s := ms.foldl (fun s m => s.line m 0) s
  let s := if n = 0 then s.towTo 0 2 s.tick else s
  let s := ms.foldl (fun s m => s.boundary m) s
  let s := ms.foldl (fun s m => s.streamsDue m) s
  ms.foldl (fun s m => s.wakeAll m 0) s

/-- SAMPLE_INSTANT (R21–R25): FC `n` leads its cycle and RUN is 1. -/
def execSampleInstant (n : Fin 16) (s : State) : Res :=
  let n := n.val
  if s.follower n || !s.bit (Reg.FC_CYC_CTRL n) F.FC_CYC_CTRL_RUN then .next s
  else
    let s := (s.atTs (s.fc n).next).judgeInner n
    let ms := s.cycleFcs n
    let s := ms.foldl (fun s m => forN 64 (fun i s => s.txRoll (64 * m + i)) s) s
    let s := ms.foldl (fun s m => (s.hubAccept m).takeWrites m) s
    let s := ((s.cycleBegin n).latchAll n).holdChannels n
    .next ((s.flightsAt n).cycleLatch n).pump

/-- Bindings that waited for every FC of theirs to stop go on (R71). -/
def State.stopsDone (s : State) : State :=
  s.keep.waits.foldl (fun s w =>
    if w.on == .stop && !((fltDesc w.e).fcs.any fun m => s.cycling m) then (s.dropWait w).bindRest w true else s) s

/-- CYCLE_END (R24, R435): the cycle in progress at the write of RUN = 0 is complete. No sample instant occurs, so no automatic
transition is evaluated; held writes and waiting commands take effect. DESIGN CHOICE (log entry 72): the Inner obligation of the
last cycle is judged here. -/
def execCycleEnd (n : Fin 16) (s : State) : Res :=
  let n := n.val
  if s.follower n || s.bit (Reg.FC_CYC_CTRL n) F.FC_CYC_CTRL_RUN || !s.bit (Reg.FC_CYC_STAT n) F.FC_CYC_STAT_RUNNING then .next s
  else
    let s := (s.atTs (s.fc n).next).judgeInner n
    let s := (s.cycleFcs n).foldl (fun s m => s.takeWrites m) s
    let s := (s.led n).foldl (fun s f => (s.takeXinit n f).heldFlt n f) s
    let s := (s.samplesDone n).bypassDone n
    .next ((s.cycleEnd n).stopsDone).pump

/-- A rebase at tick 560 (R79, R116). -/
def State.rebaseAt (w : Wait) (s : State) : State :=
  match s.slotOf (eTarget w.e) with
  | none => s.done w stConflict
  | some (n, f) =>
    let y := s.slot n f
    if s.fltState n f ≠ w.st || y.res ≠ 0 || s.tripped (s.flightOf n f) then s.done w stConflict
    else
      let racc := sx 64 (ent w.e 8 8)
      let facc := wrap64 (s.sumAcc n f - racc)
      let s := (s.mapSlot n f fun y => { y with racc := racc, facc := facc, rebase := false }).flag (Reg.LED_STAT n f) F.LED_STAT_REBASED
      let s := s.sf (Reg.LED_STAT n f) F.LED_STAT_REBASE_CYC (s.count16 n)
      let s := s.raise (slotSrc n f) 0x16 (65536 * s.count16 n)
      s.finish w stOk (s.count16 n)
        [enc 32 y.facc, enc 64 y.facc / 2 ^ 32, enc 32 y.racc, enc 64 y.racc / 2 ^ 32]

/-- Whether a waiting rebase was accepted before the check of this cycle (R116); of a flight no longer bound it is refused. -/
def State.rebaseDue (s : State) (w : Wait) : Bool :=
  match s.slotOf (eTarget w.e) with
  | some (n, f) => (s.slot n f).rebase
  | none => true

/-- REBASE_APPLY (R116): tick 560 of the first cycle whose check completes after acceptance. -/
def execRebaseApply (n : Fin 16) (s : State) : Res :=
  let n := n.val
  if s.stepDue n 560 && (s.fc n).done.contains 552 then
    let s := s.stepAt n 560
    .next ((s.keep.waits.filter fun w => w.on == .rebase n && s.rebaseDue w).foldl (fun s w => s.rebaseAt w) s).pump
  else .next s

/-- PATH_TEST_DONE (R157). -/
def execPathTestDone (g : Fin 20) (s : State) : Res := .next (s.pathDone g).pump

/-- The section of the package that covers word `a` of a store (R388). -/
def storeSec (ss : List Sec) (kind unit np a : Nat) : Option Sec :=
  ss.find? fun x => x.kind == kind && (x.unit == unit || x.unit == 0xFF) && decide (x.start ≤ a) &&
    decide (a < x.start + x.len / (4 * np))

/-- Reload the section that covers word `a` of a store, if R285 permits it (R388). -/
def State.reloadStore (m store pair kind unit a : Nat) (im : List Byte) (s : State) : State :=
  let np := (mcsGeom m store).2
  match storeSec (sections im) kind unit np a with
  | none => s
  | some x =>
    let r : McsSt := { store := store, pair := pair, start := x.start, count := x.len / (4 * np), bytes := [], check := none }
    if s.mcsOpened m || s.mcsInUse m r then s else s.freshLoad m store pair im x

/-- Recall a pair, fill its memories, place its sections and grants, and release it (R388). -/
def State.reloadPair (p : Nat) (im : List Byte) (s : State) : State :=
  let busy := p < 16 && s.boundSlots.any fun b => s.runs b.1 b.2 && (s.members b.1 b.2).contains p
  if busy then s
  else
    let was := s.rel.contains p
    let s := (s.recall (2 ^ p)).zeroRange (itcm p 0) 0x80400
    let s := s.placePair p im (sections im)
    if was then s.release (2 ^ p) else s

/-- What the firmware does about an uncorrectable byte that its scrub found (R388). -/
def State.scrubReact (x : ScrubSt) (key : Nat) (s : State) : State :=
  let u := x.mid / 256
  let im := s.image s.keep.imgLen
  match x.mid % 256 with
  | 0x01 => if u = 20 then s.fwHalt 2 0 else s.reloadPair u im
  | 0x02 => if u = 20 then s.fwHalt 2 0 else s
  | 0x05 => s.reloadStore 16 0 u 0x10 u ((key - csByte (csVert u 0) 0) / 32) im
  | 0x06 => s.reloadStore 16 1 u 0x11 u ((key - csByte (csDec u 0) 0) / 32) im
  | 0x11 => s.reloadStore u 0 0 0x20 u ((key - csByte (csKey u 0 0) 0) / 32) im
  | 0x12 => s.reloadStore u 1 0 0x21 u ((key - csByte (csKey u 1 0) 0) / 32) im
  | 0x13 => s.reloadStore u 2 0 0x22 u ((key - csByte (csKey u 2 0) 0) / 32) im
  | 0x20 => if staging ≤ key then s.fwHalt 2 0 else s
  | _ => s

/-- The reply to the SCRUB_RANGE that ran (R312, R314). -/
def State.scrubReply (x : ScrubSt) (s : State) : State :=
  match s.keep.waits.find? fun w => w.on == .scrub with
  | none => s
  | some w => (s.dropWait w).replyBuf w.e w.live (x.record s.ts) 0 [x.ce, x.ue, x.fix, x.done]

/-- SCRUB_DONE (R315, R387, R388). -/
def execScrubDone (s : State) : Res :=
  match s.scrub with
  | none => .next s
  | some x =>
    if x.done < x.total then .next s
    else
      let s := (s.atTick x.next).scrubEnd x
      let s := if x.slice then x.ueKeys.foldl (fun s k => s.scrubReact x k) s else s.scrubReply x
      let s := if s.keep.sliceWait && s.fwUp && !s.scrubBusy then s.sliceGo else s
      .next s.pump

end Sys2Proof.Machine
end

