-- ==== Sys2Proof/Machine/Device.lean ====
section
/-! DEFINITION. The register space as software reaches it (spec/24_address_map.md): what a read of an address returns, what a
write to it does, the holding registers of R434, the BAR2 mirror of R347 and the telemetry records of R375. A write reaches a
register's own effect where the chapters give one, and follows the access codes of R2, R3 and R5 otherwise. -/

namespace Sys2Proof.Machine

/-- Whether the LOCK of the block that holds an address is 1 (R15). -/
def State.lockAt (s : State) (a : Nat) : Bool :=
  if a < 0x70000000 then s.fcLocked ((a - 0x60000000) / 0x100000 % 16)
  else if a < 0x70020000 then s.bit Reg.CMP_LOCK F.CMP_LOCK_LOCK
  else if a < 0x70040000 then s.sluLocked
  else s.bit Reg.GLV_LOCK F.GLV_LOCK_LOCK

/-- Whether `n` tightens a field that holds `o` (R5). -/
def tightens (f : RwlFld) (o n : Nat) : Bool :=
  match f.t with
  | .none => false
  | .smaller => decide (n < o)
  | .smallerS => decide (sx f.f.w n < sx f.f.w o)
  | .largerS => decide (sx f.f.w o < sx f.f.w n)
  | .bits => n != o && (o &&& n == o)

/-- What an RWL field takes of a written word (R5). -/
def rwlPut (lock : Bool) (old v : Word) (acc : Word) (r : RwlFld) : Word :=
  let n := fget v r.f
  if (r.nz && n == 0) || (lock && !tightens r (fget old r.f) n) then acc else fput acc r.f n

/-- The word that a write leaves in a register, by the access codes of its fields (R2, R3, R5). -/
def RegRow.next (r : RegRow) (lock : Bool) (old v : Word) : Word :=
  let w := (old &&& ~~~r.rw) ||| (v &&& r.rw)
  let w := (w &&& ~~~(v &&& r.w1c)) ||| (v &&& r.w1s)
  r.rwl.foldl (rwlPut lock old v) w

/-- The plain write of R2: an address without a register ignores it. -/
def State.plainWrite (a : Nat) (v : Word) (s : State) : State :=
  match regRow a with
  | some r => s.wr a (r.next (s.lockAt a) (s.rg a) v)
  | none => s

/-- The word a held write of R29 leaves. -/
def State.heldPlain (n a : Nat) (v : Word) (s : State) : State :=
  match regRow a with
  | some r => s.heldWrite n a (r.next (s.lockAt a) (s.heldReg n a) v)
  | none => s

/-- A write in the control block of FC `n` (R22, R24, R31–R34, R76, R440). A write of FC_CYC_CTRL whose RUN is refused changes
nothing else. -/
def State.ctlWrite (n o : Nat) (v : Word) (s : State) : State :=
  let a := 0x60000000 + 0x100000 * n + o
  if o = 0 then
    let run := fget v F.FC_CYC_CTRL_RUN == 1
    if s.follower n then s.cycErr n
    else
      let s := if run && !s.bit a F.FC_CYC_CTRL_RUN then s.runStart n
        else if !run && s.bit a F.FC_CYC_CTRL_RUN then s.runStop n
        else s
      if s.bit a F.FC_CYC_CTRL_RUN = run then s.sb a F.FC_CYC_CTRL_INNER_CHK (fget v F.FC_CYC_CTRL_INNER_CHK != 0) else s
  else if o = 4 || o = 8 || o = 12 then
    if s.follower n || s.bit (Reg.FC_CYC_CTRL n) F.FC_CYC_CTRL_RUN then s.cycErr n else s.plainWrite a v
  else if o = 0x10 || o = 0x18 || o = 0x1C then (if s.follower n then s.cycErr n else s)
  else if o = 0x24 then s.innerDone n (v.toNat % 256)
  else if o = 0x28 then s.ovrLimitWrite n (v.toNat % 256)
  else if o = 0x50 || o = 0x54 then
    let f := (o - 0x50) / 4
    let s := s.wr a (s.rg a &&& ~~~(v &&& 0x70000))
    if f = 0 && s.follower n then s else s.fltStateWrite n f (v.toNat % 8)
  else if 0x40 ≤ o && o < 0x60 then
    let s := s.heldPlain n a v
    if s.cycling n then s else s.cfgFollow n
  else if 0x800 ≤ o then s.heldPlain n a v
  else if o = 0x60 then s
  else s.plainWrite a v

/-- A write in the link block of FC `n` (R48, R51, R53, R59, R60). LOSS_TRIP cleared while its condition holds is set again
(R58). -/
def State.lnkWrite (n o : Nat) (v : Word) (s : State) : State :=
  let a := 0x60000000 + 0x100000 * n + o
  if o < 0x2000 && o % 0x40 = 0 then
    let l := 64 * n + (o - 0x1000) / 0x40
    let s := s.sb a F.LNK_CTRL_FORCE_BLOCK (fget v F.LNK_CTRL_FORCE_BLOCK != 0)
    let s := if v.getLsbD 4 then s.clrCnt l else s
    let s := if v.getLsbD 3 then s.mapLane l fun x => { x with alignReq := true } else s
    let s := if s.bit a F.LNK_CTRL_ENABLE = v.getLsbD 0 then s else s.lnkEnable l (v.getLsbD 0)
    if v.getLsbD 1 then s.retrain l else s
  else if o = 0x2000 || o = 0x2004 then (s.plainWrite a v).lossEval n ((o - 0x2000) / 4)
  else if o = 0x2008 then ((s.plainWrite a v).lossEval n 0).lossEval n 1
  else s.plainWrite a v

/-- A write in analog group `g` (R141, R146, R145, R150, R155). -/
def State.adcWrite (g o : Nat) (v : Word) (s : State) : State :=
  let a := adcBase g + o
  if o = 0 then
    s.refEnable g (v.getLsbD 0)
  else if o = 0xC then s.calCtrlWrite g v
  else if o = 0x14 then
    if v.getLsbD 0 then forN 16 (fun k s => if s.trigOf g k = 0x60 then s.schedule g k (s.ts + 1) else s) s else s
  else if 0x80 ≤ o && o < 0x80 + 8 * chans g then
    if o % 8 = 0 then s.ugainWrite g ((o - 0x80) / 8) v else s.uoffWrite g ((o - 0x80) / 8) v
  else if 0x100 ≤ o && o < 0x140 then s.seqWrite g ((o - 0x100) / 4) v
  else s.plainWrite a v

/-- A write of comparator `c` (R163, R165, R179, R439): a change of configuration is judged against the present input. -/
def State.cmpWrite (c o : Nat) (v : Word) (s : State) : State :=
  let a := cmpBase c + o
  if o = 0 then
    if fget v F.CMP_CFG_FILT = 3 then
      let s := s.flag (Reg.CMP_STAT c) F.CMP_STAT_CFG_ERR
      (s.plainWrite a (fput v F.CMP_CFG_FILT (s.fld a F.CMP_CFG_FILT))).judgeCmp c true
    else (s.plainWrite a v).judgeCmp c true
  else if o = 4 then ((s.beginSettle c).plainWrite a v).judgeCmp c true
  else if o = 8 then
    if majOk (fget v F.CMP_FILT_K) (fget v F.CMP_FILT_N) then ((s.beginSettle c).plainWrite a v).judgeCmp c true
    else s.flag (Reg.CMP_STAT c) F.CMP_STAT_CFG_ERR
  else if o = 0xC || o = 0x10 then (s.plainWrite a v).judgeCmp c true
  else if o = 0x14 then s.plainWrite a v
  else if o = 0x18 then (if v.getLsbD 0 then s.clearCmp c else s)
  else s

/-- A write in load port `m` (R284, R299). -/
def State.portWrite (m o : Nat) (v : Word) (s : State) : State :=
  if o = 8 then s.mcsCtrl m v
  else if o = 0x10 then s.mcsData m v
  else if o = 0x50 && m < 16 then forN 8 (fun e s => if nbit v.toNat e then s.engRestart m e else s) s
  else s.plainWrite (mcsBase m + o) v

/-- A write in the window of FC `n`, by pair `who`; a follower's observer, and its balancer and ledger registers of slot 0,
ignore writes (spec/05, spec/06, spec/07). -/
def State.fcWrite (who n o : Nat) (v : Word) (s : State) : State :=
  let a := 0x60000000 + 0x100000 * n + o
  let fol := s.follower n
  if o < 0x1000 then s.ctlWrite n o v
  else if o < 0x4000 then s.lnkWrite n o v
  else if o < 0x6000 then
    if fol then s
    else if 0x4800 ≤ o && o < 0x4900 && o % 0x20 = 0 then s.shtgtWrite n ((o - 0x4800) / 0x20) who v
    else s.plainWrite a v
  else if o < 0x8000 then (if fol && o < 0x6040 then s else s.plainWrite a v)
  else if o < 0xA000 then (if fol && 0x8800 ≤ o && o < 0x8840 then s else s.plainWrite a v)
  else if o < 0xB000 then s.adcWrite n (o - 0xA000) v
  else if o < 0xC000 then (if o < 0xB080 then s.cmpWrite (4 * n + (o - 0xB000) / 0x20) (o % 0x20) v else s)
  else if o < 0x10000 then s.plainWrite a v
  else if o < 0x20000 then s.portWrite n (o - 0x10000) v
  else if o = 0x20000 then
    let s := if s.bit a F.GLV_DBG_CTRL_HALT = v.getLsbD 0 then s else s.debugHalt n (v.getLsbD 0)
    if v.getLsbD 1 then s.dbgStep n else s
  else s

/-- The shadow register at an offset of a pulse-width pair (R189). -/
def shadowAt (r : Nat) : Option ShadowReg :=
  if r = 4 then some .per else if r = 8 then some .cmp else if r = 0xC then some .dt else if r = 0x10 then some .mp
  else if r = 0x14 then some .tow else none

/-- A write in the pulse-width block (R187–R190). -/
def State.pwmWrite (o : Nat) (v : Word) (s : State) : State :=
  if o = 0x800 then s.pwmArm (v.toNat % 256)
  else if o = 0x804 then s.towCfgWrite v
  else if o < 0x800 then
    let k := o / 0x40
    match shadowAt (o % 0x40) with
    | some r => s.shadowWrite k r v
    | none => if o % 0x40 = 0 then s.pwmCtrlWrite k v else s.plainWrite (0x70020000 + o) v
  else s.plainWrite (0x70020000 + o) v

/-- A write in the Sluice (R163, R166, R167, R178). A K and N that are outside R163, as written or as SLU_LOCK would leave them,
change neither. -/
def State.sluWrite (o : Nat) (v : Word) (s : State) : State :=
  let a := 0x70030000 + o
  if 0x40 ≤ o && o < 0x80 then
    let p := (o - 0x40) / 4
    let n := fget v F.SLU_PINCFG_N
    let left := match regRow a with
      | some r => r.next (s.lockAt a) (s.rg a) v
      | none => v
    let ok := majOk (fget v F.SLU_PINCFG_K) n && majOk (fget left F.SLU_PINCFG_K) (fget left F.SLU_PINCFG_N)
    let v := if n = 0 || ok then v
      else fput (fput v F.SLU_PINCFG_K (s.fld a F.SLU_PINCFG_K)) F.SLU_PINCFG_N (s.fld a F.SLU_PINCFG_N)
    (s.plainWrite a v).setRaw (128 + p) (s.cmp (128 + p)).raw
  else if o = 0x84 then forN 16 (fun p s => if nbit v.toNat p then s.clearCmp (128 + p) else s) s
  else if o = 0x100 then s.fwTrip (v.toNat % 16)
  else if o = 0x104 then s
  else if 0x400 ≤ o && o < 0xC00 then
    let r := o % 0x40
    if r < 0x24 then { s with staged := tput s.staged a v }
    else if r = 0x30 then (if v.getLsbD 0 then s.commitGroup ((o - 0x400) / 0x40) else s)
    else s.plainWrite a v
  else s.plainWrite a v

/-- A write in the time and event block (R331, R333, R337, R339). -/
def State.timeWrite (o : Nat) (v : Word) (s : State) : State :=
  let a := 0x70040000 + o
  if o = 0x20 then s.syncCfgWrite v
  else if 0x200 ≤ o && o < 0x280 then s.ioCfgWrite ((o - 0x200) / 4) v
  else if 0x100 ≤ o && o < 0x1A8 && o % 8 = 4 then s.alarmArm ((o - 0x100) / 8) v
  else if 0x800 ≤ o && o < 0x1000 then
    let q := (o - 0x800) / 0x40
    let r := o % 0x40
    if r = 0 then s.qbaseWrite q v
    else if r = 4 then s.qcfgWrite q v
    else if r = 0x10 then s.ridxWrite q v
    else s.plainWrite a v
  else s.plainWrite a v

/-- A write in the DMA block (R317, R319, R324). -/
def State.dmaWrite (o : Nat) (v : Word) (s : State) : State :=
  let a := 0x70050000 + o
  if o < 0xC00 then
    let c := o / 0x40
    let r := o % 0x40
    if r = 0 then s.dmaStart c (v.toNat % 2 ^ 24)
    else if r = 4 then
      let s := if v.getLsbD 0 then s.dmaAbort c else s
      if v.getLsbD 1 then s.dmaResume c else s
    else s.plainWrite a v
  else if 0x8000 ≤ o && o < 0x8300 then
    let c := (o - 0x8000) / 0x10
    if s.dmaState c = 1 then s.flag (Reg.DMA_STAT c) F.DMA_STAT_CFG_ERR else s.plainWrite a v
  else s

/-- A write in the memory controller (R310, R311, R315). -/
def State.memWrite (o : Nat) (v : Word) (s : State) : State :=
  if o = 0x44 then s.capCopy v
  else if o = 0x48 then s.imageFill v
  else if o = 0x5C then
    let s := s.plainWrite (0x70060000 + o) v
    if v.getLsbD 0 then s.scrubGo (v.getLsbD 1) false else s
  else s.plainWrite (0x70060000 + o) v

/-- A write in the Keeper's host interface (R354): both ports show the ownership state, the version and the timeout. -/
def State.hifWrite (o : Nat) (v : Word) (s : State) : State :=
  let a := 0x78010000 + o
  if 0x8000 ≤ o then
    s.plainWrite a (if o % 0x10 = 0 then v &&& 0xFC000000 else v)
  else
    let p := o / 0x4000
    let r := o % 0x4000
    if r = 4 then (if v.getLsbD 0 then s.kinPop p else s)
    else if r = 0xC then s.koutPush p (v.toNat % 8)
    else if r = 0x20 then
      let x := v.toNat % 4
      if x = 3 then s
      else
        let t := (s.sf (Reg.HIF_KOWN 0) F.HIF_KOWN_OWNER x).sf (Reg.HIF_KOWN 1) F.HIF_KOWN_OWNER x
        if s.owner = x then t else (t.notice 0 F.HIF_NOTESTAT_OWN_CHANGE).notice 1 F.HIF_NOTESTAT_OWN_CHANGE
    else if r = 0x24 then (s.plainWrite (Reg.HIF_KHB 0) v).plainWrite (Reg.HIF_KHB 1) v
    else if r = 0x28 then ((s.plainWrite a v).wr (Reg.HIF_FWVER 0) v).wr (Reg.HIF_FWVER 1) v
    else s.plainWrite a v

/-- A write in the Glove supervisor (R203, R210, R384, R385, R397, R398, R406). -/
def State.glvWrite (o : Nat) (v : Word) (s : State) : State :=
  let a := 0x78030000 + o
  if o < 0x540 then
    let p := o / 0x40
    let r := o % 0x40
    if r = 0x1C then (if v.getLsbD 0 then s.glvForce p else s)
    else if r = 0x24 then s.wdKick p (v.toNat % 256)
    else if r = 0x20 && p = 20 then s.plainWrite a (v ||| 0x01000000)
    else if r = 0 && 8 < fget v F.GLV_CFG_HOLD_LIMIT then
      (s.plainWrite a (fput v F.GLV_CFG_HOLD_LIMIT (s.fld a F.GLV_CFG_HOLD_LIMIT))).flag (Reg.GLV_STAT p) F.GLV_STAT_CFG_ERR
    else s.plainWrite a v
  else if o = 0x808 then s
  else if o = 0x80C then s.release v.toNat
  else if o = 0x810 then
    if v.getLsbD 0 then s.fwHalt (fget v F.GLV_HALT_CAUSE) 0 else s.sf a F.GLV_HALT_CAUSE (fget v F.GLV_HALT_CAUSE)
  else if o = 0x814 then s.safeWrite v
  else if o = 0x818 then s.recall v.toNat
  else s.plainWrite a v

/-- A tick of its own: the time moves past the tick in which earlier effects fell. -/
def State.ownTick (s : State) : State := s.atTick (s.tick + 1)

/-- A write that clears W1C flags takes effect in a tick of its own, so that no flag that hardware set in that tick is lost (R4,
log entry 73). -/
def State.w1cTick (a : Nat) (v : Word) (s : State) : State :=
  match regRow a with
  | some r => if v &&& r.w1c = 0 then s else s.ownTick
  | none => s

/-- A write of pair `who` to an address of the device range (R266, R431): it waits for a clock switch of its FC (R34). -/
def State.devWrite (who a : Nat) (v : Word) (s : State) : State :=
  let s := (s.accWait a).w1cTick a v
  if a < 0x61000000 then s.fcWrite who ((a - 0x60000000) / 0x100000) (a % 0x100000) v
  else if a < 0x70004000 then s.adcWrite (16 + (a - 0x70000000) / 0x1000) (a % 0x1000) v
  else if a < 0x70010000 then s
  else if a < 0x70020000 then
    if a < 0x70010800 then s.cmpWrite (64 + (a - 0x70010000) / 0x20) (a % 0x20) v else s
  else if a < 0x70030000 then s.pwmWrite (a - 0x70020000) v
  else if a < 0x70040000 then s.sluWrite (a - 0x70030000) v
  else if a < 0x70050000 then s.timeWrite (a - 0x70040000) v
  else if a < 0x70060000 then s.dmaWrite (a - 0x70050000) v
  else if a < 0x70070000 then s.memWrite (a - 0x70060000) v
  else if a < 0x78010000 then s.plainWrite a v
  else if a < 0x78020000 then s.hifWrite (a - 0x78010000) v
  else if a < 0x78030000 then s.portWrite 16 (a - 0x78020000) v
  else if a < 0x78040000 then s.glvWrite (a - 0x78030000) v
  else s

/-- REGISTER_WRITE (R2): pair `who` (0–20) writes a word of the device range, or the host at port `who − 21` writes a word of
its BAR0. Nothing is taken while the part is held in reset. -/
def execRegisterWrite (who : Fin 23) (addr : Nat) (val : Word) (s : State) : Res :=
  let w := who.val
  if s.pwr.inReset || addr % 4 != 0 then .next s
  else if 21 ≤ w then .next (if (s.port (w - 21)).up && decide (addr < 0x10000) then (s.w1cTick (bar0 (w - 21) addr) val).bar0Write (w - 21) addr val else s)
  else if 0x60000000 ≤ addr && devWindow addr then .next (s.devWrite w addr val)
  else .next s

/-- What a register of the window of FC `n` reads: a follower shows its leader's cycle (R34) and flight state (R76), and 0 for
its observer and for its slot 0 of balancer and ledger. -/
def State.fcPeek (s : State) (n o : Nat) : Word :=
  let a := 0x60000000 + 0x100000 * n + o
  let own := s.heldReg n a
  if s.follower n then
    let l := 0x60000000 + 0x100000 * s.leader n + o
    if (0x4 ≤ o && o < 0x20) then s.rg l
    else if o = 0x20 then fput own F.FC_CYC_STAT_RUNNING (s.fld l F.FC_CYC_STAT_RUNNING)
    else if o = 0x50 then fput own F.FC_FLT_STAT_STATE (s.fld l F.FC_FLT_STAT_STATE)
    else if (0x4000 ≤ o && o < 0x6040) || (0x8800 ≤ o && o < 0x8840) then 0
    else own
  else own

/-- Ticks to the next expiry of a watchdog in its units of 8,000 ticks, saturating (R397). -/
def State.wdLeft (s : State) (p : Nat) : Nat :=
  let due := (s.core p).kick + s.wdPeriod p + (if s.bit (Reg.GLV_WDKICK p) F.GLV_WDKICK_STAGE1 then s.wdGrace p else 0)
  min 65535 ((due - s.tick) / 8000)

/-- A Keeper register of a port (R354). An empty inbox shows an undefined entry, which is a free value: DESIGN CHOICE (log entry
74), its sixteen words read equal until another command has drawn a free value. -/
def State.hifPeek (s : State) (o : Nat) : Word :=
  let p := o / 0x4000
  let r := o % 0x4000
  let x := s.port p
  if r = 0 then BitVec.ofNat 32 (x.inbox.length + 256 * (match x.inbox with | e :: _ => e.1 | [] => 0))
  else if 0x100 ≤ r && r < 0x140 then
    match x.inbox with
    | e :: _ => BitVec.ofNat 32 (leAt e.2 (r - 0x100) 4)
    | [] => s.freeWord
  else if 0x200 ≤ r && r < 0x220 then 0
  else s.rg (0x78010000 + o)

/-- What a read of a device address returns, without any side effect (R2, R348). -/
def State.devPeek (s : State) (a : Nat) : Word :=
  if a < 0x61000000 then s.fcPeek ((a - 0x60000000) / 0x100000) (a % 0x100000)
  else if a = Reg.TS_LO then BitVec.ofNat 32 s.ts
  else if a = Reg.TS_HI then BitVec.ofNat 32 (s.ts / 2 ^ 32)
  else if 0x70020000 ≤ a && a < 0x70020800 && a % 0x40 = 0x2C then BitVec.ofNat 32 (s.pwmCount ((a - 0x70020000) / 0x40))
  else if 0x78010000 ≤ a && a < 0x78018000 then s.hifPeek (a - 0x78010000)
  else if 0x78030000 ≤ a && a < 0x78030540 then
    let p := (a - 0x78030000) / 0x40
    if a % 0x40 = 8 then fput (s.rg a) F.GLV_MISM_RECENT (min 3 (s.recent p))
    else if a % 0x40 = 0x24 then fput (s.rg a) F.GLV_WDKICK_LEFT (s.wdLeft p)
    else s.rg a
  else s.rg a

/-- What the host reads of BAR0 of a port (R343). -/
def State.bar0Peek (s : State) (p o : Nat) : Word :=
  let w := s.rg (bar0 p o)
  if o = 0x100 then
    fput (fput w F.HIF_OWN_OWNER (s.fld (Reg.HIF_KOWN 0) F.HIF_KOWN_OWNER)) F.HIF_OWN_SELF
      (b2n (s.fld (Reg.HIF_KOWN 0) F.HIF_KOWN_OWNER == p + 1))
  else if o = 0x108 then fput w F.HIF_HBSTAT_AGE (s.hbAge p)
  else if o = 0x10C then s.rg (Reg.HIF_KHB 0) &&& 0xFFFF
  else if 0x3000 ≤ o && o < 0x3200 && o % 0x40 = 0x28 then fput w F.HIF_QSTAT_CQ_FULL (b2n (s.cqFull p ((o - 0x3000) / 0x40)))
  else if 0x8000 ≤ o && o < 0x8400 then tget (if o % 16 = 12 then 1 else 0) (s.port p).msix ((o - 0x8000) / 4)
  else if o = 0xC000 then BitVec.ofNat 32 (s.port p).pba
  else if o = 0xC004 then BitVec.ofNat 32 ((s.port p).pba / 2 ^ 32)
  else w

/-- What a read of a register returns before any holding register, of the device range or of a BAR0. -/
def State.regPeek (s : State) (a : Nat) : Word :=
  if 0x100000000 ≤ a && a < 0x100020000 then s.bar0Peek ((a - 0x100000000) / 0x10000) (a % 0x10000) else s.devPeek a

/-- The words whose holding registers a read of an address replaces (R434). -/
def heldBy (a : Nat) : List Nat :=
  let o := a % 0x100000
  if 0x100000000 ≤ a && a < 0x100020000 then
    let r := a % 0x10000
    if 0x3000 ≤ r && r < 0x3200 && (r % 0x40 = 0 || r % 0x40 = 0x10 || r % 0x40 = 0x20) then [a + 4] else []
  else if 0x60000000 ≤ a && a < 0x61000000 then
    if o = 0x18 || o = 0x2010 || o = 0x2018 || o = 0x4248 then [a + 4]
    else if 0x4800 ≤ o && o < 0x4900 && o % 0x20 = 0x14 then [a + 4]
    else if o = 0x4440 then [a + 4, a + 8, a + 12]
    else if 0x8000 ≤ o && o < 0x8800 && (o % 0x20 = 0 || o % 0x20 = 8) then [a + 4]
    else if 0x8800 ≤ o && o < 0x8880 && o % 0x40 < 0x20 && o % 8 = 0 then [a + 4]
    else if 0xC400 ≤ o && o < 0xD400 && (o % 0x40 = 8 || o % 0x40 = 0x30) then [a + 4]
    else []
  else if 0x70020000 ≤ a && a < 0x70020800 && a % 0x40 = 0x30 then [a + 4]
  else if 0x70030400 ≤ a && a < 0x70030C00 && a % 0x40 = 0x28 then [a + 4]
  else if a = Reg.TS_LO then [a + 4]
  else if 0x70040100 ≤ a && a < 0x700401A8 && a % 8 = 0 then [a + 4]
  else if 0x78018000 ≤ a && a < 0x78020000 && a % 0x10 = 0 && (regRow a).isSome then [a + 4]
  else if 0x70040800 ≤ a && a < 0x70041000 && a % 0x40 = 0x14 then [a + 4, a + 8]
  else if a = 0x70060078 || a = 0x70060080 || a = 0x700700C0 || a = 0x78000014 then [a + 4]
  else if 0x78030000 ≤ a && a < 0x78030540 && a % 0x40 = 0xC then [a + 4]
  else []

/-- Whether a word is read through its holding register (R434). -/
def isHeld (a : Nat) : Bool := (heldBy (a - 4)).contains a || (heldBy (a - 8)).contains a || (heldBy (a - 12)).contains a

/-- A read of a copying register copies the paired words to their holding registers (R434). -/
def State.holdCopy (a : Nat) (s : State) : State :=
  { s with hold := (heldBy a).foldl (fun h x => tput h x (s.regPeek x)) s.hold }

/-- HOLDING_COPY_READ (R434): a read of the copying register at an address, by a pair or by a host in its BAR0. -/
def execHoldingCopyRead (addr : Nat) (s : State) : Res := .next (s.holdCopy addr)

/-- A result register of a sequencer entry (R149), as its group and entry. -/
def resAt (a : Nat) : Option (Nat × Nat) :=
  if 0x60000000 ≤ a && a < 0x61000000 then
    let o := a % 0x100000
    if 0xA140 ≤ o && o < 0xA180 then some ((a - 0x60000000) / 0x100000, (o - 0xA140) / 4) else none
  else if 0x70000000 ≤ a && a < 0x70004000 && 0x140 ≤ a % 0x1000 && a % 0x1000 < 0x180 then
    some (16 + (a - 0x70000000) / 0x1000, (a % 0x1000 - 0x140) / 4)
  else none

/-- A read of a device address by a pair, with its side effects: RC fields clear (R2, R149), a held word comes from its holding
register, and a copying register fills them (R434). It waits for a clock switch of its FC (R34). A read that clears has a tick of
its own, so that no set of that tick is lost (R6, log entry 73). -/
def State.devRead (a : Nat) (s : State) : Word × State :=
  let s := s.accWait a
  let s := if (resAt a).isSome then s.ownTick else s
  let v := if isHeld a then tget 0 s.hold a else s.devPeek a
  let s := s.holdCopy a
  match resAt a with
  | some (g, k) => (v, s.resRead g k)
  | none => (v, s)

/-- One DWORD of BAR2 (R347, R348): the word, and whether it holds an uncorrectable byte. A held word shows its present value, as
no holding register takes part in a BAR2 read (DEDUCED, log entry 93). -/
def State.bar2Word (o : Nat) (s : State) : (Word × Bool) × State :=
  if o < 0x2000000 then
    let v := BitVec.ofNat 32 (s.rdLe (sram o) 4)
    let (bad, s) := s.eccCheck (sram o) 4
    ((v, bad.isSome), s)
  else if 0x8000000 ≤ o && o < 0x9000000 then
    let s := s.accWait (0x60000000 + (o - 0x8000000))
    ((if o % 0x100000 < 0x10000 then s.devPeek (0x60000000 + (o - 0x8000000)) else 0, false), s)
  else if 0x9000000 ≤ o && o < 0x9080000 then ((s.devPeek (0x70000000 + (o - 0x9000000)), false), s)
  else ((0, false), s)

/-- The DWORDs of BAR2 from one on. -/
def State.bar2Words : Nat → Nat → State → (List Byte × Bool) × State
  | _, 0, s => (([], false), s)
  | o, n + 1, s =>
    let ((v, bad), s) := s.bar2Word o
    let ((l, b2), s) := State.bar2Words (o + 4) n s
    ((leBytes 4 v.toNat ++ l, bad || b2), s)

/-- BAR2_READ (R347): a host reads `len` bytes from an offset on; an uncorrectable byte poisons the completion (R348). -/
def execBar2Read (p : Fin 2) (off len : Nat) (s : State) : Res :=
  let p := p.val
  if s.pwr.inReset || !(s.port p).up || (s.port p).d3 then .next s
  else
    let n := (off % 4 + len + 3) / 4
    let ((l, bad), s) := s.bar2Words (off / 4 * 4) n
    .next { s with out := .cpl p ((l.drop (off % 4)).take len) bad :: s.out }

/-- What a stream reads at an internal address, with the semantics of a BAR2 read (R348, R375). -/
def State.streamWord (a : Nat) (s : State) : Word × State :=
  if a < 0x42000000 then
    let ((v, _), s) := s.bar2Word (a - 0x40000000)
    (v, s)
  else if a < 0x61000000 && 0x10000 ≤ a % 0x100000 then (0, s)
  else
    let s := s.accWait a
    (s.devPeek a, s)

/-- The words of a stream in list order. -/
def State.streamWords : List Nat → State → List Byte × State
  | [], s => ([], s)
  | a :: t, s =>
    let (v, s) := s.streamWord a
    let (l, s) := State.streamWords t s
    (leBytes 4 v.toNat ++ l, s)

/-- STREAM_RECORD (R375): the port reads the listed words from tick 720 of the cycle and writes the due record, its TWB and, if
asked for, its message. -/
def execStreamRecord (p : Fin 2) (st : Fin 16) (s : State) : Res :=
  let p := p.val
  let t := st.val
  match s.stream p t with
  | none => .next s
  | some x =>
    match x.due with
    | none => .next s
    | some (ts, seq, cnt) =>
      if !s.portOk p then .next s
      else
        let s := s.atTs ((ts + 720) % 2 ^ 64)
        let (l, s) := s.streamWords x.words
        let rec_ := leBytes 8 ts ++ leBytes 4 seq ++ leBytes 4 cnt ++ (l ++ List.replicate 44 0).take 44 ++ leBytes 4 seq
        let s := s.hostWrite p (x.ring + 64 * (seq % 2 ^ x.sizeExp)) rec_
        let s := s.hostWrite p x.twb (leBytes 4 (seq + 1))
        let s := s.setStream p t (some { x with due := none, written := x.written + 1, lastSeq := seq })
        .next (if x.irq then s.msiSend p x.vec else s)

end Sys2Proof.Machine
end

