-- ==== Sys2Proof/Machine/CpuCore.lean ====
section
/-! DEFINITION. The registers of a Glove pair as its instructions see them, and taking an exception or interrupt as one shared
operation: frame, double fault, third fault and vector (spec/12_ocosh_isa.md, spec/13_ocosh_pipeline.md,
spec/15_capabilities_faults.md). -/

namespace Sys2Proof.Machine

/-- The register image of pair `p`. -/
def State.img (s : State) (p : Nat) : CoreImg := (s.core p).img

/-- A g-register; g0 reads 0 (R213). -/
def State.gR (s : State) (p n : Nat) : Word := if n = 0 then 0 else tget 0 (s.img p).g n

/-- An f-register. -/
def State.fR (s : State) (p n : Nat) : Word := tget 0 (s.img p).f n

/-- A c-register; c0 reads as the null capability (R213). -/
def State.cR (s : State) (p n : Nat) : Cap := if n = 0 then Cap.null else tget Cap.null (s.img p).c n

/-- A write of a g-register; writes to g0 are discarded (R213). -/
def State.setG (p n : Nat) (v : Word) (s : State) : State :=
  if n = 0 then s else s.mapImg p fun i => { i with g := tput i.g n v }

def State.setF (p n : Nat) (v : Word) (s : State) : State := s.mapImg p fun i => { i with f := tput i.f n v }

/-- A write of a c-register; writes to c0 are discarded (R213). -/
def State.setC (p n : Nat) (v : Cap) (s : State) : State :=
  if n = 0 then s else s.mapImg p fun i => { i with c := tput i.c n v }

def State.setPcc (p : Nat) (c : Cap) (s : State) : State := s.mapImg p fun i => { i with pcc := c }

/-- The address of the executing instruction. -/
def State.pc (s : State) (p : Nat) : Nat := (s.img p).pcc.addr

/-- Stored content of a control register; LBCTL resets to 1, the others to 0 (R226). -/
def State.crS (s : State) (p k : Nat) : Word := tget (if k = 0x12 then 1 else 0) (s.img p).cr k

def State.setCr (p k : Nat) (v : Word) (s : State) : State := s.mapImg p fun i => { i with cr := tput i.cr k v }

/-- The value of a context register in force: while changes are pending, the one that the oldest of them replaces (R242). -/
def State.crNow (s : State) (p k : Nat) : Word :=
  match (s.img p).ctx.find? fun e => e.1 == k with
  | some e => e.2.1
  | none => s.crS p k

/-- STATUS.IL in force, STATUS.IE and DF_ACTIVE. -/
def State.il (s : State) (p : Nat) : Nat := nbits (s.crNow p 0).toNat 0 3

def State.ie (s : State) (p : Nat) : Bool := nbit (s.crS p 0).toNat 3

def State.dfActive (s : State) (p : Nat) : Bool := nbit (s.crS p 0).toNat 4

/-- Priority of a line (R226). -/
def State.linePrio (s : State) (p l : Nat) : Nat := nbits (s.crS p (8 + l / 8)).toNat (4 * (l % 8)) 3

/-- The line that R243 takes with masks `il`: pending, enabled, of priority above `il`; the highest priority, then the lowest
line. -/
def State.topLine (s : State) (p il : Nat) : Option Nat :=
  let en := (s.crS p 4).toNat + 2 ^ 32 * (s.crS p 5).toNat
  let m := (s.irqPend p).toNat &&& en
  (List.range 64).foldl (fun b l =>
    if nbit m l && decide (il < s.linePrio p l) then
      match b with
      | none => some l
      | some k => if s.linePrio p k < s.linePrio p l then some l else b
    else b) none

/-- The interrupt that is taken at this boundary (R243, R279). -/
def State.takenLine (s : State) (p : Nat) : Option Nat := if s.ie p && !s.dfActive p then s.topLine p (s.il p) else none

/-- Whether a pair executes instructions: it runs, or a single step of a debug halt is due (R210, R433). -/
def State.coreGo (s : State) (p : Nat) : Bool :=
  s.glvState p == 0 || (s.glvState p == 3 && (s.core p).halt && (s.core p).step && s.started p)

/-- E is held for some more cycles (R235). -/
def State.holdE (p cyc : Nat) (s : State) : State := s.mapCore p fun x => { x with free := max x.free s.tick + cyc }

/-- An instruction has retired: INSTRET counts, the pending context changes advance (R242), and the next instruction is at `c`. A
checkpoint is due after 1,024 instructions (R200) and when a CKCTL request comes into force (R242). -/
def State.retire (p : Nat) (c : Cap) (cyc : Nat) (s : State) : State :=
  let due := (s.img p).ctx.any fun e => e.1 == 0x13 && e.2.2 == 1
  let s := s.mapCore p fun x =>
    { x with img := { x.img with pcc := c, ret := x.img.ret + 1,
                                 ctx := (x.img.ctx.map fun e => (e.1, e.2.1, e.2.2 - 1)).filter fun e => e.2.2 != 0 },
             since := x.since + 1, step := false, inLong := false, inWfi := false }
  let s := s.holdE p cyc
  if due || decide (1024 ≤ (s.core p).since) then s.checkpoint p else s

/-- An event that enters a handler: its byte in the frame, EADDR and EINFO, the capability that ERET returns to, the micro-state
of a stopped CX (m0–m2, UPC, CXN), and for an interrupt its line. -/
structure Ev where
  byte : Nat
  eaddr : Nat
  einfo : Nat
  saved : Cap
  micro : Option (Word × Word × Word × Nat × Nat)
  line : Option Nat
deriving DecidableEq, Repr

/-- Size of the frame of an event (R274). -/
def Ev.size (e : Ev) : Nat := if e.micro.isSome then 80 else 64

/-- A 64-bit granule from its two words. -/
def dword (lo hi : Nat) : DWord := BitVec.ofNat 64 (lo % 2 ^ 32 + 2 ^ 32 * (hi % 2 ^ 32))

/-- The frame of an event, granule by granule with tags (R274). `byte`, `ea` and `ei` are those at offsets 0x08 and 0x10. -/
def State.frame (s : State) (p : Nat) (e : Ev) (byte ea ei : Nat) : List (DWord × Bool) :=
  let st := fput (s.crS p 0) ⟨5, 1⟩ (b2n e.micro.isSome)
  let c := fun k => ((s.cR p k).w, (s.cR p k).tag)
  let g := fun k => (dword (s.gR p k).toNat (s.gR p (k + 1)).toNat, false)
  [(e.saved.w, e.saved.tag), (dword st.toNat byte, false), (dword ea ei, false), c 1, c 3, c 4, g 1, g 3] ++
    (match e.micro with
     | some (a, b, d, upc, k) => [(dword a.toNat b.toNat, false), (dword d.toNat (upc % 2048 + 65536 * k), false)]
     | none => [])

/-- The memory key behind an address, where a memory stands there. -/
def memKey (p a : Nat) : Option Nat :=
  match region p a with
  | .mem k => some k
  | _ => none

/-- Whether a frame may stand at a memory key (R277): in TCM, a scratchpad or shared SRAM; a double fault's in the fault RAM
too. -/
def frameKey (df : Bool) (k : Nat) : Bool :=
  df || !(decide (0x200000000 ≤ k) && decide (0x80000 ≤ (k - 0x200000000) % 0x100000))

/-- The checks of R277 on a frame of `n` bytes at `a` through `c`, csp or, for a double fault, cfs: the cause code of the first that
fails. Which of the codes of R279 names a misaligned address is open: a free value (log entry 27). -/
def State.frameCheck (s : State) (p : Nat) (df : Bool) (c : Cap) (a n : Nat) : Option Nat :=
  if !c.tag then some 3
  else if c.otype ≠ 0 then some 4
  else if !c.has (pStore + pStoreCap) || c.has pDevice then some 6
  else if c.addr % 8 ≠ 0 then some ([3, 4, 5, 6, 8, 9].getD (s.freeWord.toNat % 6) 3)
  else if !((List.range n).all fun i => c.covers ((a + i) % 2 ^ 32)) then some 5
  else if !((List.range (n / 8)).all fun i => (memKey p ((a + 8 * i) % 2 ^ 32)).any (frameKey df)) then some 9
  else none

/-- Push granules through the store buffer (R238). -/
def State.pushGrans (p : Nat) : Nat → List (DWord × Bool) → State → State
  | _, [], s => s
  | a, x :: t, s =>
    let s := match memKey p (a % 2 ^ 32) with
      | some k => s.sbPush p { g := k / 8, mask := 255, bytes := leBytes 8 x.1.toNat, tag := x.2, old := false }
      | none => s
    State.pushGrans p (a + 8) t s

/-- The store-buffer entry that touches a byte of a range of a memory. -/
def SbEnt.hits (e : SbEnt) (k n : Nat) : Bool :=
  (List.range n).any fun i => e.g == (k + i) / 8 && nbit e.mask ((k + i) % 8)

/-- Whether an entry holds every byte of a range. -/
def SbEnt.holds (e : SbEnt) (k n : Nat) : Bool :=
  (List.range n).all fun i => e.g == (k + i) / 8 && nbit e.mask ((k + i) % 8)

/-- Drain, in order, until no entry touches the range (R238). -/
def State.drainHits (p k n : Nat) (s : State) : State :=
  Nat.repeat (fun s => if (s.core p).sb.any fun e => e.hits k n then s.drainOne p else s) (s.core p).sb.length s

/-- A read of `n` bytes of a granule at a memory key, with the granule's tag, as a load meets the store buffer (R238): forwarded
from the youngest overlapping entry if that holds every byte, else from memory once every overlapping entry has drained.
Answers the key of an uncorrectable byte, the bytes and the tag. -/
def State.ldMem (p k n : Nat) (s : State) : (Option Nat × List Byte × Bool) × State :=
  match (s.core p).sb.reverse.find? fun e => e.hits k n with
  | some e =>
    if e.holds k n then ((none, (e.bytes.drop (k % 8)).take n, e.tag), s)
    else
      let s := s.drainHits p k n
      let b := s.rdBytes k n
      let t := s.tagOf (k / 8)
      let (bad, s) := s.eccCheck k n
      ((bad, b, t), s)
  | none =>
    let b := s.rdBytes k n
    let t := s.tagOf (k / 8)
    let (bad, s) := s.eccCheck k n
    ((bad, b, t), s)

/-- Whether the store buffer serves a load of `n` bytes at a key (R238). -/
def State.forwarded (s : State) (p k n : Nat) : Bool :=
  match (s.core p).sb.reverse.find? fun e => e.hits k n with
  | some e => e.holds k n
  | none => false

/-- A capability read from a granule; of one read from memory, minority tag copies are corrected (R306). -/
def State.ldCap (p k : Nat) (s : State) : (Option Nat × Cap) × State :=
  let fwd := s.forwarded p k 8
  let ((bad, b, t), s) := s.ldMem p k 8
  ((bad, { w := BitVec.ofNat 64 (leNat b), tag := t }), if fwd then s else (s.readTag (k / 8)).2)

/-- The vector entry of R275: the capability, or the failed check's cause code with the entry's address. -/
def State.vector (p idx : Nat) (s : State) : Sum (Nat × Nat) Cap × State :=
  let c := (s.img p).cvt
  let a := (c.addr + 8 * idx) % 2 ^ 32
  let odd := [3, 4, 5, 6, 8, 9].getD (s.freeWord.toNat % 6) 3
  if !c.tag then (.inl (3, a), s)
  else if c.otype ≠ 0 then (.inl (4, a), s)
  else if !c.has (pLoad + pLoadCap) then (.inl (6, a), s)
  else if c.addr % 8 ≠ 0 then (.inl (odd, a), s.nextFree)
  else if !((List.range 8).all fun i => c.covers (a + i)) then (.inl (5, a), s)
  else
    match memKey p a with
    | none => (.inl (9, a), s)
    | some k =>
      let ((bad, v), s) := s.ldCap p k
      if bad.isSome then (.inl (8, a), s)
      else if !v.tag then (.inl (3, a), s)
      else if v.otype ≠ 0 then (.inl (4, a), s)
      else if !v.has pExec then (.inl (6, a), s)
      else if v.addr % 4 ≠ 0 then (.inl (odd, a), s.nextFree)
      else if !v.covers v.addr then (.inl (5, a), s)
      else (.inr v, s)

/-- Undefined data in `n` granules from an address on (R278): free values. -/
def State.scribble (p a : Nat) : Nat → State → State
  | 0, s => s
  | n + 1, s =>
    let v := dword s.freeWord.toNat (Config.freeWord (s.free + 1)).toNat
    State.scribble p (a + 8) n (s.nextFree.nextFree.pushGrans p a [(v, false)])

/-- The end of an entry: the handler's first instruction executes at tick 12 of the entry, at 14 with XFRAME; the checkpoint is
taken in parallel (R244). -/
def State.entered (p t size : Nat) (v : Cap) (s : State) : State :=
  let s := (s.setPcc p v).checkpoint p
  s.mapCore p fun x =>
    { x with free := max (t + (if size = 80 then 14 else 12)) s.tick, step := false, inLong := false, inWfi := false }

/-- CAUSE, EADDR and EINFO take values (R272). -/
def State.setExc (p c ea ei : Nat) (s : State) : State :=
  ((s.setCr p 1 (BitVec.ofNat 32 c)).setCr p 2 (BitVec.ofNat 32 ea)).setCr p 3 (BitVec.ofNat 32 ei)

/-- Double-fault entry (R279) of an event whose frame or vector failed a check `fc` at address `fa`. -/
def State.doubleFault (p : Nat) (e : Ev) (vf : Bool) (fc fa : Nat) (s : State) : State :=
  let t := s.tick
  let ei := e.byte + 256 * b2n vf + 512 * fc
  let c := (s.img p).cfs
  let a := enc 32 ((c.addr : Int) - e.size)
  let s := s.raise (glvSrc p) 0x4C (ei % 8192 + 65536 * (s.ts % 65536))
  match s.frameCheck p true c a e.size with
  | some k => s.nextFree.pairReset p k
  | none =>
    let s := (s.pushGrans p a (s.frame p e 10 fa ei)).setExc p 10 fa ei
    let s := s.setCr p 0 (fput (fput (s.crS p 0) ⟨0, 3⟩ 7) ⟨4, 2⟩ (1 + 2 * b2n e.micro.isSome))
    match s.vector p 1 with
    | (.inl (k, _), s) => s.pairReset p k
    | (.inr v, s) => s.entered p t e.size v

/-- Whether an event is a synchronous exception. -/
def Ev.sync (e : Ev) : Bool := e.line.isNone

/-- Index of an event in the vector table (R275). -/
def Ev.index (e : Ev) : Nat :=
  match e.line with
  | some l => 8 + l
  | none => 0

/-- What entry does to STATUS and to the exception registers (R244, R272): a synchronous exception writes CAUSE, EADDR and
EINFO; an interrupt sets IL to its line's priority and clears its pulse. STATUS.XFRAME shows what was pushed (R226). -/
def State.entryRegs (p : Nat) (e : Ev) (s : State) : State :=
  let s := s.setCr p 0 (fput (s.crS p 0) ⟨5, 1⟩ (b2n e.micro.isSome))
  match e.line with
  | none => s.setExc p e.byte e.eaddr e.einfo
  | some l =>
    let s := s.setCr p 0 (fput (s.crS p 0) ⟨0, 3⟩ (s.linePrio p l))
    { s with irq := tput s.irq p (tget 0 s.irq p &&& ~~~(BitVec.ofNat 64 (2 ^ l))) }

/-- Entry for an exception or an interrupt (R244, R272–R280). -/
def State.enter (p : Nat) (e : Ev) (s : State) : State :=
  if e.sync && s.dfActive p then (s.mapImg p fun i => { i with micro := none, pend := none }).pairReset p e.byte
  else
    let t := s.tick
    let s := { s with resv := tdel s.resv p }.mapImg p fun i => { i with ctx := [], micro := none, pend := none }
    let c := s.cR p 2
    let a := enc 32 ((c.addr : Int) - e.size)
    match s.frameCheck p false c a e.size with
    | some k => s.nextFree.doubleFault p e false k a
    | none =>
      let s1 := s.pushGrans p a (s.frame p e e.byte (if e.sync then e.eaddr else 0) (if e.sync then e.einfo else 0))
      match s1.vector p e.index with
      | (.inl (k, va), s2) => (s2.scribble p a (e.size / 8)).doubleFault p e true k va
      | (.inr v, s2) => ((s2.setC p 2 (c.point a)).entryRegs p e).entered p t e.size v

/-- The event of an interrupt line (R273, R274). -/
def irqEv (c : Cap) (l : Nat) (m : Option (Word × Word × Word × Nat × Nat)) : Ev where
  byte := 0x80 + l
  eaddr := 0
  einfo := 0
  saved := c
  micro := m
  line := some l

/-- An exception at the executing instruction. -/
def State.exc (p cause ea ei : Nat) (s : State) : State :=
  s.enter p { byte := cause, eaddr := ea, einfo := ei, saved := (s.img p).pcc, micro := none, line := none }

/-- The WATCHDOG exception (R397): EINFO holds the ticks left before the second stage. -/
def State.wdExc (p : Nat) (s : State) : State :=
  let due := (s.core p).kick + s.wdPeriod p + s.wdGrace p
  (s.mapCore p fun x => { x with wdPend := false }).exc p 14 0 (due - s.tick)

end Sys2Proof.Machine
end

