-- ==== Sys2Proof/Machine/CpuDecode.lean ====
section
/-! DEFINITION. The encoding of Ocosh instructions (R214–R228, spec/12_ocosh_isa.md), the fetch of an instruction word with its
checks (R233, R267), and how a pair executes one instruction: a command that names an instruction executes it on a pair when the
word that the pair fetches next is that instruction, and changes nothing otherwise (log entry 40). -/

namespace Sys2Proof.Machine

/-- The instructions of Ocosh. -/
inductive Op where
  | add | sub | and | or | xor | andn | sll | srl | sra | ror
  | seq | sne | slt | sltu | min | max | minu | maxu | clz | popc
  | bswap | addi | andi | ori | xori | seqi | snei | slti | sltiu | shi
  | lui | mullo | mulhiSs | mulhiUu | mulhiSu | quos | quou | rmds | rmdu | qmul
  | adds | subs | shrr | shls | sath | lb | lbu | lh | lhu | lw
  | flw | lcap | sb | sh | sw | fsw | scap | bz | bnz | dbnz
  | j | jal | tjump | lresW | sconW | tasB | fadd | fsub | fmul | fdiv
  | fsqrt | fmadd | fmin | fmax | fabs | fneg | fcmpEq | fcmpLt | fcmpLe | fcmpUn
  | ftoi | ftou | itof | utof | movfg | movgf | fkind | tcopy | tread | tpoint
  | tstep | tnarrow | tnarrowx | tmask | tvoid | twrap | tunwrap | tenter | tsrd | tswr
  | tstepi | crr | crw | crs | crc | csync | fence | wfi | eret | kcall
  | breakW | mcpy | mfill | vdot | crcb16 | crcb32 | cx
deriving DecidableEq, Repr

/-- Mask and pattern of an instruction: MAJ, its FN, FN6 or SYS sub-operation, the fields that it lists as 0, and bit 4 of each
field that names a c-register (R214–R216). -/
def Op.enc : Op → Word × Word
  | .add => (0xFC0007FF, 0x04000000)
  | .sub => (0xFC0007FF, 0x04000001)
  | .and => (0xFC0007FF, 0x04000002)
  | .or => (0xFC0007FF, 0x04000003)
  | .xor => (0xFC0007FF, 0x04000004)
  | .andn => (0xFC0007FF, 0x04000005)
  | .sll => (0xFC0007FF, 0x04000008)
  | .srl => (0xFC0007FF, 0x04000009)
  | .sra => (0xFC0007FF, 0x0400000A)
  | .ror => (0xFC0007FF, 0x0400000B)
  | .seq => (0xFC0007FF, 0x04000010)
  | .sne => (0xFC0007FF, 0x04000011)
  | .slt => (0xFC0007FF, 0x04000012)
  | .sltu => (0xFC0007FF, 0x04000013)
  | .min => (0xFC0007FF, 0x04000018)
  | .max => (0xFC0007FF, 0x04000019)
  | .minu => (0xFC0007FF, 0x0400001A)
  | .maxu => (0xFC0007FF, 0x0400001B)
  | .clz => (0xFC00FFFF, 0x04000020)
  | .popc => (0xFC00FFFF, 0x04000021)
  | .bswap => (0xFC00FFFF, 0x04000022)
  | .addi => (0xFC000000, 0x08000000)
  | .andi => (0xFC000000, 0x0C000000)
  | .ori => (0xFC000000, 0x10000000)
  | .xori => (0xFC000000, 0x14000000)
  | .seqi => (0xFC000000, 0x18000000)
  | .snei => (0xFC000000, 0x1C000000)
  | .slti => (0xFC000000, 0x20000000)
  | .sltiu => (0xFC000000, 0x24000000)
  | .shi => (0xFC00FF80, 0x28000000)
  | .lui => (0xFC1F0000, 0x2C000000)
  | .mullo => (0xFC0007FF, 0x30000000)
  | .mulhiSs => (0xFC0007FF, 0x30000001)
  | .mulhiUu => (0xFC0007FF, 0x30000002)
  | .mulhiSu => (0xFC0007FF, 0x30000003)
  | .quos => (0xFC0007FF, 0x30000008)
  | .quou => (0xFC0007FF, 0x30000009)
  | .rmds => (0xFC0007FF, 0x3000000A)
  | .rmdu => (0xFC0007FF, 0x3000000B)
  | .qmul => (0xFC0007FF, 0x34000000)
  | .adds => (0xFC0007FF, 0x34000002)
  | .subs => (0xFC0007FF, 0x34000003)
  | .shrr => (0xFC0007FF, 0x34000004)
  | .shls => (0xFC0007FF, 0x34000005)
  | .sath => (0xFC00FFFF, 0x34000006)
  | .lb => (0xFC100000, 0x40000000)
  | .lbu => (0xFC100000, 0x44000000)
  | .lh => (0xFC100000, 0x48000000)
  | .lhu => (0xFC100000, 0x4C000000)
  | .lw => (0xFC100000, 0x50000000)
  | .flw => (0xFC100000, 0x54000000)
  | .lcap => (0xFE100000, 0x58000000)
  | .sb => (0xFC100000, 0x60000000)
  | .sh => (0xFC100000, 0x64000000)
  | .sw => (0xFC100000, 0x68000000)
  | .fsw => (0xFC100000, 0x6C000000)
  | .scap => (0xFE100000, 0x70000000)
  | .bz => (0xFC000000, 0x80000000)
  | .bnz => (0xFC000000, 0x84000000)
  | .dbnz => (0xFC000000, 0x88000000)
  | .j => (0xFC000000, 0x8C000000)
  | .jal => (0xFC000000, 0x90000000)
  | .tjump => (0xFE10FFFF, 0x94000000)
  | .lresW => (0xFC10FFFF, 0xA0000000)
  | .sconW => (0xFC1007FF, 0xA0000001)
  | .tasB => (0xFC10FFFF, 0xA0000002)
  | .fadd => (0xFC0007FF, 0xB0000000)
  | .fsub => (0xFC0007FF, 0xB0000001)
  | .fmul => (0xFC0007FF, 0xB0000002)
  | .fdiv => (0xFC0007FF, 0xB0000003)
  | .fsqrt => (0xFC00FFFF, 0xB0000004)
  | .fmadd => (0xFC0007FF, 0xB0000005)
  | .fmin => (0xFC0007FF, 0xB0000008)
  | .fmax => (0xFC0007FF, 0xB0000009)
  | .fabs => (0xFC00FFFF, 0xB000000A)
  | .fneg => (0xFC00FFFF, 0xB000000B)
  | .fcmpEq => (0xFC0007FF, 0xB0000010)
  | .fcmpLt => (0xFC0007FF, 0xB0000011)
  | .fcmpLe => (0xFC0007FF, 0xB0000012)
  | .fcmpUn => (0xFC0007FF, 0xB0000013)
  | .ftoi => (0xFC0007FF, 0xB0000018)
  | .ftou => (0xFC0007FF, 0xB0000019)
  | .itof => (0xFC0007FF, 0xB000001A)
  | .utof => (0xFC0007FF, 0xB000001B)
  | .movfg => (0xFC0007FF, 0xB000001C)
  | .movgf => (0xFC0007FF, 0xB000001D)
  | .fkind => (0xFC0007FF, 0xB000001E)
  | .tcopy => (0xFE10FFFF, 0xC0000000)
  | .tread => (0xFC1007FF, 0xC0000001)
  | .tpoint => (0xFE1007FF, 0xC0000008)
  | .tstep => (0xFE1007FF, 0xC0000009)
  | .tnarrow => (0xFE1007FF, 0xC000000A)
  | .tnarrowx => (0xFE1007FF, 0xC000000B)
  | .tmask => (0xFE1007FF, 0xC000000C)
  | .tvoid => (0xFE1007FF, 0xC000000D)
  | .twrap => (0xFE1087FF, 0xC0000010)
  | .tunwrap => (0xFE1087FF, 0xC0000011)
  | .tenter => (0xFFF087FF, 0xC0000012)
  | .tsrd => (0xFE0007FF, 0xC0000018)
  | .tswr => (0xFFF007FF, 0xC0000019)
  | .tstepi => (0xFE100000, 0xC4000000)
  | .crr => (0xFC1FF000, 0xD0000000)
  | .crw => (0xFC00F000, 0xD0001000)
  | .crs => (0xFC00F000, 0xD0002000)
  | .crc => (0xFC00F000, 0xD0003000)
  | .csync => (0xFFFFFFFF, 0xD0008000)
  | .fence => (0xFFFFFFFF, 0xD0009000)
  | .wfi => (0xFFFFFFFF, 0xD000A000)
  | .eret => (0xFFFFFFFF, 0xD000B000)
  | .kcall => (0xFC00F000, 0xD000C000)
  | .breakW => (0xFC00F000, 0xD000D000)
  | .mcpy => (0xFE10F83F, 0xE0000000)
  | .mfill => (0xFE00F83F, 0xE0000001)
  | .vdot => (0xFC10803F, 0xE0000002)
  | .crcb16 => (0xFC10F83F, 0xE0000003)
  | .crcb32 => (0xFC10F83F, 0xE0000004)
  | .cx => (0xFC000000, 0xF0000000)

/-- Every instruction. -/
def Op.all : List Op :=
  [.add, .sub, .and, .or, .xor, .andn, .sll, .srl, .sra, .ror,
   .seq, .sne, .slt, .sltu, .min, .max, .minu, .maxu, .clz, .popc,
   .bswap, .addi, .andi, .ori, .xori, .seqi, .snei, .slti, .sltiu, .shi,
   .lui, .mullo, .mulhiSs, .mulhiUu, .mulhiSu, .quos, .quou, .rmds, .rmdu, .qmul,
   .adds, .subs, .shrr, .shls, .sath, .lb, .lbu, .lh, .lhu, .lw,
   .flw, .lcap, .sb, .sh, .sw, .fsw, .scap, .bz, .bnz, .dbnz,
   .j, .jal, .tjump, .lresW, .sconW, .tasB, .fadd, .fsub, .fmul, .fdiv,
   .fsqrt, .fmadd, .fmin, .fmax, .fabs, .fneg, .fcmpEq, .fcmpLt, .fcmpLe, .fcmpUn,
   .ftoi, .ftou, .itof, .utof, .movfg, .movgf, .fkind, .tcopy, .tread, .tpoint,
   .tstep, .tnarrow, .tnarrowx, .tmask, .tvoid, .twrap, .tunwrap, .tenter, .tsrd, .tswr,
   .tstepi, .crr, .crw, .crs, .crc, .csync, .fence, .wfi, .eret, .kcall,
   .breakW, .mcpy, .mfill, .vdot, .crcb16, .crcb32, .cx]

/-- Fields of an instruction word (R214). -/
def fD (w : Word) : Nat := nbits w.toNat 21 5

def fA (w : Word) : Nat := nbits w.toNat 16 5

def fB (w : Word) : Nat := nbits w.toNat 11 5

def fE (w : Word) : Nat := nbits w.toNat 6 5

def fImm (w : Word) : Nat := w.toNat % 65536

/-- imm16, sign-extended. -/
def fImmS (w : Word) : Int := sx 16 (fImm w)

/-- The control registers of R226. -/
def crListed (k : Nat) : Bool := decide (k < 0x14) || (decide (0x20 ≤ k) && decide (k < 0x25))

/-- What an encoding asks for beyond its pattern: DBNZ not of g0, k of TREAD below 7, the special registers of TSRD and TSWR, and
a listed control register (R218, R224, R226). -/
def Op.more : Op → Word → Bool
  | .dbnz, w => fD w != 0
  | .tread, w => decide (fB w < 7)
  | .tsrd, w => decide (fB w < 3)
  | .tswr, w => fB w == 1 || fB w == 2
  | .crr, w => crListed (w.toNat % 4096)
  | .crw, w => crListed (w.toNat % 4096)
  | .crs, w => crListed (w.toNat % 4096)
  | .crc, w => crListed (w.toNat % 4096)
  | _, _ => true

/-- Whether a word is an instruction. -/
def Op.is (o : Op) (w : Word) : Bool := w &&& o.enc.1 == o.enc.2 && o.more w

/-- The instruction that a word spells; none raises ILLEGAL (R215). -/
def decodeWord (w : Word) : Option Op := Op.all.find? fun o => o.is w

/-- A field of a CX word fits the operand kind of its decode entry: 0 none, 1 g, 2 f, 3 c (R215, R230). -/
def kindOk (kind field : Nat) : Bool := if kind = 0 then field == 0 else kind != 3 || decide (field < 16)

/-- Whether a CX word selects a valid entry and its fields fit the entry (R215, R230). -/
def State.cxOk (s : State) (p : Nat) (w : Word) : Bool :=
  let e := s.decEntry p (fE w)
  nbit e 0 && kindOk (nbits e 12 2) (fD w) && kindOk (nbits e 14 2) (fA w) && kindOk (nbits e 16 2) (fB w)

/-- What a read of a decode entry counts (R288, R305). -/
def State.decNote (p k : Nat) (s : State) : State :=
  if nbit (s.rn Reg.MCS_DTVAL) p then s.csNote (csDec p k) 4 (6 + 256 * p) (4 * k) 16 1670 (1 + 256 * p) k else s

/-- The checks of R267 on the next fetch of a pair but for that of the memory's error code: cause, EADDR, EINFO. -/
def State.fetchCheck (s : State) (p : Nat) : Option (Nat × Nat × Nat) :=
  let c := (s.img p).pcc
  let a := c.addr
  if !c.tag then some (3, a, 16)
  else if c.otype ≠ 0 then some (4, a, 16)
  else if !c.has pExec then some (1, a, 0)
  else if a % 4 ≠ 0 then some (0, a, 0)
  else if !((List.range 4).all fun i => c.covers (a + i)) then some (5, a, 16)
  else if 0x40000 ≤ a then some (9, a, 0)
  else none

/-- ECC_UE of a byte at a key, met by an access at address `a` that starts at key `k`: cause, EADDR, EINFO (R273, R305). -/
def ueExc (a k bad : Nat) : Nat × Nat × Nat := (8, a + (bad - k), (midOf bad).1 + 65536 * (bad % 8))

/-- The next fetch of a pair (R267): stores to its word drain first (R241). Answers the fault, or the word. -/
def State.fetch (p : Nat) (s : State) : Sum (Nat × Nat × Nat) Word × State :=
  match s.fetchCheck p with
  | some f => (.inl f, s)
  | none =>
    let a := s.pc p
    let k := itcm p a
    let s := s.drainHits p k 4
    let w := BitVec.ofNat 32 (s.rdLe k 4)
    let (bad, s) := s.eccCheck k 4
    match bad with
    | some b => (.inl (ueExc a k b), s)
    | none => (.inr w, s)

/-- How an instruction ends: it retires and the next instruction follows, or stands at a capability; an element of it is done and
it stays; it raises an exception with no effect of its own; it completes and then traps after its cycles in E, with the saved pcc
behind it or at it; or it has set everything itself. `ck` asks for the checkpoint that closes an access outside the pair (R200). -/
inductive Ends where
  | go (cyc : Nat) (ck : Bool)
  | to (c : Cap) (cyc : Nat)
  | stay (cyc : Nat) (ck : Bool)
  | exc (cause ea ei : Nat)
  | trap (cyc cause ei : Nat)
  | trapHere (cyc cause ei : Nat)
  | own
deriving DecidableEq, Repr

/-- The capability of the next instruction in sequence. -/
def State.nextPcc (s : State) (p : Nat) : Cap := (s.img p).pcc.point (s.pc p + 4)

/-- The next instruction boundary of a pair: the time runs until E is free. -/
def State.toBoundary (p : Nat) (s : State) : State := s.atTick (s.core p).free

/-- Carry out the end of an instruction. -/
def State.finishInsn (p : Nat) : Ends → State → State
  | .go cyc ck, s =>
    let s := s.retire p (s.nextPcc p) cyc
    if ck then s.checkpoint p else s
  | .to c cyc, s => s.retire p c cyc
  | .stay cyc ck, s =>
    let s := (s.holdE p cyc).mapCore p fun x => { x with inLong := true }
    if ck then s.checkpoint p else s
  | .exc c ea ei, s => s.exc p c ea ei
  | .trap cyc c ei, s => ((s.retire p (s.nextPcc p) cyc).toBoundary p).exc p c 0 ei
  | .trapHere cyc c ei, s => ((s.holdE p cyc).toBoundary p).exc p c 0 ei
  | .own, s => s

/-- Whether a pair is at an instruction boundary, able to go on. -/
def State.atBoundary (s : State) (p : Nat) : Bool := s.coreGo p && (s.img p).micro.isNone

/-- Micro-state that waits for its CX is discarded by any other instruction (R296). -/
def State.dropPend (p : Nat) (s : State) : State :=
  if (s.img p).pend.isSome then s.mapImg p fun i => { i with pend := none } else s

/-- The line that is taken at the boundary of a pair (R243). A WFI that stands in E completes first (R225). -/
def State.lineNow (s : State) (p : Nat) : Option Nat := if (s.core p).inWfi then none else (s.toBoundary p).takenLine p

/-- Take an interrupt at the boundary of a pair (R243, R244). -/
def State.takeLine (p l : Nat) (s : State) : State :=
  let s := s.toBoundary p
  s.enter p (irqEv (s.img p).pcc l none)

/-- Whether a fetched word is no instruction, or a CX that the decode table does not make valid (R215). -/
def State.illegal (s : State) (p : Nat) (w : Word) : Bool := (decodeWord w).isNone || (Op.cx.is w && !s.cxOk p w)

/-- The synchronous exception that stands at the boundary of a pair, taken (R267, R215, R272, R397): a WATCHDOG exception that is
due, a failing fetch, a word that is no instruction. A pair that is not at a boundary has none. -/
def State.boundaryExc (s : State) (p : Nat) : Option State :=
  if !s.atBoundary p then none
  else if (s.core p).wdPend then some ((s.toBoundary p).wdExc p)
  else
    match (s.toBoundary p).fetch p with
    | (.inl (c, ea, ei), s1) => some (s1.exc p c ea ei)
    | (.inr w, s1) =>
      if s1.illegal p w then some ((if Op.cx.is w then s1.decNote p (fE w) else s1).exc p 2 (s1.pc p) w.toNat) else none

/-- A pair executes an instruction, when the word it fetches is that instruction. A WATCHDOG exception that is due is taken
first (R397), and so is a line that qualifies at the boundary (R243). -/
def State.insn (p : Nat) (o : Op) (body : Word → State → Ends × State) (s : State) : State :=
  if !s.atBoundary p then s
  else if (s.core p).wdPend then (s.toBoundary p).wdExc p
  else
    match (s.toBoundary p).fetch p with
    | (.inl _, _) => s
    | (.inr w, s1) =>
      if o.is w then
        match s.lineNow p with
        | some l => s.takeLine p l
        | none =>
          let (e, s2) := body w (if o = .cx then s1 else s1.dropPend p)
          s2.finishInsn p e
      else s

/-- ILLEGAL (R215): the word that a pair fetches is no instruction, or a CX that its decode table does not make valid. -/
def execIllegal (p : Fin 21) (s : State) : Res :=
  match (s.toBoundary p).fetch p with
  | (.inl _, _) => .next s
  | (.inr _, _) => .next ((s.boundaryExc p).getD s)

/-- FETCH_FAULT (R267): the fetch of a pair fails a check. -/
def execFetchFault (p : Fin 21) (s : State) : Res :=
  match (s.toBoundary p).fetch p with
  | (.inl _, _) => .next ((s.boundaryExc p).getD s)
  | (.inr _, _) => .next s

end Sys2Proof.Machine
end

