-- ==== Sys2Proof/Machine/Float.lean ====
section
/-! DEFINITION. Binary32 arithmetic (R251–R256, spec/14_arithmetic.md). -/

namespace Sys2Proof.Machine

/-- Flags of R226, in FPCSR order: NV, DZ, OF, UF, NX. -/
def fNV : Nat := 1

def fDZ : Nat := 2

def fOF : Nat := 4

def fUF : Nat := 8

def fNX : Nat := 16

/-- FPCSR as an operation sees it: rounding mode, FTZ, DAZ. -/
structure FCtl where
  rm : Nat
  ftz : Bool
  daz : Bool
deriving DecidableEq, Repr

/-- Fields of a binary32. -/
def fSign (w : Word) : Bool := w.msb

def fExp (w : Word) : Nat := nbits w.toNat 23 8

def fFrac (w : Word) : Nat := w.toNat % 2 ^ 23

def fIsNaN (w : Word) : Bool := fExp w == 255 && fFrac w != 0

def fIsSNaN (w : Word) : Bool := fIsNaN w && fFrac w < 2 ^ 22

def fIsInf (w : Word) : Bool := fExp w == 255 && fFrac w == 0

def fIsZero (w : Word) : Bool := fExp w == 0 && fFrac w == 0

def fIsSub (w : Word) : Bool := fExp w == 0 && fFrac w != 0

/-- Significand and exponent of a finite value: |w| = fMan w × 2^(fPow w). -/
def fMan (w : Word) : Nat := if fExp w = 0 then fFrac w else fFrac w + 2 ^ 23

def fPow (w : Word) : Int := if fExp w = 0 then -149 else (fExp w : Int) - 150

/-- The canonical quiet NaN (R254). -/
def fNaN : Word := 0x7FC00000

/-- A word from sign, exponent field and fraction. -/
def fMake (neg : Bool) (e f : Nat) : Word := BitVec.ofNat 32 (b2n neg * 2 ^ 31 + e * 2 ^ 23 + f)

def fInf (neg : Bool) : Word := fMake neg 255 0

def fZero (neg : Bool) : Word := fMake neg 0 0

/-- An operand under DAZ (R256). -/
def fIn (c : FCtl) (w : Word) : Word := if c.daz && fIsSub w then fZero (fSign w) else w

/-- Whether a magnitude is rounded up: the quotient's last bit, and the remainder against half (0 exact, 1 below, 2 half,
3 above). -/
def fUp (rm : Nat) (neg odd : Bool) (r : Nat) : Bool :=
  match rm with
  | 0 => r == 3 || (r == 2 && odd)
  | 1 => false
  | 2 => r != 0 && !neg
  | _ => r != 0 && neg

/-- The class of a remainder `r` of `d` with a sticky bit below. -/
def fRem (r d : Nat) (sticky : Bool) : Nat :=
  if 2 * r < d then (if r == 0 && !sticky then 0 else 1) else if 2 * r = d then (if sticky then 3 else 2) else 3

/-- `n`, with a sticky bit below, divided by 2^s and rounded; whether it was inexact. -/
def fShift (rm : Nat) (neg : Bool) (n : Nat) (s : Int) (sticky : Bool) : Nat × Bool :=
  if s ≤ 0 then
    let q := n * 2 ^ (-s).toNat
    (q + b2n (fUp rm neg (q % 2 == 1) (b2n sticky)), sticky)
  else
    let d := 2 ^ s.toNat
    let k := fRem (n % d) d sticky
    (n / d + b2n (fUp rm neg (n / d % 2 == 1) k), k != 0)

/-- Bit length. -/
def bitLen (n : Nat) : Nat := if n = 0 then 0 else Nat.log2 n + 1

/-- The binary32 of sign × (n + sticky) × 2^e, `n` nonzero and of at least 26 bits when sticky, with its flags (R252, R253,
R256). -/
def fRound (c : FCtl) (neg : Bool) (n : Nat) (e : Int) (sticky : Bool) : Word × Nat :=
  let s := (bitLen n : Int) - 24
  let (q0, inex) := fShift c.rm neg n s sticky
  let (q, x) := if q0 = 2 ^ 24 then (2 ^ 23, e + s + 1) else (q0, e + s)
  if 104 < x then
    let toInf := c.rm == 0 || (c.rm == 2 && !neg) || (c.rm == 3 && neg)
    (if toInf then fInf neg else fMake neg 254 (2 ^ 23 - 1), fOF + fNX)
  else if x < -149 then
    if c.ftz then (fZero neg, fUF + fNX)
    else
      let (r, ix) := fShift c.rm neg n (-149 - e) sticky
      (BitVec.ofNat 32 (b2n neg * 2 ^ 31 + r), if ix then fUF + fNX else 0)
  else (fMake neg (x + 150).toNat (q - 2 ^ 23), if inex then fNX else 0)

/-- The NV flag of signalling operands (R254). -/
def fSig (l : List Word) : Nat := if l.any fIsSNaN then fNV else 0

/-- The canonical NaN with NV. -/
def fInvalid : Word × Nat := (fNaN, fNV)

/-- The exact sum of a × 2^x and b × 2^y, rounded; `zneg` is the sign of an exact zero of operands of one sign. -/
def fSumRound (c : FCtl) (a : Int) (x : Int) (b : Int) (y : Int) (zneg : Option Bool) : Word × Nat :=
  let e := min x y
  let v := a * 2 ^ (x - e).toNat + b * 2 ^ (y - e).toNat
  if v = 0 then (fZero (zneg.getD (c.rm == 3)), 0) else fRound c (decide (v < 0)) v.natAbs e false

/-- The signed significand of a finite value. -/
def fSman (w : Word) : Int := if fSign w then -(fMan w : Int) else fMan w

/-- FADD (R221, R252, R254). -/
def fAdd (c : FCtl) (a b : Word) : Word × Nat :=
  let a := fIn c a
  let b := fIn c b
  if fIsNaN a || fIsNaN b then (fNaN, fSig [a, b])
  else if fIsInf a then if fIsInf b && fSign a != fSign b then fInvalid else (a, 0)
  else if fIsInf b then (b, 0)
  else fSumRound c (fSman a) (fPow a) (fSman b) (fPow b)
    (if fIsZero a && fIsZero b && fSign a == fSign b then some (fSign a) else none)

/-- The word with its sign inverted. -/
def fNegate (w : Word) : Word := w ^^^ 0x80000000

/-- FSUB. -/
def fSub (c : FCtl) (a b : Word) : Word × Nat := if fIsNaN b then fAdd c a b else fAdd c a (fNegate b)

/-- FMUL. -/
def fMul (c : FCtl) (a b : Word) : Word × Nat :=
  let a := fIn c a
  let b := fIn c b
  let neg := fSign a != fSign b
  if fIsNaN a || fIsNaN b then (fNaN, fSig [a, b])
  else if fIsInf a || fIsInf b then if fIsZero a || fIsZero b then fInvalid else (fInf neg, 0)
  else if fIsZero a || fIsZero b then (fZero neg, 0)
  else fRound c neg (fMan a * fMan b) (fPow a + fPow b) false

/-- FDIV. -/
def fDiv (c : FCtl) (a b : Word) : Word × Nat :=
  let a := fIn c a
  let b := fIn c b
  let neg := fSign a != fSign b
  if fIsNaN a || fIsNaN b then (fNaN, fSig [a, b])
  else if fIsInf a then if fIsInf b then fInvalid else (fInf neg, 0)
  else if fIsInf b then (fZero neg, 0)
  else if fIsZero b then if fIsZero a then fInvalid else (fInf neg, fDZ)
  else if fIsZero a then (fZero neg, 0)
  else
    let n := fMan a * 2 ^ 60
    fRound c neg (n / fMan b) (fPow a - fPow b - 60) (n % fMan b != 0)

/-- One bit of an integer square root: `r` so far, bit `i` tried. -/
def isqrtGo (n : Nat) : Nat → Nat → Nat
  | 0, r => r
  | i + 1, r =>
    let t := r + 2 ^ i
    isqrtGo n i (if t * t ≤ n then t else r)

/-- The integer square root of a number below 2^96. -/
def isqrt (n : Nat) : Nat := isqrtGo n 48 0

/-- FSQRT. -/
def fSqrt (c : FCtl) (a : Word) : Word × Nat :=
  let a := fIn c a
  if fIsNaN a then (fNaN, fSig [a])
  else if fIsZero a then (a, 0)
  else if fSign a then fInvalid
  else if fIsInf a then (a, 0)
  else
    let k : Nat := if fPow a % 2 = 0 then 60 else 61
    let n := fMan a * 2 ^ k
    let r := isqrt n
    fRound c false r ((fPow a - k) / 2) (r * r != n)

/-- FMADD: d + a × b with one rounding (R221, R254). -/
def fMadd (c : FCtl) (d a b : Word) : Word × Nat :=
  let d := fIn c d
  let a := fIn c a
  let b := fIn c b
  let neg := fSign a != fSign b
  let bad := (fIsInf a && fIsZero b) || (fIsZero a && fIsInf b)
  if fIsNaN a || fIsNaN b || fIsNaN d then (fNaN, if bad then fNV else fSig [d, a, b])
  else if bad then fInvalid
  else if fIsInf a || fIsInf b then if fIsInf d && fSign d != neg then fInvalid else (fInf neg, 0)
  else if fIsInf d then (d, 0)
  else
    let p : Int := if neg then -((fMan a * fMan b : Nat) : Int) else (fMan a * fMan b : Nat)
    fSumRound c (fSman d) (fPow d) p (fPow a + fPow b)
      (if fIsZero d && p = 0 && fSign d == neg then some neg else none)

/-- a < b for values that are no NaN; −0 equals +0. -/
def fLess (a b : Word) : Bool :=
  let key := fun (w : Word) => if fSign w then -((w.toNat % 2 ^ 31 : Nat) : Int) else ((w.toNat % 2 ^ 31 : Nat) : Int)
  decide (key a < key b)

/-- a = b for values that are no NaN. -/
def fEqual (a b : Word) : Bool := a == b || (fIsZero a && fIsZero b)

/-- A result under FTZ that an operation selects from its operands (R256). -/
def fFlush (c : FCtl) (w : Word) : Word × Nat := if c.ftz && fIsSub w then (fZero (fSign w), fUF + fNX) else (w, 0)

/-- FMIN and FMAX (R254): −0 orders below +0. -/
def fMinMax (c : FCtl) (mx : Bool) (a b : Word) : Word × Nat :=
  let a := fIn c a
  let b := fIn c b
  if fIsNaN a || fIsNaN b then (fNaN, fSig [a, b])
  else
    let aFirst := fLess a b || (fEqual a b && fSign a)
    fFlush c (if aFirst != mx then a else b)

/-- The FCMP forms (R254): 0 EQ, 1 LT, 2 LE, 3 UN. -/
def fCmp (c : FCtl) (k : Nat) (a b : Word) : Bool × Nat :=
  let a := fIn c a
  let b := fIn c b
  if fIsNaN a || fIsNaN b then (k == 3, if k = 1 || k = 2 then fNV else fSig [a, b])
  else (match k with | 0 => fEqual a b | 1 => fLess a b | 2 => fLess a b || fEqual a b | _ => false, 0)

/-- A finite value rounded to an integer by a rounding mode; whether it was inexact. -/
def fToIntR (rm : Nat) (a : Word) : Int × Bool :=
  let (q, ix) := fShift rm (fSign a) (fMan a) (-(fPow a)) false
  (if fSign a then -(q : Int) else q, ix)

/-- FTOI and FTOU (R255), with the destination's range. -/
def fToInt (c : FCtl) (lo hi : Int) (a : Word) : Word × Nat :=
  let a := fIn c a
  if fIsNaN a || (fIsInf a && !fSign a) then (BitVec.ofInt 32 hi, fNV)
  else if fIsInf a then (BitVec.ofInt 32 lo, fNV)
  else
    let (v, ix) := fToIntR c.rm a
    if hi < v then (BitVec.ofInt 32 hi, fNV)
    else if v < lo then (BitVec.ofInt 32 lo, fNV)
    else (BitVec.ofInt 32 v, if ix then fNX else 0)

/-- ITOF and UTOF (R255); FTZ and DAZ do not apply. -/
def fOfInt (rm : Nat) (v : Int) : Word × Nat :=
  if v = 0 then (0, 0) else fRound { rm := rm, ftz := false, daz := false } (decide (v < 0)) v.natAbs 0 false

/-- FKIND (R221). -/
def fKind (a : Word) : Word :=
  let k := if fIsZero a then 0 else if fIsSub a then 1 else if fIsSNaN a then 5 else if fIsNaN a then 4 else if fIsInf a then 3 else 2
  BitVec.ofNat 32 (k + 16 * b2n (fSign a))

end Sys2Proof.Machine
end

