-- ==== Sys2Proof/Machine/CpuInt.lean ====
section
/-! DEFINITION. The integer, multiply, divide, fixed-point, branch and jump instructions of a pair (R217–R219, R246–R250). -/

namespace Sys2Proof.Machine

/-- An instruction of class A that writes gd from ga and gb (R217). -/
def State.aluR (p : Nat) (o : Op) (f : Word → Word → Word) (s : State) : State :=
  s.insn p o fun w s => (.go 1 false, s.setG p (fD w) (f (s.gR p (fA w)) (s.gR p (fB w))))

/-- An instruction of class A that writes gd from ga and its imm16. -/
def State.aluI (p : Nat) (o : Op) (f : Word → Word → Word) (s : State) : State :=
  s.insn p o fun w s => (.go 1 false, s.setG p (fD w) (f (s.gR p (fA w)) (BitVec.ofNat 32 (fImm w))))

/-- The same with imm16 sign-extended. -/
def State.aluS (p : Nat) (o : Op) (f : Word → Word → Word) (s : State) : State :=
  s.insn p o fun w s => (.go 1 false, s.setG p (fD w) (f (s.gR p (fA w)) (BitVec.ofInt 32 (fImmS w))))

/-- A condition as a value. -/
def flagW (b : Bool) : Word := if b then 1 else 0

/-- Shifts and the rotation by an amount below 32. -/
def shl32 (a b : Word) : Word := a <<< (b.toNat % 32)

def shr32 (a b : Word) : Word := a >>> (b.toNat % 32)

def sar32 (a b : Word) : Word := a.sshiftRight (b.toNat % 32)

def ror32 (a b : Word) : Word := a.rotateRight (b.toNat % 32)

/-- Count of leading zeros, 32 for 0; count of ones; byte reversal. -/
def clz32 (a : Word) : Word := BitVec.ofNat 32 (32 - bitLen a.toNat)

def popc32 (a : Word) : Word := BitVec.ofNat 32 ((List.range 32).countP fun i => a.getLsbD i)

def bswap32 (a : Word) : Word := BitVec.ofNat 32 (leNat (leBytes 4 a.toNat).reverse)

def minS (a b : Word) : Word := if b.slt a then b else a

def maxS (a b : Word) : Word := if a.slt b then b else a

def minU (a b : Word) : Word := if b.ult a then b else a

def maxU (a b : Word) : Word := if a.ult b then b else a

/-- ADD (R217). -/
def execAdd (p : Fin 21) (s : State) : Res := .next (s.aluR p .add (fun a b => a + b))

/-- SUB (R217). -/
def execSub (p : Fin 21) (s : State) : Res := .next (s.aluR p .sub (fun a b => a - b))

/-- AND (R217). -/
def execAnd (p : Fin 21) (s : State) : Res := .next (s.aluR p .and (fun a b => a &&& b))

/-- OR (R217). -/
def execOr (p : Fin 21) (s : State) : Res := .next (s.aluR p .or (fun a b => a ||| b))

/-- XOR (R217). -/
def execXor (p : Fin 21) (s : State) : Res := .next (s.aluR p .xor (fun a b => a ^^^ b))

/-- ANDN (R217). -/
def execAndn (p : Fin 21) (s : State) : Res := .next (s.aluR p .andn (fun a b => a &&& ~~~b))

/-- SLL (R217). -/
def execSll (p : Fin 21) (s : State) : Res := .next (s.aluR p .sll shl32)

/-- SRL (R217). -/
def execSrl (p : Fin 21) (s : State) : Res := .next (s.aluR p .srl shr32)

/-- SRA (R217). -/
def execSra (p : Fin 21) (s : State) : Res := .next (s.aluR p .sra sar32)

/-- ROR (R217). -/
def execRor (p : Fin 21) (s : State) : Res := .next (s.aluR p .ror ror32)

/-- SEQ (R217). -/
def execSeq (p : Fin 21) (s : State) : Res := .next (s.aluR p .seq (fun a b => flagW (a == b)))

/-- SNE (R217). -/
def execSne (p : Fin 21) (s : State) : Res := .next (s.aluR p .sne (fun a b => flagW (a != b)))

/-- SLT (R217). -/
def execSlt (p : Fin 21) (s : State) : Res := .next (s.aluR p .slt (fun a b => flagW (a.slt b)))

/-- SLTU (R217). -/
def execSltu (p : Fin 21) (s : State) : Res := .next (s.aluR p .sltu (fun a b => flagW (a.ult b)))

/-- MIN (R217). -/
def execMin (p : Fin 21) (s : State) : Res := .next (s.aluR p .min minS)

/-- MAX (R217). -/
def execMax (p : Fin 21) (s : State) : Res := .next (s.aluR p .max maxS)

/-- MINU (R217). -/
def execMinu (p : Fin 21) (s : State) : Res := .next (s.aluR p .minu minU)

/-- MAXU (R217). -/
def execMaxu (p : Fin 21) (s : State) : Res := .next (s.aluR p .maxu maxU)

/-- CLZ (R217). -/
def execClz (p : Fin 21) (s : State) : Res := .next (s.aluR p .clz (fun a _ => clz32 a))

/-- POPC (R217). -/
def execPopc (p : Fin 21) (s : State) : Res := .next (s.aluR p .popc (fun a _ => popc32 a))

/-- BSWAP (R217). -/
def execBswap (p : Fin 21) (s : State) : Res := .next (s.aluR p .bswap (fun a _ => bswap32 a))

/-- ADDI (R217). -/
def execAddi (p : Fin 21) (s : State) : Res := .next (s.aluS p .addi (fun a b => a + b))

/-- ANDI (R217): the immediate is zero-extended. -/
def execAndi (p : Fin 21) (s : State) : Res := .next (s.aluI p .andi (fun a b => a &&& b))

/-- ORI (R217). -/
def execOri (p : Fin 21) (s : State) : Res := .next (s.aluI p .ori (fun a b => a ||| b))

/-- XORI (R217). -/
def execXori (p : Fin 21) (s : State) : Res := .next (s.aluI p .xori (fun a b => a ^^^ b))

/-- SEQI (R217). -/
def execSeqi (p : Fin 21) (s : State) : Res := .next (s.aluS p .seqi (fun a b => flagW (a == b)))

/-- SNEI (R217). -/
def execSnei (p : Fin 21) (s : State) : Res := .next (s.aluS p .snei (fun a b => flagW (a != b)))

/-- SLTI (R217). -/
def execSlti (p : Fin 21) (s : State) : Res := .next (s.aluS p .slti (fun a b => flagW (a.slt b)))

/-- SLTIU (R217): the sign-extended immediate, compared unsigned. -/
def execSltiu (p : Fin 21) (s : State) : Res := .next (s.aluS p .sltiu (fun a b => flagW (a.ult b)))

/-- The operation of SHI: imm[4:0] is the amount, imm[6:5] the kind (R217). -/
def shiftImm (a imm : Word) : Word :=
  match nbits imm.toNat 5 2 with
  | 0 => shl32 a imm
  | 1 => shr32 a imm
  | 2 => sar32 a imm
  | _ => ror32 a imm

/-- SHI (R217). -/
def execShi (p : Fin 21) (s : State) : Res := .next (s.aluI p .shi shiftImm)

/-- LUI (R217). -/
def execLui (p : Fin 21) (s : State) : Res := .next (s.aluI p .lui (fun _ b => b <<< 16))

/-- A relative target: pc + 4 × off, as a pcc (R218). -/
def State.relPcc (s : State) (p : Nat) (off : Int) : Cap := (s.img p).pcc.point (enc 32 ((s.pc p : Int) + 4 * off))

/-- off21 of the branches. -/
def off21 (w : Word) : Int := sx 21 (w.toNat % 2 ^ 21)

def off26 (w : Word) : Int := sx 26 (w.toNat % 2 ^ 26)

/-- A branch: 3 cycles taken, 1 not taken (R235); the loop buffer's saving is left out (log entry 41). -/
def State.branch (s : State) (p : Nat) (w : Word) (taken : Bool) : Ends :=
  if taken then .to (s.relPcc p (off21 w)) 3 else .go 1 false

/-- BZ (R218). -/
def execBz (p : Fin 21) (s : State) : Res := .next (s.insn p .bz fun w s => (s.branch p w (s.gR p (fD w) == 0), s))

/-- BNZ (R218). -/
def execBnz (p : Fin 21) (s : State) : Res := .next (s.insn p .bnz fun w s => (s.branch p w (s.gR p (fD w) != 0), s))

/-- DBNZ (R218). -/
def execDbnz (p : Fin 21) (s : State) : Res :=
  .next (s.insn p .dbnz fun w s =>
    let v := s.gR p (fD w) - 1
    (s.branch p w (v != 0), s.setG p (fD w) v))

/-- J (R218). -/
def execJ (p : Fin 21) (s : State) : Res := .next (s.insn p .j fun w s => (.to (s.relPcc p (off26 w)) 2, s))

/-- JAL (R218): cra takes pcc with address pc + 4. -/
def execJal (p : Fin 21) (s : State) : Res :=
  .next (s.insn p .jal fun w s => (.to (s.relPcc p (off26 w)) 2, s.setC p 1 (s.nextPcc p)))

/-- TJUMP (R218). -/
def execTjump (p : Fin 21) (s : State) : Res :=
  .next (s.insn p .tjump fun w s => (.to (s.cR p (fA w)) 3, s.setC p (fD w) (s.nextPcc p)))

/-- Whether constant-time mode is in force (R242, R249). -/
def State.ct (s : State) (p : Nat) : Bool := nbit (s.crNow p 0x11).toNat 0

/-- Cycles of a multiply (R246, R249): 1 + k by the size of b. -/
def mulCycles (ct signed : Bool) (b : Word) : Nat :=
  if ct then 5
  else
    1 + (((List.range 4).find? fun i =>
      let n := 8 * (i + 1)
      if signed then decide (-(2 ^ (n - 1) : Int) ≤ b.toInt) && decide (b.toInt < 2 ^ (n - 1)) else decide (b.toNat < 2 ^ n)).getD 3 + 1)

/-- A multiply of class M (R246). -/
def State.mulR (p : Nat) (o : Op) (signed : Bool) (f : Word → Word → Int) (s : State) : State :=
  s.insn p o fun w s =>
    let a := s.gR p (fA w)
    let b := s.gR p (fB w)
    (.go (mulCycles (s.ct p) signed b) false, s.setG p (fD w) (BitVec.ofInt 32 (f a b)))

/-- MULLO (R219). -/
def execMullo (p : Fin 21) (s : State) : Res := .next (s.mulR p .mullo true fun a b => a.toInt * b.toInt)

/-- MULHI.SS (R219). -/
def execMulhiSs (p : Fin 21) (s : State) : Res := .next (s.mulR p .mulhiSs true fun a b => a.toInt * b.toInt / 2 ^ 32)

/-- MULHI.UU (R219). -/
def execMulhiUu (p : Fin 21) (s : State) : Res := .next (s.mulR p .mulhiUu false fun a b => (a.toNat * b.toNat / 2 ^ 32 : Nat))

/-- MULHI.SU (R219). -/
def execMulhiSu (p : Fin 21) (s : State) : Res := .next (s.mulR p .mulhiSu false fun a b => a.toInt * (b.toNat : Int) / 2 ^ 32)

/-- Cycles of a divide of magnitudes A by B (R247, R249). -/
def divCycles (ct odd : Bool) (a b : Nat) : Nat :=
  if ct then 18
  else if odd || decide (bitLen a < bitLen b) then 3
  else 2 + (bitLen a - bitLen b + 1 + 1) / 2

/-- Whether a quotient is not representable (R248). -/
def divOdd (signed : Bool) (a b : Word) : Bool := b == 0 || (signed && a == 0x80000000 && b == 0xFFFFFFFF)

/-- Sticky flags of ARITH: bit 1 DV, bit 2 SAT (R226). -/
def State.arithSet (p bit : Nat) (on : Bool) (s : State) : State :=
  if on then s.setCr p 0x11 (s.crS p 0x11 ||| BitVec.ofNat 32 (2 ^ bit)) else s

/-- A divide (R219, R247, R248): `q` gives the result where a quotient exists, `r0` where none does. -/
def State.divR (p : Nat) (o : Op) (signed : Bool) (q : Word → Word → Word) (r0 : Word → Word) (s : State) : State :=
  s.insn p o fun w s =>
    let a := s.gR p (fA w)
    let b := s.gR p (fB w)
    let odd := divOdd signed a b
    let mag := fun (x : Word) => if signed then x.toInt.natAbs else x.toNat
    (.go (divCycles (s.ct p) odd (mag a) (mag b)) false,
      (s.setG p (fD w) (if odd then r0 a else q a b)).arithSet p 1 odd)

/-- QUOS (R219): truncated toward zero. -/
def execQuos (p : Fin 21) (s : State) : Res :=
  .next (s.divR p .quos true (fun a b => BitVec.ofInt 32 (a.toInt.tdiv b.toInt)) fun a => a)

/-- QUOU (R219). -/
def execQuou (p : Fin 21) (s : State) : Res :=
  .next (s.divR p .quou false (fun a b => BitVec.ofNat 32 (a.toNat / b.toNat)) fun a => a)

/-- RMDS (R219): the remainder takes the sign of the dividend. -/
def execRmds (p : Fin 21) (s : State) : Res :=
  .next (s.divR p .rmds true (fun a b => BitVec.ofInt 32 (a.toInt.tmod b.toInt)) fun _ => 0)

/-- RMDU (R219). -/
def execRmdu (p : Fin 21) (s : State) : Res :=
  .next (s.divR p .rmdu false (fun a b => BitVec.ofNat 32 (a.toNat % b.toNat)) fun _ => 0)

/-- A fixed-point helper (R219, R250): the exact result saturates to `n` bits and sets SAT where it does. -/
def State.fixR (p : Nat) (o : Op) (n : Nat) (cyc : State → Word → Nat) (f : Word → Word → Int) (s : State) : State :=
  s.insn p o fun w s =>
    let b := s.gR p (fB w)
    let v := f (s.gR p (fA w)) b
    (.go (cyc s b) false, (s.setG p (fD w) (BitVec.ofInt 32 (satI n v))).arithSet p 2 (satI n v != v))

/-- QMUL (R219, R250): Q1.31. -/
def execQmul (p : Fin 21) (s : State) : Res :=
  .next (s.fixR p .qmul 32 (fun s b => mulCycles (s.ct p) true b) fun a b => rhe (a.toInt * b.toInt) (2 ^ 31))

/-- ADDS (R219). -/
def execAdds (p : Fin 21) (s : State) : Res := .next (s.fixR p .adds 32 (fun _ _ => 1) fun a b => a.toInt + b.toInt)

/-- SUBS (R219). -/
def execSubs (p : Fin 21) (s : State) : Res := .next (s.fixR p .subs 32 (fun _ _ => 1) fun a b => a.toInt - b.toInt)

/-- SHRR (R219). -/
def execShrr (p : Fin 21) (s : State) : Res :=
  .next (s.fixR p .shrr 32 (fun _ _ => 1) fun a b => rhe a.toInt (2 ^ (b.toNat % 32)))

/-- SHLS (R219). -/
def execShls (p : Fin 21) (s : State) : Res :=
  .next (s.fixR p .shls 32 (fun _ _ => 1) fun a b => a.toInt * 2 ^ (b.toNat % 32))

/-- SATH (R219). -/
def execSath (p : Fin 21) (s : State) : Res := .next (s.fixR p .sath 16 (fun _ _ => 1) fun a _ => a.toInt)

end Sys2Proof.Machine
end

