-- ==== Sys2Proof/Machine/CpuMem.lean ====
section
/-! DEFINITION. Loads, stores and atomics of a pair (R220, R222, R223, R238–R240, R264–R270, R310, R355). -/

namespace Sys2Proof.Machine

/-- An access that fails: cause, EADDR, EINFO. -/
abbrev Bad := Nat × Nat × Nat

/-- EINFO of a failed capability check (R273): the register number, and bit 5 for cb; 0 for the other causes. -/
def capInfo (cause reg : Nat) (cb : Bool) : Nat := if 3 ≤ cause ∧ cause ≤ 6 then reg + 32 * b2n cb else 0

/-- The memory behind the image window of R310: pair and key. -/
def imgWindow (a : Nat) : Option (Nat × Nat) :=
  if 0x78100000 ≤ a ∧ a < 0x78B00000 then
    let o := a - 0x78100000
    let p := o / 0x80000
    let x := o % 0x80000
    some (p, if x < 0x40000 then itcm p x else dtcm p (x - 0x40000))
  else none

/-- A word read from the device range (R266, R310). -/
def State.devLoad (a : Nat) (s : State) : Sum Bad Word × State :=
  match imgWindow a with
  | some (p, k) =>
    if s.imgOpen p then
      let w := BitVec.ofNat 32 (s.rdLe k 4)
      let (bad, s) := s.eccCheck k 4
      match bad with
      | some b => (.inl (ueExc a k b), s)
      | none => (.inr w, s)
    else (.inr 0, s)
  | none =>
    let (v, s) := s.devRead a
    (.inr v, s)

/-- A word written to the device range by pair `who` (R266, R310). -/
def State.devStore (who a : Nat) (v : Word) (s : State) : State :=
  match imgWindow a with
  | some (p, k) =>
    if s.imgOpen p then (s.wrBytes k (leBytes 4 v.toNat)).setTag (k / 8) false
    else s.flag Reg.MEM_STAT F.MEM_STAT_IMG_REFUSED
  | none => s.devWrite who a v

/-- The page check of R355 on every host part of an access: the address of the first that is refused. -/
def State.hostBad (s : State) (p : Nat) (parts : List (Nat × Nat)) : Option Nat :=
  (parts.find? fun x => region p x.1 == .host && (s.hostAddr x.1).isNone).map (·.1)

/-- Every check of an access of `n` bytes at `a` through `c`, before any byte of it is accessed (R220, R240, R264). -/
def State.access (s : State) (p : Nat) (c : Cap) (x : Acc) (reg : Nat) (cb : Bool) (a n : Nat) : Option Bad :=
  match accCheck p c x a n with
  | some (k, ea) => some (k, ea, capInfo k reg cb)
  | none => (s.hostBad p (accParts a n)).map fun h => (9, h, 0)

/-- One part of a load (R238, R239): a DEVICE access waits for the store buffer and completes at the device. -/
def State.ldPart (p a n : Nat) (s : State) : Sum Bad (List Byte) × State :=
  match region p a with
  | .mem k =>
    let ((bad, b, _), s) := s.ldMem p k n
    match bad with
    | some u => (.inl (ueExc a k u), s)
    | none => (.inr b, s)
  | .dev =>
    match (s.drainAll p).devLoad a with
    | (.inl f, s) => (.inl f, s)
    | (.inr v, s) => (.inr (leBytes 4 v.toNat), s)
  | .host =>
    match s.hostRead n with
    | (some b, s) => (.inr b, s)
    | (none, s) => (.inl (9, a, 0), s)
  | .none => (.inl (9, a, 0), s)

/-- The parts of a load, in order (R240). -/
def State.ldParts (p : Nat) : List (Nat × Nat) → State → Sum Bad (List Byte) × State
  | [], s => (.inr [], s)
  | x :: t, s =>
    match s.ldPart p x.1 x.2 with
    | (.inl f, s) => (.inl f, s)
    | (.inr b, s) =>
      match State.ldParts p t s with
      | (.inl f, s) => (.inl f, s)
      | (.inr r, s) => (.inr (b ++ r), s)

/-- A load of `n` bytes at `a` through `c` (R220, R264): its checks, then its bytes. -/
def State.load (p : Nat) (c : Cap) (x : Acc) (reg : Nat) (cb : Bool) (a n : Nat) (s : State) : Sum Bad (List Byte) × State :=
  match s.access p c x reg cb a n with
  | some f => (.inl f, s)
  | none => s.ldParts p (accParts a n)

/-- The store-buffer entry of bytes at a memory key. -/
def sbEnt (k : Nat) (b : List Byte) : SbEnt where
  g := k / 8
  mask := (2 ^ b.length - 1) * 2 ^ (k % 8)
  bytes := (List.replicate (k % 8) 0 ++ b ++ List.replicate 8 0).take 8
  tag := false
  old := false

/-- One part of a store (R238, R239): into the store buffer; to a device or the host once the buffer is empty. `half` marks a part
that another follows. -/
def State.stPart (p a : Nat) (b : List Byte) (half : Bool) (s : State) : State :=
  match region p a with
  | .mem k => s.sbPush p { sbEnt k b with half := half }
  | .dev => (s.drainAll p).devStore p a (BitVec.ofNat 32 (leNat b))
  | .host =>
    let s := s.drainAll p
    match s.hostAddr a with
    | some (q, h) => s.hostWrite q h b
    | none => s
  | .none => s

/-- The parts of a store, in order (R240). -/
def State.stParts (p : Nat) : List (Nat × Nat) → List Byte → State → State
  | [], _, s => s
  | x :: t, b, s => State.stParts p t (b.drop x.2) (s.stPart p x.1 (b.take x.2) (!t.isEmpty))

/-- Whether an access leaves the pair through a device or the host window: it closes a checkpoint (R200). -/
def outside (p a : Nat) : Bool := region p a == .dev || region p a == .host

/-- What a plain load or store asks for. -/
def accOf (need n : Nat) : Acc where
  need := need
  align := 1
  special := false
  word := n == 4
  atomic := false

/-- The address of a load or store: ca.address + imm16, modulo 2^32 (R220). -/
def State.ea (s : State) (p : Nat) (w : Word) : Nat := enc 32 (((s.cR p (fA w)).addr : Int) + fImmS w)

/-- Cycles of an access in E (R235): the hold of R199 in a DEVICE access and in a store to the host window, and one more for a split
(R240). The latencies of memories and devices are left out (log entry 41). -/
def accCycles (p a n : Nat) (store : Bool) : Nat :=
  (if region p a == .dev || (store && region p a == .host) then 3 else 1) + ((accParts a n).length - 1)

/-- A load of `n` bytes whose bytes, as a number, reach a register (R220). -/
def State.loadR (p : Nat) (o : Op) (n : Nat) (put : Nat → Nat → State → State) (s : State) : State :=
  s.insn p o fun w s =>
    let a := s.ea p w
    match s.load p (s.cR p (fA w)) (accOf pLoad n) (fA w) false a n with
    | (.inl (c, e, i), s) => (.exc c e i, s)
    | (.inr b, s) => (.go (accCycles p a n false) (region p a == .dev), put (fD w) (leNat b) s)

/-- LB (R220): sign-extended. -/
def execLb (p : Fin 21) (s : State) : Res :=
  .next (s.loadR p .lb 1 fun d v s => s.setG p d (BitVec.ofInt 32 (sx 8 v)))

/-- LBU (R220). -/
def execLbu (p : Fin 21) (s : State) : Res := .next (s.loadR p .lbu 1 fun d v s => s.setG p d (BitVec.ofNat 32 v))

/-- LH (R220): sign-extended. -/
def execLh (p : Fin 21) (s : State) : Res :=
  .next (s.loadR p .lh 2 fun d v s => s.setG p d (BitVec.ofInt 32 (sx 16 v)))

/-- LHU (R220). -/
def execLhu (p : Fin 21) (s : State) : Res := .next (s.loadR p .lhu 2 fun d v s => s.setG p d (BitVec.ofNat 32 v))

/-- LW (R220). -/
def execLw (p : Fin 21) (s : State) : Res := .next (s.loadR p .lw 4 fun d v s => s.setG p d (BitVec.ofNat 32 v))

/-- FLW (R220). -/
def execFlw (p : Fin 21) (s : State) : Res := .next (s.loadR p .flw 4 fun d v s => s.setF p d (BitVec.ofNat 32 v))

/-- LCAP (R220): eight bytes and their tag. -/
def execLcap (p : Fin 21) (s : State) : Res :=
  .next (s.insn p .lcap fun w s =>
    let a := s.ea p w
    let x : Acc := { need := pLoad + pLoadCap, align := 8, special := true, word := false, atomic := false }
    match s.access p (s.cR p (fA w)) x (fA w) false a 8 with
    | some (c, e, i) => (.exc c e i, s)
    | none =>
      match memKey p a with
      | none => (.exc 9 a 0, s)
      | some k =>
        match s.ldCap p k with
        | ((some u, _), s) => (.exc 8 (ueExc a k u).2.1 (ueExc a k u).2.2, s)
        | ((none, v), s) => (.go 1 false, s.setC p (fD w) v))

/-- A store of the low `n` bytes of a register (R220). -/
def State.storeR (p : Nat) (o : Op) (n : Nat) (val : State → Nat → Word) (s : State) : State :=
  s.insn p o fun w s =>
    let a := s.ea p w
    match s.access p (s.cR p (fA w)) (accOf pStore n) (fA w) false a n with
    | some (c, e, i) => (.exc c e i, s)
    | none => (.go (accCycles p a n true) (outside p a), s.stParts p (accParts a n) (leBytes n (val s (fD w)).toNat))

/-- SB (R220). -/
def execSb (p : Fin 21) (s : State) : Res := .next (s.storeR p .sb 1 fun s d => s.gR p d)

/-- SH (R220). -/
def execSh (p : Fin 21) (s : State) : Res := .next (s.storeR p .sh 2 fun s d => s.gR p d)

/-- SW (R220). -/
def execSw (p : Fin 21) (s : State) : Res := .next (s.storeR p .sw 4 fun s d => s.gR p d)

/-- FSW (R220). -/
def execFsw (p : Fin 21) (s : State) : Res := .next (s.storeR p .fsw 4 fun s d => s.fR p d)

/-- The extra checks of SCAP in step 3 (R265, R268): STORE_CAP for a tagged value, and GLOBAL for one that leaves the pair's
private memories. -/
def scapBad (p : Nat) (c v : Cap) (a : Nat) : Bool :=
  v.tag && (!c.has pStoreCap || (!v.has pGlobal && !(match region p a with | .mem k => privKey k | _ => false)))

/-- SCAP (R220). -/
def execScap (p : Fin 21) (s : State) : Res :=
  .next (s.insn p .scap fun w s =>
    let a := s.ea p w
    let c := s.cR p (fA w)
    let v := s.cR p (fD w)
    let x : Acc := { need := pStore, align := 8, special := true, word := false, atomic := false }
    let f := match s.access p c x (fA w) false a 8 with
      | some (k, e, i) => if 6 < k ∨ k = 5 then (if scapBad p c v a then some (6, a, fA w) else some (k, e, i)) else some (k, e, i)
      | none => if scapBad p c v a then some (6, a, fA w) else none
    match f with
    | some (k, e, i) => (.exc k e i, s)
    | none =>
      match memKey p a with
      | none => (.exc 9 a 0, s)
      | some k =>
        (.go 1 false, s.sbPush p { g := k / 8, mask := 255, bytes := leBytes 8 v.w.toNat, tag := v.tag, old := false }))

/-- What an atomic asks for (R222, R223). -/
def accAtomic (need n : Nat) : Acc where
  need := need
  align := n
  special := true
  word := false
  atomic := true

/-- A store of an atomic: it completes at the memory before any later access (R239). Answers whether it closes the checkpoint, which
the end of its instruction takes (R200). -/
def State.storeNow (p k : Nat) (b : List Byte) (s : State) : Bool × State :=
  let s := s.putStore p (sbEnt k b)
  (s.closes p (sbEnt k b), s)

/-- LRES.W (R222): the reservation stands on the granule of the word. -/
def execLresW (p : Fin 21) (s : State) : Res :=
  .next (s.insn p .lresW fun w s =>
    let c := s.cR p (fA w)
    let a := c.addr
    match s.load p c (accAtomic pLoad 4) (fA w) false a 4, memKey p a with
    | (.inl (k, e, i), s), _ => (.exc k e i, s)
    | (.inr b, s), some k =>
      (.go 1 false, { s with resv := tput s.resv p (k / 8) }.setG p (fD w) (BitVec.ofNat 32 (leNat b)))
    | (.inr _, s), none => (.exc 9 a 0, s))

/-- SCON.W (R222): stores only while the reservation holds the granule; either outcome ends the reservation. -/
def execSconW (p : Fin 21) (s : State) : Res :=
  .next (s.insn p .sconW fun w s =>
    let c := s.cR p (fA w)
    let a := c.addr
    match s.access p c (accAtomic pStore 4) (fA w) false a 4, memKey p a with
    | some (k, e, i), _ => (.exc k e i, s)
    | none, none => (.exc 9 a 0, s)
    | none, some k =>
      let s := s.drainAll p
      let ok := (s.resv.find? fun e => e.1 == p.val).map (·.2) == some (k / 8)
      let (ck, s) := if ok then s.storeNow p k (leBytes 4 (s.gR p (fB w)).toNat) else (!tcmGran (k / 8), s)
      (.go 3 ck, { s with resv := tdel s.resv p }.setG p (fD w) (flagW ok)))

/-- TAS.B (R223): reads the byte and writes 1 to it in one indivisible operation. -/
def execTasB (p : Fin 21) (s : State) : Res :=
  .next (s.insn p .tasB fun w s =>
    let c := s.cR p (fA w)
    let a := c.addr
    match s.access p c (accAtomic (pLoad + pStore) 1) (fA w) false a 1, memKey p a with
    | some (k, e, i), _ => (.exc k e i, s)
    | none, none => (.exc 9 a 0, s)
    | none, some k =>
      let s := s.drainAll p
      let old := s.rdByte k
      let (bad, s) := s.eccCheck k 1
      match bad with
      | some u => (.exc 8 (ueExc a k u).2.1 (ueExc a k u).2.2, s)
      | none =>
        let (ck, s) := s.storeNow p k [1]
        (.go 3 ck, s.setG p (fD w) (flagW (old != 0))))

/-- STORE_DRAIN (R238). -/
def execStoreDrain (p : Fin 21) (s : State) : Res := .next (s.storeDrain p)

end Sys2Proof.Machine
end

