-- ==== Sys2Proof/Machine/CpuFp.lean ====
section
/-! DEFINITION. The binary32 instructions of a pair (R221, R251–R260). -/

namespace Sys2Proof.Machine

/-- FPCSR as the next operation sees it: RM under R242, FTZ and DAZ at once (R226, R256). -/
def State.fctl (s : State) (p : Nat) : FCtl where
  rm := nbits (s.crNow p 0x10).toNat 0 2
  ftz := nbit (s.crS p 0x10).toNat 12
  daz := nbit (s.crS p 0x10).toNat 13

/-- Sticky flags accumulate in FPCSR[6:2] (R226). -/
def State.fpFlags (p fl : Nat) (s : State) : State :=
  if fl = 0 then s else s.setCr p 0x10 (s.crS p 0x10 ||| BitVec.ofNat 32 (4 * fl))

/-- The raised flags whose trap is enabled in FPCSR[11:7] (R221). -/
def State.fpTrap (s : State) (p fl : Nat) : Bool := fl &&& nbits (s.crS p 0x10).toNat 7 5 != 0

/-- A binary32 instruction: its result is written and its flags set, then an enabled trap is taken (R221, R260). -/
def State.fpR (p : Nat) (o : Op) (cyc : Nat) (put : Nat → Word → State → State) (f : State → Word → Word × Nat) (s : State) : State :=
  s.insn p o fun w s =>
    let r := f s w
    let s' := (put (fD w) r.1 s).fpFlags p r.2
    (if s.fpTrap p r.2 then .trap cyc 13 r.2 else .go cyc false, s')

/-- Two f-operands. -/
def State.fop2 (p : Nat) (f : FCtl → Word → Word → Word × Nat) (s : State) (w : Word) : Word × Nat :=
  f (s.fctl p) (s.fR p (fA w)) (s.fR p (fB w))

/-- One f-operand. -/
def State.fop1 (p : Nat) (f : FCtl → Word → Word × Nat) (s : State) (w : Word) : Word × Nat := f (s.fctl p) (s.fR p (fA w))

/-- One g-operand. -/
def State.gop1 (p : Nat) (f : FCtl → Word → Word × Nat) (s : State) (w : Word) : Word × Nat := f (s.fctl p) (s.gR p (fA w))

/-- A comparison's result as a value. -/
def cmpW (r : Bool × Nat) : Word × Nat := (flagW r.1, r.2)

/-- FADD (R221, R252–R254). -/
def execFadd (p : Fin 21) (s : State) : Res := .next (s.fpR p .fadd 1 (State.setF p) (State.fop2 p fAdd))

/-- FSUB (R221, R252–R254). -/
def execFsub (p : Fin 21) (s : State) : Res := .next (s.fpR p .fsub 1 (State.setF p) (State.fop2 p fSub))

/-- FMUL (R221, R252–R254). -/
def execFmul (p : Fin 21) (s : State) : Res := .next (s.fpR p .fmul 1 (State.setF p) (State.fop2 p fMul))

/-- FDIV (R221, R252–R254). -/
def execFdiv (p : Fin 21) (s : State) : Res := .next (s.fpR p .fdiv 14 (State.setF p) (State.fop2 p fDiv))

/-- FSQRT (R221). -/
def execFsqrt (p : Fin 21) (s : State) : Res := .next (s.fpR p .fsqrt 14 (State.setF p) (State.fop1 p fSqrt))

/-- FMADD (R221): fd + fa × fb with one rounding. -/
def execFmadd (p : Fin 21) (s : State) : Res := .next (s.fpR p .fmadd 1 (State.setF p) (fun s w => fMadd (s.fctl p) (s.fR p (fD w)) (s.fR p (fA w)) (s.fR p (fB w))))

/-- FMIN (R254). -/
def execFmin (p : Fin 21) (s : State) : Res := .next (s.fpR p .fmin 1 (State.setF p) (State.fop2 p fun c => fMinMax c false))

/-- FMAX (R254). -/
def execFmax (p : Fin 21) (s : State) : Res := .next (s.fpR p .fmax 1 (State.setF p) (State.fop2 p fun c => fMinMax c true))

/-- FABS (R221, R254): no flags. -/
def execFabs (p : Fin 21) (s : State) : Res := .next (s.fpR p .fabs 1 (State.setF p) (State.fop1 p fun _ a => (a &&& 0x7FFFFFFF, 0)))

/-- FNEG (R221, R254): no flags. -/
def execFneg (p : Fin 21) (s : State) : Res := .next (s.fpR p .fneg 1 (State.setF p) (State.fop1 p fun _ a => (fNegate a, 0)))

/-- FCMP.EQ (R221, R254). -/
def execFcmpEq (p : Fin 21) (s : State) : Res := .next (s.fpR p .fcmpEq 1 (State.setG p) (State.fop2 p fun c a b => cmpW (fCmp c 0 a b)))

/-- FCMP.LT (R221, R254). -/
def execFcmpLt (p : Fin 21) (s : State) : Res := .next (s.fpR p .fcmpLt 1 (State.setG p) (State.fop2 p fun c a b => cmpW (fCmp c 1 a b)))

/-- FCMP.LE (R221, R254). -/
def execFcmpLe (p : Fin 21) (s : State) : Res := .next (s.fpR p .fcmpLe 1 (State.setG p) (State.fop2 p fun c a b => cmpW (fCmp c 2 a b)))

/-- FCMP.UN (R221, R254). -/
def execFcmpUn (p : Fin 21) (s : State) : Res := .next (s.fpR p .fcmpUn 1 (State.setG p) (State.fop2 p fun c a b => cmpW (fCmp c 3 a b)))

/-- FTOI (R255). -/
def execFtoi (p : Fin 21) (s : State) : Res := .next (s.fpR p .ftoi 1 (State.setG p) (State.fop1 p fun c => fToInt c (-(2 ^ 31)) (2 ^ 31 - 1)))

/-- FTOU (R255). -/
def execFtou (p : Fin 21) (s : State) : Res := .next (s.fpR p .ftou 1 (State.setG p) (State.fop1 p fun c => fToInt c 0 (2 ^ 32 - 1)))

/-- ITOF (R255). -/
def execItof (p : Fin 21) (s : State) : Res := .next (s.fpR p .itof 1 (State.setF p) (State.gop1 p fun c a => fOfInt c.rm a.toInt))

/-- UTOF (R255). -/
def execUtof (p : Fin 21) (s : State) : Res := .next (s.fpR p .utof 1 (State.setF p) (State.gop1 p fun c a => fOfInt c.rm a.toNat))

/-- MOVFG (R221): the bit pattern of fa. -/
def execMovfg (p : Fin 21) (s : State) : Res := .next (s.fpR p .movfg 1 (State.setG p) (State.fop1 p fun _ a => (a, 0)))

/-- MOVGF (R221). -/
def execMovgf (p : Fin 21) (s : State) : Res := .next (s.fpR p .movgf 1 (State.setF p) (State.gop1 p fun _ a => (a, 0)))

/-- FKIND (R221). -/
def execFkind (p : Fin 21) (s : State) : Res := .next (s.fpR p .fkind 1 (State.setG p) (State.fop1 p fun _ a => (fKind a, 0)))

end Sys2Proof.Machine
end

