-- ==== Sys2Proof/Machine/CpuCap.lean ====
section
/-! DEFINITION. The capability instructions of a pair (R224, R261–R263, R269). EADDR of a check that is no access is open: it is a
free value (log entry 2). -/

namespace Sys2Proof.Machine

/-- An exception of a capability check that is no access: EADDR is not stated. -/
def State.capExc (s : State) (cause reg : Nat) (cb : Bool) : Ends × State :=
  (.exc cause s.freeWord.toNat (capInfo cause reg cb), s.nextFree)

/-- pcc lacks SYSREG (R224, R265): CAP_PERM, naming pcc. -/
def State.noSysreg (s : State) : Ends × State := (.exc 6 s.freeWord.toNat 16, s.nextFree)

/-- Whether pcc carries SYSREG. -/
def State.sysreg (s : State) (p : Nat) : Bool := (s.img p).pcc.has pSysreg

/-- A derivation that a sealed capability refuses (R224). An untagged source gives an untagged result without a fault. -/
def State.derive (p : Nat) (o : Op) (cyc : Nat) (f : State → Word → Cap → Sum Nat Cap) (s : State) : State :=
  s.insn p o fun w s =>
    let c := s.cR p (fA w)
    if c.tag && c.otype != 0 then s.capExc 4 (fA w) false
    else
      match f s w c with
      | .inl k => s.capExc k (fA w) false
      | .inr v => (.go cyc false, s.setC p (fD w) v)

/-- TCOPY (R224). -/
def execTcopy (p : Fin 21) (s : State) : Res :=
  .next (s.insn p .tcopy fun w s => (.go 1 false, s.setC p (fD w) (s.cR p (fA w))))

/-- TVOID (R224). -/
def execTvoid (p : Fin 21) (s : State) : Res :=
  .next (s.insn p .tvoid fun w s => (.go 1 false, s.setC p (fD w) { s.cR p (fA w) with tag := false }))

/-- Field k of a capability as TREAD gives it (R224). -/
def Cap.field (c : Cap) (k : Nat) : Nat :=
  match k with
  | 0 => c.addr
  | 1 => c.base
  | 2 => min (c.top - c.base) 0xFFFFFFFF
  | 3 => c.perms
  | 4 => c.otype
  | 5 => b2n c.tag
  | _ => enc 32 ((c.top : Int) - 1)

/-- TREAD (R224). -/
def execTread (p : Fin 21) (s : State) : Res :=
  .next (s.insn p .tread fun w s => (.go 1 false, s.setG p (fD w) (BitVec.ofNat 32 ((s.cR p (fA w)).field (fB w)))))

/-- TPOINT (R224). -/
def execTpoint (p : Fin 21) (s : State) : Res :=
  .next (s.derive p .tpoint 1 fun s w c => .inr (c.point (s.gR p (fB w)).toNat))

/-- TSTEP (R224). -/
def execTstep (p : Fin 21) (s : State) : Res :=
  .next (s.derive p .tstep 1 fun s w c => .inr (c.point (c.addr + (s.gR p (fB w)).toNat)))

/-- TSTEPI (R224). -/
def execTstepi (p : Fin 21) (s : State) : Res :=
  .next (s.derive p .tstepi 1 fun _ w c => .inr (c.point (enc 32 ((c.addr : Int) + fImmS w))))

/-- The result of TNARROW, or CAP_BOUNDS (R224, R263). -/
def narrowTo (exact : Bool) (c : Cap) (n : Nat) : Sum Nat Cap :=
  let x := narrowBounds c.addr n
  if c.tag && !(decide (c.base ≤ x.1) && decide (x.2 ≤ c.top)) then .inl 5
  else if c.tag && exact && x != (c.addr, c.addr + n) then .inl 5
  else .inr (c.narrow n)

/-- TNARROW (R263). -/
def execTnarrow (p : Fin 21) (s : State) : Res :=
  .next (s.derive p .tnarrow 2 fun s w c => narrowTo false c (s.gR p (fB w)).toNat)

/-- TNARROWX (R263). -/
def execTnarrowx (p : Fin 21) (s : State) : Res :=
  .next (s.derive p .tnarrowx 2 fun s w c => narrowTo true c (s.gR p (fB w)).toNat)

/-- TMASK (R224). -/
def execTmask (p : Fin 21) (s : State) : Res :=
  .next (s.derive p .tmask 1 fun s w c => .inr (c.withPerms (c.perms &&& (s.gR p (fB w)).toNat % 1024)))

/-- TWRAP (R269). -/
def execTwrap (p : Fin 21) (s : State) : Res :=
  .next (s.insn p .twrap fun w s =>
    let a := s.cR p (fA w)
    let b := s.cR p (fB w)
    let v := a.withType (b.addr % 8)
    if !a.tag then (.go 1 false, s.setC p (fD w) v)
    else if !b.tag then s.capExc 3 (fB w) true
    else if b.otype != 0 then s.capExc 4 (fB w) true
    else if !b.has pSeal then s.capExc 6 (fB w) true
    else if b.addr = 0 || 7 < b.addr || !b.covers b.addr then s.capExc 5 (fB w) true
    else if a.otype != 0 then s.capExc 4 (fA w) false
    else (.go 1 false, s.setC p (fD w) v))

/-- The unsealed capability of TUNWRAP: GLOBAL only if both carry it (R268). -/
def unwrapped (a b : Cap) : Cap :=
  let v := a.withType 0
  if b.has pGlobal then v else v.withPerms (v.perms &&& (1023 - pGlobal))

/-- TUNWRAP (R269). -/
def execTunwrap (p : Fin 21) (s : State) : Res :=
  .next (s.insn p .tunwrap fun w s =>
    let a := s.cR p (fA w)
    let b := s.cR p (fB w)
    let v := unwrapped a b
    if !a.tag then (.go 1 false, s.setC p (fD w) v)
    else if !b.tag then s.capExc 3 (fB w) true
    else if b.otype != 0 then s.capExc 4 (fB w) true
    else if !b.has pUnseal then s.capExc 6 (fB w) true
    else if !b.covers b.addr then s.capExc 5 (fB w) true
    else if a.otype = 0 then s.capExc 4 (fA w) false
    else if b.addr != a.otype then s.capExc 6 (fB w) true
    else (.go 1 false, s.setC p (fD w) v))

/-- TENTER (R269): cra, pcc and cgp are written together. -/
def execTenter (p : Fin 21) (s : State) : Res :=
  .next (s.insn p .tenter fun w s =>
    let a := s.cR p (fA w)
    let b := s.cR p (fB w)
    if !a.tag then s.capExc 3 (fA w) false
    else if !b.tag then s.capExc 3 (fB w) true
    else if a.otype = 0 then s.capExc 4 (fA w) false
    else if b.otype != a.otype then s.capExc 4 (fB w) true
    else if !a.has pExec then s.capExc 6 (fA w) false
    else if b.has pExec then s.capExc 6 (fB w) true
    else (.to (a.withType 0) 3, (s.setC p 1 (s.nextPcc p)).setC p 3 (b.withType 0)))

/-- TSRD (R224): 0 pcc, 1 cvt, 2 cfs; the last two need SYSREG. -/
def execTsrd (p : Fin 21) (s : State) : Res :=
  .next (s.insn p .tsrd fun w s =>
    let i := s.img p
    if fB w = 0 then (.go 1 false, s.setC p (fD w) i.pcc)
    else if !s.sysreg p then s.noSysreg
    else (.go 1 false, s.setC p (fD w) (if fB w = 1 then i.cvt else i.cfs)))

/-- TSWR (R224). -/
def execTswr (p : Fin 21) (s : State) : Res :=
  .next (s.insn p .tswr fun w s =>
    let v := s.cR p (fA w)
    if !s.sysreg p then s.noSysreg
    else (.go 1 false, s.mapImg p fun i => if fB w = 1 then { i with cvt := v } else { i with cfs := v }))

end Sys2Proof.Machine
end

