-- ==== Sys2Proof/Machine/CpuSys.lean ====
section
/-! DEFINITION. Control registers, interrupts, exception return and the other system instructions of a pair (R225–R227,
R242–R245, R276). -/

namespace Sys2Proof.Machine

/-- Core cycles since pair reset (R226). -/
def State.cycles (s : State) (p : Nat) : Nat := s.tick - (s.img p).cycBase

/-- The content of a control register (R226). A read of a context register shows a pending change at once (R242). -/
def State.crGet (s : State) (p k : Nat) : Word :=
  match k with
  | 0x06 => BitVec.ofNat 32 (s.irqPend p).toNat
  | 0x07 => BitVec.ofNat 32 ((s.irqPend p).toNat / 2 ^ 32)
  | 0x13 => 0
  | 0x20 => BitVec.ofNat 32 (s.cycles p)
  | 0x21 => (s.img p).cycH
  | 0x22 => BitVec.ofNat 32 (s.img p).ret
  | 0x23 => (s.img p).retH
  | 0x24 => BitVec.ofNat 32 p
  | _ => s.crS p k

/-- A read of CYCLE or INSTRET copies its high word to the holding register (R226). -/
def State.crTouch (p k : Nat) (s : State) : State :=
  if k = 0x20 then s.mapImg p fun i => { i with cycH := BitVec.ofNat 32 (s.cycles p / 2 ^ 32) }
  else if k = 0x22 then s.mapImg p fun i => { i with retH := BitVec.ofNat 32 (i.ret / 2 ^ 32) }
  else s

/-- Bits of a control register that a write changes (R226). -/
def crMask (k : Nat) : Word :=
  if k = 0 then 0xF
  else if k = 4 || k = 5 then 0xFFFFFFFF
  else if 8 ≤ k && k < 16 then 0x77777777
  else if k = 0x10 then 0x3FFF
  else if k = 0x11 then 7
  else if k = 0x12 then 1
  else 0

/-- Registers whose SYSREG column says yes (R226). -/
def crSysreg (k : Nat) : Bool := decide (k < 0x10) || k == 0x12 || k == 0x13

/-- A write of a control register (R226); a context change takes effect from the third instruction on (R242). -/
def State.crPut (p k : Nat) (v : Word) (s : State) : State :=
  let old := s.crS p k
  let s := if k = 0 || k = 0x10 || k = 0x11 || k = 0x12 then s.mapImg p fun i => { i with ctx := i.ctx ++ [(k, old, 3)] } else s
  let s := if k = 0x13 && v.getLsbD 0 then s.mapImg p fun i => { i with ctx := i.ctx ++ [(0x13, 0, 3)] } else s
  if crMask k = 0 then s else s.setCr p k ((old &&& ~~~(crMask k)) ||| (v &&& crMask k))

/-- CRR, CRW, CRS and CRC (R225): gd takes the old value; `f` gives the written one. -/
def State.crOp (p : Nat) (o : Op) (f : Option (Word → Word → Word)) (s : State) : State :=
  s.insn p o fun w s =>
    let k := w.toNat % 4096
    if crSysreg k && !s.sysreg p then (.exc 6 k 16, s)
    else
      let old := s.crGet p k
      let v := s.gR p (fA w)
      let s := s.crTouch p k
      let s := match f with
        | some g => s.crPut p k (g old v)
        | none => s
      (.go 1 false, s.setG p (fD w) old)

/-- CRR (R225). -/
def execCrr (p : Fin 21) (s : State) : Res := .next (s.crOp p .crr none)

/-- CRW (R225). -/
def execCrw (p : Fin 21) (s : State) : Res := .next (s.crOp p .crw (some fun _ v => v))

/-- CRS (R225). -/
def execCrs (p : Fin 21) (s : State) : Res := .next (s.crOp p .crs (some fun o v => o ||| v))

/-- CRC (R225). -/
def execCrc (p : Fin 21) (s : State) : Res := .next (s.crOp p .crc (some fun o v => o &&& ~~~v))

/-- CSYNC (R242): every pending context change takes effect for the next instruction, a requested checkpoint with it. -/
def execCsync (p : Fin 21) (s : State) : Res :=
  .next (s.insn p .csync fun _ s =>
    (.go 3 ((s.img p).ctx.any fun e => e.1 == 0x13), s.mapImg p fun i => { i with ctx := [] }))

/-- FENCE (R239): every earlier store has drained and completed. -/
def execFence (p : Fin 21) (s : State) : Res := .next (s.insn p .fence fun _ s => (.go 1 false, s.drainAll p))

/-- WFI (R225): it ends once an enabled line is pending above STATUS.IL; until then it stands in E. A line that comes meanwhile is
taken after it (R243). -/
def execWfi (p : Fin 21) (s : State) : Res :=
  .next (s.insn p .wfi fun _ s =>
    if (s.topLine p (s.il p)).isSome then (.go 1 false, s) else (.stay 1 false, s.mapCore p fun x => { x with inWfi := true }))

/-- KCALL (R225, R273). -/
def execKcall (p : Fin 21) (s : State) : Res := .next (s.insn p .kcall fun w s => (.trap 0 12 (w.toNat % 4096), s))

/-- BREAK (R225, R273). -/
def execBreak (p : Fin 21) (s : State) : Res := .next (s.insn p .breakW fun w s => (.trap 0 11 (w.toNat % 4096), s))

/-- Read granules of a frame as capabilities (R276): the exception that a failing one raises, or all of them. -/
def State.ldFrame (p : Nat) : Nat → Nat → State → Sum Bad (List Cap) × State
  | _, 0, s => (.inr [], s)
  | a, n + 1, s =>
    match memKey p a with
    | none => (.inl (9, a, 0), s)
    | some k =>
      match s.ldCap p k with
      | ((some u, _), s) => (.inl (ueExc a k u), s)
      | ((none, v), s) =>
        match State.ldFrame p ((a + 8) % 2 ^ 32) n s with
        | (.inl f, s) => (.inl f, s)
        | (.inr l, s) => (.inr (v :: l), s)

/-- The checks of a frame read of `n` bytes (R264, R276), granule by granule. -/
def frameReadBad (p : Nat) (c : Cap) (reg a n : Nat) : Option Bad :=
  (List.range (n / 8)).findSome? fun i =>
    (capCheck p c { need := pLoad + pLoadCap, align := 8, special := true, word := false, atomic := false }
      ((a + 8 * i) % 2 ^ 32) 8).map fun f => (f.1, f.2, capInfo f.1 reg false)

/-- The low and high words of a granule. -/
def Cap.lo (c : Cap) : Word := BitVec.ofNat 32 c.w.toNat

def Cap.hi (c : Cap) : Word := BitVec.ofNat 32 (c.w.toNat / 2 ^ 32)

/-- Restore from a frame (R276). -/
def State.restore (p : Nat) (l : List Cap) (x : Bool) (s : State) : State :=
  let at_ := fun k => l.getD k Cap.null
  let st := (at_ 1).lo
  let s := s.setCr p 0 (fput (s.crS p 0) ⟨0, 4⟩ (nbits st.toNat 0 4))
  let s := ((s.setC p 1 (at_ 3)).setC p 3 (at_ 4)).setC p 4 (at_ 5)
  let s := (((s.setG p 1 (at_ 6).lo).setG p 2 (at_ 6).hi).setG p 3 (at_ 7).lo).setG p 4 (at_ 7).hi
  let pend := if x then
      some ((at_ 8).lo, (at_ 8).hi, (at_ 9).lo, nbits (at_ 9).hi.toNat 0 11, nbits (at_ 9).hi.toNat 16 5)
    else none
  s.mapImg p fun i => { i with pend := pend, ctx := i.ctx.filter fun e => e.1 != 0 }

/-- STATUS.XFRAME: whether the last frame pushed was extended (R226). -/
def State.xframe (s : State) (p : Nat) : Bool := nbit (s.crS p 0).toNat 5

/-- A tail-chained interrupt (R245): the frame stays where it is, and the new handler starts at tick 4. -/
def State.tailChain (p l : Nat) (st : Word) (s : State) : State :=
  let t := s.tick
  let e : Ev := { byte := 0x80 + l, eaddr := 0, einfo := 0, saved := (s.img p).pcc, micro := none, line := some l }
  let x := nbit st.toNat 5
  let s := { s with resv := tdel s.resv p }.mapImg p fun i => { i with ctx := [] }
  match s.vector p e.index with
  | (.inl (k, a), s) => s.doubleFault p e true k a
  | (.inr v, s) =>
    let s := s.setCr p 0 (fput (s.crS p 0) ⟨0, 4⟩ (nbits st.toNat 0 4))
    let s := s.mapImg p fun i => { i with ret := i.ret + 1 }
    let s := s.entryRegs p e
    let s := (s.setCr p 0 (fput (s.crS p 0) ⟨5, 1⟩ (b2n x))).entered p t 64 v
    s.mapCore p fun y => { y with free := max (t + 4) s.tick }

/-- The frame of a return and its restored registers (R276): the whole frame, or the exception of its read. -/
def State.returnFrame (p : Nat) (c : Cap) (a : Nat) (s : State) : Sum Bad (List Cap) × State :=
  match frameReadBad p c 2 a 64 with
  | some f => (.inl f, s)
  | none =>
    match s.ldFrame p a 8 with
    | (.inl f, s) => (.inl f, s)
    | (.inr l, s) =>
      if nbit (l.getD 1 Cap.null).lo.toNat 5 then
        match frameReadBad p c 2 ((a + 64) % 2 ^ 32) 16 with
        | some f => (.inl f, s)
        | none =>
          match s.ldFrame p ((a + 64) % 2 ^ 32) 2 with
          | (.inl f, s) => (.inl f, s)
          | (.inr m, s) => (.inr (l ++ m), s)
      else (.inr l, s)

/-- A return through a frame (R245, R276, R279): with DF_ACTIVE from cfs, where csp stays and no interrupt is chained. -/
def State.returnTo (p : Nat) (df : Bool) (l : List Cap) (s : State) : State :=
  let t := s.tick
  let x := nbit (l.getD 1 Cap.null).lo.toNat 5
  let csp := s.cR p 2
  let s := s.restore p l x
  let s := if df then s.setCr p 0 (fput (s.crS p 0) ⟨4, 1⟩ 0) else s.setC p 2 (csp.point (csp.addr + if x then 80 else 64))
  let s := (s.retire p (l.getD 0 Cap.null) 0).checkpoint p
  s.mapCore p fun y => { y with free := max (t + if x then 12 else 10) s.tick }

/-- ERET (R245, R276): return from an exception, or tail-chain to a line that qualifies at the state the frame would restore. -/
def execEret (p : Fin 21) (s : State) : Res :=
  .next (s.insn p .eret fun _ s =>
    let df := s.dfActive p
    let c := if df then (s.img p).cfs else s.cR p 2
    let a := if df then enc 32 ((c.addr : Int) - if s.xframe p then 80 else 64) else c.addr
    match s.returnFrame p c a with
    | (.inl (k, e, i), s) => (.exc k e i, s)
    | (.inr l, s) =>
      let st := (l.getD 1 Cap.null).lo
      match if !df && nbit st.toNat 3 then s.topLine p (nbits st.toNat 0 3) else none with
      | some k => (.own, s.tailChain p k st)
      | none => (.own, s.returnTo p df l))

/-- The stop of a resumable CX at a safe point while a line qualifies (R295): the state after it, when there is one. -/
def State.microInt (s : State) (p : Nat) : Option State :=
  match (s.img p).micro, (s.toBoundary p).takenLine p with
  | some m, some l =>
    if s.coreGo p && m.safe && nbit m.entry 19 then
      some (((s.toBoundary p).enter p
        (irqEv (s.img p).pcc l (some (tget 0 m.regs 1, tget 0 m.regs 2, tget 0 m.regs 3, m.upc, fE m.word)))).haltNow p)
    else none
  | _, _ => none

/-- INTERRUPT (R243): a line that qualifies is taken at an instruction boundary, or in a resumable CX at a safe point (R295). A
synchronous exception that stands at the boundary goes first (R272), and a WFI in E completes first (R225). -/
def execInterrupt (p : Fin 21) (s : State) : Res :=
  if !s.coreGo p then .next s
  else if (s.img p).micro.isSome then .next ((s.microInt p).getD s)
  else
    match (s.toBoundary p).takenLine p with
    | none => .next ((if (s.core p).wdPend then s.boundaryExc p else none).getD s)
    | some l =>
      if (s.core p).inWfi then .next (((s.toBoundary p).retire p (s.nextPcc p) 1).takeLine p l)
      else .next ((s.boundaryExc p).getD (s.takeLine p l))

/-- WATCHDOG (R397): the first stage expires; the pair takes the exception at its next instruction boundary, or once a restart, a
debug halt or a CX in progress is over. The Keeper's firmware, where it runs, raises WDOG_WARN for the pair (R399, log entry 92). -/
def execWatchdog (p : Fin 21) (s : State) : Res :=
  let p := p.val
  if s.wdRuns p && !s.bit (Reg.GLV_WDKICK p) F.GLV_WDKICK_STAGE1 then
    let s := (s.atTick ((s.core p).kick + s.wdPeriod p)).flag (Reg.GLV_WDKICK p) F.GLV_WDKICK_STAGE1
    let s := s.raiseIf s.fwRuns 1677 0x7B p
    .next (if s.atBoundary p && s.glvState p == 0 then (s.toBoundary p).wdExc p else s.mapCore p fun x => { x with wdPend := true })
  else .next s

end Sys2Proof.Machine
end

