-- ==== Sys2Proof/Machine/CpuLong.lean ====
section
/-! DEFINITION. The long resumable instructions (R228, R229, R236): each command performs one element, and the instruction stays
until its count is 0. -/

namespace Sys2Proof.Machine

/-- Cycles of an element, with the setup cycle before the first (R236). -/
def State.elemCycles (s : State) (p k : Nat) : Nat := k + if (s.core p).inLong then 0 else 1

/-- An element is done: the instruction goes on with the next, or completes with the count at 0 (R228). -/
def longEnds (left cyc : Nat) (ck : Bool) : Ends := if left = 0 then .go cyc ck else .stay cyc ck

/-- A capability whose address advances by one element (R228). -/
def Cap.step (c : Cap) (n : Nat) : Cap := c.point (c.addr + n)

/-- Element size of MCPY and MFILL (R228). -/
def elemSize (aligned : Bool) (n : Nat) : Nat := if aligned && decide (8 ≤ n) then 8 else 1

/-- MCPY (R228). -/
def execMcpy (p : Fin 21) (s : State) : Res :=
  .next (s.insn p .mcpy fun w s =>
    let d := s.cR p (fD w)
    let a := s.cR p (fA w)
    let n := (s.gR p (fE w)).toNat
    if n = 0 then (.go 1 false, s)
    else
      let k := elemSize (d.addr % 8 == 0 && a.addr % 8 == 0) n
      match s.access p a (accOf pLoad k) (fA w) false a.addr k, s.access p d (accOf pStore k) (fD w) false d.addr k with
      | some (c, e, i), _ => (.exc c e i, s)
      | none, some (c, e, i) => (.exc c e i, s)
      | none, none =>
        match s.ldParts p (accParts a.addr k) with
        | (.inl (c, e, i), s) => (.exc c e i, s)
        | (.inr b, s) =>
          let s := s.stParts p (accParts d.addr k) b
          let s := ((s.setC p (fD w) (d.step k)).setC p (fA w) (a.step k)).setG p (fE w) (BitVec.ofNat 32 (n - k))
          (longEnds (n - k) (s.elemCycles p 2) (outside p d.addr), s))

/-- The bytes of an MFILL element: the byte at address x is byte x mod 4 of the source (R228). -/
def fillBytes (v : Word) (a k : Nat) : List Byte :=
  (List.range k).map fun i => BitVec.ofNat 8 (v.toNat / 2 ^ (8 * ((a + i) % 4)))

/-- MFILL (R228). -/
def execMfill (p : Fin 21) (s : State) : Res :=
  .next (s.insn p .mfill fun w s =>
    let d := s.cR p (fD w)
    let n := (s.gR p (fE w)).toNat
    if n = 0 then (.go 1 false, s)
    else
      let k := elemSize (d.addr % 8 == 0) n
      match s.access p d (accOf pStore k) (fD w) false d.addr k with
      | some (c, e, i) => (.exc c e i, s)
      | none =>
        let s := s.stParts p (accParts d.addr k) (fillBytes (s.gR p (fA w)) d.addr k)
        let s := (s.setC p (fD w) (d.step k)).setG p (fE w) (BitVec.ofNat 32 (n - k))
        (longEnds (n - k) (s.elemCycles p 1) (outside p d.addr), s))

/-- VDOT (R228, R260): one FMADD per element; a trap leaves the saved pcc at VDOT with the element complete. -/
def execVdot (p : Fin 21) (s : State) : Res :=
  .next (s.insn p .vdot fun w s =>
    let a := s.cR p (fA w)
    let b := s.cR p (fB w)
    let n := (s.gR p (fE w)).toNat
    if n = 0 then (.go 1 false, s)
    else
      match s.access p a (accOf pLoad 4) (fA w) false a.addr 4, s.access p b (accOf pLoad 4) (fB w) true b.addr 4 with
      | some (c, e, i), _ => (.exc c e i, s)
      | none, some (c, e, i) => (.exc c e i, s)
      | none, none =>
        match s.ldParts p (accParts a.addr 4) with
        | (.inl (c, e, i), s) => (.exc c e i, s)
        | (.inr x, s) =>
          match s.ldParts p (accParts b.addr 4) with
          | (.inl (c, e, i), s) => (.exc c e i, s)
          | (.inr y, s) =>
            let r := fMadd (s.fctl p) (s.fR p (fD w)) (BitVec.ofNat 32 (leNat x)) (BitVec.ofNat 32 (leNat y))
            let t := s.fpTrap p r.2
            let ck := region p a.addr == .dev || region p b.addr == .dev
            let s := (s.setF p (fD w) r.1).fpFlags p r.2
            let s := ((s.setC p (fA w) (a.step 4)).setC p (fB w) (b.step 4)).setG p (fE w) (BitVec.ofNat 32 (n - 1))
            (if t then .trapHere (s.elemCycles p 3) 13 r.2 else longEnds (n - 1) (s.elemCycles p 3) ck, s))

/-- A CRC over bytes (R228): gd takes the updated value. -/
def State.crcb (p : Nat) (o : Op) (f : Word → Byte → Word) (s : State) : State :=
  s.insn p o fun w s =>
    let a := s.cR p (fA w)
    let n := (s.gR p (fE w)).toNat
    if n = 0 then (.go 1 false, s)
    else
      match s.load p a (accOf pLoad 1) (fA w) false a.addr 1 with
      | (.inl (c, e, i), s) => (.exc c e i, s)
      | (.inr b, s) =>
        let v := f (s.gR p (fD w)) (b.getD 0 0)
        let s := ((s.setC p (fA w) (a.step 1)).setG p (fE w) (BitVec.ofNat 32 (n - 1))).setG p (fD w) v
        (longEnds (n - 1) (s.elemCycles p 1) false, s)

/-- CRCB.16 (R228): the CRC-16 of R46; gd[31:16] := 0. -/
def execCrcb16 (p : Fin 21) (s : State) : Res :=
  .next (s.crcb p .crcb16 fun v b => BitVec.ofNat 32 (crc16Byte (v.toNat % 65536) b))

/-- CRCB.32 (R228): the reflected CRC-32 of polynomial 0x04C1_1DB7. -/
def execCrcb32 (p : Fin 21) (s : State) : Res := .next (s.crcb p .crcb32 fun v b => BitVec.ofNat 32 (crc32Byte v.toNat b))

end Sys2Proof.Machine
end

