-- ==== Sys2Proof/Machine/CpuMicro.lean ====
section
/-! DEFINITION. Customer instructions and the vertical microwords of a pair (R230, R231, R288–R297), and the microword commands
that a pair and the Lock engines share. -/

namespace Sys2Proof.Machine

/-- A decode entry's bit (R230). -/
def Micro.resum (m : Micro) : Bool := nbit m.entry 19

/-- Kind and register number of operand OPD, OPA or OPB (0, 1, 2) of a CX in progress (R230, R290). -/
def Micro.opnd (m : Micro) (k : Nat) : Nat × Nat :=
  (nbits m.entry (12 + 2 * k) 2, if k = 0 then fD m.word else if k = 1 then fA m.word else fB m.word)

/-- The micro-state of a CX that starts (R292, R296): m0–m2 read 0 or what a return restored; t0–t7 are undefined: free values. -/
def State.microInit (s : State) (e : Nat) (w : Word) (pend : Option (Word × Word × Word × Nat × Nat)) : Micro :=
  let t := (List.range 8).map fun i => (16 + i, Config.freeWord (s.free + i))
  match pend with
  | some (a, b, c, upc, k) =>
    if k = fE w then { entry := e, word := w, upc := upc, regs := [(1, a), (2, b), (3, c)] ++ t, held := [], safe := false }
    else { entry := e, word := w, upc := nbits e 1 11, regs := t, held := [], safe := false }
  | none => { entry := e, word := w, upc := nbits e 1 11, regs := t, held := [], safe := false }

/-- CX (R231, R292): the pair starts the customer instruction that its decode table gives; its microwords follow. -/
def execCx (p : Fin 21) (s : State) : Res :=
  .next (s.insn p .cx fun w s0 =>
    if !s0.cxOk p w then (.own, s)
    else
      let e := s0.decEntry p (fE w)
      let s0 := s0.decNote p (fE w)
      if nbit e 20 && !s0.sysreg p then (s0.dropPend p).noSysreg
      else
        let m := s0.microInit e w (s0.img p).pend
        (.own, { s0 with free := s0.free + 8 }.holdE p 1 |>.mapImg p fun i => { i with micro := some m, pend := none }))

/-- A register as the microcode sees it (R290): a non-resumable CX reads its own held writes. -/
def State.microReg (s : State) (p : Nat) (m : Micro) (r : Nat) : Word :=
  if r = 0 then 0
  else if 4 ≤ r && r ≤ 6 then
    match m.held.find? fun e => e.1 == r with
    | some e => e.2
    | none =>
      let x := m.opnd (r - 4)
      if x.1 = 1 then s.gR p x.2 else if x.1 = 2 then s.fR p x.2 else if x.1 = 3 then BitVec.ofNat 32 (s.cR p x.2).addr else 0
  else if r = 7 then BitVec.ofNat 32 (m.word.toNat % 64)
  else if r ≤ 3 || (16 ≤ r && r < 24) then tget 0 m.regs r
  else 0

/-- A write of an operand register (R290): a c-register's address as by TPOINT, which a sealed
capability refuses: the answer is then its register number. -/
def State.opndWrite (p : Nat) (x : Nat × Nat) (v : Word) (s : State) : Sum Nat State :=
  if x.1 = 1 then .inr (s.setG p x.2 v)
  else if x.1 = 2 then .inr (s.setF p x.2 v)
  else if x.1 = 3 then
    let c := s.cR p x.2
    if c.tag && c.otype != 0 then .inl x.2 else .inr (s.setC p x.2 (c.point v.toNat))
  else .inr s

/-- The CX in progress changes. -/
def State.setMicro (p : Nat) (m : Option Micro) (s : State) : State := s.mapImg p fun i => { i with micro := m }

/-- A CX stops with an exception at a microword (R293, R295): a non-resumable one has had no effect; a resumable one stops through
a micro-trap whose UPC names the word. -/
def State.microTrap (p : Nat) (m : Micro) (cause ea ei : Nat) (s : State) : State :=
  let x := if m.resum then some (tget 0 m.regs 1, tget 0 m.regs 2, tget 0 m.regs 3, m.upc, fE m.word) else none
  (s.enter p { byte := cause, eaddr := ea, einfo := ei, saved := (s.img p).pcc, micro := x, line := none }).haltNow p

/-- CAP_SEALED at a write of a sealed c-operand. -/
def State.sealedTrap (p : Nat) (m : Micro) (reg : Nat) (s : State) : State :=
  s.nextFree.microTrap p m 4 s.freeWord.toNat (capInfo 4 reg false)

/-- A write of a microcode register (R290, R293, R294). -/
def State.microSet (p : Nat) (m : Micro) (r : Nat) (v : Word) (s : State) : Sum Nat (Micro × State) :=
  if 4 ≤ r && r ≤ 6 then
    if m.resum then
      match s.opndWrite p (m.opnd (r - 4)) v with
      | .inl k => .inl k
      | .inr s => .inr (m, s)
    else .inr ({ m with held := tput m.held r v }, s)
  else if (1 ≤ r && r ≤ 3) || (16 ≤ r && r < 24) then .inr ({ m with regs := tput m.regs r v }, s)
  else .inr (m, s)

/-- What a read of a vertical word counts (R288, R305). -/
def State.vertNote (p a : Nat) (s : State) : State :=
  if nbit (s.rn (Reg.MCS_VMAPP p)) (a / 64) then s.csNote (csVert p a) 3 (5 + 256 * p) (3 * a) 16 1670 (256 * p) a else s

/-- The first byte of a vertical word that reads with an uncorrectable error. -/
def State.vertBad (s : State) (p a : Nat) : Nat :=
  ((List.range 3).find? fun b => decide (2 ≤ tget 0 s.ecc (csByte (csVert p a) b))).getD 0

/-- The CX in progress on a pair and its next microword, when the pair executes: the word is usable and its OP is `op`. -/
def State.microWord (s : State) (p op : Nat) : Option (Micro × Nat) :=
  if !s.coreGo p then none
  else
    match (s.img p).micro with
    | none => none
    | some m =>
      match s.vertWord p m.upc with
      | none => none
      | some w => if nbits w 19 4 = op then some (m, w) else none

/-- A pair executes its next microword, when its OP is `op` (R289–R291). `body` answers the CX in progress and the next word's
number, or the register of a sealed operand whose write stops the CX. At a safe point a line that qualifies stops it first
(R295). -/
def State.microStep (p op : Nat) (body : Micro → Nat → State → Sum Nat (Micro × Nat × State)) (s : State) : State :=
  match s.microWord p op, s.microInt p with
  | none, _ => s
  | some _, some t => t
  | some (m, w), none =>
    let s := (s.toBoundary p).vertNote p m.upc
    match body m w s with
    | .inl k => s.sealedTrap p m k
    | .inr (m, upc, s) => (s.holdE p 1).setMicro p (some { m with upc := upc % 2048, safe := nbit w 23 })

/-- ALU and ALUI of a pair (R289). -/
def State.microAluStep (p : Nat) (imm : Bool) (s : State) : State :=
  s.microStep p (if imm then 1 else 0) fun m w s =>
    let d := nbits w 10 5
    let a := if imm then s.microReg p m d else s.microReg p m (nbits w 5 5)
    let b := if imm then microImm w else s.microReg p m (nbits w 0 5)
    match s.microSet p m d (microAlu (nbits w 15 4) a b) with
    | .inl k => .inl k
    | .inr r => .inr (r.1, m.upc + 1, r.2)

/-- BR of a pair (R289). -/
def State.microBrStep (p : Nat) (s : State) : State :=
  s.microStep p 2 fun m w s =>
    let r := nbits w 11 5
    let a := s.microReg p m r
    let t := nbits w 0 11
    if nbits w 16 3 = 4 then
      match s.microSet p m r (a - 1) with
      | .inl k => .inl k
      | .inr x => .inr (x.1, if a - 1 ≠ 0 then t else m.upc + 1, x.2)
    else .inr (m, if microCond (nbits w 16 3) a then t else m.upc + 1, s)

/-- ALU (R289). -/
def execAlu (u : MicroUnit) (s : State) : Res :=
  match u with
  | .pair p => .next (s.microAluStep p false)
  | .engine n e => .next (s.engStep n e 0 fun w s => s.engAlu n e w)

/-- ALUI (R289). -/
def execAlui (u : MicroUnit) (s : State) : Res :=
  match u with
  | .pair p => .next (s.microAluStep p true)
  | .engine n e => .next (s.engStep n e 1 fun w s => s.engAlu n e w)

/-- BR (R289). -/
def execBr (u : MicroUnit) (s : State) : Res :=
  match u with
  | .pair p => .next (s.microBrStep p)
  | .engine n e => .next (s.engStep n e 2 fun w s => s.engBr n e w)

/-- JMP (R289). -/
def execJmp (u : MicroUnit) (s : State) : Res :=
  match u with
  | .pair p => .next (s.microStep p 3 fun m w s => .inr (m, nbits w 0 11, s))
  | .engine n e => .next (s.engStep n e 3 fun w s => (s, nbits w 0 11))

/-- Operand writes that a CX holds take effect together (R293); the register of a c-operand that is sealed, if one is. -/
def State.commitHeld (p : Nat) (m : Micro) : List (Nat × Word) → State → Sum Nat State
  | [], s => .inr s
  | e :: t, s =>
    match s.opndWrite p (m.opnd (e.1 - 4)) e.2 with
    | .inr s => State.commitHeld p m t s
    | .inl k => .inl k

/-- END of a pair (R293): the held writes take effect and the CX retires. -/
def State.microEnd (p : Nat) (s : State) : State :=
  match s.microWord p 6, s.microInt p with
  | none, _ => s
  | some _, some t => t
  | some (m, _), none =>
    let s := (s.toBoundary p).vertNote p m.upc
    match s.commitHeld p m m.held with
    | .inl k => s.sealedTrap p m k
    | .inr s => ((s.setMicro p none).retire p (s.nextPcc p) 1).haltNow p

/-- END (R289). -/
def execEnd (u : MicroUnit) (s : State) : Res :=
  match u with
  | .pair p => .next (s.microEnd p)
  | .engine n e => .next (s.engEnd n e)

/-- MEM (R290): a memory access through ca, checked as a load or store of its size. A word whose decode entry has MEM = 0 may not
access memory: it stops the CX with ILLEGAL (log entry 42). -/
def execMem (p : Fin 21) (s : State) : Res :=
  match s.microWord p 4, s.microInt p with
  | none, _ => .next s
  | some _, some t => .next t
  | some (m, w), none =>
    let s := (s.toBoundary p).vertNote p m.upc
    let n := 2 ^ nbits w 16 2
    let a := (s.microReg p m (nbits w 6 5)).toNat
    let r := nbits w 11 5
    let reg := (m.opnd 1).2
    let c := s.cR p reg
    let done := fun (m : Micro) (ck : Bool) (s : State) =>
      let s := (s.holdE p (accCycles p a n (nbit w 18))).setMicro p (some { m with upc := (m.upc + 1) % 2048, safe := nbit w 23 })
      if ck then s.checkpoint p else s
    if !nbit m.entry 18 || (m.opnd 1).1 != 3 then .next (s.microTrap p m 2 (s.pc p) m.word.toNat)
    else if nbit w 18 then
      match s.access p c (accOf pStore n) reg false a n with
      | some (k, e, i) => .next (s.microTrap p m k e i)
      | none => .next (done m (outside p a) (s.stParts p (accParts a n) (leBytes n (s.microReg p m r).toNat)))
    else
      match s.load p c (accOf pLoad n) reg false a n with
      | (.inl (k, e, i), s) => .next (s.microTrap p m k e i)
      | (.inr b, s) =>
        match s.microSet p m r (BitVec.ofNat 32 (leNat b)) with
        | .inl k => .next (s.sealedTrap p m k)
        | .inr (m, s) => .next (done m (region p a == .dev) s)

/-- FAULT (R288, R293, R295): a FAULT word raises its cause at the CX; a word that is unusable raises ILLEGAL where its segment is
invalid and ECC_UE where its read fails, with the failing byte of R305: its address is its offset in the store (DEDUCED, log
entry 89). ILLEGAL reports as R273 gives; what the other causes of a FAULT word report is not stated: free values. -/
def execFault (p : Fin 21) (s : State) : Res :=
  if !s.coreGo p then .next s
  else
    match (s.img p).micro, s.microInt p with
    | none, _ => .next s
    | some _, some t => .next t
    | some m, none =>
      match s.vertWord p m.upc with
      | none =>
        let s := (s.toBoundary p).vertNote p m.upc
        if nbit (s.rn (Reg.MCS_VMAPP p)) (m.upc / 64) then
          let o := 3 * m.upc + s.vertBad p m.upc
          .next (s.microTrap p m 8 o (5 + 256 * p.val + 65536 * (o % 8)))
        else .next (s.microTrap p m 2 (s.pc p) m.word.toNat)
      | some w =>
        if nbits w 19 4 = 5 then
          let s := (s.toBoundary p).vertNote p m.upc
          let k := nbits w 0 5
          if k = 2 then .next (s.microTrap p m 2 (s.pc p) m.word.toNat)
          else .next (s.nextFree.nextFree.microTrap p m k s.freeWord.toNat (Config.freeWord (s.free + 1)).toNat)
        else .next s

end Sys2Proof.Machine
end

