-- ==== Sys2Proof/Machine/Dispatch.lean ====
section
/-! DEFINITION. The dispatch: one arm per command, each a direct call of its meaning. -/

namespace Sys2Proof.Machine

def exec (i : Instr) (s : State) : Host.Outcome State Fault Refusal :=
  match i with
  | .registerWrite who addr val => Sys2Proof.Machine.execRegisterWrite who addr val s
  | .holdingCopyRead addr => Sys2Proof.Machine.execHoldingCopyRead addr s
  | .adcResRead g k => Sys2Proof.Machine.execAdcResRead g k s
  | .crossingAccept n => Sys2Proof.Machine.execCrossingAccept n s
  | .runStart fc => Sys2Proof.Machine.execRunStart fc s
  | .runStop fc => Sys2Proof.Machine.execRunStop fc s
  | .cycleEnd fc => Sys2Proof.Machine.execCycleEnd fc s
  | .sampleInstant fc => Sys2Proof.Machine.execSampleInstant fc s
  | .conversionComplete fc raw => Sys2Proof.Machine.execConversionComplete fc raw s
  | .correctionComplete fc => Sys2Proof.Machine.execCorrectionComplete fc s
  | .balMicroword fc => Sys2Proof.Machine.execBalMicroword fc s
  | .ucDeadline fc => Sys2Proof.Machine.execUcDeadline fc s
  | .obsMicroword fc => Sys2Proof.Machine.execObsMicroword fc s
  | .observerComplete fc => Sys2Proof.Machine.execObserverComplete fc s
  | .nReady fc => Sys2Proof.Machine.execNReady fc s
  | .balancerDeadline fc => Sys2Proof.Machine.execBalancerDeadline fc s
  | .edgeSchedule fc => Sys2Proof.Machine.execEdgeSchedule fc s
  | .cmdSent fc => Sys2Proof.Machine.execCmdSent fc s
  | .ledgerCheck fc => Sys2Proof.Machine.execLedgerCheck fc s
  | .rebaseApply fc => Sys2Proof.Machine.execRebaseApply fc s
  | .wearPass fc => Sys2Proof.Machine.execWearPass fc s
  | .mailboxRead fc => Sys2Proof.Machine.execMailboxRead fc s
  | .alignSend fc => Sys2Proof.Machine.execAlignSend fc s
  | .probeSend lk => Sys2Proof.Machine.execProbeSend lk s
  | .probeReply lk rtt => Sys2Proof.Machine.execProbeReply lk rtt s
  | .upBarge lk sof groups => Sys2Proof.Machine.execUpBarge lk sof groups s
  | .listenDeadline fc => Sys2Proof.Machine.execListenDeadline fc s
  | .trainLimit lk => Sys2Proof.Machine.execTrainLimit lk s
  | .check lk => Sys2Proof.Machine.execCheck lk s
  | .lnkEnable lk on => Sys2Proof.Machine.execLnkEnable lk on s
  | .retrain lk => Sys2Proof.Machine.execRetrain lk s
  | .forceBlock lk on => Sys2Proof.Machine.execForceBlock lk on s
  | .alignNow lk => Sys2Proof.Machine.execAlignNow lk s
  | .clrCnt lk => Sys2Proof.Machine.execClrCnt lk s
  | .blockInject grp => Sys2Proof.Machine.execBlockInject grp s
  | .safePoint fc eng => Sys2Proof.Machine.execSafePoint fc eng s
  | .engStall fc eng => Sys2Proof.Machine.execEngStall fc eng s
  | .engineRestart fc eng => Sys2Proof.Machine.execEngineRestart fc eng s
  | .fltStateWrite fc f code => Sys2Proof.Machine.execFltStateWrite fc f code s
  | .bypassTimeout lk => Sys2Proof.Machine.execBypassTimeout lk s
  | .gangClockSwitch fc => Sys2Proof.Machine.execGangClockSwitch fc s
  | .shtgtWrite fc ch who val => Sys2Proof.Machine.execShtgtWrite fc ch who val s
  | .ovrLimitWrite fc val => Sys2Proof.Machine.execOvrLimitWrite fc val s
  | .innerDone fc cyc => Sys2Proof.Machine.execInnerDone fc cyc s
  | .identify e => Sys2Proof.Machine.execIdentify e s
  | .loadFwChunk e => Sys2Proof.Machine.execLoadFwChunk e s
  | .authFw e => Sys2Proof.Machine.execAuthFw e s
  | .startFw e => Sys2Proof.Machine.execStartFw e s
  | .fwStarted => Sys2Proof.Machine.execFwStarted s
  | .getState e => Sys2Proof.Machine.execGetState e s
  | .getSelftest e => Sys2Proof.Machine.execGetSelftest e s
  | .setTime e => Sys2Proof.Machine.execSetTime e s
  | .resetDevice e => Sys2Proof.Machine.execResetDevice e s
  | .bindFlight e => Sys2Proof.Machine.execBindFlight e s
  | .unbindFlight e => Sys2Proof.Machine.execUnbindFlight e s
  | .setCellMap e => Sys2Proof.Machine.execSetCellMap e s
  | .setCellParams e => Sys2Proof.Machine.execSetCellParams e s
  | .bypassCell e => Sys2Proof.Machine.execBypassCell e s
  | .loadObserver e => Sys2Proof.Machine.execLoadObserver e s
  | .swapCoeff e => Sys2Proof.Machine.execSwapCoeff e s
  | .setReference e => Sys2Proof.Machine.execSetReference e s
  | .startFlight e => Sys2Proof.Machine.execStartFlight e s
  | .stopFlight e => Sys2Proof.Machine.execStopFlight e s
  | .holdFlight e => Sys2Proof.Machine.execHoldFlight e s
  | .setTripPolicy e => Sys2Proof.Machine.execSetTripPolicy e s
  | .clearTrip e => Sys2Proof.Machine.execClearTrip e s
  | .setWindow e => Sys2Proof.Machine.execSetWindow e s
  | .windowSettle c => Sys2Proof.Machine.execWindowSettle c s
  | .lockLimits e => Sys2Proof.Machine.execLockLimits e s
  | .setUserCal e => Sys2Proof.Machine.execSetUserCal e s
  | .getFactoryCal e => Sys2Proof.Machine.execGetFactoryCal e s
  | .runPathTest e => Sys2Proof.Machine.execRunPathTest e s
  | .pathTestLevel grp codes => Sys2Proof.Machine.execPathTestLevel grp codes s
  | .pathTestDone grp => Sys2Proof.Machine.execPathTestDone grp s
  | .scrubRange e => Sys2Proof.Machine.execScrubRange e s
  | .openStream e => Sys2Proof.Machine.execOpenStream e s
  | .closeStream e => Sys2Proof.Machine.execCloseStream e s
  | .streamRecord p st => Sys2Proof.Machine.execStreamRecord p st s
  | .getWear e => Sys2Proof.Machine.execGetWear e s
  | .setWearModel e => Sys2Proof.Machine.execSetWearModel e s
  | .rebaseLedger e => Sys2Proof.Machine.execRebaseLedger e s
  | .takeOwnership e => Sys2Proof.Machine.execTakeOwnership e s
  | .releaseOwnership e => Sys2Proof.Machine.execReleaseOwnership e s
  | .heartbeat e => Sys2Proof.Machine.execHeartbeat e s
  | .hbWrite p val => Sys2Proof.Machine.execHbWrite p val s
  | .hbLapse p => Sys2Proof.Machine.execHbLapse p s
  | .hostLossStop => Sys2Proof.Machine.execHostLossStop s
  | .sqDoorbell p q tail => Sys2Proof.Machine.execSqDoorbell p q tail s
  | .entryFetch p bytes => Sys2Proof.Machine.execEntryFetch p bytes s
  | .cqDoorbell p q head => Sys2Proof.Machine.execCqDoorbell p q head s
  | .replyWrite p => Sys2Proof.Machine.execReplyWrite p s
  | .msixUnmask p vec => Sys2Proof.Machine.execMsixUnmask p vec s
  | .kinpop p => Sys2Proof.Machine.execKinpop p s
  | .koutpush p cq => Sys2Proof.Machine.execKoutpush p cq s
  | .bar2Read p off len => Sys2Proof.Machine.execBar2Read p off len s
  | .bar2Write p => Sys2Proof.Machine.execBar2Write p s
  | .bar0BadAccess p write => Sys2Proof.Machine.execBar0BadAccess p write s
  | .portReset p kind => Sys2Proof.Machine.execPortReset p kind s
  | .d3hotEntry p => Sys2Proof.Machine.execD3hotEntry p s
  | .linkUp p rate width bme => Sys2Proof.Machine.execLinkUp p rate width bme s
  | .cmpCross c x => Sys2Proof.Machine.execCmpCross c x s
  | .blankEnd c => Sys2Proof.Machine.execBlankEnd c s
  | .cycleBoundary tb => Sys2Proof.Machine.execCycleBoundary tb s
  | .cmpClr c => Sys2Proof.Machine.execCmpClr c s
  | .tripPin p level => Sys2Proof.Machine.execTripPin p level s
  | .pinClr mask => Sys2Proof.Machine.execPinClr mask s
  | .fwtripWrite val => Sys2Proof.Machine.execFwtripWrite val s
  | .safeLow => Sys2Proof.Machine.execSafeLow s
  | .groupCommit g => Sys2Proof.Machine.execGroupCommit g s
  | .pwmEnable k on => Sys2Proof.Machine.execPwmEnable k on s
  | .periodStart k => Sys2Proof.Machine.execPeriodStart k s
  | .compareMatch k => Sys2Proof.Machine.execCompareMatch k s
  | .deadTimeEnd k => Sys2Proof.Machine.execDeadTimeEnd k s
  | .towPulse k => Sys2Proof.Machine.execTowPulse k s
  | .towRestart k => Sys2Proof.Machine.execTowRestart k s
  | .towInEdge => Sys2Proof.Machine.execTowInEdge s
  | .shadowWrite k r val => Sys2Proof.Machine.execShadowWrite k r val s
  | .pwmCommit groups => Sys2Proof.Machine.execPwmCommit groups s
  | .mismatch p path => Sys2Proof.Machine.execMismatch p path s
  | .restartDone p => Sys2Proof.Machine.execRestartDone p s
  | .cuffFault p => Sys2Proof.Machine.execCuffFault p s
  | .cuffTest bad => Sys2Proof.Machine.execCuffTest bad s
  | .glvForce p => Sys2Proof.Machine.execGlvForce p s
  | .debugHalt p on => Sys2Proof.Machine.execDebugHalt p on s
  | .dbgHalt fc on => Sys2Proof.Machine.execDbgHalt fc on s
  | .dbgStep fc => Sys2Proof.Machine.execDbgStep fc s
  | .add p => Sys2Proof.Machine.execAdd p s
  | .sub p => Sys2Proof.Machine.execSub p s
  | .and p => Sys2Proof.Machine.execAnd p s
  | .or p => Sys2Proof.Machine.execOr p s
  | .xor p => Sys2Proof.Machine.execXor p s
  | .andn p => Sys2Proof.Machine.execAndn p s
  | .sll p => Sys2Proof.Machine.execSll p s
  | .srl p => Sys2Proof.Machine.execSrl p s
  | .sra p => Sys2Proof.Machine.execSra p s
  | .ror p => Sys2Proof.Machine.execRor p s
  | .seq p => Sys2Proof.Machine.execSeq p s
  | .sne p => Sys2Proof.Machine.execSne p s
  | .slt p => Sys2Proof.Machine.execSlt p s
  | .sltu p => Sys2Proof.Machine.execSltu p s
  | .min p => Sys2Proof.Machine.execMin p s
  | .max p => Sys2Proof.Machine.execMax p s
  | .minu p => Sys2Proof.Machine.execMinu p s
  | .maxu p => Sys2Proof.Machine.execMaxu p s
  | .clz p => Sys2Proof.Machine.execClz p s
  | .popc p => Sys2Proof.Machine.execPopc p s
  | .bswap p => Sys2Proof.Machine.execBswap p s
  | .addi p => Sys2Proof.Machine.execAddi p s
  | .andi p => Sys2Proof.Machine.execAndi p s
  | .ori p => Sys2Proof.Machine.execOri p s
  | .xori p => Sys2Proof.Machine.execXori p s
  | .seqi p => Sys2Proof.Machine.execSeqi p s
  | .snei p => Sys2Proof.Machine.execSnei p s
  | .slti p => Sys2Proof.Machine.execSlti p s
  | .sltiu p => Sys2Proof.Machine.execSltiu p s
  | .shi p => Sys2Proof.Machine.execShi p s
  | .lui p => Sys2Proof.Machine.execLui p s
  | .bz p => Sys2Proof.Machine.execBz p s
  | .bnz p => Sys2Proof.Machine.execBnz p s
  | .dbnz p => Sys2Proof.Machine.execDbnz p s
  | .j p => Sys2Proof.Machine.execJ p s
  | .jal p => Sys2Proof.Machine.execJal p s
  | .tjump p => Sys2Proof.Machine.execTjump p s
  | .mullo p => Sys2Proof.Machine.execMullo p s
  | .mulhiSs p => Sys2Proof.Machine.execMulhiSs p s
  | .mulhiUu p => Sys2Proof.Machine.execMulhiUu p s
  | .mulhiSu p => Sys2Proof.Machine.execMulhiSu p s
  | .quos p => Sys2Proof.Machine.execQuos p s
  | .quou p => Sys2Proof.Machine.execQuou p s
  | .rmds p => Sys2Proof.Machine.execRmds p s
  | .rmdu p => Sys2Proof.Machine.execRmdu p s
  | .qmul p => Sys2Proof.Machine.execQmul p s
  | .adds p => Sys2Proof.Machine.execAdds p s
  | .subs p => Sys2Proof.Machine.execSubs p s
  | .shrr p => Sys2Proof.Machine.execShrr p s
  | .shls p => Sys2Proof.Machine.execShls p s
  | .sath p => Sys2Proof.Machine.execSath p s
  | .lb p => Sys2Proof.Machine.execLb p s
  | .lbu p => Sys2Proof.Machine.execLbu p s
  | .lh p => Sys2Proof.Machine.execLh p s
  | .lhu p => Sys2Proof.Machine.execLhu p s
  | .lw p => Sys2Proof.Machine.execLw p s
  | .flw p => Sys2Proof.Machine.execFlw p s
  | .lcap p => Sys2Proof.Machine.execLcap p s
  | .sb p => Sys2Proof.Machine.execSb p s
  | .sh p => Sys2Proof.Machine.execSh p s
  | .sw p => Sys2Proof.Machine.execSw p s
  | .fsw p => Sys2Proof.Machine.execFsw p s
  | .scap p => Sys2Proof.Machine.execScap p s
  | .storeDrain p => Sys2Proof.Machine.execStoreDrain p s
  | .fadd p => Sys2Proof.Machine.execFadd p s
  | .fsub p => Sys2Proof.Machine.execFsub p s
  | .fmul p => Sys2Proof.Machine.execFmul p s
  | .fdiv p => Sys2Proof.Machine.execFdiv p s
  | .fsqrt p => Sys2Proof.Machine.execFsqrt p s
  | .fmadd p => Sys2Proof.Machine.execFmadd p s
  | .fmin p => Sys2Proof.Machine.execFmin p s
  | .fmax p => Sys2Proof.Machine.execFmax p s
  | .fabs p => Sys2Proof.Machine.execFabs p s
  | .fneg p => Sys2Proof.Machine.execFneg p s
  | .fcmpEq p => Sys2Proof.Machine.execFcmpEq p s
  | .fcmpLt p => Sys2Proof.Machine.execFcmpLt p s
  | .fcmpLe p => Sys2Proof.Machine.execFcmpLe p s
  | .fcmpUn p => Sys2Proof.Machine.execFcmpUn p s
  | .ftoi p => Sys2Proof.Machine.execFtoi p s
  | .ftou p => Sys2Proof.Machine.execFtou p s
  | .itof p => Sys2Proof.Machine.execItof p s
  | .utof p => Sys2Proof.Machine.execUtof p s
  | .movfg p => Sys2Proof.Machine.execMovfg p s
  | .movgf p => Sys2Proof.Machine.execMovgf p s
  | .fkind p => Sys2Proof.Machine.execFkind p s
  | .lresW p => Sys2Proof.Machine.execLresW p s
  | .sconW p => Sys2Proof.Machine.execSconW p s
  | .tasB p => Sys2Proof.Machine.execTasB p s
  | .tcopy p => Sys2Proof.Machine.execTcopy p s
  | .tread p => Sys2Proof.Machine.execTread p s
  | .tpoint p => Sys2Proof.Machine.execTpoint p s
  | .tstep p => Sys2Proof.Machine.execTstep p s
  | .tstepi p => Sys2Proof.Machine.execTstepi p s
  | .tnarrow p => Sys2Proof.Machine.execTnarrow p s
  | .tnarrowx p => Sys2Proof.Machine.execTnarrowx p s
  | .tmask p => Sys2Proof.Machine.execTmask p s
  | .tvoid p => Sys2Proof.Machine.execTvoid p s
  | .twrap p => Sys2Proof.Machine.execTwrap p s
  | .tunwrap p => Sys2Proof.Machine.execTunwrap p s
  | .tenter p => Sys2Proof.Machine.execTenter p s
  | .tsrd p => Sys2Proof.Machine.execTsrd p s
  | .tswr p => Sys2Proof.Machine.execTswr p s
  | .crr p => Sys2Proof.Machine.execCrr p s
  | .crw p => Sys2Proof.Machine.execCrw p s
  | .crs p => Sys2Proof.Machine.execCrs p s
  | .crc p => Sys2Proof.Machine.execCrc p s
  | .csync p => Sys2Proof.Machine.execCsync p s
  | .fence p => Sys2Proof.Machine.execFence p s
  | .wfi p => Sys2Proof.Machine.execWfi p s
  | .eret p => Sys2Proof.Machine.execEret p s
  | .kcall p => Sys2Proof.Machine.execKcall p s
  | .breakW p => Sys2Proof.Machine.execBreak p s
  | .mcpy p => Sys2Proof.Machine.execMcpy p s
  | .mfill p => Sys2Proof.Machine.execMfill p s
  | .vdot p => Sys2Proof.Machine.execVdot p s
  | .crcb16 p => Sys2Proof.Machine.execCrcb16 p s
  | .crcb32 p => Sys2Proof.Machine.execCrcb32 p s
  | .cx p => Sys2Proof.Machine.execCx p s
  | .interrupt p => Sys2Proof.Machine.execInterrupt p s
  | .alu u => Sys2Proof.Machine.execAlu u s
  | .alui u => Sys2Proof.Machine.execAlui u s
  | .br u => Sys2Proof.Machine.execBr u s
  | .jmp u => Sys2Proof.Machine.execJmp u s
  | .mem p => Sys2Proof.Machine.execMem p s
  | .faultW p => Sys2Proof.Machine.execFault p s
  | .endW u => Sys2Proof.Machine.execEnd u s
  | .wait fc eng => Sys2Proof.Machine.execWait fc eng s
  | .evt fc eng => Sys2Proof.Machine.execEvt fc eng s
  | .mbx fc eng => Sys2Proof.Machine.execMbx fc eng s
  | .mcsOpen m => Sys2Proof.Machine.execMcsOpen m s
  | .mcsData m val => Sys2Proof.Machine.execMcsData m val s
  | .mcsCommit m => Sys2Proof.Machine.execMcsCommit m s
  | .mcsAbort m => Sys2Proof.Machine.execMcsAbort m s
  | .digestCheck m => Sys2Proof.Machine.execDigestCheck m s
  | .capCopy val => Sys2Proof.Machine.execCapCopy val s
  | .imageFill val => Sys2Proof.Machine.execImageFill val s
  | .imageFillDone => Sys2Proof.Machine.execImageFillDone s
  | .scrubGo wb => Sys2Proof.Machine.execScrubGo wb s
  | .scrubDone => Sys2Proof.Machine.execScrubDone s
  | .scrubSlice => Sys2Proof.Machine.execScrubSlice s
  | .dmaStart c doff => Sys2Proof.Machine.execDmaStart c doff s
  | .descriptorRead c => Sys2Proof.Machine.execDescriptorRead c s
  | .dmaElement e => Sys2Proof.Machine.execDmaElement e s
  | .dmaAbort c => Sys2Proof.Machine.execDmaAbort c s
  | .dmaResume c => Sys2Proof.Machine.execDmaResume c s
  | .slewStep => Sys2Proof.Machine.execSlewStep s
  | .syncEdge pps => Sys2Proof.Machine.execSyncEdge pps s
  | .syncMiss => Sys2Proof.Machine.execSyncMiss s
  | .syncPulse => Sys2Proof.Machine.execSyncPulse s
  | .evtIoEdge k level => Sys2Proof.Machine.execEvtIoEdge k level s
  | .recordDeliver => Sys2Proof.Machine.execRecordDeliver s
  | .ridxWrite q val => Sys2Proof.Machine.execRidxWrite q val s
  | .alarmArm p hi => Sys2Proof.Machine.execAlarmArm p hi s
  | .tsAlarm p => Sys2Proof.Machine.execTsAlarm p s
  | .refEnable g on => Sys2Proof.Machine.execRefEnable g on s
  | .refSettled g => Sys2Proof.Machine.execRefSettled g s
  | .refTimeout g => Sys2Proof.Machine.execRefTimeout g s
  | .refFall g => Sys2Proof.Machine.execRefFall g s
  | .seqTrigger g k => Sys2Proof.Machine.execSeqTrigger g k s
  | .swtrig g => Sys2Proof.Machine.execSwtrig g s
  | .seqStart g k raw => Sys2Proof.Machine.execSeqStart g k raw s
  | .seqResult g k => Sys2Proof.Machine.execSeqResult g k s
  | .ugainStage g c val => Sys2Proof.Machine.execUgainStage g c val s
  | .uoffCommit g c val => Sys2Proof.Machine.execUoffCommit g c val s
  | .calStep g => Sys2Proof.Machine.execCalStep g s
  | .checkNow g => Sys2Proof.Machine.execCheckNow g s
  | .sliceCheckDone g raw => Sys2Proof.Machine.execSliceCheckDone g raw s
  | .handoverCompare g raw => Sys2Proof.Machine.execHandoverCompare g raw s
  | .handoverConversion g raw => Sys2Proof.Machine.execHandoverConversion g raw s
  | .forceHandover g c => Sys2Proof.Machine.execForceHandover g c s
  | .forceHandoverDone g => Sys2Proof.Machine.execForceHandoverDone g s
  | .ringPoll => Sys2Proof.Machine.execRingPoll s
  | .fwTrip p k bit on => Sys2Proof.Machine.execFwTrip p k bit on s
  | .logEv p k => Sys2Proof.Machine.execLog p k s
  | .timeSvc p k => Sys2Proof.Machine.execTime p k s
  | .thermalRead => Sys2Proof.Machine.execThermalRead s
  | .wdkick p val => Sys2Proof.Machine.execWdkick p val s
  | .watchdog p => Sys2Proof.Machine.execWatchdog p s
  | .watchdogStage2 p => Sys2Proof.Machine.execWatchdogStage2 p s
  | .release val => Sys2Proof.Machine.execRelease val s
  | .recall val => Sys2Proof.Machine.execRecall val s
  | .fwHalt cause step => Sys2Proof.Machine.execFwHalt cause step s
  | .safeRelease val => Sys2Proof.Machine.execSafeRelease val s
  | .porst len => Sys2Proof.Machine.execPorst len s
  | .railReset rail => Sys2Proof.Machine.execRailReset rail s
  | .supplyWarn rail mv => Sys2Proof.Machine.execSupplyWarn rail mv s
  | .tapReset => Sys2Proof.Machine.execTapReset s
  | .resetRelease => Sys2Proof.Machine.execResetRelease s
  | .otpRead bad => Sys2Proof.Machine.execOtpRead bad s
  | .selftestDone glv memPair memFc => Sys2Proof.Machine.execSelftestDone glv memPair memFc s
  | .bootRomCopy => Sys2Proof.Machine.execBootRomCopy s
  | .linkTrainingStart p => Sys2Proof.Machine.execLinkTrainingStart p s
  | .bootRomReady dur katOk => Sys2Proof.Machine.execBootRomReady dur katOk s
  | .clkFault => Sys2Proof.Machine.execClkFault s
  | .holdoverEnd => Sys2Proof.Machine.execHoldoverEnd s
  | .holdoverExpiry within => Sys2Proof.Machine.execHoldoverExpiry within s
  | .sensorSample temps => Sys2Proof.Machine.execSensorSample temps s
  | .lifeTick ages => Sys2Proof.Machine.execLifeTick ages s
  | .safeLowEnd => Sys2Proof.Machine.execSafeLowEnd s
  | .supplyRestored rail mv => Sys2Proof.Machine.execSupplyRestored rail mv s
  | .filterSample c => Sys2Proof.Machine.execFilterSample c s
  | .scrubGranule => Sys2Proof.Machine.execScrubGranule s
  | .pairResetDone p => Sys2Proof.Machine.execPairResetDone p s
  | .badOpcode e => Sys2Proof.Machine.execBadOpcode e s
  | .illegal p => Sys2Proof.Machine.execIllegal p s
  | .fetchFault p => Sys2Proof.Machine.execFetchFault p s
  | .programKeyHash hash => Sys2Proof.Machine.execProgramKeyHash hash s

end Sys2Proof.Machine
end

