-- ==== Sys2Proof/Safety.lean ====
section
/-! DEFINITION. What the claims about the block are stated in: a command that takes effect, a state that no run leaves, and an
address of the register map. -/

namespace Sys2Proof

open Sys2Proof.Machine

/-- Command `i` takes effect in state `s`: `exec` answers a next state, and `P` holds of it. -/
def Answers (i : Instr) (s : State) (P : State → Prop) : Prop := ∃ t, exec i s = .next t ∧ P t

/-- What holds of every state that the block can reach: the memories stand in their canonical form, and TS is a 64-bit
number (R1). -/
structure Inv (s : State) : Prop where
  mem : Memory.wf s.mem = true
  ts : s.ts < 2 ^ 64

/-- Every register word except those at the addresses listed is the same. -/
def SameRegs (l : List Nat) (s t : State) : Prop := ∀ a, a ∉ l → t.rg a = s.rg a

/-- Comparator or pin `c` is the same but for the end of a blanking interval, which an edge of a pair that goes to its safe levels
may move (R164). -/
def SameCmp (c : Nat) (s t : State) : Prop := { t.cmp c with blankEnd := 0 } = { s.cmp c with blankEnd := 0 }

/-- A host command of opcode `op` passes the checks that every command shares (R362) and is carried out at once: the entry has that
opcode, entries are taken, the Keeper pair executes (R204), no check refuses it, and it waits behind no other command (R363). -/
structure Accepted (op : Nat) (e : Entry) (s : State) : Prop where
  op : eOp e = op
  rom : s.dev = 0 → s.keep.romReady = true
  reset : s.pwr.inReset = false
  keeper : s.keeperOn = true
  check : s.precheck e = none
  dev : s.dev ≠ 4
  room : s.outstanding e.port < 64
  turn : s.mustWait s.keep.waits e = false

/-- The port's outbox of `t` is that of `s` with one more reply at its end: to the entry, with the status and result words given
(R359). -/
def Replied (e : Entry) (status : Nat) (res : List Nat) (s t : State) : Prop :=
  ∃ r : Reply, (t.port e.port).outbox = (s.port e.port).outbox ++ [r] ∧ r.tag = eTag e ∧ r.op = eOp e ∧ r.status = status ∧
    r.res = res

/-- A register file with register `d` replaced. -/
def upd {α : Type} (h : Nat → α) (d : Nat) (v : α) : Nat → α := fun n => if n = d then v else h n

/-- A register file whose register 0 discards writes (R213), with register `d` replaced. -/
def upd0 {α : Type} (h : Nat → α) (d : Nat) (v : α) : Nat → α := fun n => if n = d ∧ n ≠ 0 then v else h n

/-- Pair `p` is about to execute instruction `o`, as the word `w`: it stands at an instruction boundary, no WATCHDOG exception is
due, at the tick at which it can go on its fetch answers `w` with the state `s1` (R267), and no interrupt is taken there (R243). -/
structure Fetches (p : Nat) (o : Op) (w : Word) (s s1 : State) : Prop where
  boundary : s.atBoundary p = true
  watchdog : (s.core p).wdPend = false
  fetch : (s.toBoundary p).fetch p = (.inr w, s1)
  op : o.is w = true
  line : s.lineNow p = none

/-- What a store-buffer entry holds. -/
def heldOf (e : SbEnt) : Nat × Nat × List Byte × Bool := (e.g, e.mask, e.bytes, e.tag)

/-- An instruction of pair `p` has retired between `s` and `t`, and the next one stands at `c`: the instruction counts; nothing
but the pair changes, and of the pair neither its vector and fault capabilities nor what its store buffer holds. -/
structure Retired (p : Nat) (c : Cap) (s t : State) : Prop where
  frame : t = { s with cores := t.cores }
  others : ∀ q, q ≠ p → t.core q = s.core q
  pcc : (t.img p).pcc = c
  count : (t.img p).ret = (s.img p).ret + 1
  vectors : (t.img p).cvt = (s.img p).cvt ∧ (t.img p).cfs = (s.img p).cfs
  buffer : (t.core p).sb.map heldOf = (s.core p).sb.map heldOf

/-- The registers of pair `p`: g, f, c and the stored control registers. -/
structure Holds (p : Nat) (g f : Nat → Word) (c : Nat → Cap) (k : Nat → Word) (t : State) : Prop where
  g : ∀ n, t.gR p n = g n
  f : ∀ n, t.fR p n = f n
  c : ∀ n, t.cR p n = c n
  k : ∀ n, t.crS p n = k n

/-- An instruction of pair `p` has retired in sequence, and wrote nothing but g-register `d`. -/
structure WroteG (p : Nat) (d : Nat) (v : Word) (s t : State) : Prop where
  retired : Retired p (s.nextPcc p) s t
  regs : Holds p (upd0 (s.gR p) d v) (s.fR p) (s.cR p) (s.crS p) t

/-- An instruction of pair `p` has retired in sequence, and wrote nothing but c-register `d`. -/
structure WroteC (p : Nat) (d : Nat) (v : Cap) (s t : State) : Prop where
  retired : Retired p (s.nextPcc p) s t
  regs : Holds p (s.gR p) (s.fR p) (upd0 (s.cR p) d v) (s.crS p) t

/-- The word of an Ocosh instruction whose other bits are those of `x`. -/
def opWord (o : Op) (x : Word) : Word := o.enc.2 ||| (x &&& ~~~o.enc.1)

end Sys2Proof
end

