-- ==== Sys2Proof/Certificates/Slice0/Obligations.lean ====
section
/-! DEFINITION. The statements about the block, one for each group of commands and rules (spec/). A statement that rests on a choice
of the model says so and names its log entry. -/

open Sys2Proof Sys2Proof.Machine

/-- CMP_CROSS, TRIP_PIN, FILTER_SAMPLE and BLANK_END take effect in every state that meets the hypotheses, and change no
memory. (1) While no reset stands, an unfiltered comparator with HI_EN whose output is IN and whose input goes above HIGH takes
OUT_HIGH, and its raw signal, FO and Q become 1; in every case the input is held, the output follows the thresholds with their
hysteresis, and the raw signal says whether it stands outside. In reset only the input is held. (2) An unfiltered TRIP_IN pin
takes raw signal and FO from its level, active low, and Q with FO. (3) A MAJ comparator or pin takes FO = Q = 1 when at least K
of its last N samples are 1, FO = 0 with Q kept when at least K are 0, and keeps both otherwise. (4) At the end of a blanking
interval FO takes the raw signal, and Q becomes 1 when FO is 1. -/
def Obligations.ComparatorAndPinCommandsSetFoAndQ : Prop :=
  (∀ (s : State) (c : Fin 128) (x : BitVec 16), s.pwr.inReset = false → s.filtOf c = 0 → (s.cmp c).settle = none →
    (s.cmp c).out = 0 → (s.cmp c).raw = false → s.bit (Reg.CMP_CFG c) F.CMP_CFG_HI_EN = true →
    16 * sx 12 (s.fld (Reg.CMP_THR c) F.CMP_THR_HIGH) < x.toInt →
    Answers (.cmpCross c x) s fun t =>
      t.mem = s.mem ∧ (t.cmp c).out = 1 ∧ (t.cmp c).raw = true ∧ (t.cmp c).fo = true ∧ (t.cmp c).q = true ∧
        nbit t.tripOut c = true) ∧
  (∀ (s : State) (c : Fin 128) (x : BitVec 16),
    let hi := 16 * sx 12 (s.fld (Reg.CMP_THR c) F.CMP_THR_HIGH)
    let lo := 16 * sx 12 (s.fld (Reg.CMP_THR c) F.CMP_THR_LOW)
    let h : Int := 16 * s.fld (Reg.CMP_FILT c) F.CMP_FILT_HYST
    let hen := s.bit (Reg.CMP_CFG c) F.CMP_CFG_HI_EN
    let len := s.bit (Reg.CMP_CFG c) F.CMP_CFG_LO_EN
    let v := x.toInt
    let o := (s.cmp c).out
    Answers (.cmpCross c x) s fun t =>
      t.mem = s.mem ∧ (t.cmp c).input = v ∧
      (s.pwr.inReset = true → t = { s with cmps := t.cmps } ∧ (t.cmp c).out = o ∧ (t.cmp c).raw = (s.cmp c).raw ∧
        (t.cmp c).fo = (s.cmp c).fo ∧ (t.cmp c).q = (s.cmp c).q) ∧
      (s.pwr.inReset = false →
        (t.cmp c).raw = ((t.cmp c).out != 0) ∧ (t.cmp c).q = ((s.cmp c).q || (t.cmp c).fo && (t.cmp c).raw != (s.cmp c).raw) ∧
        ((t.cmp c).raw = (s.cmp c).raw → (t.cmp c).fo = (s.cmp c).fo) ∧
        ((t.cmp c).raw ≠ (s.cmp c).raw → s.filtOf c = 0 → (t.cmp c).fo = (t.cmp c).raw) ∧
        ((s.cmp c).settle = none →
          (o = 0 → hen = true → hi < v → (t.cmp c).out = 1) ∧
          (o = 0 → hen = false ∨ v ≤ hi → len = true → v < lo → (t.cmp c).out = 2) ∧
          (o = 1 → hen = true → hi - h ≤ v → (t.cmp c).out = 1) ∧
          (o = 2 → len = true → v ≤ lo + h → (t.cmp c).out = 2) ∧
          (hen = false ∨ v ≤ hi ∧ (o = 1 → v < hi - h) → len = false ∨ lo ≤ v ∧ (o = 2 → lo + h < v) → (t.cmp c).out = 0)))) ∧
  (∀ (s : State) (p : Fin 16) (level : Bool), Answers (.tripPin p level) s fun t =>
    let x := s.cmp (128 + p)
    let y := t.cmp (128 + p)
    t.mem = s.mem ∧ y.raw = !level ∧
    (s.pwr.inReset = true → t = { s with cmps := t.cmps } ∧ y.fo = x.fo ∧ y.q = x.q) ∧
    (s.pwr.inReset = false → s.filtOf (128 + p) = 0 → y.fo = !level ∧ y.q = (x.q || !level) ∧ nbit t.tripOut (128 + p) = y.q) ∧
    (s.pwr.inReset = false → s.filtOf (128 + p) ≠ 0 → y.fo = x.fo ∧ y.q = x.q)) ∧
  (∀ (s : State) (c : Fin 144), s.filtOf c = 1 →
    let k := if c.val < 128 then s.fld (Reg.CMP_FILT c) F.CMP_FILT_K else s.fld (Reg.SLU_PINCFG (c - 128 : Nat)) F.SLU_PINCFG_K
    let n := if c.val < 128 then s.fld (Reg.CMP_FILT c) F.CMP_FILT_N else s.fld (Reg.SLU_PINCFG (c - 128 : Nat)) F.SLU_PINCFG_N
    let l := ((s.cmp c).raw :: (s.cmp c).samples).take n
    Answers (.filterSample c) s fun t =>
      t.mem = s.mem ∧ (t.cmp c).samples = l ∧
      (k ≤ l.count true → (t.cmp c).fo = true ∧ (t.cmp c).q = true) ∧
      (l.count true < k → k ≤ l.count false → (t.cmp c).fo = false ∧ (t.cmp c).q = (s.cmp c).q) ∧
      (l.count true < k → l.count false < k → (t.cmp c).fo = (s.cmp c).fo ∧ (t.cmp c).q = (s.cmp c).q)) ∧
  (∀ (s : State) (c : Fin 128), s.filtOf c = 2 →
    Answers (.blankEnd c) s fun t =>
      t.mem = s.mem ∧ (t.cmp c).fo = (s.cmp c).raw ∧ (t.cmp c).q = ((s.cmp c).q || (s.cmp c).raw)) ∧
  (∀ (s : State) (c : Fin 144), (s.filtOf c ≠ 1 → exec (.filterSample c) s = .next s) ∧
    ∀ b : Fin 128, b.val = c.val → s.filtOf c ≠ 2 → exec (.blankEnd b) s = .next s)

/-- CMP_CLR, PIN_CLR, CYCLE_BOUNDARY and WINDOW_SETTLE take effect in every state. A clear of a comparator that finds FO = 0
clears Q; one that finds FO = 1 leaves the comparator as it is and sets CLR_REFUSED. PIN_CLR clears Q of each pin named whose
FO is 0 and changes no other comparator or pin. A period boundary of a time base gives Q of every CYCLE-mode comparator and pin
on that time base its FO, and leaves every other comparator and pin as it is. (A pair that goes to its safe levels meanwhile
may start a blanking interval, R164.) WINDOW_SETTLE ends the settling of a comparator's window within 200 ticks of the command,
or at once if that is past; a comparator that stands IN and whose input is above the new HIGH, with HI_EN = 1, is then
OUT_HIGH, one inside the new window with its hysteresis is IN, and one below LOW with LO_EN = 1 OUT_LOW. No memory changes. -/
def Obligations.ClearsAndPeriodBoundariesOfQ : Prop :=
  (∀ (s : State) (c : Fin 128), Answers (.cmpClr c) s fun t =>
    t.mem = s.mem ∧
    ((s.cmp c).fo = false → (t.cmp c).q = false ∧ (t.cmp c).fo = false ∧ nbit t.tripOut c = false) ∧
    ((s.cmp c).fo = true → t.cmps = s.cmps ∧ t.bit (Reg.CMP_STAT c) F.CMP_STAT_CLR_REFUSED = true)) ∧
  (∀ (s : State) (m : Half), Answers (.pinClr m) s fun t =>
    t.mem = s.mem ∧
    (∀ p : Fin 16, nbit m.toNat p = true → (s.cmp (128 + p)).fo = false → (t.cmp (128 + p)).q = false) ∧
    (∀ p : Fin 16, nbit m.toNat p = false ∨ (s.cmp (128 + p)).fo = true → t.cmp (128 + p) = s.cmp (128 + p)) ∧
    (∀ c : Fin 128, SameCmp c s t)) ∧
  (∀ (s : State) (tb : Fin 64), Answers (.cycleBoundary tb) s fun t =>
    t.mem = s.mem ∧
    ∀ c : Fin 144, (s.cycleBase c = some tb.val → (t.cmp c).q = (s.cmp c).fo ∧ (t.cmp c).fo = (s.cmp c).fo) ∧
      (s.cycleBase c ≠ some tb.val → SameCmp c s t)) ∧
  (∀ (s : State) (c : Fin 128) (w : Window), (s.cmp c).settle = some w → (s.cmp c).out = 0 →
    s.bit (Reg.CMP_CFG c) F.CMP_CFG_HI_EN = true →
    16 * sx 12 (s.fld (Reg.CMP_THR c) F.CMP_THR_HIGH) < (s.cmp c).input →
    Answers (.windowSettle c) s fun t =>
      t.mem = s.mem ∧ (t.cmp c).settle = none ∧ (t.cmp c).out = 1 ∧ (t.cmp c).raw = true ∧ t.tick ≤ max s.tick (w.since + 200)) ∧
  (∀ (s : State) (c : Fin 128), Answers (.windowSettle c) s fun t =>
    let hi := 16 * sx 12 (s.fld (Reg.CMP_THR c) F.CMP_THR_HIGH)
    let lo := 16 * sx 12 (s.fld (Reg.CMP_THR c) F.CMP_THR_LOW)
    let h : Int := 16 * s.fld (Reg.CMP_FILT c) F.CMP_FILT_HYST
    let hen := s.bit (Reg.CMP_CFG c) F.CMP_CFG_HI_EN
    let len := s.bit (Reg.CMP_CFG c) F.CMP_CFG_LO_EN
    let v := (s.cmp c).input
    let o := (s.cmp c).out
    ((s.cmp c).settle = none → t = s) ∧
    (∀ w, (s.cmp c).settle = some w →
      t.mem = s.mem ∧ (t.cmp c).settle = none ∧ max s.tick w.since ≤ t.tick ∧ t.tick ≤ max s.tick (w.since + 200) ∧
      (t.cmp c).input = v ∧ (t.cmp c).raw = ((t.cmp c).out != 0) ∧ (s.filtOf c = 0 → (t.cmp c).fo = (t.cmp c).raw) ∧
      (hen = true → hi < v → o ≠ 2 → (t.cmp c).out = 1) ∧
      (len = true → v < lo → o ≠ 1 → hen = false ∨ v ≤ hi → (t.cmp c).out = 2) ∧
      (hen = false ∨ v ≤ hi ∧ (o = 1 → v ≤ hi - h) → len = false ∨ lo ≤ v ∧ (o = 2 → lo + h ≤ v) → (t.cmp c).out = 0)))

/-- FWTRIP_WRITE, SAFE_LOW, SAFE_LOW_END, GROUP_COMMIT and BLOCK_INJECT. After FWTRIP_WRITE sources 169–172 are active as the
four bits written say. SAFE_n pulled low by another module while the EJ4 does not drive it makes source 175 active, and its
release makes it inactive. A commit of a group gives the flight mask, the pair mask and the first five words of the source mask
their staged values, while the Sluice is locked only the bits that these set, and ends the staging of the group's registers;
staged values of other registers stay. None of them changes a comparator or pin, but that a pair which goes to its safe levels
may start a blanking interval. A latched BLOCK group, or an all-stop source, lets every lane of every flight it maps, or of
every bound flight, send K28.7 no later than from the next slot on, counted into the next cycle where this one has no such
slot; nothing but lanes changes. -/
def Obligations.TripSourceAndGroupCommands : Prop :=
  (∀ (s : State) (v : Word), Answers (.fwtripWrite v) s fun t =>
    t.mem = s.mem ∧ (∀ c, SameCmp c s t) ∧ ∀ b : Fin 4, t.srcActive (169 + b) = nbit v.toNat b) ∧
  (∀ s : State, s.safeDriven = false → Answers .safeLow s fun t =>
    t.mem = s.mem ∧ (∀ c, SameCmp c s t) ∧ t.safePinExt = true ∧ t.srcActive 175 = true) ∧
  (∀ s : State, s.safeDriven = true → Answers .safeLow s fun t => t = { s with safePinExt := true }) ∧
  (∀ s : State, Answers .safeLowEnd s fun t =>
    t.mem = s.mem ∧ (∀ c, SameCmp c s t) ∧ t.safePinExt = false ∧ t.srcActive 175 = false) ∧
  (∀ (s : State) (g : Fin 32), Answers (.groupCommit g) s fun t =>
    t.mem = s.mem ∧ (∀ c, SameCmp c s t) ∧
    (∀ a ∈ [Reg.SLU_GFLT g, Reg.SLU_GPWM g, Reg.SLU_GSRC g 0, Reg.SLU_GSRC g 1, Reg.SLU_GSRC g 2, Reg.SLU_GSRC g 3, Reg.SLU_GSRC g 4],
      t.rg a = if s.staged.any (fun e => e.1 == a) then (if s.sluLocked then s.rg a ||| tget 0 s.staged a else tget 0 s.staged a)
        else s.rg a) ∧
    t.staged = s.staged.filter fun e => !(groupRegs g).contains e.1) ∧
  (∀ (s : State) (g : Fin 32), s.allStop = true ∨ s.latched g = true ∧ s.bit (Reg.SLU_GCFG g) F.SLU_GCFG_ACTION = false →
    Answers (.blockInject g) s fun t =>
      t = { s with lanes := t.lanes } ∧
      ∀ n f l : Nat, (n, f) ∈ s.boundSlots → s.allStop = true ∨ nbit (s.rn (Reg.SLU_GFLT g)) (s.flightOf n f) = true →
        l ∈ s.slotLinks n f →
        let k := nextSlot (s.tick - (s.fc n).cycTick)
        (k < s.slotsOf n → ∃ j, (t.lane l).blkSlot = some j ∧ j ≤ k) ∧
        (s.slotsOf n ≤ k → ∃ j, (t.lane l).blkNext = some j ∧ j ≤ k - s.slotsOf n)) ∧
  (∀ (s : State) (g : Fin 32), s.allStop = false → s.latched g = false ∨ s.bit (Reg.SLU_GCFG g) F.SLU_GCFG_ACTION = true →
    exec (.blockInject g) s = .next s)

/-- SLEW_STEP, SYNC_EDGE, SYNC_MISS and SYNC_PULSE. (1) A slew step that lies ahead with a positive remainder and no flight
RUNNING or HELD lets the time run to its due tick, where TS counts one tick more than the ticks passed, and takes 1 from
TS_SLEW_LEFT; with a negative remainder TS counts one tick less and LEFT rises by 1; the next step is due 4,096 ticks later.
While a flight is RUNNING or HELD TS counts the ticks and LEFT stays. (2) With MODE = 1 and no reset, an edge on SYNC_IN writes
its error e to TS_SYNC_ERR (with MODE = 2 an edge on PPS_IN, with P = 800,000,000); |e| ≤ 1 sets SYNC_LOCK, a larger e clears
it, up to 65,536 with a slew of −e, beyond that with SYNC_FAR. (3) A missing edge clears SYNC_LOCK and sets SYNC_MISS. (4) With
OUT_EN, SYNC_OUT rises 8 ticks after a tick at which TS is a multiple of P. Memory does not change. -/
def Obligations.SlewAndSyncCommandsRun : Prop :=
  (∀ s : State, 0 < (s.rg Reg.TS_SLEW_LEFT).toInt → s.tick < s.slewNext → s.anyRun = false → Answers .slewStep s fun t =>
    t.mem = s.mem ∧ t.tick = s.slewNext ∧ t.ts = (s.ts + (s.slewNext - s.tick) + 1) % 2 ^ 64 ∧
      t.rg Reg.TS_SLEW_LEFT = s.rg Reg.TS_SLEW_LEFT - 1 ∧ t.slewNext = s.slewNext + 4096) ∧
  (∀ s : State, (s.rg Reg.TS_SLEW_LEFT).toInt < 0 → s.tick < s.slewNext → s.anyRun = false → Answers .slewStep s fun t =>
    t.mem = s.mem ∧ t.tick = s.slewNext ∧ t.ts = (s.ts + (s.slewNext - s.tick) - 1) % 2 ^ 64 ∧
      t.rg Reg.TS_SLEW_LEFT = s.rg Reg.TS_SLEW_LEFT + 1 ∧ t.slewNext = s.slewNext + 4096) ∧
  (∀ s : State, s.rg Reg.TS_SLEW_LEFT ≠ 0 → s.tick < s.slewNext → s.anyRun = true → Answers .slewStep s fun t =>
    t.mem = s.mem ∧ t.ts = (s.ts + (s.slewNext - s.tick)) % 2 ^ 64 ∧ t.rg Reg.TS_SLEW_LEFT = s.rg Reg.TS_SLEW_LEFT ∧
      t.slewNext = s.slewNext + 4096) ∧
  (∀ s : State, s.fld Reg.TS_SYNC_CFG F.TS_SYNC_CFG_MODE = 1 → s.pwr.inReset = false →
    let e := syncErr s.ts (s.fld Reg.TS_SYNC_DLY F.TS_SYNC_DLY_DLY) s.syncP
    Answers (.syncEdge false) s fun t =>
      t.mem = s.mem ∧ t.tick = s.tick ∧ t.rg Reg.TS_SYNC_ERR = BitVec.ofInt 32 e ∧
      (e.natAbs ≤ 1 → t.bit Reg.TS_STAT F.TS_STAT_SYNC_LOCK = true ∧ t.rg Reg.TS_SLEW_LEFT = s.rg Reg.TS_SLEW_LEFT) ∧
      (1 < e.natAbs → e.natAbs ≤ 65536 →
        t.bit Reg.TS_STAT F.TS_STAT_SYNC_LOCK = false ∧ t.rg Reg.TS_SLEW_LEFT = BitVec.ofInt 32 (-e) ∧ t.slewNext = s.tick + 4096) ∧
      (65536 < e.natAbs →
        t.bit Reg.TS_STAT F.TS_STAT_SYNC_LOCK = false ∧ t.bit Reg.TS_STAT F.TS_STAT_SYNC_FAR = true ∧
          t.rg Reg.TS_SLEW_LEFT = s.rg Reg.TS_SLEW_LEFT)) ∧
  (∀ s : State, s.fld Reg.TS_SYNC_CFG F.TS_SYNC_CFG_MODE = 2 → s.pwr.inReset = false →
    let e := syncErr s.ts (s.fld Reg.TS_SYNC_DLY F.TS_SYNC_DLY_DLY) 800000000
    Answers (.syncEdge true) s fun t =>
      t.mem = s.mem ∧ t.tick = s.tick ∧ t.rg Reg.TS_SYNC_ERR = BitVec.ofInt 32 e ∧
      (e.natAbs ≤ 1 → t.bit Reg.TS_STAT F.TS_STAT_SYNC_LOCK = true) ∧
      (1 < e.natAbs → e.natAbs ≤ 65536 → t.rg Reg.TS_SLEW_LEFT = BitVec.ofInt 32 (-e))) ∧
  (∀ (s : State) (pps : Bool), s.fld Reg.TS_SYNC_CFG F.TS_SYNC_CFG_MODE ≠ (if pps then 2 else 1) → exec (.syncEdge pps) s = .next s) ∧
  (∀ (s : State) (d : Nat), s.syncDue = some d → Answers .syncMiss s fun t =>
    t.mem = s.mem ∧ t.tick = max s.tick d ∧ t.bit Reg.TS_STAT F.TS_STAT_SYNC_LOCK = false ∧
      t.bit Reg.TS_STAT F.TS_STAT_SYNC_MISS = true) ∧
  (∀ s : State, s.bit Reg.TS_SYNC_CFG F.TS_SYNC_CFG_OUT_EN = true → Answers .syncPulse s fun t =>
    t = { s with tick := t.tick, ts := t.ts, syncOut := some (t.tick + 8) } ∧ t.ts % s.syncP = 0)

/-- EVT_IO_EDGE, RECORD_DELIVER, RIDX_WRITE, ALARM_ARM and TS_ALARM. (1) A rising edge on an event pin set up as an input shows
in IN and, with RISE_EN, adds to the hub a record with TS, source 1,728 + k, code 0x60 and payload 1 for the enabled queues of
its route; a falling one likewise with FALL_EN, code 0x61 and payload 0; an output and a level that stands change nothing. (2)
A record for one enabled queue with space is written to slot WIDX mod 2^SIZE_EXP of its ring, if that lies in the shared SRAM
or a scratchpad, WIDX and DELIV advance by one, and no byte of memory outside the 16 of the slot changes. (3) RIDX takes a
value within WIDX − 2^SIZE_EXP … WIDX, and any other write sets CFG_ERR and leaves it. (4) A write of TS_ALM_HI arms the alarm.
(5) An armed alarm fires once TS has reached TS_ALM: line 4 of the pair is pending, and the alarm is no longer armed. -/
def Obligations.EventQueuesAndAlarmsRun : Prop :=
  (∀ (s : State) (k : Fin 32), s.bit (Reg.EVT_IOCFG k) F.EVT_IOCFG_DIR = false → s.bit (Reg.EVT_IOCFG k) F.EVT_IOCFG_IN = false →
    s.pwr.inReset = false → s.bit (Reg.EVT_IOCFG k) F.EVT_IOCFG_RISE_EN = true → s.routeOf (1728 + k) ≠ 0 →
    Answers (.evtIoEdge k true) s fun t =>
      t = { s with regs := t.regs, evtRise := tput s.evtRise k s.ts, hubq := t.hubq } ∧
      t.bit (Reg.EVT_IOCFG k) F.EVT_IOCFG_IN = true ∧
      ∃ r : EvRec, t.hubq = s.hubq ++ [r] ∧ r.ts = s.ts ∧ r.src = 1728 + k ∧ r.code = 0x60 ∧ r.pay = 1 ∧ r.queues = s.routeOf (1728 + k)) ∧
  (∀ (s : State) (k : Fin 32) (level : Bool),
    let a := Reg.EVT_IOCFG k
    Answers (.evtIoEdge k level) s fun t =>
      (s.bit a F.EVT_IOCFG_DIR = true ∨ s.bit a F.EVT_IOCFG_IN = level → t = s) ∧
      (s.bit a F.EVT_IOCFG_DIR = false → s.bit a F.EVT_IOCFG_IN ≠ level →
        t = { s with regs := t.regs, evtRise := t.evtRise, hubq := t.hubq } ∧ t.bit a F.EVT_IOCFG_IN = level ∧
        (s.pwr.inReset = true → t = { s with regs := t.regs } ∧ SameRegs [a] s t) ∧
        (s.pwr.inReset = false → level = false → s.bit a F.EVT_IOCFG_FALL_EN = true → s.routeOf (1728 + k) ≠ 0 →
          ∃ r : EvRec, t.hubq = s.hubq ++ [r] ∧ r.ts = s.ts ∧ r.src = 1728 + k ∧ r.code = 0x61 ∧ r.pay = 0) ∧
        (s.bit a (if level then F.EVT_IOCFG_RISE_EN else F.EVT_IOCFG_FALL_EN) = false → t.hubq = s.hubq))) ∧
  (∀ (s : State) (r : EvRec) (q : Fin 32), firstRec s.hubq = some r → r.queues = 2 ^ q.val →
    s.bit (Reg.EVT_QCFG q) F.EVT_QCFG_EN = true →
    (s.rg (Reg.EVT_QWIDX q) - s.rg (Reg.EVT_QRIDX q)).toNat < s.qSize q →
    let a := s.rn (Reg.EVT_QBASE q) + 16 * (s.rn (Reg.EVT_QWIDX q) % s.qSize q)
    Answers .recordDeliver s fun t =>
      t.hubq = s.hubq.erase r ∧ t.rg (Reg.EVT_QWIDX q) = s.rg (Reg.EVT_QWIDX q) + 1 ∧
      t.rg (Reg.EVT_QDELIV q) = s.rg (Reg.EVT_QDELIV q) + 1 ∧
      SameRegs [Reg.EVT_QWIDX q, Reg.EVT_QDELIV q] s t ∧
      (inSharedMem a = true → t.rdBytes a 16 = r.bytes (s.dropped.contains q.val)) ∧
      ∀ b, b < a ∨ a + 16 ≤ b → t.rdByte b = s.rdByte b) ∧
  (∀ (s : State) (q : Fin 32) (v : Word), Answers (.ridxWrite q v) s fun t =>
    t = { s with regs := t.regs } ∧
    ((s.rg (Reg.EVT_QWIDX q) - v).toNat ≤ s.qSize q → t.rg (Reg.EVT_QRIDX q) = v ∧ SameRegs [Reg.EVT_QRIDX q] s t) ∧
    (s.qSize q < (s.rg (Reg.EVT_QWIDX q) - v).toNat →
      t.bit (Reg.EVT_QSTAT q) F.EVT_QSTAT_CFG_ERR = true ∧ SameRegs [Reg.EVT_QSTAT q] s t)) ∧
  (∀ (s : State) (p : Fin 21) (hi : Word), Answers (.alarmArm p hi) s fun t =>
    t = { s with regs := t.regs, alarms := t.alarms } ∧ t.rg (Reg.TS_ALM_HI p) = hi ∧ p.val ∈ t.alarms ∧
      SameRegs [Reg.TS_ALM_HI p] s t) ∧
  (∀ (s : State) (p : Fin 21), p.val ∈ s.alarms → Answers (.tsAlarm p) s fun t =>
    t = { s with tick := t.tick, ts := t.ts, alarms := t.alarms, irq := t.irq } ∧ s.r64 (Reg.TS_ALM_LO p) ≤ t.ts ∧
      p.val ∉ t.alarms ∧ (tget 0 t.irq p).getLsbD 4 = true)

/-- PROBE_SEND, PROBE_REPLY, CHECK, TRAIN_LIMIT and UP_BARGE. (1) In PROBE, a cycling lane whose slot 72 is free sends PROBE at
tick 1,440 of the cycle. (2) A reply that is not the fourth joins the set. The fourth reply of a set with a spread of at most 2
writes LNK_RTT and ends the step: the lane goes to ALIGN; a wider set is discarded. (3) The check after ALIGN takes a lane
whose record has no difference from its descriptor to READY and shows a mask of 0, and any other to MISMATCH with the mask of
the differences. (4) 256 cycles in LOCK, 64 in PROBE and 64 in ALIGN without its four replies fail the step. (5) The code
groups of an up barge are decoded from the lane's running disparity, inverted with RX_INV = 1; the barge waits for its
judgement, and its code violations and a CRC error are counted, but for a barge of a READY or DEGRADED lane that is not judged,
which counts nothing. No memory and no other lane changes. -/
def Obligations.LaneTrainingCommandsRun : Prop :=
  (∀ (s : State) (l : Fin 1024), s.laneState l = 2 → s.cycling (l / 64) = true → s.slot72Blocked l = false →
    Answers (.probeSend l) s fun t =>
      t = { s with tick := t.tick, ts := t.ts, lanes := t.lanes } ∧
      t.tick = max s.tick ((s.fc (s.leader (l / 64))).cycTick + 1440) ∧
      t.lane l = { s.lane l with probeOut := true, slot72 := 2 } ∧ ∀ j, j ≠ l.val → t.lane j = s.lane j) ∧
  (∀ (s : State) (l : Fin 1024) (rtt : Nat), s.laneState l = 2 → (s.lane l).probeOut = true → (s.lane l).probes.length < 3 →
    Answers (.probeReply l rtt) s fun t =>
      t = { s with lanes := t.lanes } ∧
        t.lane l = { s.lane l with probes := (s.lane l).probes ++ [rtt], probeOut := false,
                                   rxRd := rdGroup (s.lane l).rxRd (encodeSym (s.lane l).rxRd .probe) } ∧
      ∀ j, j ≠ l.val → t.lane j = s.lane j) ∧
  (∀ (s : State) (l : Fin 1024) (a b c rtt : Nat), s.laneState l = 2 → (s.lane l).probeOut = true →
    (s.lane l).probes = [a, b, c] →
    let spread := max (max a b) (max c rtt) - min (min a b) (min c rtt)
    Answers (.probeReply l rtt) s fun t =>
      t.mem = s.mem ∧ (t.lane l).probes = [] ∧ (t.lane l).probeOut = false ∧
      (spread ≤ 2 → t.laneState l = 3 ∧
        t.rg (Reg.LNK_RTT (l / 64) (l % 64)) = BitVec.ofNat 32 (enc 16 (rhe ((a + b + c + rtt : Nat) : Int) 4) + 65536 * spread)) ∧
      (2 < spread → t.laneState l = 2)) ∧
  (∀ (s : State) (l : Fin 1024), s.laneState l = 3 → 4 ≤ (s.lane l).good → Answers (.check l) s fun t =>
    t.mem = s.mem ∧ t.fld (lnkStat l) F.LNK_STAT_MISM_MASK = s.mismatches l ∧
    (s.mismatches l = 0 → t.laneState l = 5 ∧ (t.lane l).judgeFrom = s.count (l / 64) + 2) ∧
    (s.mismatches l ≠ 0 → t.laneState l = 4 ∧ t.bit (lnkStat l) F.LNK_STAT_MISMATCH = true)) ∧
  (∀ (s : State) (l : Fin 1024), Answers (.trainLimit l) s fun t =>
    t.mem = s.mem ∧
    (s.laneState l = 1 → 256 ≤ (s.lane l).tcyc → t.laneState l = 8 ∧ t.fld (lnkStat l) F.LNK_STAT_FAIL_STEP = 0) ∧
    (s.laneState l = 2 → 64 ≤ (s.lane l).tcyc → t.laneState l = 8 ∧ t.fld (lnkStat l) F.LNK_STAT_FAIL_STEP = 1) ∧
    (s.laneState l = 3 → 64 ≤ (s.lane l).tcyc → (s.lane l).good < 4 →
      t.laneState l = 8 ∧ t.fld (lnkStat l) F.LNK_STAT_FAIL_STEP = 2)) ∧
  (∀ (s : State) (l : Fin 1024) (sof : BitVec 10) (groups : List (BitVec 10)), s.laneState l ≠ 0 → Answers (.upBarge l sof groups) s fun t =>
    let a := Reg.LNK_ERR (l / 64) (l % 64)
    let inv := s.bit (Reg.LNK_CFG (l / 64) (l % 64)) F.LNK_CFG_RX_INV
    let r := takeGroups true (s.lane l).rxRd ((sof :: groups).map fun g => if inv then 1023 - g.toNat else g.toNat)
    t = { s with regs := t.regs, lanes := t.lanes } ∧ SameRegs [a] s t ∧
    t.lane l = { s.lane l with rx := some { bytes := r.1, viol := r.2.1 }, rxRd := r.2.2 } ∧
    (∀ j, j ≠ l.val → t.lane j = s.lane j) ∧
    (s.laneUp l = true → s.judged l (s.upCycle (l / 64)) = false → t.rg a = s.rg a) ∧
    (s.laneUp l = false ∨ s.judged l (s.upCycle (l / 64)) = true →
      t.fld a F.LNK_ERR_UP_CODE = min 65535 (s.fld a F.LNK_ERR_UP_CODE + r.2.1) ∧
      t.fld a F.LNK_ERR_UP_CRC =
        if crc16 0xFFFF ((r.1.drop 1).take 61) = leAt r.1 62 2 then s.fld a F.LNK_ERR_UP_CRC
        else min 65535 (s.fld a F.LNK_ERR_UP_CRC + 1)))

/-- LNK_ENABLE, RETRAIN, FORCE_BLOCK, ALIGN_NOW, CLR_CNT and SAFE_POINT, with the lane's engine at a safe point and not stalled
where that matters. ENABLE = 0 takes the lane to OFF; ENABLE changing to 1 in an FC that runs takes an OFF lane to LOCK.
RETRAIN takes a lane that is not OFF to LOCK, and while its engine is busy it waits. FORCE_BLOCK takes the bit written, and
ALIGN_NOW makes an ALIGN due; each changes nothing else. CLR_CNT clears the error and miss counters. At a safe point the eight
lanes of an engine that is not stalled have no item pending any more, and a lane with RETRAIN pending that is not OFF is in
LOCK. No memory changes. -/
def Obligations.LinkControlCommandsRun : Prop :=
  (∀ (s : State) (l : Fin 1024), Answers (.lnkEnable l false) s fun t =>
    t.mem = s.mem ∧ t.laneState l = 0 ∧ t.bit (Reg.LNK_CTRL (l / 64) (l % 64)) F.LNK_CTRL_ENABLE = false) ∧
  (∀ (s : State) (l : Fin 1024), s.bit (Reg.LNK_CTRL (l / 64) (l % 64)) F.LNK_CTRL_ENABLE = false → s.laneState l = 0 →
    s.runOn (l / 64) = true → s.stalled (l / 64) (l % 64 / 8) = false → (s.eng (l / 64) (l % 64 / 8)).run = 0 →
    Answers (.lnkEnable l true) s fun t =>
      t.mem = s.mem ∧ t.laneState l = 1 ∧ (t.lane l).tcyc = 0 ∧ t.bit (Reg.LNK_CTRL (l / 64) (l % 64)) F.LNK_CTRL_ENABLE = true) ∧
  (∀ (s : State) (l : Fin 1024), s.laneState l ≠ 0 → s.stalled (l / 64) (l % 64 / 8) = false → Answers (.retrain l) s fun t =>
    t.mem = s.mem ∧
    ((s.eng (l / 64) (l % 64 / 8)).run = 0 → t.laneState l = 1 ∧ (t.lane l).tcyc = 0 ∧ (t.lane l).pendRetrain = false) ∧
    ((s.eng (l / 64) (l % 64 / 8)).run ≠ 0 → t.laneState l = s.laneState l ∧ (t.lane l).pendRetrain = true)) ∧
  (∀ (s : State) (l : Fin 1024) (on : Bool), Answers (.forceBlock l on) s fun t =>
    t = { s with regs := t.regs } ∧ SameRegs [Reg.LNK_CTRL (l / 64) (l % 64)] s t ∧
    t.bit (Reg.LNK_CTRL (l / 64) (l % 64)) F.LNK_CTRL_FORCE_BLOCK = on ∧
    t.bit (Reg.LNK_CTRL (l / 64) (l % 64)) F.LNK_CTRL_ENABLE = s.bit (Reg.LNK_CTRL (l / 64) (l % 64)) F.LNK_CTRL_ENABLE) ∧
  (∀ (s : State) (l : Fin 1024), Answers (.alignNow l) s fun t =>
    t = { s with lanes := t.lanes } ∧ t.lane l = { s.lane l with alignReq := true } ∧ ∀ j, j ≠ l.val → t.lane j = s.lane j) ∧
  (∀ (s : State) (l : Fin 1024), s.stalled (l / 64) (l % 64 / 8) = false → (s.eng (l / 64) (l % 64 / 8)).run = 0 →
    Answers (.clrCnt l) s fun t =>
      t.mem = s.mem ∧ t.rg (Reg.LNK_ERR (l / 64) (l % 64)) = 0 ∧
      t.fld (Reg.LNK_MISS (l / 64) (l % 64)) F.LNK_MISS_MISS = 0 ∧ t.fld (Reg.LNK_MISS (l / 64) (l % 64)) F.LNK_MISS_CONSEC = 0) ∧
  (∀ (s : State) (n : Fin 16) (e : Fin 8), s.stalled n e = false → Answers (.safePoint n e) s fun t =>
    t.mem = s.mem ∧ ∀ j : Fin 8,
      let l := 64 * n.val + 8 * e.val + j.val
      (t.lane l).pendRetrain = false ∧ (t.lane l).pendEn = false ∧ (t.lane l).pendClr = false ∧
      ((s.lane l).pendRetrain = true → s.laneState l ≠ 0 → t.laneState l = 1))

/-- ENG_STALL, ENGINE_RESTART, ALIGN_SEND, MAILBOX_READ and BYPASS_TIMEOUT. A stall sets the engine's STALL and STALL_SEEN bits
and FORCE_BLOCK on its eight lanes. A restart clears STALL and puts the engine at word 0. At tick 1,440 each lane that owes an
ALIGN, sends in this cycle and has slot 72 free sends it and owes none. At tick 600 each READY or DEGRADED lane takes its
mailbox, its LEN limited to 32, when no byte of memory is in error. 200 ms after its command a bypass without a report of
BYPASSED is out of time. No memory changes. -/
def Obligations.EngineAndCycleLinkCommandsRun : Prop :=
  (∀ (s : State) (n : Fin 16) (e : Fin 8), s.stalled n e = false → Answers (.engStall n e) s fun t =>
    t = { s with regs := t.regs, hubq := t.hubq } ∧ t.stalled n e = true ∧
    nbit (t.fld (Reg.MCS_ENGSTAT n) F.MCS_ENGSTAT_STALL_SEEN) e = true ∧
    ∀ j : Fin 8, t.bit (Reg.LNK_CTRL n (8 * e + j)) F.LNK_CTRL_FORCE_BLOCK = true) ∧
  (∀ (s : State) (n : Fin 16) (e : Fin 8), Answers (.engineRestart n e) s fun t =>
    t = { s with regs := t.regs, fcs := t.fcs, free := t.free } ∧ t.stalled n e = false ∧ (t.eng n e).pc = 0 ∧
      SameRegs [Reg.MCS_ENGSTAT n] s t) ∧
  (∀ (s : State) (n : Fin 16), s.cycling n = true → Answers (.alignSend n) s fun t =>
    t = { s with tick := t.tick, ts := t.ts, lanes := t.lanes } ∧
    t.tick = max s.tick ((s.fc (s.leader n)).cycTick + 1440) ∧
    ∀ i : Fin 64, (s.lane (64 * n + i)).alignDue = true → (s.lane (64 * n + i)).txSt ≠ 0 →
      (t.lane (64 * n + i)).alignDue = false ∧ (s.slot72Blocked (64 * n + i) = false → (t.lane (64 * n + i)).slot72 = 1)) ∧
  (∀ (s : State) (n : Fin 16), s.cycling n = true → s.ecc = [] → Answers (.mailboxRead n) s fun t =>
    t = { s with tick := t.tick, ts := t.ts, lanes := t.lanes, fcs := t.fcs } ∧
    t.tick = max s.tick ((s.fc (s.leader n)).cycTick + 600) ∧
    ∀ i : Fin 64, s.laneUp (64 * n + i) = true →
      (t.lane (64 * n + i)).mbx =
        BitVec.ofNat 8 (min (s.rdByte (mailbox n i)).toNat 32) :: s.rdBytes (mailbox n i + 1) 33) ∧
  (∀ (s : State) (l : Fin 1024), (s.lane l).bypass = true → (s.lane l).bypassDone = false → (s.lane l).bypassOut = false →
    Answers (.bypassTimeout l) s fun t =>
      t = { s with tick := t.tick, ts := t.ts, regs := t.regs, lanes := t.lanes, hubq := t.hubq } ∧
      t.tick = max s.tick ((s.lane l).bypassTick + 160000000) ∧ t.lane l = { s.lane l with bypassOut := true })

/-- PERIOD_START, PWM_ENABLE, COMPARE_MATCH and DEAD_TIME_END. (1) A period start of an enabled pair that waits for no tow: its
counter starts at the tick of the start, RUNNING is 1, and PWM_PSTS holds TS. The first start takes every shadow value and
leaves none pending; a later start of a pair with nothing pending has the compare that R186 derives from its applied values,
and P is 1 where that compare is above 0. (2) EN = 1 on a pair that stands lets it wait for a tow where SYNC is not 0; EN = 0
ends RUNNING, WAIT_TOW and ARMED, and both outputs take their safe levels at once. (3) At a compare below the period P falls,
C[3:0] / 16 tick after the tick of the command, and PWM_A is low. (4) At the end of its dead time an output is high. Memory
does not change. -/
def Obligations.PulseWidthPairsRunTheirPeriods : Prop :=
  (∀ (s : State) (k : Fin 32), s.bit (Reg.PWM_CTRL k) F.PWM_CTRL_EN = true → s.bit (Reg.PWM_STAT k) F.PWM_STAT_WAIT_TOW = false →
    Answers (.periodStart k) s fun t =>
      t.mem = s.mem ∧ t.tick = max s.tick (s.pwmNext k) ∧ (t.pwm k).start = t.tick ∧
      t.bit (Reg.PWM_STAT k) F.PWM_STAT_RUNNING = true ∧ t.r64 (Reg.PWM_PSTS_LO k) = t.ts % 2 ^ 64 ∧
      (s.bit (Reg.PWM_STAT k) F.PWM_STAT_RUNNING = false →
        t.rg (Reg.PWM_APER k) = s.rg (Reg.PWM_PER k) ∧ t.rg (Reg.PWM_ADT k) = s.rg (Reg.PWM_DT k) ∧
        (t.pwm k).cw = s.rn (Reg.PWM_CMP k) ∧ (t.pwm k).mp = s.rg (Reg.PWM_MP k) ∧ t.rg (Reg.PWM_PEND k) = 0) ∧
      (s.bit (Reg.PWM_STAT k) F.PWM_STAT_RUNNING = true → s.rg (Reg.PWM_PEND k) = 0 →
        s.bit (Reg.PWM_CTRL k) F.PWM_CTRL_AUTO = false →
        t.rg (Reg.PWM_ACMP k) = BitVec.ofNat 32 (s.pwmDerive k) ∧ (t.pwm k).p = decide (0 < s.pwmDerive k))) ∧
  (∀ (s : State) (k : Fin 32), s.bit (Reg.PWM_CTRL k) F.PWM_CTRL_EN = false → Answers (.pwmEnable k true) s fun t =>
    t = { s with regs := t.regs, pwms := t.pwms, towRx := t.towRx } ∧ (0 < k.val → t.towRx = s.towRx) ∧ t.bit (Reg.PWM_CTRL k) F.PWM_CTRL_EN = true ∧ (t.pwm k).start = s.tick ∧
      t.bit (Reg.PWM_STAT k) F.PWM_STAT_WAIT_TOW = (s.fld (Reg.PWM_CTRL k) F.PWM_CTRL_SYNC != 0)) ∧
  (∀ (s : State) (k : Fin 32), Answers (.pwmEnable k false) s fun t =>
    t = { s with regs := t.regs, pwms := t.pwms, cmps := t.cmps, towRx := t.towRx } ∧ (0 < k.val → t.towRx = s.towRx) ∧ t.bit (Reg.PWM_CTRL k) F.PWM_CTRL_EN = false ∧
      t.bit (Reg.PWM_STAT k) F.PWM_STAT_RUNNING = false ∧ t.bit (Reg.PWM_PEND k) F.PWM_PEND_ARMED = false ∧
      (t.pwm k).outA = s.bit (Reg.PWM_CTRL k) F.PWM_CTRL_SAFE_A ∧ (t.pwm k).outB = s.bit (Reg.PWM_CTRL k) F.PWM_CTRL_SAFE_B) ∧
  (∀ (s : State) (k : Fin 32), s.bit (Reg.PWM_STAT k) F.PWM_STAT_RUNNING = true → (s.pwm k).p = true →
    s.fld (Reg.PWM_ACMP k) F.PWM_ACMP_C < 16 * s.pwmPer k → (s.pwm k).tripped = false → Answers (.compareMatch k) s fun t =>
    t = { s with tick := t.tick, ts := t.ts, pwms := t.pwms, cmps := t.cmps } ∧
      t.tick = max s.tick ((s.pwm k).start + s.fld (Reg.PWM_ACMP k) F.PWM_ACMP_C / 16) ∧
      (t.pwm k).p = false ∧ (t.pwm k).fine = s.fld (Reg.PWM_ACMP k) F.PWM_ACMP_C % 16 ∧ (t.pwm k).outA = false) ∧
  (∀ (s : State) (k : Fin 32), (s.pwm k).tripped = false → (s.pwm k).dtTo ≠ 0 → Answers (.deadTimeEnd k) s fun t =>
    t = { s with tick := t.tick, ts := t.ts, pwms := t.pwms, cmps := t.cmps } ∧ t.tick = max s.tick (s.pwm k).dtEnd ∧
      (t.pwm k).dtTo = 0 ∧ ((s.pwm k).dtTo = 1 → (t.pwm k).outA = true ∧ (t.pwm k).outB = (s.pwm k).outB) ∧
      ((s.pwm k).dtTo = 2 → (t.pwm k).outB = true ∧ (t.pwm k).outA = (s.pwm k).outA))

/-- TOW_PULSE, TOW_RESTART, TOW_IN_EDGE, SHADOW_WRITE and PWM_COMMIT. (1) A running pair with OFS below its period emits one
tow per period, at OFS; it reaches the next pair if that is enabled with SYNC = 1 and no period of it starts in that tick, and
from pair 31 TOW_OUT 8 ticks later where OUT_EN is 1. (2) A tow restarts a running pair once P has held its level for its dead
time and minimum pulse; where the counter wraps first the tow is dropped and nothing else happens. (3) An edge on TOW_IN is
stamped with TS and is on its way to pair 0, 24 ticks later. (4) After a period start that is due by its tick, a shadow write
within its range stands in the register and is pending; a PER outside 2–1,048,576 is refused with CFG_ERR. (5) A commit arms
every enabled pair of the groups named and, with no period start due, changes nothing else. -/
def Obligations.TowChainAndShadowCommandsRun : Prop :=
  (∀ (s : State) (k : Fin 32), s.bit (Reg.PWM_STAT k) F.PWM_STAT_RUNNING = true → (s.pwm k).ofs < s.pwmPer k →
    (s.pwm k).towSent = false → Answers (.towPulse k) s fun t =>
      t = { s with tick := t.tick, ts := t.ts, pwms := t.pwms, towOut := t.towOut } ∧
      t.tick = max s.tick ((s.pwm k).start + (s.pwm k).ofs) ∧ (t.pwm k).towSent = true ∧
      (k.val < 31 → s.bit (Reg.PWM_CTRL (k + 1)) F.PWM_CTRL_EN = true → s.fld (Reg.PWM_CTRL (k + 1)) F.PWM_CTRL_SYNC = 1 →
        s.bit (Reg.PWM_STAT (k + 1)) F.PWM_STAT_RUNNING = false ∨ (s.pwm (k + 1)).start ≠ t.tick →
        (t.pwm (k + 1)).tow = some t.tick) ∧
      (k.val = 31 → s.bit Reg.PWM_TOWCFG F.PWM_TOWCFG_OUT_EN = true → t.tick + 8 ∈ t.towOut)) ∧
  (∀ (s : State) (k : Fin 32) (u : Nat), s.bit (Reg.PWM_STAT k) F.PWM_STAT_RUNNING = true → (s.pwm k).tow = some u →
    let x := s.pwm k
    let e := max u (x.since + b2n (x.fine != 0) + (if x.p then s.pwmDtR k else s.pwmDtF k) + nbits x.mp.toNat 0 8)
    Answers (.towRestart k) s fun t =>
      t.mem = s.mem ∧ (t.pwm k).tow = none ∧
      (e < x.start + s.pwmPer k → t.tick = max s.tick e ∧ (t.pwm k).start = t.tick) ∧
      (x.start + s.pwmPer k ≤ e → t = { s with pwms := t.pwms } ∧ (t.pwm k).start = x.start)) ∧
  (∀ s : State, Answers .towInEdge s fun t => t = { s with towIn := s.ts, towRx := s.towRx ++ [s.tick + 24] }) ∧
  (∀ (s : State) (k : Fin 32) (r : ShadowReg) (v : Word),
    let due := s.bit (Reg.PWM_CTRL k) F.PWM_CTRL_EN && !s.bit (Reg.PWM_STAT k) F.PWM_STAT_WAIT_TOW && decide (s.pwmNext k ≤ s.tick)
    let u := if due then s.periodStart k else s
    Answers (.shadowWrite k r v) s fun t =>
      t.mem = s.mem ∧ t.pwms = u.pwms ∧
      (r = .per ∧ ((v &&& shadowMask r).toNat < 2 ∨ 1048576 < (v &&& shadowMask r).toNat) →
        t.rg (Reg.PWM_PER k) = u.rg (Reg.PWM_PER k) ∧ t.bit (Reg.PWM_STAT k) F.PWM_STAT_CFG_ERR = true) ∧
      (¬(r = .per ∧ ((v &&& shadowMask r).toNat < 2 ∨ 1048576 < (v &&& shadowMask r).toNat)) →
        t.rg (shadowAddr r k) = v &&& shadowMask r ∧ nbit (t.fld (Reg.PWM_PEND k) F.PWM_PEND_PEND) (shadowBit r) = true ∧
        SameRegs [shadowAddr r k, Reg.PWM_PEND k] u t)) ∧
  (∀ (s : State) (m : Byte), Answers (.pwmCommit m) s fun t =>
    t.mem = s.mem ∧
    (∀ k : Fin 32, (s.bit (Reg.PWM_CTRL k) F.PWM_CTRL_EN && nbit m.toNat (s.fld (Reg.PWM_CTRL k) F.PWM_CTRL_CGRP)) = true →
      t.bit (Reg.PWM_PEND k) F.PWM_PEND_ARMED = true) ∧
    ((∀ k : Fin 32, s.tick < s.pwmNext k) →
      t = { s with regs := t.regs } ∧ SameRegs ((List.range 32).map Reg.PWM_PEND) s t))

/-- RUN_START, RUN_STOP, INNER_DONE, OVR_LIMIT_WRITE, GANG_CLOCK_SWITCH and CROSSING_ACCEPT. (1) RUN = 1 on an FC that stands,
follows no leader and has legal cycle registers and usable stores sets RUN, and the first sample instant is the first TS at or
after TS + 1,600 ticks that R21 allows; with illegal registers it sets CFG_ERR and RUN stays 0. (2) RUN = 0 while every flight
is UNBOUND or BOUND clears RUN; while a cycle is in progress nothing but registers changes. (3) The first matching INNER_DONE
of a cycle ends the obligation. Where it is checked, a match from tick 200 on resets CONSEC outside a hold cycle, and an
earlier one leaves the reset due at tick 200 (the model's reading, log entry 64); otherwise it changes nothing else. (4) A
LIMIT other than 0, unlocked, stands, limits CONSEC, and the overrun cause follows CONSEC ≥ LIMIT; a LIMIT of 0 is ignored. (5)
A clock switch ends. (6) A crossing into an island that does not switch its clock delivers every value sent. -/
def Obligations.RunAndObligationCommandsTakeEffect : Prop :=
  (∀ (s : State) (n : Fin 16), s.follower n = false → s.bit (Reg.FC_CYC_CTRL n) F.FC_CYC_CTRL_RUN = false →
    s.bit (Reg.FC_CYC_STAT n) F.FC_CYC_STAT_RUNNING = false →
    let len := s.fld (Reg.FC_CYC_LEN n) F.FC_CYC_LEN_LEN
    let ph := s.fld (Reg.FC_CYC_PHASE n) F.FC_CYC_PHASE_PHASE
    let ok := cycleOk len ph (s.fld (Reg.FC_APPLY_LAT n) F.FC_APPLY_LAT_LAT) && s.fcCan n
    Answers (.runStart n) s fun t =>
      t.mem = s.mem ∧
      (ok = true → t.bit (Reg.FC_CYC_CTRL n) F.FC_CYC_CTRL_RUN = true ∧ s.ts + 1600 ≤ (t.fc n).next ∧
        (t.fc n).next < s.ts + 1600 + 200 * len ∧ (t.fc n).next % (200 * len) = ph) ∧
      (ok = false → t = { s with regs := t.regs } ∧ t.bit (Reg.FC_CYC_STAT n) F.FC_CYC_STAT_CFG_ERR = true ∧
        t.bit (Reg.FC_CYC_CTRL n) F.FC_CYC_CTRL_RUN = false)) ∧
  (∀ (s : State) (n : Fin 16), s.follower n = false →
    (∀ f, f < 2 → s.bound n f = true → s.fltState n f ≤ 1) →
    Answers (.runStop n) s fun t =>
      t.mem = s.mem ∧ t.bit (Reg.FC_CYC_CTRL n) F.FC_CYC_CTRL_RUN = false ∧
      (s.bit (Reg.FC_CYC_STAT n) F.FC_CYC_STAT_RUNNING = true →
        t = { s with regs := t.regs } ∧ SameRegs [Reg.FC_CYC_CTRL n] s t) ∧
      (s.bit (Reg.FC_CYC_STAT n) F.FC_CYC_STAT_RUNNING = false → ∀ i : Fin 64, t.laneState (64 * n + i) = 0)) ∧
  (∀ (s : State) (n : Fin 16) (c : Byte), s.follower n = false → s.cycling n = true → (s.fc n).innerDone = false →
    c.toNat = s.rn (Reg.FC_CYC_COUNT n) % 256 →
    let chk := s.bit (Reg.FC_CYC_CTRL n) F.FC_CYC_CTRL_INNER_CHK
    let late := (s.fc n).done.contains 200
    Answers (.innerDone n c) s fun t =>
      t.mem = s.mem ∧ t.fc n = { s.fc n with innerDone := true, consecDue := (s.fc n).consecDue || chk && !late } ∧
      (chk = true → late = true → (s.fc n).holdCyc = false → t.fld (Reg.FC_OVR_COUNT n) F.FC_OVR_COUNT_CONSEC = 0) ∧
      (chk = false ∨ late = false ∨ (s.fc n).holdCyc = true → t = { s with fcs := t.fcs })) ∧
  (∀ (s : State) (n : Fin 16) (v : Word), Answers (.ovrLimitWrite n v) s fun t =>
    t.mem = s.mem ∧ (v.toNat % 256 = 0 → t = s) ∧
    (v.toNat % 256 ≠ 0 → s.bit (Reg.FC_LOCK n) F.FC_LOCK_LOCK = false →
      t.fld (Reg.FC_OVR_CFG n) F.FC_OVR_CFG_LIMIT = v.toNat % 256 ∧
      t.fld (Reg.FC_OVR_COUNT n) F.FC_OVR_COUNT_CONSEC = min (s.fld (Reg.FC_OVR_COUNT n) F.FC_OVR_COUNT_CONSEC) (v.toNat % 256) ∧
      nbit (t.rn (Reg.SLU_FCSRC n)) 0 = decide (v.toNat % 256 ≤ s.fld (Reg.FC_OVR_COUNT n) F.FC_OVR_COUNT_CONSEC))) ∧
  (∀ (s : State) (n : Fin 16), Answers (.gangClockSwitch n) s fun t =>
    t = { s with fcs := t.fcs } ∧ t.fc n = { s.fc n with switching := false } ∧ ∀ m, m ≠ n.val → t.fc m = s.fc m) ∧
  (∀ (s : State) (n : Fin 16), (s.fc n).switching = false → ((s.fc n).hubSent.map (·.1)).Nodup →
    Answers (.crossingAccept n) s fun t =>
      t = { s with fcs := t.fcs } ∧ (t.fc n).hubSent = [] ∧
      ∀ h, tget 0 (t.fc n).hubNext h = tget (tget 0 (s.fc n).hubNext h) (s.fc n).hubSent h)

/-- REF_ENABLE, REF_SETTLED, REF_TIMEOUT, REF_FALL, SEQ_TRIGGER and SWTRIG. (1) EN takes the value written: a rise starts the
settling time; EN = 0 clears REF_READY and REF_LOST and ends a rotation step, but sets CFG_ERR and changes nothing else while a
RUNNING or HELD flight uses the group. (2) A settling reference is ready 1,600,000 ticks after its start, or REF_FAULT
3,200,000 ticks after. (3) A fall of a ready reference sets REF_LOST and REF_FAULT, clears REF_READY, ends a step, starts the
settling time afresh and makes source 167 active. (4) A trigger schedules its entry, on the channel that its word names, at the
FC's sample instant, the pair's period start, the pin's edge or the timer's tick plus its delay (at least 16 ticks after an
edge), a software trigger one tick after the write; a trigger that finds a start pending sets TRIG_OVR and leaves that start.
No memory changes. -/
def Obligations.ReferenceBuffersAndSequencesRun : Prop :=
  (∀ (s : State) (g : Fin 20), s.bit (Reg.ADC_REF_CTRL g) F.ADC_REF_CTRL_EN = false → Answers (.refEnable g true) s fun t =>
    t = { s with regs := t.regs, adcs := t.adcs } ∧ SameRegs [Reg.ADC_REF_CTRL g] s t ∧
      t.bit (Reg.ADC_REF_CTRL g) F.ADC_REF_CTRL_EN = true ∧ t.adc g = { s.adc g with settle := s.tick }) ∧
  (∀ (s : State) (g : Fin 20), Answers (.refEnable g false) s fun t =>
    t.mem = s.mem ∧
    (s.groupBusy g = false → t.bit (Reg.ADC_REF_CTRL g) F.ADC_REF_CTRL_EN = false ∧ t.refReady g = false ∧
      t.bit (Reg.ADC_STAT g) F.ADC_STAT_REF_LOST = false ∧ (t.adc g).step = 0) ∧
    (s.groupBusy g = true → t = { s with regs := t.regs } ∧ SameRegs [Reg.ADC_STAT g] s t ∧
      t.bit (Reg.ADC_STAT g) F.ADC_STAT_CFG_ERR = true)) ∧
  (∀ (s : State) (g : Fin 20), s.settling g = true → Answers (.refSettled g) s fun t =>
    t.mem = s.mem ∧ t.tick = max s.tick ((s.adc g).settle + 1600000) ∧ t.refReady g = true ∧
      t.bit (Reg.ADC_STAT g) F.ADC_STAT_REF_LOST = false) ∧
  (∀ (s : State) (g : Fin 20), s.settling g = true → Answers (.refTimeout g) s fun t =>
    t = { s with tick := t.tick, ts := t.ts, regs := t.regs } ∧ SameRegs [Reg.ADC_STAT g] s t ∧
      t.tick = max s.tick ((s.adc g).settle + 3200000) ∧
      t.bit (Reg.ADC_STAT g) F.ADC_STAT_REF_FAULT = true ∧ t.refReady g = false) ∧
  (∀ (s : State) (g : Fin 20), s.bit (Reg.ADC_REF_CTRL g) F.ADC_REF_CTRL_EN = true → s.refReady g = true →
    Answers (.refFall g) s fun t =>
      t.mem = s.mem ∧ t.refReady g = false ∧ t.bit (Reg.ADC_STAT g) F.ADC_STAT_REF_LOST = true ∧
      t.bit (Reg.ADC_STAT g) F.ADC_STAT_REF_FAULT = true ∧ (t.adc g).settle = s.tick ∧ (t.adc g).step = 0 ∧ t.srcActive 167 = true) ∧
  (∀ (s : State) (g : Fin 20) (k : Fin 16),
    let tr := s.trigOf g k
    let d := s.fld (Reg.ADC_SEQ g k) F.ADC_SEQ_DELAY
    let c := s.fld (Reg.ADC_SEQ g k) F.ADC_SEQ_CH
    Answers (.seqTrigger g k) s fun t =>
      t.mem = s.mem ∧
      (tget none (s.adc g).pend k = none →
        (1 ≤ tr → tr ≤ 0x10 → s.runOn (tr - 1) = true →
          tget none (t.adc g).pend k = some (s.r64 (Reg.FC_CYC_TS_LO (s.leader (tr - 1))) + d, c)) ∧
        (0x20 ≤ tr → tr < 0x40 → tget none (t.adc g).pend k = some (s.r64 (Reg.PWM_PSTS_LO (tr - 0x20)) + d, c)) ∧
        (0x40 ≤ tr → tr < 0x60 → tget none (t.adc g).pend k = some (tget 0 s.evtRise (tr - 0x40) + max d 16, c)) ∧
        (tr = 0x61 → s.tmrPeriod g ≠ 0 → tget none (t.adc g).pend k = some (t.ts + d, c))) ∧
      (tget none (s.adc g).pend k ≠ none → 0x20 ≤ tr → tr < 0x60 →
        t.adcs = s.adcs ∧ t.bit (Reg.ADC_STAT g) F.ADC_STAT_TRIG_OVR = true)) ∧
  (∀ (s : State) (g : Fin 20), Answers (.swtrig g) s fun t =>
    t = { s with regs := t.regs, adcs := t.adcs } ∧ SameRegs [Reg.ADC_STAT g] s t ∧ ∀ k : Fin 16,
      (s.trigOf g k = 0x60 → tget none (s.adc g).pend k = none →
        tget none (t.adc g).pend k =
          some (s.ts + 1 + s.fld (Reg.ADC_SEQ g k) F.ADC_SEQ_DELAY, s.fld (Reg.ADC_SEQ g k) F.ADC_SEQ_CH)) ∧
      (s.trigOf g k ≠ 0x60 → tget none (t.adc g).pend k = tget none (s.adc g).pend k))

/-- SEQ_START, SEQ_RESULT, ADC_RES_READ, CONVERSION_COMPLETE, UGAIN_STAGE and UOFF_COMMIT. (1) A start with its channel free, a
mapped slice and a ready reference converts the input: the result carries the start's TS, the slice that serves the channel
then and the corrected value of R144. A start less than 80 ticks after the last hold of its channel, or before its next cycle
sample, is missed: MISSED and its TS show; a start in the tick of another conversion shares it. (2) A conversion is published
with its value, NEW = 1, and OVR = 1 where the last result was not read. (3) A read clears NEW and OVR and leaves every other
register and the value as they are. (4) At tick 80 the cycle sample of every channel held by the FC is converted, with the
slice and the user pair of its hold; one that an entry of its tick has converted stays. (5) A gain is staged only; the write of
the offset commits both: at once in a hub group, for the sample instant in an FC group. -/
def Obligations.ConversionsAndTheirResults : Prop :=
  (∀ (s : State) (g : Fin 20) (k : Fin 16) (raw : Int) (u c : Nat), tget none (s.adc g).pend k = some (u, c) →
    let sl := (s.serve g c).sliceOf g c
    let near := ∃ h, tget none (s.adc g).held c = some h ∧ h < u ∧ u < h + 80
    let soon := ∃ ns ∈ s.coming g c, u < ns ∧ ns < u + 80
    Answers (.seqStart g k raw) s fun t =>
      t.mem = s.mem ∧ tget none (t.adc g).pend k = none ∧
      (tget none (s.adc g).held c ≠ some u → near ∨ soon →
        t.bit (Reg.ADC_RES g k) F.ADC_RES_MISSED = true ∧ t.rg (Reg.ADC_RESTS g k) = BitVec.ofNat 32 u ∧
          (t.adc g).out = (s.adc g).out) ∧
      (tget none (s.adc g).held c = some u ∨ ¬(near ∨ soon) →
        ∃ v sh, tget [] (t.adc g).out k = tget [] (s.adc g).out k ++ [(v, sh)] ∧
          (∀ w, tget none (s.adc g).last c = some w → w.start = u → v = w) ∧
          ((∀ w, tget none (s.adc g).last c = some w → w.start ≠ u) → v.ch = c ∧
            ((∀ h, tget none (s.adc g).cycHold c = some h → h.ts ≠ u) → v.start = u ∧ v.slice = sl ∧
              (sl ≠ 15 → s.refReady g = true → v.val =
                (correct (satI 16 raw) (s.sliceCal g sl).1 (s.sliceCal g sl).2 (s.userPair g c).1 (s.userPair g c).2).1))))) ∧
  (∀ (s : State) (g : Fin 20) (k : Fin 16) (v : Conv) (sh : Bool) (l : List (Conv × Bool)),
    tget [] (s.adc g).out k = (v, sh) :: l →
    Answers (.seqResult g k) s fun t =>
      t.mem = s.mem ∧ tget [] (t.adc g).out k = l ∧ t.rn (Reg.ADC_RES g k) % 65536 = enc 16 v.val ∧
      t.bit (Reg.ADC_RES g k) F.ADC_RES_NEW = true ∧ t.bit (Reg.ADC_RES g k) F.ADC_RES_SHARED = sh ∧
      t.bit (Reg.ADC_RES g k) F.ADC_RES_OVR =
        (s.bit (Reg.ADC_RES g k) F.ADC_RES_NEW || s.bit (Reg.ADC_RES g k) F.ADC_RES_OVR) ∧
      t.rg (Reg.ADC_RESTS g k) = BitVec.ofNat 32 v.start) ∧
  (∀ (s : State) (g : Fin 20) (k : Fin 16),
    exec (.adcResRead g k) s = .next (s.wr (Reg.ADC_RES g k) (s.rg (Reg.ADC_RES g k) &&& 0x3FFFFFFF))) ∧
  (∀ (s : State) (g : Fin 20) (k : Fin 16), Answers (.adcResRead g k) s fun t =>
    t = { s with regs := t.regs } ∧ SameRegs [Reg.ADC_RES g k] s t ∧
      t.bit (Reg.ADC_RES g k) F.ADC_RES_NEW = false ∧ t.bit (Reg.ADC_RES g k) F.ADC_RES_OVR = false ∧
      t.rn (Reg.ADC_RES g k) % 65536 = s.rn (Reg.ADC_RES g k) % 65536) ∧
  (∀ (s : State) (n : Fin 16) (raw : List Int), s.stepDue n 80 = true → Answers (.conversionComplete n raw) s fun t =>
    t.mem = s.mem ∧ t.tick = max s.tick ((s.fc n).cycTick + 80) ∧ 80 ∈ (t.fc n).done ∧
    ∀ c : Fin 4, ∀ h, tget none (s.adc n).cycHold c = some h →
      (∀ v, tget none (s.adc n).cyc c = some v → tget none (t.adc n).cyc c = some v) ∧
      (tget none (s.adc n).cyc c = none → ∃ v, tget none (t.adc n).cyc c = some v ∧ v.start = h.ts ∧ v.slice = h.slice ∧
        (h.slice ≠ 15 → s.refReady n = true → v.val =
          (correct (satI 16 (raw.getD c 0)) (s.sliceCal n h.slice).1 (s.sliceCal n h.slice).2 h.pair.1 h.pair.2).1))) ∧
  (∀ (s : State) (g : Fin 20) (c : Fin 8) (v : Word), c.val < chans g → Answers (.ugainStage g c v) s fun t =>
    t = { s with regs := t.regs } ∧ SameRegs [Reg.ADC_UGAIN g c] s t ∧ t.rg (Reg.ADC_UGAIN g c) = v &&& 0xFFFFF) ∧
  (∀ (s : State) (g : Fin 20) (c : Fin 8) (v : Word), c.val < chans g →
    let p := (sx 20 (s.rn (Reg.ADC_UGAIN g c)), sx 16 (v.toNat % 65536))
    Answers (.uoffCommit g c v) s fun t =>
      t = { s with regs := t.regs, adcs := t.adcs } ∧ SameRegs [Reg.ADC_UOFF g c] s t ∧
      t.rg (Reg.ADC_UOFF g c) = v &&& 0xFFFF ∧
      (g.val < 16 → tget (0, 0) (t.adc g).staged c = p ∧ (t.adc g).pairs = (s.adc g).pairs) ∧
      (16 ≤ g.val → t.userPair g c = p ∧ (t.adc g).staged = (s.adc g).staged))

/-- CAL_STEP, CHECK_NOW, FORCE_HANDOVER, SLICE_CHECK_DONE, HANDOVER_COMPARE, HANDOVER_CONVERSION and FORCE_HANDOVER_DONE. (1)
Where a step may start, CAL_STEP and CHECK_NOW start one; on the channel of a path test it is abandoned at once. (2) FORCE with
a free slice, a channel of the group and a ready reference starts a step for that channel in the same way; without one of them
it sets CFG_ERR and changes nothing else. (3) A checked slice whose three errors lie within TOL goes on to its channel; out of
tolerance it is checked once more, and the second time it is retired: no slice is free any more and the rotation stops. (4)
Where the two codes differ by at most 4 the handover is agreed, otherwise HO_FAIL is set; the mapping stays. (5) An idle hub
channel takes a conversion of its own 10 ms after the connection. (6) A forced handover is agreed 400 ticks after the
connection. (7) The channel's next conversion makes an agreed handover: the free slice serves the channel, the relieved slice
is free, the step ends, and NEXT advances or, where it was forced, FORCED is set. No memory changes. -/
def Obligations.SliceRotationRuns : Prop :=
  (∀ (s : State) (g : Fin 20) (i : Instr), i = .calStep g ∨ i = .checkNow g → s.stepMay g = true →
    let on := s.pathOn g (s.fld (Reg.ADC_CAL_STAT g) F.ADC_CAL_STAT_NEXT)
    Answers i s fun t =>
      t = { s with tick := t.tick, ts := t.ts, regs := t.regs, adcs := t.adcs } ∧ SameRegs [Reg.ADC_STAT g] s t ∧
      t.bit (Reg.ADC_STAT g) F.ADC_STAT_CAL_RUN = !on ∧
      (on = false → (t.adc g).step = 1 ∧ (t.adc g).force = none) ∧ (on = true → (t.adc g).step = 0)) ∧
  (∀ (s : State) (g : Fin 20) (c : Fin 16), Answers (.forceHandover g c) s fun t =>
    t = { s with regs := t.regs, adcs := t.adcs } ∧ SameRegs [Reg.ADC_STAT g] s t ∧
    ((s.freeSlice g).isSome = true ∧ c.val < chans g ∧ s.refReady g = true →
      t.bit (Reg.ADC_STAT g) F.ADC_STAT_CAL_RUN = !s.pathOn g c ∧
      (s.pathOn g c = false → (t.adc g).step = 1 ∧ (t.adc g).force = some c.val) ∧
      (s.pathOn g c = true → (t.adc g).step = 0)) ∧
    (¬((s.freeSlice g).isSome = true ∧ c.val < chans g ∧ s.refReady g = true) →
      t.adcs = s.adcs ∧ t.bit (Reg.ADC_STAT g) F.ADC_STAT_CFG_ERR = true)) ∧
  (∀ (s : State) (g : Fin 20) (f : Nat) (raw : List Int), (s.adc g).step = 1 → s.freeSlice g = some f → f ≤ chans g →
    let avg := fun j => rhe (((List.range 64).map fun i => s.factory g f (satI 16 (raw.getD (64 * j + i) 0))).sum) 64
    let tol : Int := max 1 (s.fld (Reg.ADC_CAL_CFG g) F.ADC_CAL_CFG_TOL)
    let ok := (avg 0).natAbs ≤ tol ∧ (avg 1 - 24576).natAbs ≤ tol ∧ (avg 2 + 24576).natAbs ≤ tol
    Answers (.sliceCheckDone g raw) s fun t =>
      t.mem = s.mem ∧ t.tick = max s.tick ((s.adc g).stepTick + 15360) ∧
      (ok → (t.adc g).step = 2 ∧ t.freeSlice g = some f) ∧
      (¬ok → (s.adc g).again = false → (t.adc g).step = 1 ∧ (t.adc g).again = true ∧ t.freeSlice g = some f) ∧
      (¬ok → (s.adc g).again = true → (t.adc g).step = 0 ∧ t.freeSlice g = none ∧
        t.bit (Reg.ADC_STAT g) F.ADC_STAT_CAL_STOP = true ∧ t.bit (Reg.ADC_CAL_STAT g) F.ADC_CAL_STAT_RETIRED = true)) ∧
  (∀ (s : State) (g : Fin 20) (f : Nat) (v : Conv) (raw : Int), (s.adc g).step = 2 → (s.adc g).force = none →
    s.freeSlice g = some f → f ≤ chans g → s.stepChan g < chans g → s.sliceOf g (s.stepChan g) ≤ chans g →
    tget none (s.adc g).last (s.stepChan g) = some v →
    s.ts + 400 ≤ v.start + (s.tick - (s.adc g).stepTick) → (s.adc g).compared ≠ some v.start → v.slice ≠ 15 →
    let c := s.stepChan g
    let d := s.factory g v.slice v.raw - s.factory g f (satI 16 raw)
    Answers (.handoverCompare g raw) s fun t =>
      t.mem = s.mem ∧
      (d.natAbs ≤ 4 → t.sliceOf g c = s.sliceOf g c ∧ t.freeSlice g = some f ∧ (t.adc g).step = 3) ∧
      (4 < d.natAbs → t.sliceOf g c = s.sliceOf g c ∧ t.freeSlice g = some f ∧
        t.bit (Reg.ADC_CAL_STAT g) F.ADC_CAL_STAT_HO_FAIL = true)) ∧
  (∀ (s : State) (g : Fin 20) (raw : Int), 16 ≤ g.val → (s.adc g).step = 2 → (s.adc g).force = none →
    (∀ v, tget none (s.adc g).last (s.stepChan g) = some v → v.start + (s.tick - (s.adc g).stepTick) < s.ts) →
    Answers (.handoverConversion g raw) s fun t =>
      t.mem = s.mem ∧ t.tick = max s.tick ((s.adc g).stepTick + 8000000) ∧
      ∃ v, tget none (t.adc g).last (s.stepChan g) = some v ∧ v.start = t.ts ∧ (t.adc g).out = (s.adc g).out) ∧
  (∀ (s : State) (g : Fin 20) (c : Nat), (s.adc g).step = 2 → (s.adc g).force = some c →
    Answers (.forceHandoverDone g) s fun t =>
      t = { s with tick := t.tick, ts := t.ts, adcs := t.adcs } ∧ t.tick = max s.tick ((s.adc g).stepTick + 400) ∧
        t.adc g = { s.adc g with step := 3 }) ∧
  (∀ (s : State) (g : Fin 20) (k : Fin 16) (raw : Int) (u c f : Nat), tget none (s.adc g).pend k = some (u, c) →
    tget none (s.adc g).held c = none → s.coming g c = [] → tget none (s.adc g).last c = none →
    tget none (s.adc g).cycHold c = none → (s.adc g).step = 3 → s.stepChan g = c → s.freeSlice g = some f → f ≤ chans g →
    c < chans g → s.sliceOf g c ≤ chans g ∨ s.sliceOf g c = 15 →
    Answers (.seqStart g k raw) s fun t =>
      t.mem = s.mem ∧ t.sliceOf g c = f ∧ t.fld (Reg.ADC_CAL_STAT g) F.ADC_CAL_STAT_FREE = s.sliceOf g c ∧ (t.adc g).step = 0 ∧
      ((s.adc g).force = none → t.fld (Reg.ADC_CAL_STAT g) F.ADC_CAL_STAT_NEXT = (c + 1) % chans g) ∧
      ((s.adc g).force ≠ none → t.bit (Reg.ADC_CAL_STAT g) F.ADC_CAL_STAT_FORCED = true ∧
        t.bit (Reg.ADC_MAP g c) F.ADC_MAP_SUSPECT = false))

/-- RUN_PATH_TEST, PATH_TEST_LEVEL, PATH_TEST_DONE, SET_USER_CAL and GET_FACTORY_CAL. An accepted RUN_PATH_TEST with 1 to 6
legal levels, on a ready group that no running flight uses and that runs no test, sets PT_BUSY and TEST, connects the DAC and
waits; a group without its reference conflicts and one with a test is busy. A level of the test adds its average, of 16
corrected codes, to the test's record. After the last level the test ends: PT_BUSY and TEST clear and the command replies OK.
SET_USER_CAL within its range puts gain and offset in force together, at once on a group of the hub and for the sample instant
on a group of an FC, and replies OK with the old pair; out of range it replies BAD_PARAM and the pair stays. GET_FACTORY_CAL
with the length of its records writes them to the buffer and replies OK. -/
def Obligations.AnalogHostCommandsRun : Prop :=
  (∀ (s : State) (e : Entry),
    let g := (ainGroup (eTarget e)).1
    let c := (ainGroup (eTarget e)).2
    Accepted 0x62 e s → 1 ≤ ent e 8 1 → ent e 8 1 ≤ 6 → ent e 9 1 = 0 → zeroes e 24 48 = true →
    (∀ j : Fin 6, (j.val < ent e 8 1 → -2048 ≤ ptLevel e j ∧ ptLevel e j ≤ 2047) ∧ (ent e 8 1 ≤ j.val → ptLevel e j = 0)) →
    Answers (.runPathTest e) s fun t =>
      t.mem = s.mem ∧
      (s.refReady g = false → (s.port e.port).d3 = false → t.adcs = s.adcs ∧ Replied e 0x20 [] s t) ∧
      (s.groupBusy g = false → s.refReady g = true → s.bit (Reg.ADC_STAT g) F.ADC_STAT_PT_BUSY = true → (s.port e.port).d3 = false →
        t.adcs = s.adcs ∧ Replied e 0x22 [] s t) ∧
      (s.groupBusy g = false → s.refReady g = true → s.bit (Reg.ADC_STAT g) F.ADC_STAT_PT_BUSY = false →
      t.rg (Reg.ADC_TDAC g) = BitVec.ofNat 32 (enc 12 (ptLevel e 0) + 4096 + 65536 * c) ∧ t.bit (Reg.ADC_STAT g) F.ADC_STAT_PT_BUSY = true ∧ t.bit (Reg.ADC_MAP g c) F.ADC_MAP_TEST = true ∧
      (t.adc g).ptDone = 0 ∧
      t.keep.waits = s.keep.waits ++ [{ e := e, live := true, silent := false, on := .path g, st := 0 }])) ∧
  (∀ (s : State) (g : Fin 20) (w : Wait) (codes : List Int), s.pathWait g = some w → (s.adc g).ptDone < ent w.e 8 1 →
    s.refReady g = true →
    let c := (ainGroup (eTarget w.e)).2
    let sl := s.sliceOf g c
    sl ≠ 15 → Answers (.pathTestLevel g codes) s fun t =>
      t.mem = s.mem ∧ t.tick = max s.tick ((s.adc g).ptTick + 2080) ∧ (t.adc g).ptDone = (s.adc g).ptDone + 1 ∧
      (t.adc g).ptAvg = (s.adc g).ptAvg ++ [rhe (((List.range 16).map fun i =>
        (correct (satI 16 (codes.getD i 0)) (s.sliceCal g sl).1 (s.sliceCal g sl).2 (s.userPair g c).1 (s.userPair g c).2).1).sum) 16]) ∧
  (∀ (s : State) (g : Fin 20) (w : Wait), s.pathWait g = some w → (∀ v ∈ s.keep.waits, v.on ≠ .turn) →
    ent w.e 8 1 ≤ (s.adc g).ptDone → Answers (.pathTestDone g) s fun t =>
      t.mem = s.mem ∧ t.tick = max s.tick ((s.adc g).ptTick + 800) ∧ t.keep.waits = s.keep.waits.erase w ∧
      t.bit (Reg.ADC_STAT g) F.ADC_STAT_PT_BUSY = false ∧
      t.bit (Reg.ADC_MAP g (ainGroup (eTarget w.e)).2) F.ADC_MAP_TEST = false ∧
      (w.live = true → w.silent = false → (s.port w.e.port).d3 = false → ∃ res, Replied w.e 0 res s t)) ∧
  (∀ (s : State) (e : Entry),
    let g := (ainGroup (eTarget e)).1
    let c := (ainGroup (eTarget e)).2
    let gu := sx 32 (ent e 8 4)
    Accepted 0x60 e s → (s.port e.port).d3 = false → Answers (.setUserCal e) s fun t =>
      t.mem = s.mem ∧
      (-(2 ^ 19) ≤ gu → gu < 2 ^ 19 → zeroes e 14 48 = true →
        (16 ≤ g → t.userPair g c = (gu, sx 16 (ent e 12 2))) ∧
        (g < 16 → t.userPair g c = s.userPair g c ∧ tget (0, 0) (t.adc g).staged c = (gu, sx 16 (ent e 12 2))) ∧
        Replied e 0 [enc 32 (sx 20 (s.rn (Reg.ADC_UGAIN g c))), s.rn (Reg.ADC_UOFF g c)] s t) ∧
      (gu < -(2 ^ 19) ∨ 2 ^ 19 ≤ gu → t.userPair g c = s.userPair g c ∧ Replied e 0x11 [] s t)) ∧
  (∀ (s : State) (e : Entry) (b : List Byte), Accepted 0x61 e s → (s.port e.port).d3 = false → e.buf = some b →
    eBufLen e = 8 * (chans (eTarget e) + 1) → zeroes e 8 48 = true → Answers (.getFactoryCal e) s fun t =>
      t.mem = s.mem ∧
      t.out = .wr e.port (eBufAddr e) ((List.range (chans (eTarget e) + 1)).flatMap fun sl => s.calRecord (eTarget e) sl) :: s.out ∧
      Replied e 0 [] s t)

/-- SAMPLE_INSTANT, CYCLE_END, LISTEN_DEADLINE, CORRECTION_COMPLETE and SHTGT_WRITE, with no host command waiting for them. (1)
A sample instant of a leading FC with RUN = 1 and no held write counts FC_CYC_COUNT from 0, stamps FC_CYC_TS with TS, sets
RUNNING, makes line 0 of the pair of every FC of the cycle pending and sets the next instant one cycle later; a write that is
held for it takes effect. (2) With RUN = 0 the cycle's end clears RUNNING and takes every lane to OFF. (3) At tick 64 a good
barge of a lane that is judged resets CONSEC and shows in LNK_LAST, and a missing one counts in MISS. (4) At tick 88 the
corrected values are those of the cycle's samples, and the observer and the balancer's program begin, at the START latched at
the sample instant. (5) The Keeper and the flight's reference source write a shaper target; another Outer pair or a HELD flight
ignores the write and sets REF_IGN. -/
def Obligations.CyclesBeginEndAndTakeTheirSamples : Prop :=
  (∀ (s : State) (n : Fin 16), s.follower n = false → s.bit (Reg.FC_CYC_CTRL n) F.FC_CYC_CTRL_RUN = true →
    (∀ w ∈ s.keep.waits, w.on ≠ .sample n ∧ w.on ≠ .turn ∧ ∀ l, w.on ≠ .bypass l) →
    (∀ m, (s.fc m).writes = []) → Answers (.sampleInstant n) s fun t =>
      t.mem = s.mem ∧
      t.rg (Reg.FC_CYC_COUNT n) = (if (s.fc n).started then s.rg (Reg.FC_CYC_COUNT n) + 1 else 0) ∧
      t.r64 (Reg.FC_CYC_TS_LO n) = t.ts % 2 ^ 64 ∧ t.bit (Reg.FC_CYC_STAT n) F.FC_CYC_STAT_RUNNING = true ∧
      (s.ts < (s.fc n).next → t.ts = (s.fc n).next % 2 ^ 64) ∧ (t.fc n).cycTick = t.tick ∧ (t.fc n).started = true ∧
      (t.fc n).next = (s.fc n).next + s.tcyc n ∧ ∀ m ∈ s.cycleFcs n, (tget 0 t.irq m).getLsbD 0 = true) ∧
  (∀ (s : State) (n : Fin 16) (ch : Fin 8) (v : Word), s.follower n = false →
    s.bit (Reg.FC_CYC_CTRL n) F.FC_CYC_CTRL_RUN = true → (∀ w ∈ s.keep.waits, w.on ≠ .sample n ∧ w.on ≠ .turn ∧ ∀ l, w.on ≠ .bypass l) →
    s.cycleFcs n = [n.val] →
    (s.fc n).writes = [(Reg.OBS_SHTGT n ch, v)] → Answers (.sampleInstant n) s fun t =>
      t.rg (Reg.OBS_SHTGT n ch) = v ∧ (t.fc n).writes = []) ∧
  (∀ (s : State) (n : Fin 16), s.follower n = false → s.bit (Reg.FC_CYC_CTRL n) F.FC_CYC_CTRL_RUN = false →
    s.bit (Reg.FC_CYC_STAT n) F.FC_CYC_STAT_RUNNING = true →
    (∀ w ∈ s.keep.waits, w.on ≠ .sample n ∧ w.on ≠ .turn ∧ w.on ≠ .stop ∧ ∀ l, w.on ≠ .bypass l) → Answers (.cycleEnd n) s fun t =>
      t.mem = s.mem ∧ t.bit (Reg.FC_CYC_STAT n) F.FC_CYC_STAT_RUNNING = false ∧ (t.fc n).started = false ∧
      ∀ i : Fin 64, t.laneState (64 * n + i) = 0) ∧
  (∀ (s : State) (n : Fin 16), s.stepDue n 64 = true → (s.fc n).fresh = false → Answers (.listenDeadline n) s fun t =>
    t.tick = max s.tick ((s.fc n).cycTick + 64) ∧ 64 ∈ (t.fc n).done ∧ ∀ i : Fin 64,
      let l := 64 * n.val + i.val
      let k := s.count n - 1
      s.judged l k = true →
        (t.lane l).rx = none ∧
        ((s.lane l).rx = none → t.fld (Reg.LNK_MISS n i) F.LNK_MISS_MISS = min 65535 (s.fld (Reg.LNK_MISS n i) F.LNK_MISS_MISS + 1)) ∧
        (∀ r, (s.lane l).rx = some r → r.goodCtrl l k.toNat = true →
          t.fld (Reg.LNK_MISS n i) F.LNK_MISS_CONSEC = 0 ∧
          t.rg (Reg.LNK_LAST n i) = BitVec.ofNat 32 (leAt r.bytes 6 2 + 65536 * leAt r.bytes 2 2))) ∧
  (∀ (s : State) (n : Fin 16), s.stepDue n 88 = true → Answers (.correctionComplete n) s fun t =>
    t.mem = s.mem ∧ t.tick = max s.tick ((s.fc n).cycTick + 88) ∧ 88 ∈ (t.fc n).done ∧
    (t.fc n).cor = (List.range 4).map (fun c => ((tget none (s.adc n).cyc c).map Conv.val).getD 0) ∧
    (t.fc n).obsRun = true ∧ (t.fc n).obsPc = 0 ∧ (t.fc n).ucRun = true ∧
    (t.fc n).ucPc = s.lf n (Reg.BAL_UC_CTRL n) F.BAL_UC_CTRL_START) ∧
  (∀ (s : State) (n : Fin 16) (ch : Fin 8) (who : Fin 21) (v : Word) (f : Nat), s.shOwner n ch = some f →
    let ok := who.val = 20 ∨ (16 ≤ who.val ∧ s.fld (Reg.FC_FLT_CFG n f) F.FC_FLT_CFG_REF_SRC = who.val - 15 ∧ s.fltState n f ≠ 4)
    Answers (.shtgtWrite n ch who v) s fun t =>
      t = { s with regs := t.regs } ∧
      (ok → t.rg (Reg.OBS_SHTGT n ch) = v ∧ SameRegs [Reg.OBS_SHTGT n ch] s t) ∧
      (¬ok → t.bit (Reg.FC_FLT_STAT n f) F.FC_FLT_STAT_REF_IGN = true ∧ SameRegs [Reg.FC_FLT_STAT n f] s t))

/-- BAL_MICROWORD, UC_DEADLINE, OBS_MICROWORD, OBSERVER_COMPLETE, N_READY and BALANCER_DEADLINE. (1) A usable balancer word
without a merge runs for 1, 2 or 4 ticks, loads the key slots where it says so, and goes on to the next word, or to its target,
or ends the program; an unusable word stops the program. (2) At tick 236 every program stops, and a led flight without a
published ranking has one, with UC_LATE. (3) An issued low pass of the observer forms its sum from the low halves; an issued
high pass of a state row without freeze adds 65,536 times the high sum, scales and saturates it into the row's next state, and
without a low pass before it writes no row. (4) At tick 184 the states and the actuations written are in their registers. (5)
At tick 200 line 1 of every FC of the cycle is pending, and outside a hold cycle N and F of a running flight are those of the
clamped reference of R84. (6) At tick 240 every override's VALID is 0, and N_A of a running flight, outside a hold cycle, is
the admitted override within its limits or else N. -/
def Obligations.BalancerAndObserverStepsRun : Prop :=
  (∀ (s : State) (m : Fin 16), s.cycling m = true → (s.fc m).ucRun = true → (s.fc m).ucTick < 236 →
    let x := s.fc m
    Answers (.balMicroword m) s fun t =>
      t.mem = s.mem ∧
      (s.csWord m 2 x.ucPc = none → (t.fc m).ucRun = false) ∧
      ∀ w, s.csWord m 2 x.ucPc = some w → nbits w 56 2 = 0 →
        let dur := if nbits w 14 2 = 1 then 4 else if nbits w 14 2 = 2 then 2 else 1
        t.tick = max s.tick ((s.fc (s.leader m)).cycTick + x.ucTick + dur) ∧ (t.fc m).ucTick = x.ucTick + dur ∧
        (t.fc m).ucRun = (nbits w 9 2 != 3) ∧
        (nbits w 9 2 = 0 → (t.fc m).ucPc = (x.ucPc + 1) % 512) ∧ (nbits w 9 2 = 1 → (t.fc m).ucPc = nbits w 0 9) ∧
        (nbits w 14 2 = 1 → nbit w 16 = false → (t.fc m).keys = (List.range 64).map fun (i : Nat) => 64 * m.val + i)) ∧
  (∀ (s : State) (n : Fin 16), s.stepDue n 236 = true → Answers (.ucDeadline n) s fun t =>
    t.mem = s.mem ∧ t.tick = max s.tick ((s.fc n).cycTick + 236) ∧ (t.fc n).ucRun = false ∧
    ∀ f : Fin 2, s.leads n f = true → (s.slot n f).published = false →
      (t.slot n f).published = true ∧ t.bit (Reg.BAL_STAT n f) F.BAL_STAT_UC_LATE = true) ∧
  (∀ (s : State) (n : Fin 16) (f : Nat) (l : List Byte) (mw : Nat), s.cycling n = true → s.follower n = false →
    (s.fc n).obsRun = true → (s.fc n).obsPc < 96 →
    let x := s.fc n
    let w := x.obsPc
    s.wordSlot n w = some (f, l) → s.csWord n 1 (imgU l 2 2 + (if setWhole l then w else w % 48)) = some mw → owIssue mw = true →
    Answers (.obsMicroword n) s fun t =>
      t.mem = s.mem ∧ t.tick = max s.tick (x.cycTick + 88 + w + 1) ∧ (t.fc n).obsPc = w + 1 ∧
      (owPass mw = 0 → (t.fc n).obsLow = some (passSum l (owRow mw) (owLanes mw) x.obsZ false)) ∧
      (owPass mw = 1 → x.obsLow = none → (t.fc n).obsXn = x.obsXn) ∧
      (∀ low, owPass mw = 1 → x.obsLow = some low → owRow mw < 32 → owFrz mw = false →
        let acc := low + 65536 * passSum l (owRow mw) (owLanes mw) x.obsZ true
        tget 0 (t.fc n).obsXn (owRow mw) = satI 32 (scale2 acc (imgI l (40 + owRow mw) 1 - 23)))) ∧
  (∀ (s : State) (n : Fin 16), s.stepDue n 184 = true → ((s.fc n).obsU.map (·.1)).Nodup → Answers (.observerComplete n) s fun t =>
    t.mem = s.mem ∧ t.tick = max s.tick ((s.fc n).cycTick + 184) ∧ (t.fc n).obsRun = false ∧
    (∀ j v, (j, v) ∈ (s.fc n).obsU → j < 8 → t.rg (Reg.OBS_U n j) = BitVec.ofInt 32 v) ∧
    ∀ i : Fin 32, t.rg (Reg.OBS_X n i) = BitVec.ofInt 32 (tget 0 (t.fc n).obsX i)) ∧
  (∀ (s : State) (n : Fin 16), s.stepDue n 200 = true → Answers (.nReady n) s fun t =>
    t.mem = s.mem ∧ t.tick = max s.tick ((s.fc n).cycTick + 200) ∧ (∀ m ∈ s.cycleFcs n, (tget 0 t.irq m).getLsbD 1 = true) ∧
    ∀ f : Fin 2, s.leads n f = true → s.runs n f = true → s.pairDown n = false →
      (s.slot n f).sum ≠ 0 → (s.slot n f).a ≠ 0 →
      let y := s.slot n f
      let u := (s.rg (Reg.OBS_U n (s.lf n (Reg.BAL_FCFG n f) F.BAL_FCFG_UIDX))).toInt
      let x := max (-65536 * (y.afb : Int)) (min (rhe (u * y.a * (recip y.sum).1) (2 ^ ((recip y.sum).2 + 8))) (65536 * y.a))
      (t.slot n f).n = x / 65536 ∧ ((t.slot n f).fr : Int) = x % 65536) ∧
  (∀ (s : State) (n : Fin 16), s.stepDue n 240 = true → Answers (.balancerDeadline n) s fun t =>
    t.mem = s.mem ∧ t.tick = max s.tick ((s.fc n).cycTick + 240) ∧ ∀ f : Fin 2,
      t.bit (Reg.FC_N_OVRD n f) F.FC_N_OVRD_VALID = false ∧
      (s.runs n f = true → (s.fc n).holdCyc = false →
        let y := s.slot n f
        let delta : Int := s.lf n (Reg.FC_N_LIMIT n f) F.FC_N_LIMIT_DELTA
        (s.bit (Reg.FC_N_OVRD n f) F.FC_N_OVRD_VALID = false → (t.slot n f).na = y.n) ∧
        (s.bit (Reg.FC_N_OVRD n f) F.FC_N_OVRD_VALID = true →
          s.fld (Reg.FC_N_OVRD n f) F.FC_N_OVRD_CYC = (s.count n).toNat % 256 →
          (t.slot n f).na = max (-(y.afb : Int)) (min
            (max (y.n - delta) (min (sx 10 (s.fld (Reg.FC_N_OVRD n f) F.FC_N_OVRD_N)) (y.n + delta))) y.a))))

/-- EDGE_SCHEDULE, CMD_SENT, LEDGER_CHECK, REBASE_APPLY and WEAR_PASS, for a flight that has its FC to itself where its lanes
are named. (1) At tick 256 the FREEZE copy is taken; no edge goes to a lane of a flight that does not run or is frozen, nor to
a lane under BLOCK_CMD, whose legs are off; without FREEZE every lane of a running flight is booked with its base level after
the duty and, where it is the trim cell, one more before it. (2) At tick 480 line 2 of every FC of the cycle is pending, and a
running flight that is neither blocked nor frozen posts the current times its levels to each lane's account and their total to
FACC. (3) At tick 552 RES is ΣACC − FACC − RACC, and a RES other than 0 sets FAULT, SRC_FAULT and the ledger cause. (4) At tick
560 a rebase accepted before this cycle's check, with an unchanged flight state and balanced books, sets RACC and FACC, sets
REBASED and replies OK; otherwise it conflicts, and one accepted after the check waits. (5) The wear pass advances the four
thermal stages of each lane of a running flight. -/
def Obligations.EdgesPostingsAndBooksRun : Prop :=
  (∀ (s : State) (n : Fin 16) (f : Fin 2), s.stepDue n 256 = true → s.bound n f = true → s.bound n (1 - f.val) = false →
    (s.slotLinks n f).Nodup →
    let frz := s.freezeOn (s.flightOf n f)
    Answers (.edgeSchedule n) s fun t =>
      t.mem = s.mem ∧ t.tick = max s.tick ((s.fc n).cycTick + 256) ∧ (t.slot n f).freeze = frz ∧ ∀ l ∈ s.slotLinks n f,
        (s.runs n f = false → (t.lane l).edges = [0xFFFFF, 0xFFFFF, 0xFFFFF, 0xFFFFF]) ∧
        (s.runs n f = true → nbit (s.lane l).mode 3 = true →
          (t.lane l).edges = [0xFFFFF, 0xFFFFF, 0xFFFFF, 0xFFFFF] ∧ (t.lane l).endLvl = 0) ∧
        (s.runs n f = true → nbit (s.lane l).mode 3 = false → frz = true →
          (t.lane l).edges = [0xFFFFF, 0xFFFFF, 0xFFFFF, 0xFFFFF] ∧ (t.lane l).endLvl = (s.lane l).endLvl) ∧
        (s.runs n f = true → frz = false →
          (t.lane l).l2 = (s.lane l).lvl ∧
          (t.lane l).l1 = if (s.slot n f).trim = some l then (s.lane l).lvl + 1 else (s.lane l).lvl)) ∧
  (∀ (s : State) (n : Fin 16) (f : Fin 2), s.stepDue n 480 = true → s.bound n f = true → s.bound n (1 - f.val) = false →
    s.runs n f = true → s.blockOn (s.flightOf n f) = false → (s.slot n f).freeze = false → (s.slotLinks n f).Nodup →
    let y := s.slot n f
    let t0 := s.tcyc n
    let ip := if s.lf n (Reg.BAL_FCFG n f) F.BAL_FCFG_I_POL = 1 then -y.cur else y.cur
    Answers (.cmdSent n) s fun t =>
      t.mem = s.mem ∧ t.tick = max s.tick ((s.fc n).cycTick + 480) ∧ (∀ m ∈ s.cycleFcs n, (tget 0 t.irq m).getLsbD 2 = true) ∧
      (t.slot n f).facc = wrap64 (y.facc + ip * (y.na * t0 + y.d)) ∧ ∀ l ∈ s.slotLinks n f,
        (t.lane l).acc =
          wrap64 ((s.lane l).acc + ip * ((s.lane l).l1 * y.d + (s.lane l).l2 * ((t0 : Int) - y.d)))) ∧
  (∀ (s : State) (n : Fin 16) (f : Fin 2), s.stepDue n 552 = true → s.bound n f = true → s.runs n f = true →
    Answers (.ledgerCheck n) s fun t =>
      t.mem = s.mem ∧ t.tick = max s.tick ((s.fc n).cycTick + 552) ∧
      (t.slot n f).res = wrap64 (s.sumAcc n f - (s.slot n f).facc - (s.slot n f).racc) ∧
      ((t.slot n f).res ≠ 0 → t.bit (Reg.LED_STAT n f) F.LED_STAT_FAULT = true ∧
        t.bit (Reg.LED_STAT n f) F.LED_STAT_SRC_FAULT = true ∧ nbit (t.rn (Reg.SLU_FCSRC n)) (3 + f) = true)) ∧
  (∀ (s : State) (n : Fin 16) (w : Wait) (m f : Nat), s.stepDue n 560 = true → 552 ∈ (s.fc n).done →
    (s.keep.waits.filter fun v => v.on == .rebase n) = [w] → (∀ v ∈ s.keep.waits, v.on ≠ .turn) →
    w.live = true → w.silent = false → s.slotOf (eTarget w.e) = some (m, f) → (s.port w.e.port).d3 = false →
    Answers (.rebaseApply n) s fun t =>
      let may := s.fltState m f = w.st ∧ (s.slot m f).res = 0 ∧ s.tripped (s.flightOf m f) = false
      t.mem = s.mem ∧ t.tick = max s.tick ((s.fc n).cycTick + 560) ∧
      ((s.slot m f).rebase = false → t.keep.waits = s.keep.waits ∧ (t.slot m f).racc = (s.slot m f).racc) ∧
      ((s.slot m f).rebase = true → ¬may → t.keep.waits = s.keep.waits.erase w ∧ (t.slot m f).racc = (s.slot m f).racc ∧
        Replied w.e 0x20 [] s t) ∧
      ((s.slot m f).rebase = true → may → t.keep.waits = s.keep.waits.erase w ∧
        (t.slot m f).racc = sx 64 (ent w.e 8 8) ∧ (t.slot m f).facc = wrap64 (s.sumAcc m f - sx 64 (ent w.e 8 8)) ∧
        t.bit (Reg.LED_STAT m f) F.LED_STAT_REBASED = true ∧ ∃ res, Replied w.e 0 res s t)) ∧
  (∀ (s : State) (n : Fin 16) (f : Fin 2) (l : Nat), s.stepDue n 553 = true → s.leads n f = true → s.runs n f = true →
    s.bound n (1 - f.val) = false → (s.slotLinks n f).Nodup → l ∈ s.slotLinks n f → l / 64 = n →
    s.bit (Reg.WEAR_CFG n) F.WEAR_CFG_DIV = false → Answers (.wearPass n) s fun t =>
      let c := nbits (s.cdesc l 0) 24 8 % 8
      t.mem = s.mem ∧ t.tick = max s.tick ((s.fc n).cycTick + 552) ∧
      (t.wear l).th = (List.range 4).map fun k => wearStage ((s.wear l).th.getD k 0) (s.wearTbl n c (12 + 4 * k) 4)
        (s.wearTbl n c (28 + 4 * k) 4) (s.tcyc n) (s.wearLoss n f l c))

/-- FLT_STATE_WRITE, START_FLIGHT, STOP_FLIGHT, HOLD_FLIGHT, SET_REFERENCE and REBASE_LEDGER. A STATE of 0 to 5 written is held
for the sample instant of an FC that cycles and stands at once otherwise; 6 and 7 are ignored. An accepted flight command whose
conditions hold waits for the sample instant of a leader FC that cycles. Where the FC does not cycle the command takes effect
at once and replies OK: START takes a READY flight to RUNNING, STOP takes it to READY where AVAIL ≥ N_REQ and to BOUND
otherwise, HOLD takes it to HELD with every target of its channels at the shaper's present output, or back to RUNNING, and a
reference goes into every masked target. A rebase of a running flight waits for tick 560. -/
def Obligations.FlightStateCommandsRun : Prop :=
  (∀ (s : State) (n : Fin 16) (f : Fin 2) (code : Fin 8), Answers (.fltStateWrite n f code) s fun t =>
    t.mem = s.mem ∧ (5 < code.val → t = s) ∧
    (code.val ≤ 5 → s.cycling n = true → t = { s with slots := t.slots } ∧ t.slot n f = { s.slot n f with held := some code.val }) ∧
    (code.val ≤ 5 → s.cycling n = false → t.fltState n f = code)) ∧
  (∀ (s : State) (e : Entry) (n f : Nat), Accepted 0x33 e s → zeroes e 8 48 = true → s.slotOf (eTarget e) = some (n, f) →
    s.startFail n f = none → s.fltState n f = 2 → s.startReady n f = true → (s.port e.port).d3 = false →
    Answers (.startFlight e) s fun t =>
      t.mem = s.mem ∧
      (s.cycling n = true → t.keep.waits = s.keep.waits ++ [{ e := e, live := true, silent := false, on := .sample n, st := 2 }]) ∧
      (s.cycling n = false → t.fltState n f = 3 ∧ Replied e 0 [s.availN n f] s t)) ∧
  (∀ (s : State) (e : Entry) (n f : Nat), Accepted 0x34 e s → zeroes e 8 48 = true → s.slotOf (eTarget e) = some (n, f) →
    s.runs n f = true → (s.port e.port).d3 = false → Answers (.stopFlight e) s fun t =>
      t.mem = s.mem ∧
      (s.cycling n = true →
        t.keep.waits = s.keep.waits ++ [{ e := e, live := true, silent := false, on := .sample n, st := s.fltState n f }]) ∧
      (s.cycling n = false → t.fltState n f = (if s.nReq n f ≤ s.availN n f then 2 else 1) ∧ Replied e 0 [] s t)) ∧
  (∀ (s : State) (e : Entry) (n f : Nat), Accepted 0x35 e s → ent e 8 1 ≤ 1 → zeroes e 9 48 = true →
    s.slotOf (eTarget e) = some (n, f) → s.fltState n f = (if ent e 8 1 = 1 then 3 else 4) → (s.port e.port).d3 = false →
    Answers (.holdFlight e) s fun t =>
      t.mem = s.mem ∧
      (s.cycling n = true →
        t.keep.waits = s.keep.waits ++ [{ e := e, live := true, silent := false, on := .sample n, st := s.fltState n f }]) ∧
      (s.cycling n = false → t.fltState n f = (if ent e 8 1 = 1 then 4 else 3) ∧ Replied e 0 [] s t ∧
        (ent e 8 1 = 1 → ∀ ch : Fin 8, s.shOwner n ch = some f → t.rg (Reg.OBS_SHTGT n ch) = s.rg (Reg.OBS_SHOUT n ch)))) ∧
  (∀ (s : State) (e : Entry) (n f : Nat), Accepted 0x32 e s → ent e 8 1 ≠ 0 → zeroes e 9 12 = true → zeroes e 44 48 = true →
    s.slotOf (eTarget e) = some (n, f) → (∀ ch : Fin 8, nbit (ent e 8 1) ch = true → s.shOwner n ch = some f) →
    s.fltState n f ≠ 4 → s.fltState n f ≠ 0 → s.fld (Reg.FC_FLT_CFG n f) F.FC_FLT_CFG_REF_SRC = 0 →
    (s.port e.port).d3 = false → Answers (.setReference e) s fun t =>
      t.mem = s.mem ∧
      (s.cycling n = true →
        t.keep.waits = s.keep.waits ++ [{ e := e, live := true, silent := false, on := .sample n, st := s.fltState n f }]) ∧
      (s.cycling n = false → Replied e 0 [s.count16 n] s t ∧ ∀ ch : Fin 8,
        t.rg (Reg.OBS_SHTGT n ch) =
          if nbit (ent e 8 1) ch then BitVec.ofNat 32 (ent e (12 + 4 * ch) 4) else s.rg (Reg.OBS_SHTGT n ch))) ∧
  (∀ (s : State) (e : Entry) (n f : Nat), Accepted 0x92 e s → zeroes e 16 48 = true → s.slotOf (eTarget e) = some (n, f) →
    s.runs n f = true → Answers (.rebaseLedger e) s fun t =>
      t.mem = s.mem ∧ t.regs = s.regs ∧
      t.keep.waits = s.keep.waits ++ [{ e := e, live := true, silent := false, on := .rebase n, st := s.fltState n f }])

/-- BIND_FLIGHT and UNBIND_FLIGHT. An accepted descriptor for one FC that stands and passes the checks of R69 fills its slot:
BOUND, the flight's number, first lane, lane count and N_REQ stand, RUN is set with the descriptor's cycle length, the flight
is BOUND at once and the command replies OK. On an FC that cycles with the descriptor's values, the configuration registers are
held for the sample instant, for which the command waits. A descriptor for two or four FCs that stand binds all of them, the
others as followers of the leader, which runs. UNBIND_FLIGHT of a BOUND, READY or TRIPPED flight on an FC that does not cycle
frees the slot: BOUND and N_REQ are 0, with KEEP = 0 its lanes are OFF, and it replies OK; on an FC that cycles it waits for
the sample instant. -/
def Obligations.BindingsAreMadeAndEnded : Prop :=
  (∀ (s : State) (e : Entry),
    let d := fltDesc e
    Accepted 0x10 e s → d.formOk e = true → d.gang = 1 → s.bindBad d = false → s.bindConflict d = false →
    s.follower d.ld = false → (s.port e.port).d3 = false → s.runOn d.ld = false → s.cycling d.ld = false →
    Answers (.bindFlight e) s fun t =>
      t.mem = s.mem ∧ t.bound d.ld d.slot = true ∧ t.flightOf d.ld d.slot = d.flight ∧
      t.fld (Reg.FC_FLT_CFG d.ld d.slot) F.FC_FLT_CFG_FIRST_LANE = d.first ∧
      t.fld (Reg.FC_FLT_CFG d.ld d.slot) F.FC_FLT_CFG_COUNT = d.cnt ∧ t.nReq d.ld d.slot = d.nreq ∧
      t.bit (Reg.FC_CYC_CTRL d.ld) F.FC_CYC_CTRL_RUN = true ∧
      t.fld (Reg.FC_CYC_LEN d.ld) F.FC_CYC_LEN_LEN = d.len ∧ t.fltState d.ld d.slot = 1 ∧ Replied e 0 [] s t) ∧
  (∀ (s : State) (e : Entry),
    let d := fltDesc e
    Accepted 0x10 e s → d.formOk e = true → d.gang = 1 → s.bindBad d = false → s.bindConflict d = false →
    s.runOn d.ld = true → s.cycling d.ld = true → s.cycVals d.ld = (d.len, d.phase, d.lat) →
    let st := s.fltState d.ld d.slot
    Answers (.bindFlight e) s fun t =>
      t.mem = s.mem ∧
      (t.fc d.ld).writes = (s.fc d.ld).writes ++
        [(Reg.FC_FLT_CFG d.ld d.slot, BitVec.ofNat 32 (d.flight + 32 + 256 * d.first + 65536 * d.cnt + 2 ^ 24 * d.refsrc)),
         (Reg.FC_FLT_REQ d.ld d.slot, BitVec.ofNat 32 d.nreq), (Reg.FC_HUB_MASK d.ld d.slot, BitVec.ofNat 32 d.hub)] ∧
      t.keep.waits =
        s.keep.waits.erase (nowWait e st) ++ [{ e := e, live := true, silent := false, on := .sample d.ld, st := st }]) ∧
  (∀ (s : State) (e : Entry),
    let d := fltDesc e
    Accepted 0x10 e s → d.formOk e = true → d.gang ≠ 1 → s.bindBad d = false → s.bindConflict d = false →
    (∀ m ∈ d.fcs, s.follower m = false ∧ s.runOn m = false ∧ s.cycling m = false) → (s.port e.port).d3 = false →
    Answers (.bindFlight e) s fun t =>
      t.mem = s.mem ∧ (∀ m ∈ d.fcs, t.bound m 0 = true ∧ t.flightOf m 0 = d.flight) ∧
      (∀ m ∈ d.fcs, m ≠ d.ld → t.follower m = true ∧ t.leader m = d.ld) ∧
      t.bit (Reg.FC_CYC_CTRL d.ld) F.FC_CYC_CTRL_RUN = true ∧ t.fltState d.ld 0 = 1 ∧ Replied e 0 [] s t) ∧
  (∀ (s : State) (e : Entry) (n f : Nat), Accepted 0x11 e s → ent e 8 1 ≤ 1 → zeroes e 9 48 = true →
    s.slotOf (eTarget e) = some (n, f) → s.fltState n f = 1 ∨ s.fltState n f = 2 ∨ s.fltState n f = 5 →
    (s.port e.port).d3 = false → Answers (.unbindFlight e) s fun t =>
      t.mem = s.mem ∧
      (s.cycling n = true →
        t.keep.waits = s.keep.waits ++ [{ e := e, live := true, silent := false, on := .sample n, st := s.fltState n f }]) ∧
      (s.cycling n = false → t.bound n f = false ∧ t.nReq n f = 0 ∧ Replied e 0 [] s t ∧
        (ent e 8 1 = 0 → ∀ l ∈ s.slotLinks n f, t.laneState l = 0)))

/-- SET_CELL_MAP, SET_CELL_PARAMS, BYPASS_CELL, LOAD_OBSERVER, SWAP_COEFF and BAD_OPCODE. Legal descriptors for unclaimed
lanes, none above a locked VCAP_OV, stand in their eight words and the command replies OK. Legal parameters of a present cell,
on an FC that does not cycle, stand in the descriptor at once, and no field changes that FLAGS does not name; where the FC
cycles the command waits. A bypass of a half-bridge or full-bridge cell that may be bypassed, of a bound flight and with its
lane up, is ordered once, and waits. A legal set for a bank that may be loaded is in the bank, valid, and the command replies
OK; that of the active bank reaches the states at once, or is due for the sample instant while the FC cycles. A swap to a valid
bank is pending while the FC cycles; otherwise the other bank is active at once. An opcode that R365 does not list gets a reply
with status 0x10, and nothing but the port's queues and its registers changes. -/
def Obligations.CellAndCoefficientCommandsRun : Prop :=
  (∀ (s : State) (e : Entry) (b : List Byte),
    let l := eTarget e
    let cnt := ent e 8 2
    let d := fun i => (b.drop (32 * i)).take 32
    Accepted 0x12 e s → 1 ≤ cnt → l + cnt ≤ 1024 → eBufLen e = 32 * cnt → e.buf = some b → zeroes e 10 48 = true →
    (∀ i, i < cnt → descOk (d i) = true ∧ s.linkSlot (l + i) = none ∧
      (s.fcLocked ((l + i) / 64) = true → leAt (d i) 20 2 ≤ s.vcapOv (l + i))) →
    (s.port e.port).d3 = false → Answers (.setCellMap e) s fun t =>
      t.mem = s.mem ∧ Replied e 0 [] s t ∧ ∀ i, i < cnt → ∀ w : Fin 8,
        t.rg (Reg.FC_CDESC ((l + i) / 64) ((l + i) % 64) w) = BitVec.ofNat 32 (leAt (d i) (4 * w) 4)) ∧
  (∀ (s : State) (e : Entry),
    let l := eTarget e
    let fl := ent e 8 1
    Accepted 0x13 e s → 1 ≤ fl → fl ≤ 7 → s.cellType l ≠ 0 → ent e 9 1 ≤ (if nbit fl 0 then 7 else 0) →
    nbit fl 1 = true ∨ ent e 12 4 = 0 → nbit fl 2 = true ∨ ent e 16 2 = 0 → zeroes e 10 12 = true → zeroes e 18 48 = true →
    nbit fl 2 = false ∨ s.fcLocked (l / 64) = false ∨ ent e 16 2 ≤ s.vcapOv l →
    (s.port e.port).d3 = false → Answers (.setCellParams e) s fun t =>
      t.mem = s.mem ∧
      (s.cycling (s.leader (l / 64)) = true → t.regs = s.regs ∧ t.keep.waits =
        s.keep.waits ++ [{ e := e, live := true, silent := false, on := .sample (s.leader (l / 64)), st := 0 }]) ∧
      (s.cycling (s.leader (l / 64)) = false → Replied e 0 [] s t ∧ t.cellType l = s.cellType l ∧
        nbits (t.cdesc l 0) 24 8 = (if nbit fl 0 then ent e 9 1 else nbits (s.cdesc l 0) 24 8) ∧
        t.capQ l = (if nbit fl 1 then ent e 12 4 else s.capQ l) ∧
        t.vcapOv l = if nbit fl 2 then ent e 16 2 else s.vcapOv l)) ∧
  (∀ (s : State) (e : Entry) (n f : Nat),
    let l := eTarget e
    Accepted 0x14 e s → zeroes e 8 48 = true → s.cellType l = 1 ∨ s.cellType l = 2 →
    s.decl8 l 0 = 0 ∨ nbit (s.decl8 l 28) 1 = true → s.linkFlight l = some (n, f) →
    s.fltState n f ≠ 0 → s.laneUp l = true → Answers (.bypassCell e) s fun t =>
      t.mem = s.mem ∧ t.regs = s.regs ∧
      t.lane l = (if (s.lane l).bypass then s.lane l else { s.lane l with bypass := true, bypassTick := s.tick }) ∧
      t.keep.waits = s.keep.waits ++ [{ e := e, live := true, silent := false, on := .bypass l, st := 0 }]) ∧
  (∀ (s : State) (e : Entry) (b : List Byte) (n f : Nat),
    let k := ent e 8 1
    Accepted 0x30 e s → eBufLen e = 9512 → e.buf = some b → b.length = 9512 → k ≤ 1 → zeroes e 9 48 = true →
    s.slotOf (eTarget e) = some (n, f) → s.imageOk (some (n, f)) b = true → s.fltState n f ≠ 0 →
    (s.actBank n f = k → s.fltState n f = 1) →
    (s.actBank n f ≠ k → s.bit (Reg.OBS_BANK n f) F.OBS_BANK_SWAP_PEND = false) →
    (setWhole b = true → s.bound n (1 - f) = false) → (s.port e.port).d3 = false →
    Answers (.loadObserver e) s fun t =>
      t.mem = s.mem ∧ t.bank n f k = b ∧ t.bankVal n f k = true ∧ t.actBank n f = s.actBank n f ∧ Replied e 0 [] s t ∧
      (s.actBank n f = k → s.cycling n = true → (t.slot n f).xinit = some (s.effSet n f)) ∧
      (s.actBank n f = k → s.cycling n = false → ∀ i : Fin 32, owns b f 32 i = true →
        tget 0 (t.fc n).obsX i = imgI b (160 + 4 * i) 4)) ∧
  (∀ (s : State) (e : Entry) (n f : Nat), Accepted 0x31 e s → ent e 8 1 ≤ 1 → zeroes e 9 48 = true →
    s.slotOf (eTarget e) = some (n, f) → s.fltState n f ≠ 0 → s.bankVal n f (1 - s.actBank n f) = true →
    s.bit (Reg.OBS_BANK n f) F.OBS_BANK_SWAP_PEND = false → (s.port e.port).d3 = false → Answers (.swapCoeff e) s fun t =>
      t.mem = s.mem ∧
      (s.cycling n = true → t.bit (Reg.OBS_BANK n f) F.OBS_BANK_SWAP_PEND = true ∧ t.actBank n f = s.actBank n f ∧
        t.keep.waits = s.keep.waits ++ [{ e := e, live := true, silent := false, on := .sample n, st := s.fltState n f }]) ∧
      (s.cycling n = false → t.actBank n f = 1 - s.actBank n f ∧ t.bit (Reg.OBS_BANK n f) F.OBS_BANK_SWAP_PEND = false ∧
        ∃ res, Replied e 0 res s t)) ∧
  (∀ (s : State) (e : Entry), opInfo (eOp e) = none → s.dev ≠ 0 ∨ s.keep.romReady = true → s.pwr.inReset = false →
    s.dev = 4 ∨ s.keeperOn = true → (s.port e.port).d3 = false →
    Answers (.badOpcode e) s fun t =>
      t = { s with regs := t.regs, ports := t.ports } ∧ Replied e 0x10 [] s t)

/-- SCRUB_GO, SCRUB_RANGE, SCRUB_GRANULE, SCRUB_SLICE, SCRUB_DONE, CAP_COPY, IMAGE_FILL and IMAGE_FILL_DONE. (1) GO with a
legal range while no scrub runs starts one; otherwise SCRUB_REFUSED is set and no scrub changes. (2) A legal SCRUB_RANGE starts
its scrub and waits for the end. (3) A granule step counts one granule; without an error it counts nothing else and changes no
memory; with write-back it clears the error of every correctable byte of its granule. (4) A due slice starts its scrub, or
waits while one runs. (5) At the end of a scrub the result registers hold its counts; of a commanded one the record goes to the
host's buffer and the command replies with them. (6) A copy to an open image window moves the eight bytes and the tag; to a
closed one it sets IMG_REFUSED. (7) A fill of an open window's memory runs until its tick, and then every byte of that memory,
and no other byte, reads 0. -/
def Obligations.ScrubsAndImageCommandsRun : Prop :=
  (∀ (s : State) (wb : Bool),
    let mid := s.fld Reg.MEM_SCRUB_MID F.MEM_SCRUB_MID_MID
    let off := s.rn Reg.MEM_SCRUB_OFF
    let len := s.rn Reg.MEM_SCRUB_LEN
    Answers (.scrubGo wb) s fun t =>
      t = { s with regs := t.regs, scrub := t.scrub } ∧
      (s.scrubBusy = false → scrubRangeOk mid off len = true → t.scrubBusy = true ∧
        ∃ x, t.scrub = some x ∧ x.mid = mid ∧ x.off = off ∧ x.len = len ∧ x.wb = wb ∧ x.slice = false ∧ x.done = 0) ∧
      (s.scrubBusy = true ∨ scrubRangeOk mid off len = false →
        t.scrub = s.scrub ∧ t.bit Reg.MEM_SCRUB_CTRL F.MEM_SCRUB_CTRL_SCRUB_REFUSED = true)) ∧
  (∀ (s : State) (e : Entry), Accepted 0x70 e s → eBufLen e = 64 → eTarget e < 65536 → eTarget e % 256 ≠ 4 →
    scrubRangeOk (eTarget e) (ent e 8 4) (ent e 12 4) = true → ent e 16 1 ≤ 1 → zeroes e 17 48 = true → s.scrubBusy = false →
    Answers (.scrubRange e) s fun t =>
      t.mem = s.mem ∧ t.scrubBusy = true ∧
      (∃ x, t.scrub = some x ∧ x.mid = eTarget e ∧ x.off = ent e 8 4 ∧ x.len = ent e 12 4 ∧ x.wb = (ent e 16 1 == 1)) ∧
      t.keep.waits = s.keep.waits ++ [{ e := e, live := true, silent := false, on := .scrub, st := 0 }]) ∧
  (∀ (s : State) (x : ScrubSt) (gb nb k : Nat), s.scrub = some x → scrubGeom x.mid = some (gb, nb, k) → x.done < x.total →
    let key := fun b => scrubKey x.mid ((x.off + gb * x.done) / gb) b
    Answers .scrubGranule s fun t =>
      t.mem = s.mem ∧ ∃ y, t.scrub = some y ∧ y.done = x.done + 1 ∧
      ((∀ b, b < nb → tget 0 s.ecc (key b) = 0) → y.ce = x.ce ∧ y.ue = x.ue ∧ t.ecc = s.ecc) ∧
      ((∀ b, b < nb → tget 0 s.ecc (key b) ≤ 1) → x.wb = true → y.ue = x.ue ∧ ∀ b, b < nb → tget 0 t.ecc (key b) = 0)) ∧
  (∀ s : State, s.fwRuns = true → s.keep.slice < scrubSlices → Answers .scrubSlice s fun t =>
    t.mem = s.mem ∧ t.tick = max s.tick s.keep.sliceDue ∧
    (s.scrubBusy = true → t.keep.sliceWait = true ∧ t.scrub = s.scrub) ∧
    (s.scrubBusy = false → t.scrubBusy = true ∧ t.keep.sliceWait = false ∧
      ∃ x, t.scrub = some x ∧ (x.mid, x.off, x.len) = scrubSlice s.keep.slice ∧ x.slice = true)) ∧
  (∀ (s : State) (x : ScrubSt), s.scrub = some x → x.total ≤ x.done → (∀ w ∈ s.keep.waits, w.on ≠ .turn) →
    (x.slice = true → x.ueKeys = []) → s.keep.sliceWait = false → Answers .scrubDone s fun t =>
      t.mem = s.mem ∧ t.scrub = none ∧ t.scrubBusy = false ∧ t.rg Reg.MEM_SCRUB_CE = BitVec.ofNat 32 x.ce ∧
      t.rg Reg.MEM_SCRUB_UE = BitVec.ofNat 32 x.ue ∧ t.rg Reg.MEM_SCRUB_GRAN = BitVec.ofNat 32 x.done ∧
      (x.slice = true → t.keep.waits = s.keep.waits ∧ t.out = s.out) ∧
      ∀ w b, x.slice = false → s.keep.waits.find? (fun w => w.on == .scrub) = some w → w.live = true → w.e.buf = some b →
        (s.port w.e.port).d3 = false →
        t.out = .wr w.e.port (eBufAddr w.e) (x.record (s.atTick x.next).ts) :: s.out ∧ t.keep.waits = s.keep.waits.erase w ∧
        Replied w.e 0 [x.ce, x.ue, x.fix, x.done] s t) ∧
  (∀ (s : State) (v : Word),
    let p := fget v F.MEM_IMG_CDST_PAIR
    let src := dtcm 20 (s.fld Reg.MEM_IMG_CSRC F.MEM_IMG_CSRC_OFFSET / 8 * 8)
    let dst := dtcm p (fget v F.MEM_IMG_CDST_OFFSET / 8 * 8)
    Answers (.capCopy v) s fun t =>
      (s.imgOpen p = true → s.ecc = [] → t.rdBytes dst 8 = s.rdBytes src 8 ∧ t.tagOf (dst / 8) = s.tagOf (src / 8) ∧
        ∀ a, a < dst ∨ dst + 8 ≤ a → t.rdByte a = s.rdByte a) ∧
      (s.imgOpen p = false → t.mem = s.mem ∧ t.tags = s.tags ∧ t.bit Reg.MEM_STAT F.MEM_STAT_IMG_REFUSED = true)) ∧
  (∀ (s : State) (v : Word),
    let p := fget v F.MEM_IMG_FILL_PAIR
    let m := fget v F.MEM_IMG_FILL_MEM
    Answers (.imageFill v) s fun t =>
      t = { s with regs := t.regs, imgFill := t.imgFill } ∧
      (s.imgFill = none → s.imgOpen p = true → m ≠ 3 →
        t.imgFill = some (p, m, s.tick + (fillMem p m).2 / 8) ∧ t.bit Reg.MEM_IMG_FILL F.MEM_IMG_FILL_BUSY = true) ∧
      (s.imgFill ≠ none ∨ s.imgOpen p = false ∨ m = 3 →
        t.imgFill = s.imgFill ∧ t.bit Reg.MEM_STAT F.MEM_STAT_IMG_REFUSED = true)) ∧
  (∀ (s : State) (p m u : Nat), s.imgFill = some (p, m, u) → Answers .imageFillDone s fun t =>
    let k := (fillMem p m).1
    let n := (fillMem p m).2
    t.imgFill = none ∧ t.tick = max s.tick u ∧ t.bit Reg.MEM_IMG_FILL F.MEM_IMG_FILL_BUSY = false ∧
    (∀ a, k ≤ a → a < k + n → t.rdByte a = 0) ∧ ∀ a, a < k ∨ k + n ≤ a → t.rdByte a = s.rdByte a)

/-- SQ_DOORBELL, CQ_DOORBELL, ENTRY_FETCH, REPLY_WRITE, KINPOP, KOUTPUSH and MSIX_UNMASK. (1) A doorbell value below the
queue's size stands in its register; any other sets the queue's doorbell error and the register keeps its value. (2) The next
entry of the queue that round-robin serves goes to the inbox of a port that can send, with the head one further and the port's
line of KP pending; a failed fetch disables the queue with FETCH_ERR. (3) A reply whose ring has room goes out at the tail's
slot, then the tail's write-back. (4) KINPOP removes the oldest inbox entry and changes nothing else. (5) A pushed reply is
queued, or refused by a full outbox. (6) An unmasked vector sends its pending message where the port can send. -/
def Obligations.HostQueuesMoveEntriesAndReplies : Prop :=
  (∀ (s : State) (p : Fin 2) (q : Fin 8) (v : Half), Answers (.sqDoorbell p q v) s fun t =>
    t.mem = s.mem ∧
    (v.toNat < s.sqSize p q → t = { s with regs := t.regs } ∧ SameRegs [Reg.HIF_SQTDB p q] s t ∧
      t.rg (Reg.HIF_SQTDB p q) = BitVec.ofNat 32 v.toNat) ∧
    (s.sqSize p q ≤ v.toNat → t.bit (Reg.HIF_QSTAT p q) F.HIF_QSTAT_SQ_DB_ERR = true ∧
      t.rg (Reg.HIF_SQTDB p q) = s.rg (Reg.HIF_SQTDB p q))) ∧
  (∀ (s : State) (p : Fin 2) (q : Fin 8) (v : Half), Answers (.cqDoorbell p q v) s fun t =>
    t.mem = s.mem ∧
    (v.toNat < s.cqSize p q → t = { s with regs := t.regs } ∧ SameRegs [Reg.HIF_CQHDB p q] s t ∧
      t.rg (Reg.HIF_CQHDB p q) = BitVec.ofNat 32 v.toNat) ∧
    (s.cqSize p q ≤ v.toNat → t.bit (Reg.HIF_QSTAT p q) F.HIF_QSTAT_CQ_DB_ERR = true ∧
      t.rg (Reg.HIF_CQHDB p q) = s.rg (Reg.HIF_CQHDB p q))) ∧
  (∀ (s : State) (p : Fin 2) (q : Nat) (b : Option (List Byte)), s.nextQueue p = some q → s.portOk p = true →
    (s.port p).inbox.length < 32 → Answers (.entryFetch p b) s fun t =>
      t.mem = s.mem ∧
      (∀ l, b = some l → (t.port p).inbox = (s.port p).inbox ++ [(q, fit64 l)] ∧ (tget 0 t.irq 20).getLsbD p = true ∧
        t.rg (Reg.HIF_SQHEAD p q) =
          BitVec.ofNat 32 ((s.fld (Reg.HIF_SQHEAD p q) F.HIF_SQHEAD_HEAD + 1) % s.sqSize p q)) ∧
      (b = none → (t.port p).inbox = (s.port p).inbox ∧ t.sqOn p q = false ∧
        t.bit (Reg.HIF_QSTAT p q) F.HIF_QSTAT_FETCH_ERR = true)) ∧
  (∀ (s : State) (p : Fin 2) (r : Reply), s.nextReply p = some r → s.portOk p = true →
    let u := s.cqTail p r.cq
    let nt := (u + 1) % s.cqSize p r.cq
    Answers (.replyWrite p) s fun t =>
      t.mem = s.mem ∧ (t.port p).outbox = (s.port p).outbox.erase r ∧
      (s.bit (Reg.HIF_CQCFG p r.cq) F.HIF_CQCFG_IRQ_EN = false →
        t.out = .wr p (s.r64 (Reg.HIF_CQTWB_LO p r.cq)) (leBytes 4 nt) ::
          .wr p (s.r64 (Reg.HIF_CQBASE_LO p r.cq) + 32 * u) r.bytes :: s.out) ∧
      t.rg (Reg.HIF_CQTAIL p r.cq) = BitVec.ofNat 32 nt) ∧
  (∀ (s : State) (p : Fin 2), Answers (.kinpop p) s fun t =>
    t = { s with ports := t.ports } ∧ t.port p = { s.port p with inbox := (s.port p).inbox.drop 1 } ∧
      ∀ k, k ≠ p.val → t.port k = s.port k) ∧
  (∀ (s : State) (p : Fin 2) (cq : Fin 8), (s.port p).d3 = false → Answers (.koutpush p cq) s fun t =>
    t = { s with regs := t.regs, ports := t.ports } ∧
    ((s.port p).outbox.length < 32 → (t.port p).outbox = (s.port p).outbox ++ [s.outSlot p cq]) ∧
    (32 ≤ (s.port p).outbox.length → t.ports = s.ports ∧ t.bit (Reg.HIF_KOUTSTAT p) F.HIF_KOUTSTAT_PUSH_REFUSED = true)) ∧
  (∀ (s : State) (p : Fin 2) (v : Fin 64), Answers (.msixUnmask p v) s fun t =>
    t = { s with ports := t.ports, out := t.out } ∧ t.vecMasked p v = false ∧
    (nbit (s.port p).pba v = true → s.portOk p = true → (s.port p).fmask = false →
      t.out = .msi p v :: s.out ∧ nbit (t.port p).pba v = false) ∧
    (nbit (s.port p).pba v = false → t.out = s.out))

/-- HB_WRITE, HB_LAPSE, HOST_LOSS_STOP, BAR2_WRITE, BAR0_BAD_ACCESS, PORT_RESET, D3HOT_ENTRY and LINK_UP. (1) A heartbeat
stands in its register, dates the port and ends its lapse. (2) HB_TIMEOUT after the last heartbeat the port has lapsed, the
other port's PEER_LAPSED notice stands, and a lapsed owner of a running device starts the host-loss policy. (3) HOST_LOSS_HOLD
later, with no flight of the mask RUNNING, every pulse-width pair is disabled and every HELD flight of the mask has a stop
waiting. (4) A BAR2 write and a malformed BAR0 write set BAD_ACCESS and nothing else; a malformed read changes nothing. (5) A
port's reset empties its inbox, outbox, message table and streams, disables its submission queues and ends the replies of its
commands; the link stays up only for FLR and D3hot exit. (6) D3hot discards the replies that wait. (7) LINK_UP outside a reset
brings the link up with the Bus Master Enable given. -/
def Obligations.PortsHeartbeatsAndResetsAct : Prop :=
  (∀ (s : State) (p : Fin 2) (v : Word), Answers (.hbWrite p v) s fun t =>
    t.mem = s.mem ∧ t.rg (Reg.HIF_HB p) = v ∧ (t.port p).hb = some s.tick ∧ t.lapsed p = false ∧
      (s.owner = p.val + 1 → t.keep.loss = none)) ∧
  (∀ (s : State) (p : Fin 2) (u : Nat), (s.port p).hb = some u → s.lapsed p = false → Answers (.hbLapse p) s fun t =>
    t.mem = s.mem ∧ t.tick = max s.tick (u + s.hbTimeout * 800000) ∧ t.lapsed p = true ∧
    t.bit (Reg.HIF_NOTESTAT (1 - p.val)) F.HIF_NOTESTAT_PEER_LAPSED = true ∧
    (s.owner = p.val + 1 → s.fwRuns = true → t.keep.loss.isSome = true)) ∧
  (∀ (s : State) (m u : Nat), s.keep.loss = some (m, u) → s.fwRuns = true → (∀ fl ∈ s.flightsIn 3, nbit m fl = false) →
    Answers .hostLossStop s fun t =>
      t.mem = s.mem ∧ t.tick = max s.tick (u + s.cfgVal 2 2 100 * 800000) ∧ t.keep.loss = none ∧
      (∀ k : Fin 32, t.bit (Reg.PWM_CTRL k) F.PWM_CTRL_EN = false) ∧
      ∀ fl ∈ s.flightsIn 4, nbit m fl = true → ∃ w ∈ t.keep.waits, eOp w.e = 0x34 ∧ eTarget w.e = fl ∧ w.silent = true) ∧
  (∀ (s : State), (s.keep.loss = none ∨ s.fwRuns = false ∨
      ∃ m u fl, s.keep.loss = some (m, u) ∧ fl ∈ s.flightsIn 3 ∧ nbit m fl = true) → Answers .hostLossStop s fun t => t = s) ∧
  (∀ (s : State) (p : Fin 2) (i : Instr), i = .bar2Write p ∨ i = .bar0BadAccess p true → Answers i s fun t =>
    t = { s with regs := t.regs } ∧ SameRegs [Reg.HIF_STAT p] s t ∧ t.bit (Reg.HIF_STAT p) F.HIF_STAT_BAD_ACCESS = true) ∧
  (∀ (s : State) (p : Fin 2), Answers (.bar0BadAccess p false) s fun t => t = s) ∧
  (∀ (s : State) (p : Fin 2) (kind : Fin 4), Answers (.portReset p kind) s fun t =>
    t.mem = s.mem ∧ (t.port p).inbox = [] ∧ (t.port p).outbox = [] ∧ (t.port p).msix = [] ∧ (t.port p).streams = [] ∧
    (t.port p).bme = false ∧ (t.port p).up = ((s.port p).up && decide (2 ≤ kind.val)) ∧ (∀ q : Fin 8, t.sqOn p q = false) ∧
    (∀ w ∈ t.keep.waits, w.e.port = p → w.silent = false → w.live = false) ∧ ∀ k, k ≠ p.val → t.port k = s.port k) ∧
  (∀ (s : State) (p : Fin 2), Answers (.d3hotEntry p) s fun t =>
    t = { s with regs := t.regs, ports := t.ports } ∧ (t.port p).d3 = true ∧ (t.port p).outbox = []) ∧
  (∀ (s : State) (p : Fin 2) (rate width : Fin 8) (bme : Bool), s.pwr.inReset = false → Answers (.linkUp p rate width bme) s fun t =>
    t.mem = s.mem ∧ (t.port p).up = true ∧ (t.port p).bme = bme ∧ p.val ∉ t.pwr.train)

/-- MISMATCH, RESTART_DONE, CUFF_FAULT, CUFF_TEST, GLV_FORCE, WATCHDOG_STAGE2 and FW_HALT. (1) A mismatch of a running pair
with fewer than two others in the last second begins a restart: STATE is RESTART, the time stamp is kept, and the stores not
yet released are dropped; with two or more the pair fails with cause 1. (2) A restart ends 304 to 320 ticks after its mismatch
(the number of ticks is free between these bounds): the register image is the checkpoint's, CYCLE aside, and a store of the
undo log is undone byte for byte. A mismatch forced meanwhile follows. An uncorrectable checkpoint store makes it a pair reset,
for KP SAFE_HALT. The queue entries that waited for the Keeper pair are taken then (keeperBack, no change where there is none).
(3) A cuff fault fails a pair of a flight controller or an OP pair with cause 2. (4) The background test moves on by 6 path
groups every 10 ms, and a failed checker fails its pair with cause 3. (5) GLV_FORCE makes a mismatch on path group 47, one tick
later. (6) The second stage of a watchdog resets the pair, or for KP enters SAFE_HALT. (7) A firmware halt records its cause,
makes source 168 active and enters SAFE_HALT. -/
def Obligations.MismatchesRestartAndFailPairs : Prop :=
  (∀ (s : State) (p : Fin 21) (path : Fin 48), s.glvState p = 0 →
    let n := ((s.core p).mism.filter fun u => decide (s.tick ≤ u + 800000000)).length
    Answers (.mismatch p path) s fun t =>
      t.mem = s.mem ∧ t.tick = s.tick ∧ t.bit (Reg.GLV_STAT p) F.GLV_STAT_MISMATCH = true ∧
      t.r64 (Reg.GLV_MTS_LO p) = s.ts % 2 ^ 64 ∧ t.fld (Reg.GLV_MISM p) F.GLV_MISM_PATH = path.val ∧
      (n < 2 → t.glvState p = 1 ∧ (t.core p).restart = some s.tick ∧ (t.core p).sb = (s.core p).sb.filter (·.old) ∧
        ∀ q, q ≠ p.val → t.core q = s.core q) ∧
      (2 ≤ n → t.glvState p = 2 ∧ t.fld (Reg.GLV_STAT p) F.GLV_STAT_FAIL_CAUSE = 1 ∧ (t.core p).restart = none)) ∧
  (∀ (s : State) (p : Fin 21) (u : Nat), (s.core p).restart = some u →
    ∃ t : State, exec (.restartDone p) s = .next t.keeperBack ∧ ((∀ w ∈ t.keep.waits, w.on ≠ .keeper) → t.keeperBack = t) ∧
      (s.ckptBad p = none → (s.core p).forced = false →
        max s.tick (u + 304) ≤ t.tick ∧ t.tick ≤ max s.tick (u + 320) ∧ t.glvState p = (if (s.core p).halt then 3 else 0) ∧
        (t.core p).restart = none ∧ (t.core p).undo = [] ∧ (t.core p).inLong = false ∧ (t.core p).inWfi = false ∧
        (t.core p).img = { (s.core p).ck with cycBase := t.tick - ((s.core p).ckTick - (s.core p).ck.cycBase) } ∧
        (t.core p).ck = (t.core p).img ∧ t.keep.waits = s.keep.waits ∧
        ((s.core p).undo = [] → t.mem = s.mem) ∧
        ∀ e, (s.core p).undo = [e] →
          (∀ i, i < 8 → nbit e.mask i = true → t.rdByte (8 * e.g + i) = e.bytes.getD i 0) ∧ t.tagOf e.g = e.tag ∧
          ∀ a, a / 8 ≠ e.g → t.rdByte a = s.rdByte a) ∧
      (s.ckptBad p = none → (s.core p).forced = true → (s.core p).halt = false → t.fld (Reg.GLV_MISM p) F.GLV_MISM_PATH = 47) ∧
      ∀ k, s.ckptBad p = some k → t.tick = s.tick ∧ t.glvState p = 3 ∧ (t.core p).restart = none ∧
        (p.val < 20 → (t.core p).reset = some s.tick) ∧ (p.val = 20 → t.dev = 4)) ∧
  (∀ (s : State) (p : Fin 21), s.glvState p ≠ 2 → Answers (.cuffFault p) s fun t =>
    t.mem = s.mem ∧ t.tick = s.tick ∧ t.glvState p = 2 ∧ t.fld (Reg.GLV_STAT p) F.GLV_STAT_FAIL_CAUSE = 2 ∧
    t.bit (Reg.GLV_STAT p) F.GLV_STAT_CUFF_FAULT = true ∧ (p.val = 20 → t.dev = 4)) ∧
  (∀ s : State, Answers (.cuffTest []) s fun t =>
    t = { s with regs := t.regs, tick := t.tick, ts := t.ts } ∧ t.tick = (s.tick / 8000000 + 1) * 8000000 ∧
    t.fld Reg.GLV_BGPOS F.GLV_BGPOS_NEXT = (s.fld Reg.GLV_BGPOS F.GLV_BGPOS_NEXT + 6) % 48 ∧ SameRegs [Reg.GLV_BGPOS] s t) ∧
  (∀ (s : State) (p : Fin 21) (k : Fin 6), s.glvState p ≠ 2 → Answers (.cuffTest [(p, k)]) s fun t =>
    t.mem = s.mem ∧ t.glvState p = 2 ∧ t.fld (Reg.GLV_STAT p) F.GLV_STAT_FAIL_CAUSE = 3 ∧
    t.bit (Reg.GLV_STAT p) F.GLV_STAT_TEST_FAIL = true) ∧
  (∀ (s : State) (p : Fin 21), Answers (.glvForce p) s fun t =>
    t.mem = s.mem ∧
    (s.glvState p = 0 → t.tick = s.tick + 1 ∧ t.fld (Reg.GLV_MISM p) F.GLV_MISM_PATH = 47 ∧
      (t.glvState p = 1 ∨ t.glvState p = 2)) ∧
    (s.glvState p = 1 → t = { s with cores := t.cores } ∧ (t.core p).forced = true) ∧
    (2 ≤ s.glvState p → t = s)) ∧
  (∀ (s : State) (p : Fin 21), s.wdRuns p = true → s.bit (Reg.GLV_WDKICK p) F.GLV_WDKICK_STAGE1 = true →
    Answers (.watchdogStage2 p) s fun t =>
      t.tick = max s.tick ((s.core p).kick + s.wdPeriod p + s.wdGrace p) ∧
      (p.val < 20 → t.glvState p = 3 ∧ (t.core p).reset = some t.tick ∧ (t.core p).restart = none) ∧
      (p.val = 20 → t.mem = s.mem ∧ t.dev = 4)) ∧
  (∀ (s : State) (cause k : Byte), Answers (.fwHalt cause k) s fun t =>
    t.mem = s.mem ∧ t.tick = s.tick ∧ t.dev = 4 ∧ t.srcActive 168 = true ∧ t.bit Reg.GLV_HALT F.GLV_HALT_HALT = true ∧
    t.fld Reg.GLV_HALT F.GLV_HALT_CAUSE = cause.toNat)

/-- DEBUG_HALT, DBG_HALT, DBG_STEP, PAIR_RESET_DONE, RELEASE, RECALL and WDKICK. (1) A debug halt of a pair that is not failed
or restarting halts it, at once unless a custom instruction is in progress, which ends first; its end lets a released pair run;
a failed or restarting pair ignores it. Entries that waited for the Keeper pair are taken then. (2) STEP lets one instruction
execute in a released pair that a debug halt stops, and changes nothing else. (3) A pair reset ends within 64 ticks (the number
is free) with the pair at the state of R271. (4) RELEASE starts each pair named that may be released and that no load waits for
at that state; every other pair is as before. (5) RECALL halts each released pair named that has not failed, with its store
buffer drained. (6) 0xA5 after 0x5A kicks the watchdog; nothing else does. -/
def Obligations.PairsHaltReleaseRecallAndReset : Prop :=
  (∀ (s : State) (p : Fin 21) (on : Bool), ∃ t : State, exec (.debugHalt p on) s = .next t.keeperBack ∧
    (∀ n : Fin 16, n.val = p.val → exec (.dbgHalt n on) s = .next t) ∧ ((∀ w ∈ t.keep.waits, w.on ≠ .keeper) → t.keeperBack = t) ∧
    (s.glvState p = 1 ∨ s.glvState p = 2 → t = s) ∧
    (s.glvState p ≠ 1 → s.glvState p ≠ 2 →
      t = { s with regs := t.regs, cores := t.cores } ∧ (t.core p).halt = on ∧ (t.core p).img = (s.core p).img ∧
      (on = true → t.glvState p = (if s.glvState p = 0 ∧ (s.core p).img.micro.isSome = true then 0 else 3)) ∧
      (on = false → t.glvState p = (if s.started p then 0 else s.glvState p)) ∧
      (p.val < 16 → t.bit (Reg.GLV_DBG_CTRL p) F.GLV_DBG_CTRL_HALTED =
        (on && (s.glvState p == 3 || (s.core p).img.micro.isNone))) ∧
      ∀ q, q ≠ p.val → t.core q = s.core q)) ∧
  (∀ (s : State) (n : Fin 16), Answers (.dbgStep n) s fun t =>
    t = { s with cores := t.cores } ∧
    (s.glvState n = 3 → (s.core n).halt = true → s.started n = true → t.core n = { s.core n with step := true }) ∧
    (s.glvState n ≠ 3 ∨ (s.core n).halt = false ∨ s.started n = false → t = s)) ∧
  (∀ (s : State) (p : Fin 21) (u : Nat), (s.core p).reset = some u → Answers (.pairResetDone p) s fun t =>
    t.mem = s.mem ∧ max s.tick u ≤ t.tick ∧ t.tick ≤ max s.tick (u + 64) ∧ (t.core p).reset = none ∧
    (t.core p).img = resetImg p 0 t.tick ∧ t.glvState p = (if (s.core p).halt then 3 else 0) ∧
    ∀ q, q ≠ p.val → t.core q = s.core q) ∧
  (∀ (s : State) (v : Word), Answers (.release v) s fun t =>
    t.mem = s.mem ∧ t.tick = s.tick ∧
    (∀ p : Fin 20, nbit v.toNat p = true → s.mayRelease p = true → s.loadOpen p = false →
      p.val ∈ t.rel ∧ (t.core p).img = resetImg p 0 s.tick ∧ t.glvState p = (if (s.core p).halt then 3 else 0)) ∧
    ∀ p : Fin 20, nbit v.toNat p = false ∨ s.mayRelease p = false ∨ s.loadOpen p = true → t.core p = s.core p) ∧
  (∀ (s : State) (v : Word), Answers (.recall v) s fun t =>
    t.tick = s.tick ∧
    (∀ p : Fin 20, nbit v.toNat p = true → p.val ∈ s.rel → s.glvState p ≠ 2 →
      p.val ∉ t.rel ∧ t.glvState p = 3 ∧ (t.core p).sb = [] ∧ (t.core p).restart = none) ∧
    (∀ p : Fin 20, nbit v.toNat p = false ∨ p.val ∉ s.rel ∨ s.glvState p = 2 → t.core p = s.core p) ∧
    ((∀ p : Fin 20, (s.core p).sb = []) → t.mem = s.mem)) ∧
  (∀ (s : State) (p : Fin 21) (v : Byte), Answers (.wdkick p v) s fun t =>
    t = { s with regs := t.regs, cores := t.cores } ∧ SameRegs [Reg.GLV_WDKICK p] s t ∧
    (v = 0x5A → (t.core p).kickSeq = true ∧ (t.core p).kick = (s.core p).kick ∧ t.regs = s.regs) ∧
    (v = 0xA5 → (s.core p).kickSeq = true → (t.core p).kick = s.tick ∧ t.bit (Reg.GLV_WDKICK p) F.GLV_WDKICK_STAGE1 = false) ∧
    (v ≠ 0x5A → v ≠ 0xA5 ∨ (s.core p).kickSeq = false →
      (t.core p).kickSeq = false ∧ (t.core p).kick = (s.core p).kick ∧ t.regs = s.regs))

/-- MCS_OPEN, MCS_DATA, MCS_COMMIT, MCS_ABORT and DIGEST_CHECK. (1) OPEN fails with error 6 on an open port, 1 on a bad range
and 2 on a store in use; otherwise it opens the load with nothing written and its segments invalid. (2) DATA fails with 6 on a
closed port and 5 past the last word; the last part of a word that its store accepts stores the word, and one that it does not
accept fails with 3. (3) COMMIT of a whole load starts the digest check, and of an incomplete one fails with 5. (4) ABORT ends
an open load, and changes nothing on a closed port. (5) The check ends at most 256 ticks after the commit. A matching digest
sets DONE and makes the segments valid; another digest fails the load with 4. No memory changes. -/
def Obligations.ControlStoreLoadsRun : Prop :=
  (∀ (s : State) (m : Fin 17),
    let x : McsSt :=
      { store := s.fld (Reg.MCS_SEL m) F.MCS_SEL_STORE, pair := if m.val = 16 then s.fld (Reg.MCS_SEL m) F.MCS_SEL_PAIR else 0,
        start := s.fld (Reg.MCS_SEL m) F.MCS_SEL_START, count := s.fld (Reg.MCS_COUNT m) F.MCS_COUNT_COUNT, bytes := [], check := none }
    let map := if m.val < 16 then Reg.MCS_VMAPE m x.store else Reg.MCS_VMAPP x.pair
    Answers (.mcsOpen m) s fun t =>
      t.mem = s.mem ∧ t.cs = s.cs ∧
      (s.mcsOpened m = true → t.mcsOpened m = false ∧ t.fld (Reg.MCS_STAT m) F.MCS_STAT_ERR = 6) ∧
      (s.mcsOpened m = false → mcsRangeOk m x = false →
        t.mcsOpened m = false ∧ t.fld (Reg.MCS_STAT m) F.MCS_STAT_ERR = 1) ∧
      (s.mcsOpened m = false → mcsRangeOk m x = true → s.mcsInUse m x = true →
        t.mcsOpened m = false ∧ t.fld (Reg.MCS_STAT m) F.MCS_STAT_ERR = 2) ∧
      (s.mcsOpened m = false → mcsRangeOk m x = true → s.mcsInUse m x = false →
        t.mcsOpened m = true ∧ t.mcsPort m = x ∧ t.fld (Reg.MCS_STAT m) F.MCS_STAT_WRITTEN = 0 ∧
        (m.val < 16 ∨ x.store = 0 → ∀ j, j < x.count / 64 → nbit (t.rn map) (x.start / 64 + j) = false))) ∧
  (∀ (s : State) (m : Fin 17) (v : Word),
    let x := s.mcsPort m
    let np := (mcsGeom m x.store).2
    let n := s.fld (Reg.MCS_STAT m) F.MCS_STAT_WRITTEN
    let b := x.bytes ++ leBytes 4 v.toNat
    let w := leNat (b.drop (b.length - 4 * np))
    Answers (.mcsData m v) s fun t =>
      t.mem = s.mem ∧
      (s.mcsOpened m = false → t.cs = s.cs ∧ t.fld (Reg.MCS_STAT m) F.MCS_STAT_ERR = 6) ∧
      (s.mcsOpened m = true → x.check.isSome = true ∨ x.count ≤ n →
        t.cs = s.cs ∧ t.fld (Reg.MCS_STAT m) F.MCS_STAT_ERR = 5) ∧
      (s.mcsOpened m = true → x.check = none → n < x.count → b.length % (4 * np) ≠ 0 →
        t = { s with mcs := t.mcs } ∧ t.mcsPort m = { x with bytes := b }) ∧
      (s.mcsOpened m = true → x.check = none → n < x.count → b.length % (4 * np) = 0 → mcsWordOk m x.store w = false →
        t.cs = s.cs ∧ t.mcsOpened m = false ∧ t.fld (Reg.MCS_STAT m) F.MCS_STAT_ERR = 3) ∧
      (s.mcsOpened m = true → x.check = none → n < x.count → x.count ≤ 2048 → b.length % (4 * np) = 0 →
        mcsWordOk m x.store w = true →
        tget 0 t.cs (mcsKey m x (x.start + n)) = w ∧ (∀ k, k ≠ mcsKey m x (x.start + n) → tget 0 t.cs k = tget 0 s.cs k) ∧
        t.fld (Reg.MCS_STAT m) F.MCS_STAT_WRITTEN = n + 1 ∧ SameRegs [Reg.MCS_STAT m] s t)) ∧
  (∀ (s : State) (m : Fin 17), s.mcsOpened m = true → (s.mcsPort m).check = none →
    let x := s.mcsPort m
    let whole := x.count = s.fld (Reg.MCS_STAT m) F.MCS_STAT_WRITTEN ∧ x.bytes.length % (4 * (mcsGeom m x.store).2) = 0
    Answers (.mcsCommit m) s fun t =>
      t.mem = s.mem ∧ t.cs = s.cs ∧
      (whole → t = { s with mcs := t.mcs } ∧ (t.mcsPort m).check = some s.tick) ∧
      (¬ whole → t.mcsOpened m = false ∧ t.fld (Reg.MCS_STAT m) F.MCS_STAT_ERR = 5)) ∧
  (∀ (s : State) (m : Fin 17), Answers (.mcsAbort m) s fun t =>
    t.mem = s.mem ∧ t.cs = s.cs ∧ t.mcsOpened m = false ∧ (s.mcsOpened m = false → t = s) ∧
    (m.val < 16 → SameRegs [Reg.MCS_STAT m] s t)) ∧
  (∀ (s : State) (m : Fin 17) (u : Nat), (s.mcsPort m).check = some u →
    let x := s.mcsPort m
    let map := if m.val < 16 then Reg.MCS_VMAPE m x.store else Reg.MCS_VMAPP x.pair
    Answers (.digestCheck m) s fun t =>
      t.mem = s.mem ∧ t.cs = s.cs ∧ t.mcsOpened m = false ∧ max s.tick u ≤ t.tick ∧ t.tick ≤ max s.tick (u + 256) ∧
      (sha256 x.bytes = s.mcsDigest m → t.bit (Reg.MCS_STAT m) F.MCS_STAT_DONE = true ∧
        (m.val < 16 ∨ x.store = 0 → x.start + x.count ≤ 2048 →
          ∀ j, j < x.count / 64 → nbit (t.rn map) (x.start / 64 + j) = true)) ∧
      (sha256 x.bytes ≠ s.mcsDigest m → t.bit (Reg.MCS_STAT m) F.MCS_STAT_LOAD_ERR = true ∧
        t.fld (Reg.MCS_STAT m) F.MCS_STAT_ERR = 4))

/-- WAIT, EVT and MBX: an engine that runs, does not wait and stands at a usable word of that operation. (1) WAIT with no
pending control item leaves the engine at its word, waiting for the event that its low four bits name, with the words since the
last safe point counted as none. (2) EVT raises an event of the selected lane with the word's code and the register's value,
and the engine goes on with the next word. (3) MBX of the up mailbox with a new SEQ writes the 2 tag bytes and the 32 data
bytes into the mailbox of the scratchpad and no other byte; of the down mailbox it changes no memory; the engine goes on with
the next word. EVT and MBX are stated for words that are no safe point and while fewer than 255 words have run since the last
one. The event source of EVT is the model's reading (log entry 25). -/
def Obligations.LockEngineWordsRun : Prop :=
  ∀ (s : State) (n : Fin 16) (e : Fin 8) (w : Nat), s.stalled n e = false → (s.eng n e).waits = 0 → s.runOn n = true →
    s.csWord n 0 (s.eng n e).pc = some w →
    (nbits w 19 4 = 7 → s.engItem n e = false → Answers (.wait n e) s fun t =>
      t.mem = s.mem ∧ (t.eng n e).waits = nbits w 0 4 + 1 ∧ (t.eng n e).pc = (s.eng n e).pc % 1024 ∧ (t.eng n e).run = 0) ∧
    (nbits w 19 4 = 8 → nbit w 23 = false → (s.eng n e).run < 255 → Answers (.evt n e) s fun t =>
      t.mem = s.mem ∧ (t.eng n e).pc = ((s.eng n e).pc + 1) % 1024 ∧ (t.eng n e).waits = 0 ∧
      (s.ecc = [] → s.routeOf (s.engLane n e) ≠ 0 → ∃ r : EvRec, t.hubq = s.hubq ++ [r] ∧ r.ts = s.ts ∧ r.src = s.engLane n e ∧
        r.code = nbits w 11 8 ∧ r.pay = (s.engReg n e (nbits w 6 5)).toNat)) ∧
    (nbits w 19 4 = 9 → nbit w 23 = false → (s.eng n e).run < 255 → Answers (.mbx n e) s fun t =>
      let l := s.engLane n e
      let a := mailbox (l / 64) (l % 64)
      let m := (s.lane l).upMbx
      (t.eng n e).pc = ((s.eng n e).pc + 1) % 1024 ∧
      (nbit w 0 = false → t.mem = s.mem) ∧
      (nbit w 0 = true → m.length = 34 → (s.lane l).upSeq ≠ some (leAt m 1 1) →
        t.rdBytes (a + 0x40) 2 = m.take 2 ∧ t.rdBytes (a + 0x42) 32 = m.drop 2 ∧ (t.lane l).upSeq = some (leAt m 1 1) ∧
        ∀ x, x < a + 0x40 ∨ a + 0x62 ≤ x → t.rdByte x = s.rdByte x))

/-- DMA_START, DESCRIPTOR_READ, DMA_ELEMENT, DMA_ABORT and DMA_RESUME. (1) A start of a channel that is not ACTIVE makes it
ACTIVE with PROG 0, the offset given, and its first element no earlier than 16 ticks on; an ACTIVE channel ignores it and sets
CFG_ERR. (2) The descriptor read takes the 64 bytes and the tags of both capabilities; an offset outside the region faults with
BUS, a reserved bit with ILLEGAL, both with DESC. (3) With one channel of an engine at work, an element that passes the checks,
is no FILL and moves between shared memories is copied whole and nothing else changes in memory, and PROG counts it; an element
that fails a check faults with its cause. (4) An abort of an ACTIVE channel whose element passes makes it ABORTED and changes
no memory outside the eight bytes written back; any other channel ignores it. (5) A resume in FAULTED or ABORTED reads the
descriptor again and keeps PROG; in any other state it sets CFG_ERR. -/
def Obligations.DmaChannelsRun : Prop :=
  (∀ (s : State) (c : Fin 48) (v : Word), Answers (.dmaStart c v) s fun t =>
    t = { s with regs := t.regs, dmas := t.dmas } ∧
    (s.dmaState c ≠ 1 → t.dmaState c = 1 ∧ t.dmaProg c = 0 ∧ t.rn (Reg.DMA_DOFF c) = v.toNat % 2 ^ 24 ∧ (t.dma c).reading = true ∧
      (t.dma c).doff = v.toNat % 2 ^ 24 ∧ (t.dma c).ready = s.tick + 16 ∧
      SameRegs [Reg.DMA_PROG c, Reg.DMA_DOFF c, Reg.DMA_STAT c] s t) ∧
    (s.dmaState c = 1 → t.dmas = s.dmas ∧ t.dmaState c = 1 ∧ t.bit (Reg.DMA_STAT c) F.DMA_STAT_CFG_ERR = true ∧
      SameRegs [Reg.DMA_STAT c] s t)) ∧
  (∀ (s : State) (c : Fin 48), (s.dma c).reading = true → s.dmaState c = 1 →
    let a := s.dmaDesc c
    let b := s.rdBytes a 64
    let rsv := leAt b 20 4 / 256 ≠ 0 ∨ leAt b 44 4 / 512 ≠ 0 ∨ leAt b 52 12 ≠ 0
    Answers (.descriptorRead c) s fun t =>
      (s.dmaOffOk c = false → t.mem = s.mem ∧ t.dmaState c = 3 ∧ t.fld (Reg.DMA_STAT c) F.DMA_STAT_CAUSE = 9 ∧
        t.bit (Reg.DMA_STAT c) ⟨8, 1⟩ = true) ∧
      (s.dmaOffOk c = true → s.ecc = [] → rsv → t.dmaState c = 3 ∧ t.fld (Reg.DMA_STAT c) F.DMA_STAT_CAUSE = 2 ∧
        t.bit (Reg.DMA_STAT c) ⟨8, 1⟩ = true) ∧
      (s.dmaOffOk c = true → s.ecc = [] → ¬ rsv → s.dmaProg c < leAt b 16 4 →
        t.mem = s.mem ∧ t.dmaState c = 1 ∧
        t.dma c = { s.dma c with desc := b, srcTag := s.tagOf (a / 8), dstTag := s.tagOf (a / 8 + 1), reading := false })) ∧
  (∀ (s : State) (e : Fin 17) (c : Nat), c ∈ dmaChans e → s.dmaState c = 1 → (s.dma c).reading = false →
    (∀ j ∈ dmaChans e, j ≠ c → s.dmaState j ≠ 1) →
    let x := s.dma c
    let k := s.dmaProg c
    let a := elemAddr x.src (leAt x.desc 24 4) k
    let d := elemAddr x.dst (leAt x.desc 28 4) k
    Answers (.dmaElement e) s fun t =>
      t.tick = max s.tick (max x.ready (tget 0 s.dmaFree e)) ∧
      (s.dmaChecks c = none → x.fill = false → inSharedMem a = true → inSharedMem d = true → s.ecc = [] → k + 1 < x.count →
        t.dmaState c = 1 ∧ t.dmaProg c = k + 1 ∧ t.rdBytes d x.esize = s.rdBytes a x.esize ∧
        ∀ y, y < d ∨ d + x.esize ≤ y → t.rdByte y = s.rdByte y) ∧
      (∀ f, s.dmaChecks c = some f → t.dmaState c = 3 ∧ t.dmaProg c = k ∧
        t.fld (Reg.DMA_STAT c) F.DMA_STAT_CAUSE = f.1 % 32 ∧ t.rg (Reg.DMA_FADDR c) = BitVec.ofNat 32 f.2)) ∧
  (∀ (s : State) (c : Fin 48), Answers (.dmaAbort c) s fun t =>
    (s.dmaState c ≠ 1 → t = s) ∧
    (s.dmaState c = 1 → (s.dma c).reading = true ∨ s.dmaChecks c = none →
      t.dmaState c = 4 ∧ t.bit (Reg.DMA_STAT c) F.DMA_STAT_ABORTED = true ∧ (t.dma c).reading = false ∧
      ∀ y, y < s.dmaDesc c + 40 ∨ s.dmaDesc c + 48 ≤ y → t.rdByte y = s.rdByte y)) ∧
  (∀ (s : State) (c : Fin 48), Answers (.dmaResume c) s fun t =>
    t = { s with regs := t.regs, dmas := t.dmas } ∧ SameRegs [Reg.DMA_STAT c] s t ∧
    (s.dmaState c = 3 ∨ s.dmaState c = 4 → t.dmaState c = 1 ∧ (t.dma c).reading = true ∧ (t.dma c).ready = s.tick + 16 ∧
      (t.dma c).doff = s.fld (Reg.DMA_DOFF c) F.DMA_DOFF_DOFF) ∧
    (s.dmaState c ≠ 3 → s.dmaState c ≠ 4 → t.dmas = s.dmas ∧ t.bit (Reg.DMA_STAT c) F.DMA_STAT_CFG_ERR = true))

/-- PORST, RAIL_RESET, TAP_RESET, RESET_RELEASE, OTP_READ, SELFTEST_DONE, BOOT_ROM_COPY, LINK_TRAINING_START, BOOT_ROM_READY
and PROGRAM_KEY_HASH. (1) A PORST_n pulse below 800 ticks changes nothing; from 8,000 ticks on, and a rail reset always, a
device reset begins: memory and tags are empty, the pairs stand at their reset state and every register but the levels of the
event pins reads its reset value; between the two the outcome is free. (2) TAP_RESET resets the TAP and nothing else. (3) The
release of a reset starts the boot at tick 0 with TS 0. (4) A clean OTP read sets READ_DONE, counts the spares in use, and sets
DEVMODE where no key is fused; a word in error sets UE with its number. (5) The self-tests leave their masks; a failed pair is
failed with cause 3 and TEST_FAIL; a failure of KP makes source 162 active, and with one of the shared SRAM keeps the device in
BOOT_ROM. (6) The boot ROM is copied to the top 16 KiB of KP's ITCM and KP starts there. (7) A port trains; the boot ROM takes
entries; a key hash is fused once, and clears DEVMODE. -/
def Obligations.ResetAndBootStepsRun : Prop :=
  (∀ (s : State) (len : Nat), len < 800 → Answers (.porst len) s fun t => t = s) ∧
  (∀ (s : State) (i : Instr), (∃ len, 8000 ≤ len ∧ i = .porst len) ∨ (∃ r : Fin 8, i = .railReset r) → Answers i s fun t =>
    t.pwr.inReset = true ∧ t.mem = [] ∧ t.tags = [] ∧ t.cores = State.reset.cores ∧ t.tick = State.reset.tick ∧ t.ts = State.reset.ts ∧
    t.pending = s.pending ∧
    (s.pwr.fuse = [] → ∀ a, (∀ k : Fin 32, a ≠ Reg.EVT_IOCFG k) → t.rg a = resetWord a)) ∧
  (∀ (s : State) (len : Nat), 800 ≤ len → len < 8000 → Answers (.porst len) s fun t =>
    t = { s with free := t.free } ∨ (t.pwr.inReset = true ∧ t.mem = [] ∧ t.tags = [] ∧ t.cores = State.reset.cores)) ∧
  (∀ s : State, Answers .tapReset s fun t => t = { s with pwr := { s.pwr with tapReset := true } }) ∧
  (∀ s : State, Answers .resetRelease s fun t =>
    (s.pwr.inReset = false → t = s) ∧
    (s.pwr.inReset = true → t.mem = s.mem ∧ t.pwr.inReset = false ∧ t.tick = 0 ∧ t.ts = 0)) ∧
  (∀ (s : State) (bad : List Nat), s.pwr.inReset = false → s.pwr.otpRead = false → Answers (.otpRead bad) s fun t =>
    t.mem = s.mem ∧ t.pwr.otpRead = true ∧ t.bit Reg.OTP_STAT F.OTP_STAT_READ_DONE = true ∧
    t.devMode = !(t.bit Reg.OTP_STAT F.OTP_STAT_KEY_FUSED) ∧
    t.rn Reg.MEM_REPAIR = ((List.range 1024).filter fun j =>
      !bad.contains (Reg.OTP_REPAIR j) && s.bit (Reg.OTP_REPAIR j) F.OTP_REPAIR_VALID).length ∧
    (bad = [] → t.keep.otpOk = true ∧ t.bit Reg.OTP_STAT F.OTP_STAT_UE = s.bit Reg.OTP_STAT F.OTP_STAT_UE) ∧
    (∀ a l, bad = a :: l → t.keep = s.keep ∧ t.bit Reg.OTP_STAT F.OTP_STAT_UE = true ∧
      t.fld Reg.OTP_STAT F.OTP_STAT_UE_WORD = (a - Reg.OTP_STAT) / 4 % 65536)) ∧
  (∀ (s : State) (glv pairs fcs : Word), s.pwr.inReset = false → s.pwr.tested = false →
    Answers (.selftestDone glv pairs fcs) s fun t =>
      t.mem = s.mem ∧ t.pwr.tested = true ∧ t.fld Reg.GLV_BIST F.GLV_BIST_START_PASS = glv.toNat % 2 ^ 21 ∧
      t.rg Reg.MEM_BIST_PAIR = pairs &&& 0x1FFFFF ∧ t.rg Reg.MEM_BIST_FC = fcs &&& 0x1FFFF ∧
      (∀ p : Fin 21, nbit glv.toNat p = false → t.glvState p = 2 ∧ t.fld (Reg.GLV_STAT p) F.GLV_STAT_FAIL_CAUSE = 3 ∧
        t.bit (Reg.GLV_STAT p) F.GLV_STAT_TEST_FAIL = true) ∧
      (∀ p : Fin 21, nbit glv.toNat p = true → t.glvState p = s.glvState p) ∧
      (nbit glv.toNat 20 = false → t.srcActive 162 = true) ∧ t.dev = s.dev ∧
      (nbit glv.toNat 20 = false ∨ nbit pairs.toNat 20 = false ∨ nbit fcs.toNat 16 = false →
        t.pwr.kpFail = true ∧ t.keep = { s.keep with romReady := true }) ∧
      (nbit glv.toNat 20 = true → nbit pairs.toNat 20 = true → nbit fcs.toNat 16 = true →
        t.pwr.kpFail = s.pwr.kpFail ∧ t.keep = s.keep)) ∧
  (∀ s : State, s.pwr.inReset = false → s.pwr.tested = true → s.pwr.kpFail = false → s.pwr.copied = false →
    Answers .bootRomCopy s fun t =>
      t.pwr.copied = true ∧ 20 ∈ t.rel ∧ (t.core 20).img = resetImg 20 0x3C000 s.tick ∧
      (∀ o, o < 0x4000 → t.rdByte (itcm 20 (0x3C000 + o)) = Config.bootRom o) ∧
      ∀ a, a < itcm 20 0x3C000 ∨ itcm 20 0x40000 ≤ a → t.rdByte a = s.rdByte a) ∧
  (∀ (s : State) (p : Fin 2), s.pwr.inReset = false → (s.port p).up = false → Answers (.linkTrainingStart p) s fun t =>
    t = { s with pwr := { s.pwr with train := t.pwr.train } } ∧ p.val ∈ t.pwr.train) ∧
  (∀ (s : State) (dur : Half) (ok : Bool), s.pwr.inReset = false → s.pwr.copied = true → s.keep.romReady = false →
    Answers (.bootRomReady dur ok) s fun t =>
      t = { s with pwr := { s.pwr with katFail := !ok }, keep := { s.keep with romReady := true, selftest := dur.toNat } }) ∧
  (∀ (s : State) (h : List Byte), s.dev = 0 → s.keep.romReady = true → s.pwr.inReset = false → s.pwr.kpFail = false →
    Answers (.programKeyHash h) s fun t =>
      (s.bit Reg.OTP_STAT F.OTP_STAT_KEY_FUSED = true → t = s) ∧
      (s.bit Reg.OTP_STAT F.OTP_STAT_KEY_FUSED = false →
        t.mem = s.mem ∧ t.bit Reg.OTP_STAT F.OTP_STAT_KEY_FUSED = true ∧ t.devMode = false ∧ t.pwr.tapReset = false ∧
        ∀ k : Fin 8, t.rg (Reg.OTP_KEYHASH k) = BitVec.ofNat 32 (leAt h (4 * k) 4) ∧
          tget 0 t.pwr.fuse (Reg.OTP_KEYHASH k) = BitVec.ofNat 32 (leAt h (4 * k) 4)))

/-- SAFE_RELEASE, SUPPLY_WARN, SUPPLY_RESTORED, CLK_FAULT, HOLDOVER_END, HOLDOVER_EXPIRY, SENSOR_SAMPLE and LIFE_TICK, outside
a device reset. (1) RELEASE = 1 releases SAFE_n in OPERATIONAL or LOCKED with no all-stop source active, and otherwise sets
REL_REFUSED; RELEASE = 0 drives it. (2) A rail below its warning threshold shows its reading and WARN and makes source 174
active; the last rail restored makes it inactive. (3) A clock fault enters holdover with CLK_HOLD and source 173; it ends with
the reference; 10 ms later the reference is judged, and where it is out of limits, or fails again later, the device enters
SAFE_HALT. (4) A sample updates every working sensor in range and fails the others; the second sample in a row with a maximum
of 125 °C or more trips and enters SAFE_HALT. (5) Every millisecond THM_LIFE adds the ageing factor, with its fraction kept,
and the age words stand as measured. -/
def Obligations.SafeOutputSuppliesClockAndThermalAct : Prop :=
  (∀ (s : State) (v : Word), Answers (.safeRelease v) s fun t =>
    t.mem = s.mem ∧
    (fget v F.GLV_SAFE_RELEASE = 0 → t.safeDriven = true ∧ t.bit Reg.GLV_SAFE F.GLV_SAFE_RELEASE = false) ∧
    (fget v F.GLV_SAFE_RELEASE ≠ 0 → s.dev = 2 ∨ s.dev = 3 → s.allStop = false →
      t.safeDriven = false ∧ t.bit Reg.GLV_SAFE F.GLV_SAFE_RELEASE = true) ∧
    (fget v F.GLV_SAFE_RELEASE ≠ 0 → (s.dev ≠ 2 ∧ s.dev ≠ 3) ∨ s.allStop = true →
      t = { s with regs := t.regs } ∧ t.bit Reg.GLV_SAFE F.GLV_SAFE_REL_REFUSED = true ∧ SameRegs [Reg.GLV_SAFE] s t)) ∧
  (∀ (s : State) (rail : Fin 8) (mv : Half), s.pwr.inReset = false → mv.toNat < warnMv rail →
    Answers (.supplyWarn rail mv) s fun t =>
      t.mem = s.mem ∧ t.fld (Reg.THM_VMON rail) F.THM_VMON_MV = mv.toNat ∧ t.bit (Reg.THM_VMON rail) F.THM_VMON_WARN = true ∧
      t.bit Reg.THM_STAT F.THM_STAT_SUP_WARN = true ∧ t.srcActive 174 = true) ∧
  (∀ (s : State) (rail : Fin 8) (mv : Half), s.pwr.inReset = false → warnMv rail ≤ mv.toNat →
    Answers (.supplyRestored rail mv) s fun t =>
      t.mem = s.mem ∧ t.fld (Reg.THM_VMON rail) F.THM_VMON_MV = mv.toNat ∧ t.bit (Reg.THM_VMON rail) F.THM_VMON_WARN = false ∧
      ((∀ r : Fin 8, r ≠ rail → s.bit (Reg.THM_VMON r) F.THM_VMON_WARN = false) → t.srcActive 174 = false)) ∧
  (∀ s : State, s.pwr.inReset = false → Answers .clkFault s fun t =>
    t.mem = s.mem ∧ t.tick = s.tick ∧
    (s.pwr.hold = none → t.pwr.hold = some s.tick ∧ t.pwr.holdLate = false ∧ t.bit Reg.THM_STAT F.THM_STAT_CLK_HOLD = true ∧
      t.srcActive 173 = true) ∧
    (s.pwr.hold ≠ none → s.pwr.holdLate = false → t = s) ∧
    (s.pwr.hold ≠ none → s.pwr.holdLate = true → t.dev = 4)) ∧
  (∀ s : State, Answers .holdoverEnd s fun t =>
    t.mem = s.mem ∧ (s.pwr.hold = none → t = s) ∧
    (s.pwr.hold ≠ none → t.pwr.hold = none ∧ t.bit Reg.THM_STAT F.THM_STAT_CLK_HOLD = false ∧ t.srcActive 173 = false)) ∧
  (∀ (s : State) (within : Bool) (u : Nat), s.pwr.hold = some u → s.pwr.holdLate = false →
    Answers (.holdoverExpiry within) s fun t =>
      t.mem = s.mem ∧ t.tick = max s.tick (u + 8000000) ∧ t.pwr.hold = some u ∧ t.pwr.holdLate = true ∧
      (within = true → t.regs = s.regs) ∧ (within = false → t.dev = 4)) ∧
  (∀ (s : State) (temps : List (Option Half)), s.pwr.inReset = false → Answers (.sensorSample temps) s fun t =>
    t.mem = s.mem ∧ t.tick = s.tick ∧
    (∀ (k : Fin 24) (v : Half), s.sensorFailed k = false → temps.getD k none = some v → -880 ≤ v.toInt → v.toInt ≤ 2400 →
      t.sensorFailed k = false ∧ t.fld (Reg.THM_TEMP k) F.THM_TEMP_TEMP = v.toNat) ∧
    (∀ k : Fin 24, s.sensorFailed k = false → (∀ v : Half, temps.getD k none = some v → v.toInt < -880 ∨ 2400 < v.toInt) →
      t.sensorFailed k = true ∧ t.bit Reg.THM_STAT F.THM_STAT_SENS_FAIL = true) ∧
    (∀ k : Fin 24, s.sensorFailed k = true → t.rg (Reg.THM_TEMP k) = s.rg (Reg.THM_TEMP k)) ∧
    t.pwr.hot = (if 2000 ≤ t.thmMax then s.pwr.hot + 1 else 0) ∧
    (1 ≤ s.pwr.hot → 2000 ≤ t.thmMax → s.bit Reg.THM_STAT F.THM_STAT_TRIP = false →
      t.bit Reg.THM_STAT F.THM_STAT_TRIP = true ∧ t.dev = 4)) ∧
  (∀ (s : State) (ages : List Word), s.pwr.inReset = false → Answers (.lifeTick ages) s fun t =>
    let f := s.pwr.lifeFrac + ageFactor (s.thmMax / 16)
    t.mem = s.mem ∧ t.tick = max s.tick s.pwr.lifeDue ∧ t.pwr.lifeDue = s.pwr.lifeDue + 800000 ∧ t.pwr.lifeFrac = f % 65536 ∧
    t.r64 Reg.THM_LIFE_LO = (s.r64 Reg.THM_LIFE_LO + f / 65536) % 2 ^ 64 ∧
    ∀ k : Fin 8, t.rg (Reg.THM_AGE k) = ages.getD k 0)

/-- LOAD_FW_CHUNK, AUTH_FW, START_FW and FW_STARTED, with the known-answer tests passed. (1) A chunk stands in the staging area
byte for byte and nowhere else, the device is in BOOT_ROM and the port holds the load session. (2) AUTH_FW replies AUTH_FAIL
with 1 for the format, 3 for the signature or 2 for a digest, the first that fails, and ends the session; an image that passes
all makes the device LOADED. (3) START_FW of a package with one KP program section copies it, starts KP at ENTRY and gives the
port the ownership. (4) The firmware's start is OPERATIONAL with the package's version at both ports; a store load that fails
enters SAFE_HALT with cause 1, and a grant that R383 refuses with cause 3. -/
def Obligations.FirmwareLoadsAuthenticatesAndStarts : Prop :=
  (∀ (s : State) (e : Entry) (b : List Byte), Accepted 0x02 e s → (s.port e.port).d3 = false → s.pwr.katFail = false →
    eBufLen e % 64 = 0 → 0 < eBufLen e → eBufLen e ≤ 65536 → eTarget e % 64 = 0 → eTarget e + eBufLen e ≤ 8388608 →
    zeroes e 8 48 = true → e.buf = some b → Answers (.loadFwChunk e) s fun t =>
      t.dev = 0 ∧ t.keep.session = some (s.keep.session.getD e.port) ∧
      (∀ i, i < eBufLen e → t.rdByte (staging + eTarget e + i) = (fitBuf (eBufLen e) b).getD i 0) ∧
      (∀ a, a < staging + eTarget e ∨ staging + eTarget e + eBufLen e ≤ a → t.rdByte a = s.rdByte a) ∧ Replied e 0 [] s t) ∧
  (∀ (s : State) (e : Entry), Accepted 0x03 e s → (s.port e.port).d3 = false → s.pwr.katFail = false → s.ecc = [] →
    ent e 8 4 % 64 = 0 → 0 < ent e 8 4 → ent e 8 4 ≤ 8388608 → zeroes e 12 48 = true →
    let n := ent e 8 4
    let im := s.image n
    Answers (.authFw e) s fun t =>
      t.mem = s.mem ∧
      (formatOk im n = false → t.keep.session = none ∧ Replied e 0x30 [1] s t) ∧
      (formatOk im n = true → s.signatureOk im n = false → t.keep.session = none ∧ Replied e 0x30 [3] s t) ∧
      (formatOk im n = true → s.signatureOk im n = true → digestsOk im = false → t.keep.session = none ∧ Replied e 0x30 [2] s t) ∧
      (formatOk im n = true → s.signatureOk im n = true → digestsOk im = true →
        t.dev = 1 ∧ t.keep.imgLen = n ∧ Replied e 0 [] s t)) ∧
  (∀ (s : State) (e : Entry) (x : Sec), Accepted 0x04 e s → (s.port e.port).d3 = false → s.pwr.katFail = false →
    zeroes e 8 48 = true → x.kind = 0x01 →
    let im := s.image s.keep.imgLen
    sections im = [x] → Answers (.startFw e) s fun t =>
      t.dev = s.dev ∧ t.keep.started = true ∧ t.keep.session = none ∧ t.owner = e.port.val + 1 ∧
      (t.core 20).img.pcc = (resetImg 20 (leAt im 16 4) s.tick).pcc ∧
      (∀ i, i < (x.data im).length → t.rdByte (itcm 20 x.start + i) = (x.data im).getD i 0) ∧
      (∀ a, a < itcm 20 x.start ∨ itcm 20 x.start + (x.data im).length ≤ a → t.rdByte a = s.rdByte a) ∧ Replied e 0 [] s t) ∧
  (∀ s : State, s.dev = 1 → s.keep.started = true →
    let im := s.image s.keep.imgLen
    let ss := sections im
    let ok := (s.applyConfig.fillAll.loadStores im ss).1
    let refused := ss.any fun x => x.kind == 0x33 && (grants (x.data im)).any fun g => g.refused x.unit
    let outside := ss.any fun x => (x.kind == 0x30 || x.kind == 0x31) && decide (0x40000 < x.start + x.len)
    Answers .fwStarted s fun t =>
      (ok = false → t.dev = 4 ∧ t.fld Reg.GLV_HALT F.GLV_HALT_CAUSE = 1) ∧
      (ok = true → refused = true → t.dev = 4 ∧ t.fld Reg.GLV_HALT F.GLV_HALT_CAUSE = 3) ∧
      (ok = true → refused = false → outside = false → t.dev = 2 ∧
        ∀ p : Fin 2, t.rg (Reg.HIF_FWVER p) = BitVec.ofNat 32 (leAt im 12 4)))

/-- IDENTIFY, GET_STATE, GET_SELFTEST, SET_TIME, RESET_DEVICE, GET_WEAR and SET_WEAR_MODEL, accepted. (1) IDENTIFY replies with
the identity, the serial number and the firmware version; GET_SELFTEST with the test masks; GET_STATE with the masks of flights
and the ownership, or with a bound flight's availability, place and latched groups. None of the three changes memory. (2)
SET_TIME with MODE 0 and no running flight sets TS, and conflicts with one; with MODE 1 it starts a slew and TS stays. (3)
RESET_DEVICE with its key and no running flight begins a device reset, and conflicts with one. (4) GET_WEAR writes the records
of its links to the host's buffer. (5) SET_WEAR_MODEL writes its table into every flight controller, or refuses a table that is
not acceptable. -/
def Obligations.KeeperReportsTimeResetAndWear : Prop :=
  (∀ (s : State) (e : Entry), Accepted 0x01 e s → (s.port e.port).d3 = false → zeroes e 8 48 = true →
    Answers (.identify e) s fun t =>
      t.mem = s.mem ∧ SameRegs [Reg.HIF_KOUTSTAT e.port] s t ∧
      Replied e 0 [s.rn (Reg.HIF_IDENT e.port), s.rn (Reg.HIF_SERIAL_LO e.port), s.rn (Reg.HIF_SERIAL_HI e.port),
        s.rn (Reg.HIF_FWVER e.port)] s t) ∧
  (∀ (s : State) (e : Entry), Accepted 0x05 e s → (s.port e.port).d3 = false → zeroes e 8 48 = true →
    let fl := eTarget e
    Answers (.getState e) s fun t =>
      t.mem = s.mem ∧ SameRegs [Reg.HIF_KOUTSTAT e.port] s t ∧
      (32 ≤ fl → Replied e 0 [s.flightMask (· != 0), s.flightMask fun st => st == 3 || st == 4, s.flightMask (· == 5),
        s.owner + 4 * b2n s.keep.locked + 8 * b2n s.devMode] s t) ∧
      (∀ n f, fl < 32 → s.slotOf fl = some (n, f) → Replied e 0 [s.availN n f + 65536 * s.nReq n f,
        n + 16 * s.fld (Reg.FC_FLT_CFG n f) F.FC_FLT_CFG_GANG + 64 * f, s.groupsOf fl, 0] s t) ∧
      (fl < 32 → s.slotOf fl = none → Replied e 0 [0, 0, s.groupsOf fl, 0] s t)) ∧
  (∀ (s : State) (e : Entry), Accepted 0x06 e s → (s.port e.port).d3 = false → zeroes e 8 48 = true →
    Answers (.getSelftest e) s fun t =>
      t.mem = s.mem ∧ Replied e 0 [s.fld Reg.GLV_BIST F.GLV_BIST_START_PASS, s.rn Reg.MEM_BIST_PAIR, s.rn Reg.MEM_BIST_FC,
        s.fld Reg.GLV_BIST F.GLV_BIST_DONE + 2 * s.fld Reg.MEM_STAT F.MEM_STAT_BIST_DONE + 4 * b2n s.keep.otpOk] s t) ∧
  (∀ (s : State) (e : Entry), Accepted 0x07 e s → (s.port e.port).d3 = false → ent e 8 1 ≤ 1 → zeroes e 9 16 = true →
    zeroes e 24 48 = true → Answers (.setTime e) s fun t =>
      t.mem = s.mem ∧
      (ent e 8 1 = 0 → s.anyRun = false → t.ts = ent e 16 8 ∧ Replied e 0 [] s t) ∧
      (ent e 8 1 = 0 → s.anyRun = true → t.ts = s.ts ∧ Replied e 0x20 [] s t) ∧
      (ent e 8 1 = 1 → (sx 64 (ent e 16 8)).natAbs < 2147483648 →
        t.ts = s.ts ∧ t.rg Reg.TS_SLEW_LEFT = BitVec.ofInt 32 (sx 64 (ent e 16 8)) ∧ Replied e 0 [] s t)) ∧
  (∀ (s : State) (e : Entry), Accepted 0x0F e s → (s.port e.port).d3 = false → ent e 8 1 = 0xA5 → zeroes e 9 48 = true →
    Answers (.resetDevice e) s fun t =>
      (s.anyRun = true → t.mem = s.mem ∧ t.pwr.inReset = false ∧ Replied e 0x20 [] s t) ∧
      (s.anyRun = false → t.pwr.inReset = true ∧ t.mem = [] ∧ t.tags = [] ∧ t.cores = State.reset.cores)) ∧
  (∀ (s : State) (e : Entry) (b : List Byte), Accepted 0x90 e s → (s.port e.port).d3 = false → e.buf = some b →
    eBufLen e = 64 * ent e 8 2 → ent e 8 2 ≠ 0 → ent e 8 2 ≤ 1024 → eTarget e + ent e 8 2 ≤ 1024 → zeroes e 10 48 = true →
    Answers (.getWear e) s fun t =>
      t.mem = s.mem ∧ Replied e 0 [] s t ∧
      t.out = .wr e.port (eBufAddr e) ((List.range (ent e 8 2)).map fun i => s.wearRecord (eTarget e + i)).flatten :: s.out) ∧
  (∀ (s : State) (e : Entry) (b : List Byte), Accepted 0x91 e s → (s.port e.port).d3 = false → e.buf = some b →
    eBufLen e = 4096 → zeroes e 8 48 = true → Answers (.setWearModel e) s fun t =>
      t.mem = s.mem ∧
      (wearTblOk b = true → Replied e 0 [] s t ∧ ∀ (n : Fin 16) (k : Fin 272),
        t.rg (Reg.WEAR_TBL n (eTarget e) k) = BitVec.ofNat 32 (leAt b (4 * k) 4)) ∧
      (wearTblOk b = false → Replied e 0x11 [] s t ∧ SameRegs [Reg.HIF_KOUTSTAT e.port] s t))

/-- SET_TRIP_POLICY, CLEAR_TRIP, SET_WINDOW, LOCK_LIMITS, TAKE_OWNERSHIP, RELEASE_OWNERSHIP and HEARTBEAT, accepted. (1) A
policy in range for a group that is not latched stands in the group's registers while the Sluice is not locked; for a latched
group it conflicts, and while locked a policy that does not tighten is refused. (2) CLEAR_TRIP of one latched group clears it
when no source of its mask is active, and is refused with the lowest active source otherwise; while the Keeper pair restarts it
waits. (3) A window in range stands in the comparator's registers; one out of range, or one that does not tighten a locked
comparator, changes no register of it. (4) LOCK_LIMITS sets every LOCK and makes the device LOCKED. (5) Ownership goes to the
port that takes it, and to none when its owner releases it. (6) HEARTBEAT dates the port, ends its lapse and replies with the
owner. -/
def Obligations.TripPoliciesWindowsAndOwnershipChange : Prop :=
  (∀ (s : State) (e : Entry), Accepted 0x50 e s → (s.port e.port).d3 = false → ent e 40 1 ≤ 1 → ent e 41 1 ≤ 1 → ent e 42 1 ≤ 31 →
    ent e 43 1 ≤ 1 → zeroes e 30 32 = true → zeroes e 44 48 = true → (ent e 41 1 = 1 → ent e 32 4 = 0) →
    let g := eTarget e
    Answers (.setTripPolicy e) s fun t =>
      t.mem = s.mem ∧
      (s.latched g = true → Replied e 0x20 [] s t ∧ SameRegs [Reg.HIF_KOUTSTAT e.port] s t) ∧
      (s.latched g = false → s.sluLocked = true → s.tripTightens g e = false →
        Replied e 0x31 [] s t ∧ SameRegs [Reg.HIF_KOUTSTAT e.port] s t) ∧
      (s.latched g = false → s.sluLocked = false → Replied e 0 [] s t ∧
        (∀ w : Fin 5, t.rg (Reg.SLU_GSRC g w) = BitVec.ofNat 32 (ent e (8 + 4 * w) 4)) ∧
        t.rg (Reg.SLU_GFLT g) = BitVec.ofNat 32 (ent e 32 4) ∧ t.rg (Reg.SLU_GPWM g) = BitVec.ofNat 32 (ent e 36 4))) ∧
  (∀ (s : State) (e : Entry) (g : Fin 32), Accepted 0x51 e s → (s.port e.port).d3 = false → eTarget e = 2 ^ g.val →
    zeroes e 8 48 = true → s.latched g = true → Answers (.clearTrip e) s fun t =>
      t.mem = s.mem ∧
      (s.groupMask g &&& s.activeMask = 0 → t.latched g = false ∧ Replied e 0 [2 ^ g.val] s t) ∧
      (s.groupMask g &&& s.activeMask ≠ 0 → t.latched g = true ∧ t.bit (Reg.SLU_GSTAT g) F.SLU_GSTAT_CLR_REFUSED = true ∧
        Replied e 0x23 [2 ^ g.val, min 255 (s.lowestActive g)] s t)) ∧
  (∀ (s : State) (e : Entry), eOp e = 0x51 → s.dev ≠ 0 → s.dev ≠ 4 → s.pwr.inReset = false → s.keeperOn = false →
    Answers (.clearTrip e) s fun t => t = { s with keep := { s.keep with
      waits := s.keep.waits ++ [{ e := e, live := true, silent := false, on := .keeper, st := 0 }] } }) ∧
  (∀ (s : State) (e : Entry), Accepted 0x52 e s → (s.port e.port).d3 = false →
    let c := eTarget e
    Answers (.setWindow e) s fun t =>
      t.mem = s.mem ∧
      (windowOk e = false → Replied e 0x11 [] s t ∧ SameRegs [Reg.HIF_KOUTSTAT e.port] s t) ∧
      (windowOk e = true → s.cmpLocked c = true → s.windowTightens c e = false →
        Replied e 0x31 [] s t ∧ SameRegs [Reg.HIF_KOUTSTAT e.port] s t) ∧
      (windowOk e = true → s.cmpLocked c = false ∨ s.windowTightens c e = true → Replied e 0 [] s t ∧
        t.rg (Reg.CMP_CFG c) = BitVec.ofNat 32 ((windowWords e).getD 0 0) ∧
        t.rg (Reg.CMP_THR c) = BitVec.ofNat 32 ((windowWords e).getD 1 0) ∧
        t.rg (Reg.CMP_FILT c) = BitVec.ofNat 32 ((windowWords e).getD 2 0))) ∧
  (∀ (s : State) (e : Entry), Accepted 0x53 e s → (s.port e.port).d3 = false → zeroes e 8 48 = true →
    Answers (.lockLimits e) s fun t =>
      t.mem = s.mem ∧ t.dev = 3 ∧ t.keep.locked = true ∧ (∀ n : Fin 16, t.bit (Reg.FC_LOCK n) F.FC_LOCK_LOCK = true) ∧
      t.bit Reg.CMP_LOCK F.CMP_LOCK_LOCK = true ∧ t.bit Reg.SLU_LOCK F.SLU_LOCK_LOCK = true ∧
      t.bit Reg.GLV_LOCK F.GLV_LOCK_LOCK = true ∧ Replied e 0 [] s t) ∧
  (∀ (s : State) (e : Entry), Accepted 0xA0 e s → (s.port e.port).d3 = false → zeroes e 8 48 = true →
    Answers (.takeOwnership e) s fun t => t.mem = s.mem ∧ t.owner = e.port.val + 1 ∧ t.keep.loss = none ∧ Replied e 0 [] s t) ∧
  (∀ (s : State) (e : Entry), Accepted 0xA1 e s → (s.port e.port).d3 = false → zeroes e 8 48 = true →
    Answers (.releaseOwnership e) s fun t => t.mem = s.mem ∧ t.owner = 0 ∧ Replied e 0 [] s t) ∧
  (∀ (s : State) (e : Entry), Accepted 0xA2 e s → (s.port e.port).d3 = false → zeroes e 8 48 = true →
    Answers (.heartbeat e) s fun t =>
      t.mem = s.mem ∧ (t.port e.port).hb = some s.tick ∧ t.lapsed e.port = false ∧ Replied e 0 [s.owner] s t)

/-- OPEN_STREAM, CLOSE_STREAM, RING_POLL, FW_TRIP, LOG, TIME and THERMAL_READ. (1) An acceptable stream on a free index of a
port whose flight controller runs is open with the values given; one on an index in use conflicts. (2) Closing an open stream
frees it and replies with its counts; a closed one conflicts. (3) A poll answers every new record of an unknown service with
0xFF. (4) The three services serve a new record of their kind: FW_TRIP sets or clears the bit and its source, LOG raises its
event and leaves the text, TIME returns TS in bytes 4 to 11 (the model's reading, log entry 32); the record then is no longer
new. (5) Above 105 °C the Keeper sheds; below 103 °C for one second it stops. -/
def Obligations.StreamsRingsAndSheddingRun : Prop :=
  (∀ (s : State) (e : Entry) (b : List Byte), Accepted 0x80 e s → (s.port e.port).d3 = false → e.buf = some b →
    eBufLen e = 4 * ent e 9 1 → ent e 8 1 ≤ 15 → ent e 9 1 ≠ 0 → ent e 9 1 ≤ 11 → ent e 10 2 ≠ 0 → 4 ≤ ent e 12 1 → ent e 12 1 ≤ 16 →
    ent e 13 1 ≤ 63 → ent e 14 1 ≤ 1 → ent e 15 1 = 0 → ent e 16 8 % 4096 = 0 → ent e 24 8 % 4 = 0 → zeroes e 32 48 = true →
    let ws := (List.range (ent e 9 1)).map fun k => leAt b (4 * k) 4
    (∀ a ∈ ws, a % 4 = 0 ∧ mirrored a = true) → Answers (.openStream e) s fun t =>
      t.mem = s.mem ∧
      (s.stream e.port (eTarget e) = none → s.runOn (ent e 8 1) = true → Replied e 0 [] s t ∧
        ∃ x, t.stream e.port (eTarget e) = some x ∧ x.fc = ent e 8 1 ∧ x.words = ws ∧ x.decim = ent e 10 2 ∧ x.sizeExp = ent e 12 1 ∧
          x.vec = ent e 13 1 ∧ x.irq = (ent e 14 1 == 1) ∧ x.ring = ent e 16 8 ∧ x.twb = ent e 24 8 ∧ x.due = none) ∧
      (s.stream e.port (eTarget e) ≠ none ∨ s.runOn (ent e 8 1) = false → Replied e 0x20 [] s t ∧
        t.stream e.port (eTarget e) = s.stream e.port (eTarget e))) ∧
  (∀ (s : State) (e : Entry), Accepted 0x81 e s → (s.port e.port).d3 = false → zeroes e 8 48 = true →
    Answers (.closeStream e) s fun t =>
      t.mem = s.mem ∧ t.stream e.port (eTarget e) = none ∧
      (s.stream e.port (eTarget e) = none → Replied e 0x20 [] s t) ∧
      (∀ x, s.stream e.port (eTarget e) = some x →
        Replied e 0 [x.written % 2 ^ 32, x.skipped % 2 ^ 32, x.lastSeq] s t)) ∧
  (∀ s : State, s.fwRuns = true → Answers .ringPoll s fun t =>
    t.regs = s.regs ∧ t.tick = s.tick ∧
    ∀ (p : Fin 20) (k : Fin 16),
      let v := (s.rdByte (ringRec p k)).toNat
      (s.ringNew p k = true → v ≠ 1 → v ≠ 2 → v ≠ 3 → t.rdByte (ringRec p k + 2) = 0xFF ∧ t.ringNew p k = false) ∧
      (s.ringNew p k = false ∨ v = 1 ∨ v = 2 ∨ v = 3 → t.rdBytes (ringRec p k) 32 = s.rdBytes (ringRec p k) 32 ∧
        t.ringNew p k = s.ringNew p k)) ∧
  (∀ (s : State) (p : Fin 21) (k : Fin 16) (b : Fin 4) (on : Bool), s.fwRuns = true → p.val < 20 → s.ringNew p k = true →
    s.rdByte (ringRec p k) = 1 → Answers (.fwTrip p k b on) s fun t =>
      t.ringNew p k = false ∧ t.srcActive (169 + b) = on ∧
      (∀ c : Fin 4, c ≠ b → t.srcActive (169 + c) = nbit (s.rn Reg.SLU_FWTRIP) c) ∧
      t.rdBytes (ringRec p k) 2 = s.rdBytes (ringRec p k) 2 ∧
      ∀ a, a < ringRec p k + 1 ∨ ringRec p k + 32 ≤ a → t.rdByte a = s.rdByte a) ∧
  (∀ (s : State) (p : Fin 21) (k : Fin 16), s.fwRuns = true → p.val < 20 → s.ringNew p k = true → s.rdByte (ringRec p k) = 2 →
    Answers (.logEv p k) s fun t =>
      t.ringNew p k = false ∧ (∀ a, a ≠ ringRec p k + 2 → a ≠ ringRec p k + 3 → t.rdByte a = s.rdByte a) ∧
      (s.routeOf 1677 ≠ 0 → ∃ r : EvRec, t.hubq = s.hubq ++ [r] ∧ r.ts = s.ts ∧ r.src = 1677 ∧ r.code = 0x7E)) ∧
  (∀ (s : State) (p : Fin 21) (k : Fin 16), s.fwRuns = true → p.val < 20 → s.ringNew p k = true → s.rdByte (ringRec p k) = 3 →
    Answers (.timeSvc p k) s fun t =>
      t.ringNew p k = false ∧ t.regs = s.regs ∧ t.rdBytes (ringRec p k + 4) 8 = leBytes 8 s.ts ∧
      ∀ a, a < ringRec p k + 1 ∨ ringRec p k + 32 ≤ a → t.rdByte a = s.rdByte a) ∧
  (∀ s : State, s.fwRuns = true → Answers .thermalRead s fun t =>
    let shed := s.bit (Reg.HIF_KSHED 0) F.HIF_KSHED_SHED
    t.mem = s.mem ∧ t.tick = s.tick ∧
    (1680 < s.thmMax → t.bit (Reg.HIF_KSHED 0) F.HIF_KSHED_SHED = true ∧ t.keep.cool = none) ∧
    (s.thmMax < 1648 → shed = true → s.keep.cool = none → t.regs = s.regs ∧ t.keep.cool = some s.tick) ∧
    (∀ u, s.thmMax < 1648 → shed = true → s.keep.cool = some u → u + 800000000 ≤ s.tick →
      ∀ p : Fin 2, t.bit (Reg.HIF_KSHED p) F.HIF_KSHED_SHED = false) ∧
    (1648 ≤ s.thmMax → s.thmMax ≤ 1680 → t.regs = s.regs ∧ (shed = true → t.keep.cool = none)) ∧
    (s.thmMax ≤ 1680 → shed = false → t = s))

/-- REGISTER_WRITE, HOLDING_COPY_READ, BAR2_READ and STREAM_RECORD. (1) A write of a pair to a register without an effect of
its own, here those of the memory controller and the thermal block but CAP_COPY, the fill and the scrub control, leaves in each
bit what its code gives, in a tick of its own where it clears flags (the model's reading of R4, log entry 73), and changes
nothing else; a misaligned write, and one in reset, change nothing; a write of the cycle length while RUN is 1 is ignored and
sets CFG_ERR. (2) A read of a copying register fills its holding registers with what they read and changes nothing else. (3)
BAR2 returns the bytes of the shared SRAM, or the register behind the mirror. (4) A due record goes to the stream's ring with
its time stamp, sequence number and cycle, then its write-back, and the stream counts it. -/
def Obligations.RegisterAccessesFollowTheirCodes : Prop :=
  (∀ (s : State) (who : Fin 23) (a : Nat) (v : Word), s.pwr.inReset = true ∨ a % 4 ≠ 0 → Answers (.registerWrite who a v) s fun t =>
    t = s) ∧
  (∀ (s : State) (who : Fin 23) (a : Nat) (v : Word), s.pwr.inReset = false → a % 4 = 0 → who.val < 21 → 0x70060000 ≤ a →
    a < 0x70080000 → a ∉ [0x70060044, 0x70060048, 0x7006005C] → Answers (.registerWrite who a v) s fun t =>
      t = { s with regs := t.regs, tick := t.tick, ts := t.ts } ∧ SameRegs [a] s t ∧
      (regRow a = none → t = s) ∧
      ∀ r, regRow a = some r → t.tick = s.tick + (if v &&& r.w1c = 0 then 0 else 1) ∧ (r.rwl = [] → ∀ i : Fin 32, (t.rg a).getLsbD i =
        (((if r.rw.getLsbD i then v.getLsbD i else (s.rg a).getLsbD i) && !(v.getLsbD i && r.w1c.getLsbD i)) ||
          (v.getLsbD i && r.w1s.getLsbD i)))) ∧
  (∀ (s : State) (who : Fin 23) (n : Fin 16) (v : Word), s.pwr.inReset = false → who.val < 21 → (s.fc n).switching = false →
    s.bit (Reg.FC_CYC_CTRL n) F.FC_CYC_CTRL_RUN = true → Answers (.registerWrite who (Reg.FC_CYC_LEN n) v) s fun t =>
      t = { s with regs := t.regs } ∧ SameRegs [Reg.FC_CYC_STAT n] s t ∧
      t.bit (Reg.FC_CYC_STAT n) F.FC_CYC_STAT_CFG_ERR = true) ∧
  (∀ (s : State) (a : Nat), Answers (.holdingCopyRead a) s fun t =>
    t = { s with hold := t.hold } ∧ (∀ x ∈ heldBy a, tget 0 t.hold x = s.regPeek x) ∧
    ∀ x, x ∉ heldBy a → tget 0 t.hold x = tget 0 s.hold x) ∧
  (∀ (s : State) (p : Fin 2) (off len : Nat), s.pwr.inReset = false → (s.port p).up = true → (s.port p).d3 = false → s.ecc = [] →
    off + len ≤ 0x2000000 → Answers (.bar2Read p off len) s fun t =>
      t = { s with out := .cpl p (s.rdBytes (sram off) len) false :: s.out }) ∧
  (∀ (s : State) (p : Fin 2) (o : Nat), s.pwr.inReset = false → (s.port p).up = true → (s.port p).d3 = false →
    o < 0x80000 → o % 4 = 0 → Answers (.bar2Read p (0x9000000 + o) 4) s fun t =>
      t = { s with out := .cpl p (leBytes 4 (s.devPeek (0x70000000 + o)).toNat) false :: s.out }) ∧
  (∀ (s : State) (p : Fin 2) (k : Fin 16) (x : Stream) (ts seq cnt : Nat), s.stream p k = some x → x.due = some (ts, seq, cnt) →
    s.portOk p = true → x.irq = false → (∀ n : Fin 16, (s.fc n).switching = false) → Answers (.streamRecord p k) s fun t =>
      t.mem = s.mem ∧ t.ts = (if s.ts < (ts + 720) % 2 ^ 64 then (ts + 720) % 2 ^ 64 else s.ts) ∧
      t.stream p k = some { x with due := none, written := x.written + 1, lastSeq := seq } ∧
      ∃ b, t.out = .wr p x.twb (leBytes 4 (seq + 1)) :: .wr p (x.ring + 64 * (seq % 2 ^ x.sizeExp)) b :: s.out ∧
        b.length = 64 ∧ b.take 16 = leBytes 8 ts ++ leBytes 4 seq ++ leBytes 4 cnt ∧ b.drop 60 = leBytes 4 seq)

/-- ADD, SUB, AND, OR, XOR, ANDN, SLL, SRL, SRA, ROR, SEQ, SNE, SLT, SLTU, MIN, MAX, MINU, MAXU, CLZ, POPC and BSWAP: a pair
that fetches the instruction executes it, gd takes its result from ga and gb (a write of g0 is discarded, g0 reads 0), the next
instruction is the next word, and no other register, no memory and no other state changes. The shifts use the low five bits of
gb; the set instructions give 1 or 0; SLT, MIN and MAX compare signed numbers, SLTU, MINU and MAXU unsigned ones. -/
def Obligations.RegisterArithmeticWritesItsResult : Prop :=
  ∀ (i : Fin 21 → Instr) (o : Op) (f : Word → Word → Word),
    (i, o, f) ∈ ([(.add, .add, fun a b => a + b), (.sub, .sub, fun a b => a - b), (.and, .and, fun a b => a &&& b),
      (.or, .or, fun a b => a ||| b), (.xor, .xor, fun a b => a ^^^ b), (.andn, .andn, fun a b => a &&& ~~~b),
      (.sll, .sll, fun a b => BitVec.ofNat 32 (a.toNat * 2 ^ (b.toNat % 32))),
      (.srl, .srl, fun a b => BitVec.ofNat 32 (a.toNat / 2 ^ (b.toNat % 32))),
      (.sra, .sra, fun a b => BitVec.ofInt 32 (a.toInt / 2 ^ (b.toNat % 32))),
      (.ror, .ror, fun a b => a >>> (b.toNat % 32) ||| a <<< ((32 - b.toNat % 32) % 32)),
      (.seq, .seq, fun a b => if a = b then 1 else 0), (.sne, .sne, fun a b => if a = b then 0 else 1),
      (.slt, .slt, fun a b => if a.toInt < b.toInt then 1 else 0), (.sltu, .sltu, fun a b => if a.toNat < b.toNat then 1 else 0),
      (.min, .min, fun a b => if a.toInt ≤ b.toInt then a else b), (.max, .max, fun a b => if a.toInt ≤ b.toInt then b else a),
      (.minu, .minu, fun a b => if a.toNat ≤ b.toNat then a else b), (.maxu, .maxu, fun a b => if a.toNat ≤ b.toNat then b else a),
      (.clz, .clz, fun a _ => BitVec.ofNat 32 (if a = 0 then 32 else 31 - a.toNat.log2)),
      (.popc, .popc, fun a _ => BitVec.ofNat 32 (((List.range 32).filter fun i => nbit a.toNat i).length)),
      (.bswap, .bswap, fun a _ => a <<< 24 ||| (a <<< 8 &&& 0x00FF0000) ||| (a >>> 8 &&& 0x0000FF00) ||| a >>> 24)] :
      List ((Fin 21 → Instr) × Op × (Word → Word → Word))) →
    ∀ (s s1 : State) (p : Fin 21) (w : Word), Fetches p o w s s1 →
      Answers (i p) s fun t => WroteG p (fD w) (f (s1.gR p (fA w)) (s1.gR p (fB w))) s1 t

/-- ADDI, ANDI, ORI, XORI, SEQI, SNEI, SLTI, SLTIU, SHI and LUI: a pair that fetches the instruction executes it, gd takes its
result from ga and the immediate, and nothing else but the pc and the count of instructions changes. ANDI, ORI and XORI
zero-extend the immediate; ADDI and the set instructions sign-extend it; SHI takes the amount from its low five bits and the
kind from the next two; LUI puts it in the upper half. -/
def Obligations.ImmediateArithmeticWritesItsResult : Prop :=
  ∀ (i : Fin 21 → Instr) (o : Op) (f : Word → Word → Word),
    (i, o, f) ∈ ([(.addi, .addi, fun a w => a + BitVec.ofInt 32 (fImmS w)), (.andi, .andi, fun a w => a &&& BitVec.ofNat 32 (fImm w)),
      (.ori, .ori, fun a w => a ||| BitVec.ofNat 32 (fImm w)), (.xori, .xori, fun a w => a ^^^ BitVec.ofNat 32 (fImm w)),
      (.seqi, .seqi, fun a w => if a.toInt = fImmS w then 1 else 0), (.snei, .snei, fun a w => if a.toInt = fImmS w then 0 else 1),
      (.slti, .slti, fun a w => if a.toInt < fImmS w then 1 else 0),
      (.sltiu, .sltiu, fun a w => if a.toNat < (BitVec.ofInt 32 (fImmS w)).toNat then 1 else 0),
      (.shi, .shi, fun a w =>
        let n := nbits w.toNat 0 5
        if nbits w.toNat 5 2 = 0 then a <<< n else if nbits w.toNat 5 2 = 1 then a >>> n
        else if nbits w.toNat 5 2 = 2 then a.sshiftRight n else a >>> n ||| a <<< ((32 - n) % 32)),
      (.lui, .lui, fun _ w => BitVec.ofNat 32 (65536 * fImm w))] : List ((Fin 21 → Instr) × Op × (Word → Word → Word))) →
    ∀ (s s1 : State) (p : Fin 21) (w : Word), Fetches p o w s s1 →
      Answers (i p) s fun t => WroteG p (fD w) (f (s1.gR p (fA w)) w) s1 t

/-- MULLO, MULHI.SS, MULHI.UU, MULHI.SU, QUOS, QUOU, RMDS, RMDU, QMUL, ADDS, SUBS, SHRR, SHLS and SATH. A multiply writes the
low or the high half of the exact product. A divide by zero, and for the signed forms the most negative number by −1, writes
the dividend as the quotient and 0 as the remainder and sets ARITH.DV; otherwise quotient and remainder truncate toward zero
and ARITH stays. A fixed-point form writes the exact result clamped to its range, and sets ARITH.SAT exactly when it was
clamped. Nothing else but the pc and the count of instructions changes. -/
def Obligations.MultiplyDivideAndFixedPointResults : Prop :=
  (∀ (i : Fin 21 → Instr) (o : Op) (f : Word → Word → Word),
    (i, o, f) ∈ ([(.mullo, .mullo, fun a b => a * b), (.mulhiSs, .mulhiSs, fun a b => BitVec.ofInt 32 (a.toInt * b.toInt / 2 ^ 32)),
      (.mulhiUu, .mulhiUu, fun a b => BitVec.ofNat 32 (a.toNat * b.toNat / 2 ^ 32)),
      (.mulhiSu, .mulhiSu, fun a b => BitVec.ofInt 32 (a.toInt * (b.toNat : Int) / 2 ^ 32))] :
      List ((Fin 21 → Instr) × Op × (Word → Word → Word))) →
    ∀ (s s1 : State) (p : Fin 21) (w : Word), Fetches p o w s s1 →
      Answers (i p) s fun t => WroteG p (fD w) (f (s1.gR p (fA w)) (s1.gR p (fB w))) s1 t) ∧
  (∀ (i : Fin 21 → Instr) (o : Op) (signed : Bool) (q : Word → Word → Int) (r0 : Word → Word),
    (i, o, signed, q, r0) ∈ ([(.quos, .quos, true, fun a b => a.toInt.tdiv b.toInt, fun a => a),
      (.quou, .quou, false, fun a b => (a.toNat : Int) / b.toNat, fun a => a),
      (.rmds, .rmds, true, fun a b => a.toInt - b.toInt * a.toInt.tdiv b.toInt, fun _ => 0),
      (.rmdu, .rmdu, false, fun a b => (a.toNat : Int) % b.toNat, fun _ => 0)] :
      List ((Fin 21 → Instr) × Op × Bool × (Word → Word → Int) × (Word → Word))) →
    ∀ (s s1 : State) (p : Fin 21) (w : Word), Fetches p o w s s1 →
      let a := s1.gR p (fA w)
      let b := s1.gR p (fB w)
      let none_ := b = 0 ∨ (signed = true ∧ a.toInt = -2147483648 ∧ b.toInt = -1)
      Answers (i p) s fun t => Retired p (s1.nextPcc p) s1 t ∧
        (none_ → Holds p (upd0 (s1.gR p) (fD w) (r0 a)) (s1.fR p) (s1.cR p) (upd (s1.crS p) 0x11 (s1.crS p 0x11 ||| 2)) t) ∧
        (¬ none_ → Holds p (upd0 (s1.gR p) (fD w) (BitVec.ofInt 32 (q a b))) (s1.fR p) (s1.cR p) (s1.crS p) t)) ∧
  (∀ (i : Fin 21 → Instr) (o : Op) (n : Nat) (f : Word → Word → Int),
    (i, o, n, f) ∈ ([(.qmul, .qmul, 32, fun a b => rhe (a.toInt * b.toInt) (2 ^ 31)), (.adds, .adds, 32, fun a b => a.toInt + b.toInt),
      (.subs, .subs, 32, fun a b => a.toInt - b.toInt), (.shrr, .shrr, 32, fun a b => rhe a.toInt (2 ^ (b.toNat % 32))),
      (.shls, .shls, 32, fun a b => a.toInt * 2 ^ (b.toNat % 32)), (.sath, .sath, 16, fun a _ => a.toInt)] :
      List ((Fin 21 → Instr) × Op × Nat × (Word → Word → Int))) →
    ∀ (s s1 : State) (p : Fin 21) (w : Word), Fetches p o w s s1 →
      let v := f (s1.gR p (fA w)) (s1.gR p (fB w))
      let fits := -(2 ^ (n - 1) : Int) ≤ v ∧ v < 2 ^ (n - 1)
      Answers (i p) s fun t => Retired p (s1.nextPcc p) s1 t ∧
        (fits → Holds p (upd0 (s1.gR p) (fD w) (BitVec.ofInt 32 v)) (s1.fR p) (s1.cR p) (s1.crS p) t) ∧
        (¬ fits → Holds p (upd0 (s1.gR p) (fD w) (BitVec.ofInt 32 (if v < 0 then -(2 ^ (n - 1)) else 2 ^ (n - 1) - 1))) (s1.fR p) (s1.cR p)
          (upd (s1.crS p) 0x11 (s1.crS p 0x11 ||| 4)) t))

/-- BZ, BNZ, DBNZ, J, JAL and TJUMP. A taken branch goes on at pc + 4 × off21, one not taken at the next word; BZ is taken when
gd is 0, BNZ when it is not, and DBNZ first subtracts 1 from gd and is taken when the result is not 0. J and JAL go to pc + 4 ×
off26; JAL leaves pcc with the next address in c1. TJUMP goes on at ca and leaves the same capability in cd. Nothing else but
the count of instructions changes. -/
def Obligations.BranchesAndJumpsReachTheirTargets : Prop :=
  (∀ (s s1 : State) (p : Fin 21) (w : Word) (i : Fin 21 → Instr) (o : Op) (z : Bool),
    (i, o, z) ∈ ([(.bz, .bz, true), (.bnz, .bnz, false)] : List ((Fin 21 → Instr) × Op × Bool)) → Fetches p o w s s1 →
    Answers (i p) s fun t =>
      Retired p (if (s1.gR p (fD w) = 0) = (z = true) then s1.relPcc p (off21 w) else s1.nextPcc p) s1 t ∧
      Holds p (s1.gR p) (s1.fR p) (s1.cR p) (s1.crS p) t) ∧
  (∀ (s s1 : State) (p : Fin 21) (w : Word), Fetches p .dbnz w s s1 → Answers (.dbnz p) s fun t =>
    Retired p (if s1.gR p (fD w) = 1 then s1.nextPcc p else s1.relPcc p (off21 w)) s1 t ∧
    Holds p (upd0 (s1.gR p) (fD w) (s1.gR p (fD w) - 1)) (s1.fR p) (s1.cR p) (s1.crS p) t) ∧
  (∀ (s s1 : State) (p : Fin 21) (w : Word), Fetches p .j w s s1 → Answers (.j p) s fun t =>
    Retired p (s1.relPcc p (off26 w)) s1 t ∧ Holds p (s1.gR p) (s1.fR p) (s1.cR p) (s1.crS p) t) ∧
  (∀ (s s1 : State) (p : Fin 21) (w : Word), Fetches p .jal w s s1 → Answers (.jal p) s fun t =>
    Retired p (s1.relPcc p (off26 w)) s1 t ∧
    Holds p (s1.gR p) (s1.fR p) (upd0 (s1.cR p) 1 (s1.nextPcc p)) (s1.crS p) t) ∧
  (∀ (s s1 : State) (p : Fin 21) (w : Word), Fetches p .tjump w s s1 → Answers (.tjump p) s fun t =>
    Retired p (s1.cR p (fA w)) s1 t ∧ Holds p (s1.gR p) (s1.fR p) (upd0 (s1.cR p) (fD w) (s1.nextPcc p)) (s1.crS p) t)

/-- LB, LBU, LH, LHU, LW, FLW and LCAP at ca.address + imm16. A load that passes its checks and reads its bytes writes them to
its register, sign-extended for LB and LH, and retires; one that fails takes the exception of the check with nothing written.
In a memory that no buffered store touches and that has no byte in error, an aligned load reads exactly the bytes that stand
there and changes nothing but the register, the pc and the count of instructions; LCAP takes the eight bytes and the tag of the
granule. -/
def Obligations.LoadsReadTheirBytesOrFault : Prop :=
  (∀ (i : Fin 21 → Instr) (o : Op) (n : Nat) (isF : Bool) (ext : Nat → Word),
    (i, o, n, isF, ext) ∈ ([(.lb, .lb, 1, false, fun v => BitVec.ofInt 32 (if v < 128 then (v : Int) else v - 256)),
      (.lbu, .lbu, 1, false, fun v => BitVec.ofNat 32 v),
      (.lh, .lh, 2, false, fun v => BitVec.ofInt 32 (if v < 32768 then (v : Int) else v - 65536)),
      (.lhu, .lhu, 2, false, fun v => BitVec.ofNat 32 v), (.lw, .lw, 4, false, fun v => BitVec.ofNat 32 v),
      (.flw, .flw, 4, true, fun v => BitVec.ofNat 32 v)] : List ((Fin 21 → Instr) × Op × Nat × Bool × (Nat → Word))) →
    ∀ (s s1 : State) (p : Fin 21) (w : Word), Fetches p o w s s1 →
      let a := s1.ea p w
      let c := s1.cR p (fA w)
      let wrote := fun (v : Word) (s2 t : State) => Retired p (s2.nextPcc p) s2 t ∧
        Holds p (if isF then s2.gR p else upd0 (s2.gR p) (fD w) v) (if isF then upd (s2.fR p) (fD w) v else s2.fR p) (s2.cR p)
          (s2.crS p) t
      Answers (i p) s fun t =>
        (∀ b s2, (s1.dropPend p).load p c (accOf pLoad n) (fA w) false a n = (.inr b, s2) → wrote (ext (leNat b)) s2 t) ∧
        (∀ k e x s2, (s1.dropPend p).load p c (accOf pLoad n) (fA w) false a n = (.inl (k, e, x), s2) → t = s2.exc p k e x) ∧
        (∀ k, s1.access p c (accOf pLoad n) (fA w) false a n = none → a % n = 0 → memKey p a = some k →
          (∀ e ∈ (s1.core p).sb, e.hits k n = false) → s1.ecc = [] → wrote (ext (leNat (s1.rdBytes k n))) s1 t)) ∧
  (∀ (s s1 : State) (p : Fin 21) (w : Word), Fetches p .lcap w s s1 →
    let a := s1.ea p w
    let x : Acc := { need := pLoad + pLoadCap, align := 8, special := true, word := false, atomic := false }
    Answers (.lcap p) s fun t =>
      (∀ k e y, s1.access p (s1.cR p (fA w)) x (fA w) false a 8 = some (k, e, y) → t = (s1.dropPend p).exc p k e y) ∧
      (∀ k, s1.access p (s1.cR p (fA w)) x (fA w) false a 8 = none → memKey p a = some k →
        (∀ e ∈ (s1.core p).sb, e.hits k 8 = false) → s1.ecc = [] → s1.tags = [] →
        WroteC p (fD w) { w := BitVec.ofNat 64 (leNat (s1.rdBytes k 8)), tag := false } s1 t) ∧
      (∀ k v s2, s1.access p (s1.cR p (fA w)) x (fA w) false a 8 = none → memKey p a = some k →
        (s1.dropPend p).ldCap p k = ((none, v), s2) → WroteC p (fD w) v s2 t))

/-- SB, SH, SW, FSW, SCAP, LRES.W, SCON.W, TAS.B and STORE_DRAIN. (1) A store that fails a check takes its exception with
nothing stored. An aligned store to a memory with room in the buffer changes no memory: the pair reads the stored bytes back
there, and no register changes. (2) A drain, once the entry is released, writes the masked bytes of the oldest entry and the
tag of its granule, and no other byte. (3) LRES.W loads the word and reserves its granule. (4) SCON.W with the buffer empty
stores gb exactly when the reservation holds the granule, gd tells which, and the reservation ends. (5) TAS.B with the buffer
empty and no byte in error sets the byte to 1, and gd tells whether it was other than 0. The address stored to is that of the
model's ea and memKey. -/
def Obligations.StoresAndAtomicsReachMemory : Prop :=
  (∀ (i : Fin 21 → Instr) (o : Op) (n : Nat) (isF : Bool),
    (i, o, n, isF) ∈ ([(.sb, .sb, 1, false), (.sh, .sh, 2, false), (.sw, .sw, 4, false), (.fsw, .fsw, 4, true)] :
      List ((Fin 21 → Instr) × Op × Nat × Bool)) →
    ∀ (s s1 : State) (p : Fin 21) (w : Word), Fetches p o w s s1 →
      let a := s1.ea p w
      let v := if isF then s1.fR p (fD w) else s1.gR p (fD w)
      Answers (i p) s fun t =>
        (∀ k e x, s1.access p (s1.cR p (fA w)) (accOf pStore n) (fA w) false a n = some (k, e, x) → t = (s1.dropPend p).exc p k e x) ∧
        (∀ k, s1.access p (s1.cR p (fA w)) (accOf pStore n) (fA w) false a n = none → a % n = 0 → memKey p a = some k →
          (s1.core p).sb.length < 4 →
          t = { s1 with cores := t.cores } ∧ (∀ q, q ≠ p.val → t.core q = s1.core q) ∧ (t.img p).pcc = s1.nextPcc p ∧
          Holds p (s1.gR p) (s1.fR p) (s1.cR p) (s1.crS p) t ∧
          (t.ldMem p k n).1.1 = none ∧ (t.ldMem p k n).1.2.1 = leBytes n v.toNat)) ∧
  (∀ (s s1 : State) (p : Fin 21) (w : Word) (k : Nat), Fetches p .scap w s s1 →
    let a := s1.ea p w
    let c := s1.cR p (fA w)
    let v := s1.cR p (fD w)
    let x : Acc := { need := pStore, align := 8, special := true, word := false, atomic := false }
    s1.access p c x (fA w) false a 8 = none → memKey p a = some k → (s1.core p).sb.length < 4 → Answers (.scap p) s fun t =>
      (scapBad p c v a = true → t = (s1.dropPend p).exc p 6 a (fA w)) ∧
      (scapBad p c v a = false → t = { s1 with cores := t.cores } ∧ (t.img p).pcc = s1.nextPcc p ∧
        Holds p (s1.gR p) (s1.fR p) (s1.cR p) (s1.crS p) t ∧ (t.ldMem p k 8).1 = (none, leBytes 8 v.w.toNat, v.tag))) ∧
  (∀ (s : State) (p : Fin 21) (e : SbEnt) (r : List SbEnt), (s.core p).sb = e :: r → Answers (.storeDrain p) s fun t =>
    (t.core p).sb.map heldOf = r.map heldOf ∧ t.regs = s.regs ∧ t.tick = max s.tick e.due ∧ t.tagOf e.g = e.tag ∧
    (∀ j, j < 8 → nbit e.mask j = true → t.rdByte (8 * e.g + j) = e.bytes.getD j 0) ∧
    (∀ x, (∀ j, j < 8 → nbit e.mask j = true → x ≠ 8 * e.g + j) → t.rdByte x = s.rdByte x) ∧
    ∀ q, q ≠ p.val → t.core q = s.core q) ∧
  (∀ (s s1 s2 : State) (p : Fin 21) (w : Word) (k : Nat) (b : List Byte), Fetches p .lresW w s s1 →
    let c := s1.cR p (fA w)
    (s1.dropPend p).load p c (accAtomic pLoad 4) (fA w) false c.addr 4 = (.inr b, s2) → memKey p c.addr = some k →
    Answers (.lresW p) s fun t =>
      WroteG p (fD w) (BitVec.ofNat 32 (leNat b)) { s2 with resv := t.resv } t ∧ (p.val, k / 8) ∈ t.resv) ∧
  (∀ (s s1 : State) (p : Fin 21) (w : Word) (k : Nat), Fetches p .sconW w s s1 →
    let c := s1.cR p (fA w)
    let ok := (s1.resv.find? fun e => e.1 == p.val).map (·.2) == some (k / 8)
    s1.access p c (accAtomic pStore 4) (fA w) false c.addr 4 = none → memKey p c.addr = some k → (s1.core p).sb = [] →
    Answers (.sconW p) s fun t =>
      (∀ n, t.gR p n = upd0 (s1.gR p) (fD w) (if ok then 1 else 0) n) ∧ (∀ n, t.fR p n = s1.fR p n) ∧ (∀ n, t.cR p n = s1.cR p n) ∧
      (t.img p).pcc = s1.nextPcc p ∧ t.regs = s1.regs ∧ (∀ e ∈ t.resv, e.1 ≠ p.val) ∧
      (ok = true → t.rdBytes k 4 = leBytes 4 (s1.gR p (fB w)).toNat ∧ ∀ x, x < k ∨ k + 4 ≤ x → t.rdByte x = s1.rdByte x) ∧
      (ok = false → t.mem = s1.mem)) ∧
  (∀ (s s1 : State) (p : Fin 21) (w : Word) (k : Nat), Fetches p .tasB w s s1 →
    let c := s1.cR p (fA w)
    s1.access p c (accAtomic (pLoad + pStore) 1) (fA w) false c.addr 1 = none → memKey p c.addr = some k → (s1.core p).sb = [] →
    s1.ecc = [] → Answers (.tasB p) s fun t =>
      (∀ n, t.gR p n = upd0 (s1.gR p) (fD w) (if s1.rdByte k = 0 then 0 else 1) n) ∧ (∀ n, t.fR p n = s1.fR p n) ∧
      (∀ n, t.cR p n = s1.cR p n) ∧ (t.img p).pcc = s1.nextPcc p ∧ t.regs = s1.regs ∧ t.rdByte k = 1 ∧
      ∀ x, x ≠ k → t.rdByte x = s1.rdByte x)

/-- FADD, FSUB, FMUL, FDIV, FSQRT, FMADD, FMIN, FMAX, FABS, FNEG, the four FCMP, FTOI, FTOU, ITOF, UTOF, MOVFG, MOVGF and
FKIND. The result reaches its f- or g-register and the raised flags accumulate in FPCSR[6:2]; with no enabled trap among them
the instruction retires and nothing else changes; with one, the FP exception with the raised flags is taken behind the retired
instruction, once its cycles in E are over. FABS clears the sign, FNEG inverts it, FCMP.UN is 1 exactly for a NaN operand, the
moves copy the bits, and none of FABS, FNEG and the moves raises a flag. -/
def Obligations.FloatingPointWritesResultsFlagsAndTraps : Prop :=
  (∀ (i : Fin 21 → Instr) (o : Op) (toF : Bool) (f : State → Nat → Word → Word × Nat),
    (i, o, toF, f) ∈ ([(.fadd, .fadd, true, fun s p w => fAdd (s.fctl p) (s.fR p (fA w)) (s.fR p (fB w))),
      (.fsub, .fsub, true, fun s p w => fSub (s.fctl p) (s.fR p (fA w)) (s.fR p (fB w))),
      (.fmul, .fmul, true, fun s p w => fMul (s.fctl p) (s.fR p (fA w)) (s.fR p (fB w))),
      (.fdiv, .fdiv, true, fun s p w => fDiv (s.fctl p) (s.fR p (fA w)) (s.fR p (fB w))),
      (.fsqrt, .fsqrt, true, fun s p w => fSqrt (s.fctl p) (s.fR p (fA w))),
      (.fmadd, .fmadd, true, fun s p w => fMadd (s.fctl p) (s.fR p (fD w)) (s.fR p (fA w)) (s.fR p (fB w))),
      (.fmin, .fmin, true, fun s p w => fMinMax (s.fctl p) false (s.fR p (fA w)) (s.fR p (fB w))),
      (.fmax, .fmax, true, fun s p w => fMinMax (s.fctl p) true (s.fR p (fA w)) (s.fR p (fB w))),
      (.fabs, .fabs, true, fun s p w => (BitVec.ofNat 32 ((s.fR p (fA w)).toNat % 2 ^ 31), 0)),
      (.fneg, .fneg, true, fun s p w => (s.fR p (fA w) ^^^ 0x80000000, 0)),
      (.fcmpEq, .fcmpEq, false, fun s p w => let r := fCmp (s.fctl p) 0 (s.fR p (fA w)) (s.fR p (fB w)); (if r.1 then 1 else 0, r.2)),
      (.fcmpLt, .fcmpLt, false, fun s p w => let r := fCmp (s.fctl p) 1 (s.fR p (fA w)) (s.fR p (fB w)); (if r.1 then 1 else 0, r.2)),
      (.fcmpLe, .fcmpLe, false, fun s p w => let r := fCmp (s.fctl p) 2 (s.fR p (fA w)) (s.fR p (fB w)); (if r.1 then 1 else 0, r.2)),
      (.fcmpUn, .fcmpUn, false, fun s p w =>
        let nan := fun (x : Word) => decide (0x7F800000 < x.toNat % 2 ^ 31)
        (if nan (s.fR p (fA w)) || nan (s.fR p (fB w)) then 1 else 0, (fCmp (s.fctl p) 3 (s.fR p (fA w)) (s.fR p (fB w))).2)),
      (.ftoi, .ftoi, false, fun s p w => fToInt (s.fctl p) (-(2 ^ 31)) (2 ^ 31 - 1) (s.fR p (fA w))),
      (.ftou, .ftou, false, fun s p w => fToInt (s.fctl p) 0 (2 ^ 32 - 1) (s.fR p (fA w))),
      (.itof, .itof, true, fun s p w => fOfInt (s.fctl p).rm (s.gR p (fA w)).toInt),
      (.utof, .utof, true, fun s p w => fOfInt (s.fctl p).rm (s.gR p (fA w)).toNat),
      (.movfg, .movfg, false, fun s p w => (s.fR p (fA w), 0)), (.movgf, .movgf, true, fun s p w => (s.gR p (fA w), 0)),
      (.fkind, .fkind, false, fun s p w => (fKind (s.fR p (fA w)), 0))] :
      List ((Fin 21 → Instr) × Op × Bool × (State → Nat → Word → Word × Nat))) →
    ∀ (s s1 : State) (p : Fin 21) (w : Word), Fetches p o w s s1 →
      let r := f s1 p w
      let csr := s1.crS p 0x10
      Answers (i p) s fun t => ∃ u, Retired p (s1.nextPcc p) s1 u ∧
        Holds p (if toF then s1.gR p else upd0 (s1.gR p) (fD w) r.1) (if toF then upd (s1.fR p) (fD w) r.1 else s1.fR p) (s1.cR p)
          (upd (s1.crS p) 0x10 (csr ||| BitVec.ofNat 32 (4 * r.2))) u ∧
        (r.2 &&& nbits csr.toNat 7 5 = 0 → t = u) ∧ (r.2 &&& nbits csr.toNat 7 5 ≠ 0 → t = (u.toBoundary p).exc p 13 0 r.2))

/-- TCOPY, TVOID, TREAD, TPOINT, TSTEP, TSTEPI, TNARROW, TNARROWX, TMASK, TWRAP, TUNWRAP, TENTER, TSRD and TSWR. Each writes
its register and nothing else but the pc and the count of instructions: the copy, the untagged copy, the field read, the same
capability at another address (untagged where that is not representable), narrowed bounds, fewer permissions, a sealed or
unsealed capability, or the special register. A derivation of a tagged sealed capability faults with CAP_SEALED; a narrowing
past the bounds, or TNARROWX that is not exact, with CAP_BOUNDS; a special register other than pcc without SYSREG with
CAP_PERM. TENTER of two capabilities sealed with one type, the first executable and the second not, writes cra, pcc and cgp.
EADDR of these faults is a free value (log entry 2). -/
def Obligations.CapabilityInstructionsDeriveOrFault : Prop :=
  ∀ (s s1 : State) (p : Fin 21) (w : Word),
    let a := s1.cR p (fA w)
    let b := s1.cR p (fB w)
    let g := s1.gR p (fB w)
    let fault := fun (cause info : Nat) (t : State) => ∃ (ea : Nat) (u : State), u = { s1.dropPend p with free := u.free } ∧ t = u.exc p cause ea info
    (Fetches p .tcopy w s s1 → Answers (.tcopy p) s fun t => WroteC p (fD w) a s1 t) ∧
    (Fetches p .tvoid w s s1 → Answers (.tvoid p) s fun t => WroteC p (fD w) { a with tag := false } s1 t) ∧
    (Fetches p .tread w s s1 → Answers (.tread p) s fun t => WroteG p (fD w) (BitVec.ofNat 32 (a.field (fB w))) s1 t) ∧
    (∀ (i : Fin 21 → Instr) (o : Op) (v : Cap),
      (i, o, v) ∈ ([(.tpoint, .tpoint, a.point g.toNat), (.tstep, .tstep, a.point (a.addr + g.toNat)),
        (.tstepi, .tstepi, a.point (enc 32 ((a.addr : Int) + fImmS w))), (.tmask, .tmask, a.withPerms (a.perms &&& g.toNat % 1024))] :
        List ((Fin 21 → Instr) × Op × Cap)) → Fetches p o w s s1 → Answers (i p) s fun t =>
          (a.tag = false ∨ a.otype = 0 → WroteC p (fD w) v s1 t) ∧ (a.tag = true → a.otype ≠ 0 → fault 4 (fA w) t)) ∧
    (∀ (i : Fin 21 → Instr) (o : Op) (exact : Bool),
      (i, o, exact) ∈ ([(.tnarrow, .tnarrow, false), (.tnarrowx, .tnarrowx, true)] : List ((Fin 21 → Instr) × Op × Bool)) →
      Fetches p o w s s1 →
      let x := narrowBounds a.addr g.toNat
      let inside := a.base ≤ x.1 ∧ x.2 ≤ a.top
      Answers (i p) s fun t =>
        (a.tag = false ∨ (a.otype = 0 ∧ inside ∧ (exact = true → x = (a.addr, a.addr + g.toNat))) →
          WroteC p (fD w) (a.narrow g.toNat) s1 t) ∧
        (a.tag = true → a.otype ≠ 0 → fault 4 (fA w) t) ∧
        (a.tag = true → a.otype = 0 → ¬ inside ∨ (exact = true ∧ x ≠ (a.addr, a.addr + g.toNat)) → fault 5 (fA w) t)) ∧
    (Fetches p .twrap w s s1 → Answers (.twrap p) s fun t =>
      (a.tag = true → a.otype = 0 → b.tag = true → b.otype = 0 → b.has pSeal = true → 1 ≤ b.addr → b.addr ≤ 7 → b.covers b.addr = true →
        WroteC p (fD w) (a.withType b.addr) s1 t) ∧
      (a.tag = true → b.tag = false → fault 3 (fB w + 32) t)) ∧
    (Fetches p .tunwrap w s s1 → Answers (.tunwrap p) s fun t =>
      (a.tag = true → a.otype ≠ 0 → b.tag = true → b.otype = 0 → b.has pUnseal = true → b.covers b.addr = true → b.addr = a.otype →
        WroteC p (fD w) (unwrapped a b) s1 t) ∧
      (a.tag = true → a.otype = 0 → b.tag = true → b.otype = 0 → b.has pUnseal = true → b.covers b.addr = true → fault 4 (fA w) t)) ∧
    (Fetches p .tenter w s s1 → Answers (.tenter p) s fun t =>
      (a.tag = true → b.tag = true → a.otype ≠ 0 → b.otype = a.otype → a.has pExec = true → b.has pExec = false →
        Retired p (a.withType 0) s1 t ∧
        Holds p (s1.gR p) (s1.fR p) (upd0 (upd0 (s1.cR p) 1 (s1.nextPcc p)) 3 (b.withType 0)) (s1.crS p) t) ∧
      (a.tag = false → fault 3 (fA w) t)) ∧
    (Fetches p .tsrd w s s1 → Answers (.tsrd p) s fun t =>
      (fB w = 0 → WroteC p (fD w) (s1.img p).pcc s1 t) ∧
      (fB w ≠ 0 → s1.sysreg p = true → WroteC p (fD w) (if fB w = 1 then (s1.img p).cvt else (s1.img p).cfs) s1 t) ∧
      (fB w ≠ 0 → s1.sysreg p = false → fault 6 16 t)) ∧
    (Fetches p .tswr w s s1 → Answers (.tswr p) s fun t =>
      (s1.sysreg p = true → t = { s1 with cores := t.cores } ∧ (t.img p).pcc = s1.nextPcc p ∧
        (t.img p).cvt = (if fB w = 1 then a else (s1.img p).cvt) ∧ (t.img p).cfs = (if fB w = 1 then (s1.img p).cfs else a) ∧
        Holds p (s1.gR p) (s1.fR p) (s1.cR p) (s1.crS p) t) ∧
      (s1.sysreg p = false → fault 6 16 t))

/-- CRR, CRW, CRS, CRC, CSYNC, FENCE and WFI. A control register instruction that may access its register writes the old value
to gd and puts ga, the bits of ga set, or the bits of ga cleared into the bits of the register that a write changes; without
SYSREG where the register needs it, it takes CAP_PERM and changes nothing. CSYNC ends every pending context change; FENCE
empties the store buffer; WFI retires once an enabled line above IL is pending, and until then the pair stays at it. -/
def Obligations.ControlRegisterAndOrderingInstructions : Prop :=
  (∀ (i : Fin 21 → Instr) (o : Op) (f : Option (Word → Word → Word)),
    (i, o, f) ∈ ([(.crr, .crr, none), (.crw, .crw, some fun _ v => v), (.crs, .crs, some fun old v => old ||| v),
      (.crc, .crc, some fun old v => old &&& ~~~v)] : List ((Fin 21 → Instr) × Op × Option (Word → Word → Word))) →
    ∀ (s s1 : State) (p : Fin 21) (w : Word), Fetches p o w s s1 →
      let k := w.toNat % 4096
      let old := s1.crGet p k
      Answers (i p) s fun t =>
        (crSysreg k = true → s1.sysreg p = false → t = (s1.dropPend p).exc p 6 k 16) ∧
        (crSysreg k = false ∨ s1.sysreg p = true → Retired p (s1.nextPcc p) s1 t ∧
          (f = none → Holds p (upd0 (s1.gR p) (fD w) old) (s1.fR p) (s1.cR p) (s1.crS p) t) ∧
          ∀ h, f = some h → Holds p (upd0 (s1.gR p) (fD w) old) (s1.fR p) (s1.cR p)
            (upd (s1.crS p) k ((s1.crS p k &&& ~~~(crMask k)) ||| (h old (s1.gR p (fA w)) &&& crMask k))) t)) ∧
  (∀ (s s1 : State) (p : Fin 21) (w : Word), Fetches p .csync w s s1 → Answers (.csync p) s fun t =>
    Retired p (s1.nextPcc p) s1 t ∧ (t.img p).ctx = [] ∧ Holds p (s1.gR p) (s1.fR p) (s1.cR p) (s1.crS p) t) ∧
  (∀ (s s1 : State) (p : Fin 21) (w : Word), Fetches p .fence w s s1 → Answers (.fence p) s fun t =>
    Retired p (s1.nextPcc p) ((s1.dropPend p).drainAll p) t ∧ (t.core p).sb = [] ∧
    Holds p (s1.gR p) (s1.fR p) (s1.cR p) (s1.crS p) t) ∧
  (∀ (s s1 : State) (p : Fin 21) (w : Word), Fetches p .wfi w s s1 → Answers (.wfi p) s fun t =>
    ((s1.topLine p (s1.il p)).isSome = true → Retired p (s1.nextPcc p) s1 t) ∧
    ((s1.topLine p (s1.il p)).isSome = false → t = { s1 with cores := t.cores } ∧ (t.img p).pcc = (s1.img p).pcc ∧
      (t.img p).ret = (s1.img p).ret ∧ (t.core p).free = max (s1.core p).free s1.tick + 1) ∧
    Holds p (s1.gR p) (s1.fR p) (s1.cR p) (s1.crS p) t)

/-- KCALL, BREAK, ERET, INTERRUPT, WATCHDOG, ILLEGAL and FETCH_FAULT. (1) KCALL and BREAK retire and then take exceptions 12
and 11 with their imm12 and the next instruction as the saved pcc. (2) A fetched word that is no instruction takes ILLEGAL with
its address and itself; a fetch that fails its checks takes the exception of the check. (3) A line that qualifies is taken at a
boundary, by INTERRUPT and by an instruction that stands there, behind a synchronous exception and behind a WFI in E. (4) The
first stage of a watchdog sets STAGE1 (the event is log entry 92), and a running pair at a boundary takes the WATCHDOG
exception with the ticks left; otherwise it is due. (5) ERET without DF_ACTIVE, with no line to chain, restores pcc, IL and IE,
c1, c3, c4 and g1 to g4 from the frame and moves csp past it; every other register stays. With DF_ACTIVE the frame is read from
cfs, csp stays and DF_ACTIVE ends. -/
def Obligations.ExceptionsAndReturnsAreTaken : Prop :=
  (∀ (s s1 : State) (p : Fin 21) (w : Word) (i : Fin 21 → Instr) (o : Op) (n : Nat),
    (i, o, n) ∈ ([(.kcall, .kcall, 12), (.breakW, .breakW, 11)] : List ((Fin 21 → Instr) × Op × Nat)) → Fetches p o w s s1 →
    Answers (i p) s fun t => ∃ u, Retired p (s1.nextPcc p) s1 u ∧ Holds p (s1.gR p) (s1.fR p) (s1.cR p) (s1.crS p) u ∧
      t = (u.toBoundary p).exc p n 0 (w.toNat % 4096)) ∧
  (∀ (s s1 : State) (p : Fin 21) (w : Word), s.atBoundary p = true → (s.core p).wdPend = false →
    (s.toBoundary p).fetch p = (.inr w, s1) → decodeWord w = none → Answers (.illegal p) s fun t =>
      t = s1.exc p 2 (s1.pc p) w.toNat) ∧
  (∀ (s s1 : State) (p : Fin 21) (w : Word), s.atBoundary p = true → (s.core p).wdPend = false →
    (s.toBoundary p).fetch p = (.inr w, s1) → Op.cx.is w = true → s1.cxOk p w = false → s1.ecc = [] → Answers (.illegal p) s fun t =>
      t = s1.exc p 2 (s1.pc p) w.toNat) ∧
  (∀ (s s1 : State) (p : Fin 21) (k ea ei : Nat), s.atBoundary p = true → (s.core p).wdPend = false →
    (s.toBoundary p).fetch p = (.inl (k, ea, ei), s1) → Answers (.fetchFault p) s fun t => t = s1.exc p k ea ei) ∧
  (∀ (s : State) (p : Fin 21) (l : Nat), s.atBoundary p = true → (s.toBoundary p).takenLine p = some l → Answers (.interrupt p) s fun t =>
    (∀ u, s.boundaryExc p = some u → (s.core p).inWfi = false → t = u) ∧
    (s.boundaryExc p = none → (s.core p).inWfi = false → t = (s.toBoundary p).enter p (irqEv (s.img p).pcc l none)) ∧
    ((s.core p).inWfi = true → ∃ u, Retired p (s.nextPcc p) (s.toBoundary p) u ∧
      t = (u.toBoundary p).enter p (irqEv (s.nextPcc p) l none))) ∧
  (∀ (s s1 : State) (p : Fin 21) (w : Word) (l : Nat) (i : Fin 21 → Instr) (o : Op),
    (i, o) ∈ ([(.add, .add), (.lui, .lui), (.quos, .quos), (.lw, .lw), (.sw, .sw), (.bz, .bz), (.tasB, .tasB), (.fadd, .fadd),
      (.tcopy, .tcopy), (.crr, .crr), (.wfi, .wfi), (.eret, .eret), (.mcpy, .mcpy), (.cx, .cx)] : List ((Fin 21 → Instr) × Op)) →
    s.atBoundary p = true → (s.core p).wdPend = false → (s.toBoundary p).fetch p = (.inr w, s1) → o.is w = true →
    s.lineNow p = some l → Answers (i p) s fun t => t = (s.toBoundary p).enter p (irqEv (s.img p).pcc l none)) ∧
  (∀ (s : State) (p : Fin 21), s.wdRuns p = true → s.bit (Reg.GLV_WDKICK p) F.GLV_WDKICK_STAGE1 = false →
    let u0 := (s.atTick ((s.core p).kick + s.wdPeriod p)).flag (Reg.GLV_WDKICK p) F.GLV_WDKICK_STAGE1
    let u := u0.raiseIf u0.fwRuns 1677 0x7B p
    Answers (.watchdog p) s fun t =>
      t.bit (Reg.GLV_WDKICK p) F.GLV_WDKICK_STAGE1 = true ∧
      (s.atBoundary p = true → s.glvState p = 0 → ∃ v : State, (v.core p).wdPend = false ∧ v = { u.toBoundary p with cores := v.cores } ∧
        t = v.exc p 14 0 ((s.core p).kick + s.wdPeriod p + s.wdGrace p - v.tick)) ∧
      (s.atBoundary p = false ∨ s.glvState p ≠ 0 → t = { u with cores := t.cores } ∧ (t.core p).wdPend = true)) ∧
  (∀ (s s1 s2 : State) (p : Fin 21) (w : Word) (l : List Cap), Fetches p .eret w s s1 → s1.dfActive p = false →
    (s1.dropPend p).returnFrame p (s1.cR p 2) (s1.cR p 2).addr = (.inr l, s2) →
    let r := fun n => l.getD n Cap.null
    let st := (r 1).lo.toNat
    (nbit st 3 = true → s2.topLine p (nbits st 0 3) = none) → Answers (.eret p) s fun t =>
      t = { s2 with cores := t.cores } ∧ (t.img p).pcc = r 0 ∧ s2.cR p 2 = s1.cR p 2 ∧
      (∀ n, t.cR p n = if n = 1 then r 3 else if n = 3 then r 4 else if n = 4 then r 5
        else if n = 2 then (s2.cR p 2).point ((s2.cR p 2).addr + if nbit st 5 then 80 else 64) else s2.cR p n) ∧
      (∀ n, t.gR p n = if n = 1 then (r 6).lo else if n = 2 then (r 6).hi else if n = 3 then (r 7).lo else if n = 4 then (r 7).hi
        else s2.gR p n) ∧
      (∀ n, t.fR p n = s2.fR p n) ∧ (∀ n, n ≠ 0 → t.crS p n = s2.crS p n) ∧
      nbits (t.crS p 0).toNat 0 4 = nbits st 0 4 ∧ (t.crS p 0).toNat / 16 = (s2.crS p 0).toNat / 16) ∧
  (∀ (s s1 s2 : State) (p : Fin 21) (w : Word) (l : List Cap), Fetches p .eret w s s1 → s1.dfActive p = true →
    (s1.dropPend p).returnFrame p (s1.img p).cfs (enc 32 (((s1.img p).cfs.addr : Int) - if s1.xframe p then 80 else 64)) = (.inr l, s2) →
    Answers (.eret p) s fun t =>
      t = { s2 with cores := t.cores } ∧ (t.img p).pcc = l.getD 0 Cap.null ∧ t.cR p 2 = s2.cR p 2 ∧ t.dfActive p = false)

/-- The one operation that KCALL, BREAK, ILLEGAL, FETCH_FAULT, INTERRUPT, WATCHDOG and every failed check use. For an event
whose frame and vector pass the checks, outside a double fault for an exception: the pair goes on at the vector's capability,
csp points at the frame below the old one, and a load of the pair finds every granule of the frame, with its tag, where csp
points; an exception leaves CAUSE, EADDR and EINFO, an interrupt sets IL to its line's priority and clears its pulse; the
reservation and the pending context changes end; no g- or f-register and no other c-register changes; with an empty store
buffer no byte of memory outside the frame changes. -/
def Obligations.ExceptionEntrySavesAndVectors : Prop :=
  ∀ (s : State) (p : Fin 21) (e : Ev) (v : Cap), e.sync = false ∨ s.dfActive p = false →
    let s0 := { s with resv := tdel s.resv p }.mapImg p fun i => { i with ctx := [], micro := none, pend := none }
    let c := s.cR p 2
    let a := enc 32 ((c.addr : Int) - e.size)
    let fr := s0.frame p e e.byte (if e.sync then e.eaddr else 0) (if e.sync then e.einfo else 0)
    s0.frameCheck p false c a e.size = none → ((s0.pushGrans p a fr).vector p e.index).1 = .inr v →
    let t := s.enter p e
    (t.img p).pcc = v ∧ t.cR p 2 = c.point a ∧ (∀ n, n ≠ 2 → t.cR p n = s.cR p n) ∧ (∀ n, t.gR p n = s.gR p n) ∧
    (∀ n, t.fR p n = s.fR p n) ∧ (t.img p).ctx = [] ∧ (∀ r ∈ t.resv, r.1 ≠ p.val) ∧ t.tick = s.tick ∧
    (e.line = none → t.crS p 1 = BitVec.ofNat 32 e.byte ∧ t.crS p 2 = BitVec.ofNat 32 e.eaddr ∧ t.crS p 3 = BitVec.ofNat 32 e.einfo ∧
      nbits (t.crS p 0).toNat 0 5 = nbits (s.crS p 0).toNat 0 5) ∧
    (∀ l, e.line = some l → nbits (t.crS p 0).toNat 0 3 = s.linePrio p l ∧
      (l < 64 → (tget 0 t.irq p).getLsbD l = false) ∧ ∀ n, 1 ≤ n → n ≤ 3 → t.crS p n = s.crS p n) ∧
    (∀ j k : Nat, j < e.size / 8 → memKey p ((a + 8 * j) % 2 ^ 32) = some k →
      ((t.ldMem p k 8).1.1 = none ∨ s.ecc ≠ []) ∧ (t.ldMem p k 8).1.2 = (leBytes 8 (fr.getD j (0, false)).1.toNat, (fr.getD j (0, false)).2)) ∧
    ((s.core p).sb = [] → ∀ x, (∀ j k : Nat, j < e.size / 8 → memKey p ((a + 8 * j) % 2 ^ 32) = some k → x < k ∨ k + 8 ≤ x) →
      t.rdByte x = s.rdByte x)

/-- CX, ALU, ALUI, BR, JMP, END, MEM and FAULT, where no word reads with an error. (1) A CX with a valid entry that it may
execute starts at the entry's first word and holds the pc. (2) A pair's ALU or ALUI word writes a local register with the
function of its operands and goes on with the next word; a BR word goes on at its target exactly when its condition holds, and
JMP always. (3) END with no held write retires the CX, and a debug halt asked for meanwhile takes hold. (4) A load word of MEM
that passes its checks writes the bytes to its local register. (5) A FAULT word with cause 2 stops the CX with ILLEGAL. (6) A
Lock engine executes ALU, ALUI, BR and JMP words the same way on its own registers. -/
def Obligations.CustomerInstructionsRunTheirMicrowords : Prop :=
  (∀ (s s1 : State) (p : Fin 21) (w : Word), Fetches p .cx w s s1 → s1.ecc = [] → s1.cxOk p w = true → (s1.img p).pend = none →
    let e := s1.decEntry p (fE w)
    nbit e 20 = false ∨ s1.sysreg p = true → Answers (.cx p) s fun t =>
      t = { s1 with cores := t.cores, free := t.free } ∧ (t.img p).pcc = (s1.img p).pcc ∧
      ∃ m, (t.img p).micro = some m ∧ m.entry = e ∧ m.word = w ∧ m.upc = nbits e 1 11 ∧ m.held = [] ∧
        ∀ r, 1 ≤ r → r ≤ 3 → tget 0 m.regs r = 0) ∧
  (∀ (s : State) (p : Fin 21) (m : Micro) (w : Nat), s.ecc = [] → s.coreGo p = true → (s.img p).micro = some m →
    s.vertWord p m.upc = some w → s.microInt p = none →
    let on := fun (x : Micro) (t : State) =>
      t = { s.toBoundary p with cores := t.cores } ∧ t.img p = { s.img p with micro := some { x with safe := nbit w 23 } }
    let d := nbits w 10 5
    (∀ imm : Bool, nbits w 19 4 = (if imm then 1 else 0) → (1 ≤ d ∧ d ≤ 3) ∨ (16 ≤ d ∧ d < 24) →
      Answers (if imm then .alui (.pair p) else .alu (.pair p)) s fun t =>
        let x := if imm then s.microReg p m d else s.microReg p m (nbits w 5 5)
        let y := if imm then microImm w else s.microReg p m (nbits w 0 5)
        on { m with regs := tput m.regs d (microAlu (nbits w 15 4) x y), upc := (m.upc + 1) % 2048 } t) ∧
    (nbits w 19 4 = 2 → nbits w 16 3 < 4 → Answers (.br (.pair p)) s fun t =>
      let x := s.microReg p m (nbits w 11 5)
      let taken := if nbits w 16 3 = 0 then x = 0 else if nbits w 16 3 = 1 then x ≠ 0 else if nbits w 16 3 = 2 then x.toInt < 0 else 0 ≤ x.toInt
      (taken → on { m with upc := nbits w 0 11 } t) ∧ (¬ taken → on { m with upc := (m.upc + 1) % 2048 } t)) ∧
    (nbits w 19 4 = 3 → Answers (.jmp (.pair p)) s fun t => on { m with upc := nbits w 0 11 } t) ∧
    (nbits w 19 4 = 6 → m.held = [] → Answers (.endW (.pair p)) s fun t =>
      ∃ u, Retired p (s.nextPcc p) (s.toBoundary p) u ∧ (u.img p).micro = none ∧ Holds p (s.gR p) (s.fR p) (s.cR p) (s.crS p) u ∧
        t = u.haltNow p ∧ ((s.core p).halt = false → t = u) ∧ ((s.core p).halt = true → t.glvState p = 3)) ∧
    (nbits w 19 4 = 5 → nbits w 0 5 = 2 → Answers (.faultW p) s fun t =>
      t = (s.toBoundary p).microTrap p m 2 (s.pc p) m.word.toNat) ∧
    (nbits w 19 4 = 4 → nbit w 18 = false → nbit m.entry 18 = true → (m.opnd 1).1 = 3 →
      let n := 2 ^ nbits w 16 2
      let a := (s.microReg p m (nbits w 6 5)).toNat
      let r := nbits w 11 5
      (1 ≤ r ∧ r ≤ 3) ∨ (16 ≤ r ∧ r < 24) → Answers (.mem p) s fun t =>
        ∀ b s2, (s.toBoundary p).load p (s.cR p (m.opnd 1).2) (accOf pLoad n) (m.opnd 1).2 false a n = (.inr b, s2) →
          t = { s2 with cores := t.cores } ∧
          (t.img p).micro = some { m with regs := tput m.regs r (BitVec.ofNat 32 (leNat b)), upc := (m.upc + 1) % 2048, safe := nbit w 23 })) ∧
  (∀ (s : State) (n : Fin 16) (e : Fin 8) (w : Nat), s.ecc = [] → s.stalled n e = false → (s.eng n e).waits = 0 → s.runOn n = true →
    s.csWord n 0 (s.eng n e).pc = some w → nbit w 23 = false → (s.eng n e).run < 255 →
    let d := nbits w 10 5
    let x := s.eng n e
    let on := fun (f : Tbl Word) (pc : Nat) (t : State) =>
      t = { s with fcs := t.fcs } ∧ t.eng n e = { x with regs := f, pc := pc % 1024, run := x.run + 1 }
    (nbits w 19 4 = 0 → 1 ≤ d → d < 16 → Answers (.alu (.engine n e)) s fun t =>
      on (tput x.regs d (microAlu (nbits w 15 4) (s.engReg n e (nbits w 5 5)) (s.engReg n e (nbits w 0 5)))) (x.pc + 1) t) ∧
    (nbits w 19 4 = 1 → 1 ≤ d → d < 16 → Answers (.alui (.engine n e)) s fun t =>
      on (tput x.regs d (microAlu (nbits w 15 4) (s.engReg n e d) (microImm w))) (x.pc + 1) t) ∧
    (nbits w 19 4 = 2 → nbits w 16 3 = 0 → Answers (.br (.engine n e)) s fun t =>
      on x.regs (if s.engReg n e (nbits w 11 5) = 0 then nbits w 0 11 else x.pc + 1) t) ∧
    (nbits w 19 4 = 3 → Answers (.jmp (.engine n e)) s fun t => on x.regs (nbits w 0 11) t) ∧
    (nbits w 19 4 = 6 → Answers (.endW (.engine n e)) s fun t => t.mem = s.mem ∧ (t.eng n e).waits = 5))

/-- MCPY, MFILL, VDOT, CRCB.16 and CRCB.32: each command performs one element. With a count of 0 the instruction retires with
no other effect. Otherwise an element that passes its checks and reads its bytes advances the capabilities by the element's
size and lowers the count by its bytes or elements; the instruction retires when the count reaches 0, and stays with its pc
until then. MCPY and MFILL move eight bytes where both addresses are aligned and eight are left, else one, into the store
buffer; VDOT adds one product with one rounding to fd, and a trap of it leaves the saved pcc at VDOT; the CRCs fold the byte
read into gd. A first check that fails takes its exception with nothing written. -/
def Obligations.LongInstructionsMoveOneElement : Prop :=
  (∀ (i : Fin 21 → Instr) (o : Op),
    (i, o) ∈ ([(.mcpy, .mcpy), (.mfill, .mfill), (.vdot, .vdot), (.crcb16, .crcb16), (.crcb32, .crcb32)] : List ((Fin 21 → Instr) × Op)) →
    ∀ (s s1 : State) (p : Fin 21) (w : Word), Fetches p o w s s1 → s1.gR p (fE w) = 0 → Answers (i p) s fun t =>
      Retired p (s1.nextPcc p) s1 t ∧ Holds p (s1.gR p) (s1.fR p) (s1.cR p) (s1.crS p) t) ∧
  (∀ (s s1 s2 : State) (p : Fin 21) (w : Word) (b : List Byte), Fetches p .mcpy w s s1 → s1.gR p (fE w) ≠ 0 →
    let d := s1.cR p (fD w)
    let a := s1.cR p (fA w)
    let n := (s1.gR p (fE w)).toNat
    let k := if d.addr % 8 = 0 ∧ a.addr % 8 = 0 ∧ 8 ≤ n then 8 else 1
    s1.access p a (accOf pLoad k) (fA w) false a.addr k = none → s1.access p d (accOf pStore k) (fD w) false d.addr k = none →
    (s1.dropPend p).ldParts p (accParts a.addr k) = (.inr b, s2) → Answers (.mcpy p) s fun t =>
      let s3 := s2.stParts p (accParts d.addr k) b
      t = { s3 with cores := t.cores } ∧ (t.core p).sb.map heldOf = (s3.core p).sb.map heldOf ∧
      (t.img p).pcc = (if n = k then s3.nextPcc p else (s3.img p).pcc) ∧
      Holds p (upd0 (s3.gR p) (fE w) (BitVec.ofNat 32 (n - k))) (s3.fR p)
        (upd0 (upd0 (s3.cR p) (fD w) (d.point (d.addr + k))) (fA w) (a.point (a.addr + k))) (s3.crS p) t) ∧
  (∀ (s s1 : State) (p : Fin 21) (w : Word), Fetches p .mfill w s s1 → s1.gR p (fE w) ≠ 0 →
    let d := s1.cR p (fD w)
    let n := (s1.gR p (fE w)).toNat
    let k := if d.addr % 8 = 0 ∧ 8 ≤ n then 8 else 1
    Answers (.mfill p) s fun t =>
      (∀ c e x, s1.access p d (accOf pStore k) (fD w) false d.addr k = some (c, e, x) → t = (s1.dropPend p).exc p c e x) ∧
      (s1.access p d (accOf pStore k) (fD w) false d.addr k = none →
        let s3 := (s1.dropPend p).stParts p (accParts d.addr k) (fillBytes (s1.gR p (fA w)) d.addr k)
        t = { s3 with cores := t.cores } ∧ (t.core p).sb.map heldOf = (s3.core p).sb.map heldOf ∧
        (t.img p).pcc = (if n = k then s3.nextPcc p else (s3.img p).pcc) ∧
        Holds p (upd0 (s3.gR p) (fE w) (BitVec.ofNat 32 (n - k))) (s3.fR p) (upd0 (s3.cR p) (fD w) (d.point (d.addr + k))) (s3.crS p) t)) ∧
  (∀ (s s1 s2 s3 : State) (p : Fin 21) (w : Word) (x y : List Byte), Fetches p .vdot w s s1 → s1.gR p (fE w) ≠ 0 →
    let a := s1.cR p (fA w)
    let b := s1.cR p (fB w)
    s1.access p a (accOf pLoad 4) (fA w) false a.addr 4 = none → s1.access p b (accOf pLoad 4) (fB w) true b.addr 4 = none →
    (s1.dropPend p).ldParts p (accParts a.addr 4) = (.inr x, s2) → s2.ldParts p (accParts b.addr 4) = (.inr y, s3) →
    let r := fMadd (s3.fctl p) (s3.fR p (fD w)) (BitVec.ofNat 32 (leNat x)) (BitVec.ofNat 32 (leNat y))
    Answers (.vdot p) s fun t => ∃ u : State,
      u = { s3 with cores := u.cores } ∧
      Holds p (upd0 (s3.gR p) (fE w) (s1.gR p (fE w) - 1)) (upd (s3.fR p) (fD w) r.1)
        (upd0 (upd0 (s3.cR p) (fA w) (a.point (a.addr + 4))) (fB w) (b.point (b.addr + 4)))
        (upd (s3.crS p) 0x10 (s3.crS p 0x10 ||| BitVec.ofNat 32 (4 * r.2))) u ∧
      (s3.fpTrap p r.2 = false → t = u ∧
        (u.img p).pcc = (if s1.gR p (fE w) = 1 then s3.nextPcc p else (s3.img p).pcc)) ∧
      (s3.fpTrap p r.2 = true → (u.img p).pcc = (s3.img p).pcc ∧ t = (u.toBoundary p).exc p 13 0 r.2)) ∧
  (∀ (s s1 s2 : State) (p : Fin 21) (w : Word) (b : Byte) (i : Fin 21 → Instr) (o : Op) (f : Word → Byte → Word),
    (i, o, f) ∈ ([(.crcb16, .crcb16, fun v b => BitVec.ofNat 32 (crc16 (v.toNat % 65536) [b])),
      (.crcb32, .crcb32, fun v b => BitVec.ofNat 32 (crc32Byte v.toNat b))] : List ((Fin 21 → Instr) × Op × (Word → Byte → Word))) →
    Fetches p o w s s1 → s1.gR p (fE w) ≠ 0 →
    let a := s1.cR p (fA w)
    (s1.dropPend p).load p a (accOf pLoad 1) (fA w) false a.addr 1 = (.inr [b], s2) → Answers (i p) s fun t =>
      t = { s2 with cores := t.cores } ∧ (t.img p).pcc = (if s1.gR p (fE w) = 1 then s2.nextPcc p else (s2.img p).pcc) ∧
      Holds p (upd0 (upd0 (s2.gR p) (fE w) (s1.gR p (fE w) - 1)) (fD w) (f (s2.gR p (fD w)) b)) (s2.fR p)
        (upd0 (s2.cR p) (fA w) (a.point (a.addr + 1))) (s2.crS p) t)

/-- With command c at the front of the queue a step is exec of c on the state with the queue's rest; with no command the clock
advances by one tick and TS by one modulo 2^64, and nothing else changes. The idle tick is the model's choice (log entry 1). -/
def Obligations.AStepRunsTheCommandInFront : Prop :=
  (∀ (s : State) (c : Instr) (r : List Instr), step { s with pending := c :: r } = exec c { s with pending := r }) ∧
  ∀ s : State, s.pending = [] → step s = .next { s with tick := s.tick + 1, ts := (s.ts + 1) % 2 ^ 64 }

/-- Whatever command is sent, with whatever operands and in whatever state, the block takes it and goes on: no command of the
333 ends in a fault or a refusal of the model. What the command does then is what the statement of its family says; a command
whose conditions the spec does not meet (a step of another tick, an entry of another opcode) changes nothing. -/
def Obligations.EveryCommandAnswersANextState : Prop := ∀ (i : Instr) (s : State), ∃ t, exec i s = .next t

/-- State.reset: no command waits, no memory lists a byte, no tag is set, TS is 0, the device state is BOOT_ROM, SAFE_n is
driven low; every flight controller has RUN 0 and the cycle of 1,600 ticks that its length register's reset value gives, no
flight is bound; every pair's STATE reads HALTED; no submission queue of a port is enabled, its link is down and every MSI-X
vector is masked; every trip group is unlatched. Each value is one the spec states for reset. -/
def Obligations.ResetLeavesTheSpecifiedState : Prop :=
  let s := State.reset
  s.pending = [] ∧ s.mem = [] ∧ s.tags = [] ∧ s.ts = 0 ∧ s.dev = 0 ∧ s.safeDriven = true ∧
  (∀ n : Fin 16, s.runOn n = false ∧ s.tcyc n = 1600 ∧ s.bound n 0 = false ∧ s.bound n 1 = false) ∧
  (∀ p : Fin 21, s.glvState p = 3) ∧
  (∀ p : Fin 2, (s.port p).up = false ∧ (∀ q : Fin 8, s.sqOn p q = false) ∧ ∀ v : Fin 64, s.vecMasked p v = true) ∧
  ∀ g : Fin 32, s.latched g = false

/-- The invariant of the model's data holds at reset: the memory list has strictly rising keys and no entry that reads as a
byte nothing has written (log entry 5), and TS is below 2^64 (R1). -/
def Obligations.TheInvariantHoldsAtReset : Prop := Inv State.reset

/-- For every state in which the memories stand in their canonical form and TS is below 2^64, and whatever command waits in
front, the state after the step meets both again: no command, whichever it is of the 333 and whatever its operands, leaves a
memory list out of order or with an entry equal to an empty byte, or a time stamp that 64 bits do not hold. The form of the
memory is the model's (log entry 5). -/
def Obligations.EveryStepKeepsTheInvariant : Prop := ∀ s t : State, Inv s → step s = .next t → Inv t

/-- A word decodes to an instruction exactly when it matches that instruction's fixed bits and meets its further conditions: no
word is two of the 117 instructions. An instruction's word built with any operand bits x keeps those bits in every place that
its fixed bits leave open, and decodes to that instruction wherever its conditions hold; where they fail, and for a word that
matches no row, decoding answers none. -/
def Obligations.OcoshWordsDecodeUniquely : Prop :=
  (∀ (w : Word) (o : Op), decodeWord w = some o ↔ o.is w = true) ∧
  (∀ (o : Op) (x : Word), opWord o x &&& o.enc.1 = o.enc.2 ∧ opWord o x &&& ~~~o.enc.1 = x &&& ~~~o.enc.1 ∧
    (o.more (opWord o x) = true → decodeWord (opWord o x) = some o) ∧
    (o.more (opWord o x) = false → decodeWord (opWord o x) = none)) ∧
  ∀ w : Word, (∀ o : Op, o.is w = false) → decodeWord w = none

/-- Words spelled out bit by bit from the formats of R214 decode to the instruction they stand for: ADDI g0, g0, 0; BNZ g5 back
to itself less one; TAS.B g5 from c4; MCPY c6 from c5 by g7; FENCE; SB of g0 through c4; the first customer instruction; and
the words of zeros and of ones are no instruction. The sign of a branch offset is that of its 21 bits. -/
def Obligations.WordsOfTheManualDecode : Prop :=
  decodeWord 0x08000000 = some .addi ∧ decodeWord 0x84BFFFFF = some .bnz ∧ fD 0x84BFFFFF = 5 ∧ off21 0x84BFFFFF = -1 ∧
  decodeWord 0xA0A40002 = some .tasB ∧ fD 0xA0A40002 = 5 ∧ fA 0xA0A40002 = 4 ∧
  decodeWord 0xE0C501C0 = some .mcpy ∧ fD 0xE0C501C0 = 6 ∧ fA 0xE0C501C0 = 5 ∧ fE 0xE0C501C0 = 7 ∧
  decodeWord 0xD0009000 = some .fence ∧ decodeWord 0x60040000 = some .sb ∧ fA 0x60040000 = 4 ∧
  decodeWord 0xF0000000 = some .cx ∧ decodeWord 0 = none ∧ decodeWord 0xFFFFFFFF = none

/-- A fetch that answers a word reads it from the pair's ITCM at the pc. At a pc outside ITCM whose capability is tagged,
unsealed, executable, aligned and covers the word, the fetch takes BUS (cause 9) with EADDR the pc, and no word is fetched
there: no instruction of any kind has a word to execute. -/
def Obligations.OnlyItcmServesFetches : Prop :=
  (∀ (s s1 : State) (p : Fin 21) (w : Word), s.fetch p = (.inr w, s1) →
    s.pc p < 0x40000 ∧ w = BitVec.ofNat 32 (s1.rdLe (itcm p (s.pc p)) 4)) ∧
  ∀ (s : State) (p : Fin 21), s.atBoundary p = true → (s.core p).wdPend = false →
    let c := (s.img p).pcc
    c.tag = true → c.otype = 0 → c.has pExec = true → c.addr % 4 = 0 → (∀ i, i < 4 → c.covers (c.addr + i) = true) →
    0x40000 ≤ c.addr →
    (Answers (.fetchFault p) s fun t => t = (s.toBoundary p).exc p 9 c.addr 0) ∧
    ∀ (o : Op) (w : Word) (s1 : State), ¬ Fetches p o w s s1

/-- For every pair 0 to 19 whose bit is 1: a pair that has been released, that failed its cuff self-test or its memory
self-test, stays as it is; any other that has not failed since, with no load into its store open (R285), is released and starts
with pcc over ITCM at address 0, cgp over its DTCM and cfs over its fault RAM. -/
def Obligations.ReleaseStartsTheNamedPairs : Prop :=
  ∀ (s : State) (v : Word) (p : Fin 20), nbit v.toNat p = true → Answers (.release v) s fun t =>
    let cap := fun (b n m a : Nat) => capOver b n m a
    (p.val ∈ s.rel ∨ nbit (s.fld Reg.GLV_BIST F.GLV_BIST_START_PASS) p = false ∨ nbit (s.rn Reg.MEM_BIST_PAIR) p = false →
      t.core p = s.core p ∧ t.glvState p = s.glvState p ∧ (p.val ∈ t.rel ↔ p.val ∈ s.rel)) ∧
    (p.val ∉ s.rel → nbit (s.fld Reg.GLV_BIST F.GLV_BIST_START_PASS) p = true → nbit (s.rn Reg.MEM_BIST_PAIR) p = true →
      s.glvState p ≠ 2 → s.loadOpen p = false →
      p.val ∈ t.rel ∧ t.pc p = 0 ∧ (t.img p).pcc = cap 0 0x40000 (pLoad + pExec + pSysreg) 0 ∧
      t.cR p 3 = cap 0x10000000 0x40000 (pLoad + pStore + pLoadCap + pStoreCap) 0x10000000 ∧
      (t.img p).cfs = cap 0x1FFFFC00 0x400 (pLoad + pStore + pLoadCap + pStoreCap) 0x20000000 ∧
      ∀ n, n ≠ 3 → t.cR p n = Cap.null)

/-- An accepted BIND_FLIGHT whose descriptor passes the checks of R69 on its form and values, for a flight in the flight mask
of a latched group, is refused with STATE_CONFLICT (0x20): the reply reaches the outbox of the port, whose free count follows,
and no other state changes. -/
def Obligations.ABindingUnderALatchedGroupIsRefused : Prop :=
  ∀ (s : State) (e : Entry) (g : Fin 32),
    let d := fltDesc e
    Accepted 0x10 e s → (s.port e.port).d3 = false → d.formOk e = true → s.bindBad d = false → s.latched g = true →
    nbit (s.rn (Reg.SLU_GFLT g)) d.flight = true → Answers (.bindFlight e) s fun t =>
      Replied e 0x20 [] s t ∧ t = { s with regs := t.regs, ports := t.ports } ∧ SameRegs [Reg.HIF_KOUTSTAT e.port] s t ∧
      ∀ k, k ≠ e.port.val → t.port k = s.port k
end

