-- ==== Sys2Proof/Laws/Tables.lean ====
section
/-! SUPPORT. What a sparse table, a bit field, a bit of a number and a bounded loop answer after an update, and the same for the
register file. -/

namespace Sys2Proof.Machine

/-- A table reads what was written last. -/
@[simp] theorem tget_tput_self {α : Type} (d : α) (t : Tbl α) (j : Nat) (x : α) : tget d (tput t j x) j = x := by
  induction t with
  | nil => simp [tput, tget]
  | cons e r ih =>
    obtain ⟨k, v⟩ := e
    unfold tput
    split
    · simp [tget]
    · split
      · simp [tget]
      · rename_i h _
        simp [tget, Ne.symm h, ih]

/-- A write leaves every other entry. -/
theorem tget_tput_ne {α : Type} (d : α) (t : Tbl α) {i j : Nat} (x : α) (h : i ≠ j) : tget d (tput t j x) i = tget d t i := by
  induction t with
  | nil => simp [tput, tget, Ne.symm h]
  | cons e r ih =>
    obtain ⟨k, v⟩ := e
    unfold tput
    split
    · rename_i hjk
      subst hjk
      simp [tget, Ne.symm h]
    · split
      · simp [tget, Ne.symm h]
      · simp [tget, ih]

/-- A read after a write, in one equation. -/
theorem tget_tput {α : Type} (d : α) (t : Tbl α) (i j : Nat) (x : α) :
    tget d (tput t j x) i = if i = j then x else tget d t i := by
  split
  · rename_i h
    rw [h, tget_tput_self]
  · exact tget_tput_ne d t x ‹_›

/-- Removal and restriction to a set of keys: an entry that stays reads as before, one that goes reads the default. -/
theorem tget_filter {α : Type} (d : α) (p : Nat → Bool) (t : Tbl α) (i : Nat) :
    tget d (t.filter fun e => p e.1) i = if p i then tget d t i else d := by
  induction t with
  | nil => simp [tget]
  | cons e r ih =>
    obtain ⟨k, v⟩ := e
    by_cases hk : k = i
    · subst hk
      by_cases hp : p k
      · simp [List.filter, hp, tget]
      · simp [List.filter, hp, ih]
    · by_cases hp : p k
      · simp [List.filter, hp, tget, hk, ih]
      · simp [List.filter, hp, tget, hk, ih]

@[simp] theorem tget_tdel_self {α : Type} (d : α) (t : Tbl α) (j : Nat) : tget d (tdel t j) j = d := by
  unfold tdel
  rw [tget_filter d (fun k => k != j)]
  simp

theorem tget_tdel_ne {α : Type} (d : α) (t : Tbl α) {i j : Nat} (h : i ≠ j) : tget d (tdel t j) i = tget d t i := by
  unfold tdel
  rw [tget_filter d (fun k => k != j)]
  simp [h]

@[simp] theorem State.rg_wr_self (s : State) (a : Nat) (v : Word) : (s.wr a v).rg a = v := by
  simp [State.rg, State.wr]

theorem State.rg_wr_ne (s : State) {a b : Nat} (v : Word) (h : b ≠ a) : (s.wr a v).rg b = s.rg b := by
  simp [State.rg, State.wr, tget_tput_ne _ _ _ h]

theorem State.rg_sf_ne (s : State) {a b : Nat} (f : Fld) (x : Nat) (h : b ≠ a) : (s.sf a f x).rg b = s.rg b := s.rg_wr_ne _ h

@[simp] theorem State.rg_sf_self (s : State) (a : Nat) (f : Fld) (x : Nat) : (s.sf a f x).rg a = fput (s.rg a) f x :=
  s.rg_wr_self _ _

/-- Two states with the same register table read the same registers. -/
theorem State.rg_congr {s t : State} (h : t.regs = s.regs) (a : Nat) : t.rg a = s.rg a := by
  simp [State.rg, h]

/-- Bit `i` of a word with a field replaced: the field's bits are those of the new value, the others stay. -/
theorem getLsbD_fput (v : Word) (f : Fld) (x i : Nat) (hi : i < 32) :
    (fput v f x).getLsbD i = if f.lo ≤ i ∧ i < f.lo + f.w then x.testBit (i - f.lo) else v.getLsbD i := by
  have hm : (fmask f).getLsbD i = decide (f.lo ≤ i ∧ i < f.lo + f.w) := by
    unfold fmask
    rw [BitVec.getLsbD_ofNat]
    simp only [hi, decide_true, Bool.true_and, Nat.testBit_mul_two_pow, Nat.testBit_two_pow_sub_one]
    by_cases h1 : f.lo ≤ i
    · simp [h1]; omega
    · simp [h1]
  unfold fput
  simp only [BitVec.getLsbD_or, BitVec.getLsbD_and, BitVec.getLsbD_not, hm, hi, decide_true, Bool.true_and,
    BitVec.getLsbD_ofNat, Nat.testBit_mul_two_pow, Nat.testBit_mod_two_pow]
  by_cases h : f.lo ≤ i ∧ i < f.lo + f.w
  · have h2 : i - f.lo < f.w := by omega
    simp [h, h2]
  · simp [h]

/-- A field of 1 to 32 bits inside the word reads what was put into it. -/
theorem fget_fput_self (v : Word) (f : Fld) (x : Nat) (h : f.lo + f.w ≤ 32) : fget (fput v f x) f = x % 2 ^ f.w := by
  apply Nat.eq_of_testBit_eq
  intro i
  unfold fget
  rw [Nat.testBit_mod_two_pow, Nat.testBit_mod_two_pow, Nat.testBit_div_two_pow]
  by_cases hi : i < f.w
  · have := getLsbD_fput v f x (i + f.lo) (by omega)
    rw [BitVec.getLsbD] at this
    rw [this]
    have h2 : i + f.lo < f.lo + f.w := by omega
    simp [hi, h2]
  · simp [hi]

/-- A field of a word is not touched by a write of a disjoint field. -/
theorem fget_fput_disjoint (v : Word) (f g : Fld) (x : Nat) (h : f.lo + f.w ≤ g.lo ∨ g.lo + g.w ≤ f.lo) :
    fget (fput v f x) g = fget v g := by
  apply Nat.eq_of_testBit_eq
  intro i
  unfold fget
  rw [Nat.testBit_mod_two_pow, Nat.testBit_mod_two_pow, Nat.testBit_div_two_pow, Nat.testBit_div_two_pow]
  by_cases hi : i < g.w
  · by_cases h32 : i + g.lo < 32
    · have := getLsbD_fput v f x (i + g.lo) h32
      rw [BitVec.getLsbD, BitVec.getLsbD] at this
      have hn : ¬ (f.lo ≤ i + g.lo ∧ i + g.lo < f.lo + f.w) := by omega
      rw [this, if_neg hn]
    · rw [Nat.testBit_lt_two_pow (Nat.lt_of_lt_of_le (fput v f x).isLt (Nat.pow_le_pow_right (by omega) (by omega))),
        Nat.testBit_lt_two_pow (Nat.lt_of_lt_of_le v.isLt (Nat.pow_le_pow_right (by omega) (by omega)))]
  · simp [hi]

/-- A field of the register file reads what was put into it. -/
theorem State.fld_sf_self (s : State) (a : Nat) (f : Fld) (x : Nat) (h : f.lo + f.w ≤ 32) : (s.sf a f x).fld a f = x % 2 ^ f.w := by
  simp [State.fld, fget_fput_self _ _ _ h]

theorem State.fld_sf_disjoint (s : State) (a : Nat) (f g : Fld) (x : Nat) (h : f.lo + f.w ≤ g.lo ∨ g.lo + g.w ≤ f.lo) :
    (s.sf a f x).fld a g = s.fld a g := by
  simp [State.fld, fget_fput_disjoint _ _ _ _ h]

theorem State.fld_sf_ne (s : State) {a b : Nat} (f g : Fld) (x : Nat) (h : b ≠ a) : (s.sf a f x).fld b g = s.fld b g := by
  simp [State.fld, State.rg_sf_ne _ _ _ h]

theorem State.fld_wr_ne (s : State) {a b : Nat} (v : Word) (g : Fld) (h : b ≠ a) : (s.wr a v).fld b g = s.fld b g := by
  simp [State.fld, State.rg_wr_ne _ _ h]

@[simp] theorem State.lane_mapLane_self (s : State) (l : Nat) (f : Lane → Lane) : (s.mapLane l f).lane l = f (s.lane l) := by
  simp [State.lane, State.mapLane]

theorem State.lane_mapLane_ne (s : State) {l k : Nat} (f : Lane → Lane) (h : k ≠ l) : (s.mapLane l f).lane k = s.lane k := by
  simp [State.lane, State.mapLane, tget_tput_ne _ _ _ h]

@[simp] theorem State.fc_mapFc_self (s : State) (n : Nat) (f : FcSt → FcSt) : (s.mapFc n f).fc n = f (s.fc n) := by
  simp [State.fc, State.mapFc]

theorem State.fc_mapFc_ne (s : State) {n k : Nat} (f : FcSt → FcSt) (h : k ≠ n) : (s.mapFc n f).fc k = s.fc k := by
  simp [State.fc, State.mapFc, tget_tput_ne _ _ _ h]

@[simp] theorem State.slot_mapSlot_self (s : State) (n f : Nat) (g : SlotSt → SlotSt) : (s.mapSlot n f g).slot n f = g (s.slot n f) := by
  simp [State.slot, State.mapSlot]

@[simp] theorem State.cmp_mapCmp_self (s : State) (c : Nat) (f : CmpSt → CmpSt) : (s.mapCmp c f).cmp c = f (s.cmp c) := by
  simp [State.cmp, State.mapCmp]

theorem State.cmp_mapCmp_ne (s : State) {c k : Nat} (f : CmpSt → CmpSt) (h : k ≠ c) : (s.mapCmp c f).cmp k = s.cmp k := by
  simp [State.cmp, State.mapCmp, tget_tput_ne _ _ _ h]

@[simp] theorem State.pwm_mapPwm_self (s : State) (k : Nat) (f : PwmSt → PwmSt) : (s.mapPwm k f).pwm k = f (s.pwm k) := by
  simp [State.pwm, State.mapPwm]

theorem State.pwm_mapPwm_ne (s : State) {k j : Nat} (f : PwmSt → PwmSt) (h : j ≠ k) : (s.mapPwm k f).pwm j = s.pwm j := by
  simp [State.pwm, State.mapPwm, tget_tput_ne _ _ _ h]

@[simp] theorem State.port_mapPort_self (s : State) (p : Nat) (f : PortSt → PortSt) : (s.mapPort p f).port p = f (s.port p) := by
  simp [State.port, State.mapPort]

theorem State.port_mapPort_ne (s : State) {p q : Nat} (f : PortSt → PortSt) (h : q ≠ p) : (s.mapPort p f).port q = s.port q := by
  simp [State.port, State.mapPort, tget_tput_ne _ _ _ h]

/-- A loop of no turns, and of one turn more. -/
@[simp] theorem forN_zero {σ : Type} (f : Nat → σ → σ) (s : σ) : forN 0 f s = s := rfl

theorem forN_succ {σ : Type} (n : Nat) (f : Nat → σ → σ) (s : σ) : forN (n + 1) f s = f n (forN n f s) := by
  simp [forN, List.range_succ]

/-- What every turn of a loop keeps, the loop keeps. -/
theorem forN_induct {σ : Type} (P : σ → Prop) (n : Nat) (f : Nat → σ → σ) (s : σ) (h0 : P s)
    (h : ∀ i < n, ∀ s, P s → P (f i s)) : P (forN n f s) := by
  induction n with
  | zero => exact h0
  | succ n ih =>
    rw [forN_succ]
    exact h n (by omega) _ (ih fun i hi => h i (by omega))

/-- What every turn of a loop leaves alone, the loop leaves alone. -/
theorem forN_frame {σ τ : Type} (g : σ → τ) (n : Nat) (f : Nat → σ → σ) (s : σ) (h : ∀ i < n, ∀ s, g (f i s) = g s) :
    g (forN n f s) = g s :=
  forN_induct (fun t => g t = g s) n f s rfl fun i hi t ht => (h i hi t).trans ht

/-- The bits of a number are those of `Nat.testBit`. -/
theorem nbit_eq (v i : Nat) : nbit v i = v.testBit i := by
  simp [nbit, Nat.testBit_eq_decide_div_mod_eq]

/-- The bits that a mask built by a loop of `2 ^ q` additions has: one for every index that qualifies. -/
theorem nbit_forN_mask (c : Nat → Bool) (n i : Nat) :
    nbit (forN n (fun q m => if c q then m + 2 ^ q else m) 0) i = (decide (i < n) && c i) := by
  have key : ∀ n, forN n (fun q m => if c q then m + 2 ^ q else m) 0 < 2 ^ n ∧
      ∀ i, (forN n (fun q m => if c q then m + 2 ^ q else m) 0).testBit i = (decide (i < n) && c i) := by
    intro n
    induction n with
    | zero => simp
    | succ n ih =>
      obtain ⟨hlt, hb⟩ := ih
      rw [forN_succ]
      generalize forN n (fun q m => if c q then m + 2 ^ q else m) 0 = m at hlt hb
      by_cases hc : c n
      · simp only [hc, if_true]
        refine ⟨by rw [pow_succ]; omega, fun i => ?_⟩
        rw [Nat.add_comm m]
        by_cases hi : i = n
        · subst hi
          rw [Nat.testBit_two_pow_add_eq]
          simp [hb, hc]
        · by_cases hlt2 : i < n
          · rw [Nat.testBit_two_pow_add_gt hlt2, hb]
            simp [hlt2, Nat.lt_succ_of_lt hlt2]
          · have h1 : 2 ^ n + m < 2 ^ i := by
              have : 2 ^ (n + 1) ≤ 2 ^ i := Nat.pow_le_pow_right (by omega) (by omega)
              rw [pow_succ] at this
              omega
            rw [Nat.testBit_lt_two_pow h1]
            simp; omega
      · simp only [hc, Bool.false_eq_true, if_false]
        refine ⟨by rw [pow_succ]; omega, fun i => ?_⟩
        rw [hb]
        by_cases hi : i = n
        · subst hi; simp [hc]
        · congr 1
          simp; omega
  rw [nbit_eq]
  exact (key n).2 i

end Sys2Proof.Machine
end

