-- ==== Sys2Proof/Laws/Memory.lean ====
section
/-! SUPPORT. Memory: every operation that writes it keeps its canonical form, and a read answers what was written last. -/

namespace Sys2Proof.Machine

/-- Rising keys are pairwise rising. -/
theorem rising_iff (l : List Nat) : rising l = true ↔ l.Pairwise (· < ·) := by
  induction l with
  | nil => simp [rising]
  | cons a l ih =>
    cases l with
    | nil => simp [rising]
    | cons b r =>
      simp only [rising, Bool.and_eq_true, decide_eq_true_eq, ih]
      constructor
      · rintro ⟨hab, h⟩
        refine List.pairwise_cons.2 ⟨fun c hc => ?_, h⟩
        rcases List.mem_cons.1 hc with rfl | hc
        · exact hab
        · exact lt_trans hab ((List.pairwise_cons.1 h).1 c hc)
      · intro h
        exact ⟨(List.pairwise_cons.1 h).1 b (by simp), (List.pairwise_cons.1 h).2⟩

/-- The canonical form, in words of lists. -/
theorem Memory.wf_iff (m : List Host.Cell) :
    Memory.wf m = true ↔ (m.map (·.1)).Pairwise (· < ·) ∧ ∀ e ∈ m, e.2 ≠ emptyByte := by
  simp [Memory.wf, rising_iff]

/-- Memory at reset is in canonical form. -/
theorem Memory.wf_reset : Memory.wf State.reset.mem = true := by decide

/-- Leaving cells out keeps the canonical form. -/
theorem Memory.wf_filter (m : List Host.Cell) (p : Host.Cell → Bool) (h : Memory.wf m = true) :
    Memory.wf (m.filter p) = true := by
  rw [Memory.wf_iff] at h ⊢
  exact ⟨h.1.sublist (List.filter_sublist.map _), fun e he => h.2 e (List.mem_filter.1 he).1⟩

/-- Every key of a table after a write is the key written or one from before. -/
theorem mem_tput {α : Type} (t : Tbl α) (j : Nat) (x : α) (e : Nat × α) (h : e ∈ tput t j x) : e = (j, x) ∨ e ∈ t := by
  induction t with
  | nil => simpa [tput] using h
  | cons a r ih =>
    obtain ⟨k, v⟩ := a
    unfold tput at h
    split at h
    · rcases List.mem_cons.1 h with h | h
      · exact .inl h
      · exact .inr (List.mem_cons_of_mem _ h)
    · split at h
      · rcases List.mem_cons.1 h with h | h
        · exact .inl h
        · exact .inr h
      · rcases List.mem_cons.1 h with h | h
        · exact .inr (h ▸ List.mem_cons_self)
        · rcases ih h with h | h
          · exact .inl h
          · exact .inr (List.mem_cons_of_mem _ h)

/-- A write keeps the keys of a table rising. -/
theorem pairwise_tput {α : Type} (t : Tbl α) (j : Nat) (x : α) (h : (t.map (·.1)).Pairwise (· < ·)) :
    ((tput t j x).map (·.1)).Pairwise (· < ·) := by
  induction t with
  | nil => simp [tput]
  | cons a r ih =>
    obtain ⟨k, v⟩ := a
    simp only [List.map_cons, List.pairwise_cons] at h
    unfold tput
    split
    · rename_i hjk
      subst hjk
      simpa using h
    · split
      · rename_i hlt
        simp only [List.map_cons, List.pairwise_cons, List.mem_cons]
        refine ⟨?_, h⟩
        rintro b (rfl | hb)
        · exact hlt
        · exact lt_trans hlt (h.1 b hb)
      · rename_i hne hnlt
        simp only [List.map_cons, List.pairwise_cons]
        refine ⟨fun b hb => ?_, ih h.2⟩
        obtain ⟨e, he, rfl⟩ := List.mem_map.1 hb
        rcases mem_tput r j x e he with rfl | he
        · show k < j
          omega
        · exact h.1 _ (List.mem_map_of_mem he)

/-- A write of one byte keeps the canonical form. -/
theorem Memory.wf_memPut (m : List Host.Cell) (a : Nat) (b : Byte) (h : Memory.wf m = true) : Memory.wf (memPut m a b) = true := by
  unfold memPut
  split
  · exact Memory.wf_filter _ _ h
  · rename_i hb
    rw [Memory.wf_iff] at h ⊢
    refine ⟨pairwise_tput _ _ _ h.1, fun e he => ?_⟩
    rcases mem_tput _ _ _ _ he with rfl | he
    · exact hb
    · exact h.2 e he

/-- A read answers what was written last, and another byte reads as before. -/
theorem memGet_memPut (m : List Host.Cell) (a c : Nat) (b : Byte) :
    memGet (memPut m a b) c = if c = a then b else memGet m c := by
  unfold memGet memPut
  split
  · rename_i hb
    split
    · rename_i h
      rw [h, tget_tdel_self, hb]
    · exact tget_tdel_ne _ _ ‹_›
  · exact tget_tput _ _ _ _ _

theorem State.wf_wrByte (s : State) (a : Nat) (b : Byte) (h : Memory.wf s.mem = true) : Memory.wf (s.wrByte a b).mem = true :=
  Memory.wf_memPut _ _ _ h

theorem State.rdByte_wrByte (s : State) (a c : Nat) (b : Byte) : (s.wrByte a b).rdByte c = if c = a then b else s.rdByte c :=
  memGet_memPut _ _ _ _

theorem State.wf_wrBytes (s : State) (a : Nat) (l : List Byte) (h : Memory.wf s.mem = true) :
    Memory.wf (s.wrBytes a l).mem = true := by
  induction l generalizing s a with
  | nil => exact h
  | cons b r ih => exact ih _ _ (s.wf_wrByte a b h)

/-- A store of bytes from `a`: its own bytes read what was stored, every other byte reads as before. -/
theorem State.rdByte_wrBytes (s : State) (a c : Nat) (l : List Byte) :
    (s.wrBytes a l).rdByte c = if a ≤ c ∧ c < a + l.length then l.getD (c - a) 0 else s.rdByte c := by
  induction l generalizing s a with
  | nil => simp [State.wrBytes]
  | cons b r ih =>
    rw [State.wrBytes, ih, State.rdByte_wrByte]
    simp only [List.length_cons]
    by_cases h1 : a + 1 ≤ c ∧ c < a + 1 + r.length
    · have h2 : a ≤ c ∧ c < a + (r.length + 1) := by omega
      have h3 : c - a = (c - (a + 1)) + 1 := by omega
      rw [if_pos h1, if_pos h2, h3, List.getD_cons_succ]
    · rw [if_neg h1]
      by_cases h4 : c = a
      · subst h4
        have h2 : c ≤ c ∧ c < c + (r.length + 1) := by omega
        rw [if_pos h2]
        simp
      · have h2 : ¬ (a ≤ c ∧ c < a + (r.length + 1)) := by omega
        rw [if_neg h2, if_neg h4]

theorem State.wf_zeroRange (s : State) (k n : Nat) (h : Memory.wf s.mem = true) : Memory.wf (s.zeroRange k n).mem = true :=
  Memory.wf_filter _ _ h

theorem State.rdByte_zeroRange (s : State) (k n c : Nat) :
    (s.zeroRange k n).rdByte c = if k ≤ c ∧ c < k + n then 0 else s.rdByte c := by
  unfold State.rdByte memGet State.zeroRange
  rw [tget_filter emptyByte (fun a => decide (a < k) || decide (k + n ≤ a))]
  by_cases h : k ≤ c ∧ c < k + n
  · have h1 : ¬ c < k := by omega
    have h2 : ¬ k + n ≤ c := by omega
    simp [h, h1, h2, emptyByte]
  · have h1 : c < k ∨ k + n ≤ c := by omega
    simp [h, h1]

/-- The cells of a run of bytes have rising keys inside the run, and hold no empty byte. -/
theorem runCells (a : Nat) (l : List Byte) :
    let mid := ((List.range l.length).zip l).filterMap fun e => if e.2 = emptyByte then none else some (a + e.1, e.2)
    (mid.map (·.1)).Pairwise (· < ·) ∧ ∀ e ∈ mid, e.2 ≠ emptyByte ∧ a ≤ e.1 ∧ e.1 < a + l.length := by
  intro mid
  have hfst : ((List.range l.length).zip l).map (·.1) = List.range l.length := by
    rw [List.map_fst_zip]
    simp
  constructor
  · rw [List.pairwise_map]
    refine List.Pairwise.filterMap (R := fun x y : Nat × Byte => x.1 < y.1) _ ?_ ?_
    · intro x y hxy u hu v hv
      simp only [Option.ite_none_left_eq_some, Option.some.injEq] at hu hv
      obtain ⟨-, rfl⟩ := hu
      obtain ⟨-, rfl⟩ := hv
      show a + x.1 < a + y.1
      omega
    · have : (((List.range l.length).zip l).map (·.1)).Pairwise (· < ·) := by
        rw [hfst]
        exact List.pairwise_lt_range
      exact List.pairwise_map.1 this
  · intro e he
    obtain ⟨x, hx, hu⟩ := List.mem_filterMap.1 he
    simp only [Option.ite_none_left_eq_some, Option.some.injEq] at hu
    obtain ⟨hne, rfl⟩ := hu
    have : x.1 ∈ List.range l.length := (List.of_mem_zip hx).1
    rw [List.mem_range] at this
    exact ⟨hne, by show a ≤ a + x.1; omega, by show a + x.1 < a + l.length; omega⟩

theorem State.wf_wrRun (s : State) (a : Nat) (l : List Byte) (h : Memory.wf s.mem = true) : Memory.wf (s.wrRun a l).mem = true := by
  rw [Memory.wf_iff] at h ⊢
  obtain ⟨hp, hm⟩ := runCells a l
  simp only [State.wrRun]
  generalize ((List.range l.length).zip l).filterMap (fun e => if e.2 = emptyByte then none else some (a + e.1, e.2)) = mid at hp hm
  refine ⟨?_, ?_⟩
  · rw [List.pairwise_map] at hp h ⊢
    rw [List.pairwise_append, List.pairwise_append]
    refine ⟨⟨h.1.filter _, hp, fun x hx y hy => ?_⟩, h.1.filter _, fun x hx y hy => ?_⟩
    · have := of_decide_eq_true (List.mem_filter.1 hx).2
      have := (hm y hy).2.1
      omega
    · have h2 := of_decide_eq_true (List.mem_filter.1 hy).2
      rcases List.mem_append.1 hx with hx | hx
      · have := of_decide_eq_true (List.mem_filter.1 hx).2
        omega
      · have := (hm x hx).2.2
        omega
  · intro e he
    rcases List.mem_append.1 he with he | he
    · rcases List.mem_append.1 he with he | he
      · exact h.2 e (List.mem_filter.1 he).1
      · exact (hm e he).1
    · exact h.2 e (List.mem_filter.1 he).1

/-- A drained granule keeps the canonical form. -/
theorem State.wf_putGran (s : State) (p g mask : Nat) (b : List Byte) (t : Bool) (h : Memory.wf s.mem = true) :
    Memory.wf (s.putGran p g mask b t).mem = true := by
  have key : Memory.wf (forN 8 (fun i s => if nbit mask i then s.wrByte (8 * g + i) (b.getD i 0) else s) s).mem = true :=
    forN_induct (fun s => Memory.wf s.mem = true) 8 _ s h fun i _ s hs => by
      split
      · exact s.wf_wrByte _ _ hs
      · exact hs
  unfold State.putGran
  dsimp only
  split <;> exact key

end Sys2Proof.Machine
end

