-- ==== Sys2Proof/Laws/State.lean ====
section
/-! SUPPORT. What each update of the state leaves alone: one lemma per field per update, true by computation, so that no later
proof unfolds a record. -/

namespace Sys2Proof.Machine

@[simp] theorem State.pending_wr (s : State) (a : Nat) (v : Word) : (s.wr a v).pending = s.pending := rfl
@[simp] theorem State.tick_wr (s : State) (a : Nat) (v : Word) : (s.wr a v).tick = s.tick := rfl
@[simp] theorem State.ts_wr (s : State) (a : Nat) (v : Word) : (s.wr a v).ts = s.ts := rfl
@[simp] theorem State.free_wr (s : State) (a : Nat) (v : Word) : (s.wr a v).free = s.free := rfl
@[simp] theorem State.hold_wr (s : State) (a : Nat) (v : Word) : (s.wr a v).hold = s.hold := rfl
@[simp] theorem State.mem_wr (s : State) (a : Nat) (v : Word) : (s.wr a v).mem = s.mem := rfl
@[simp] theorem State.lanes_wr (s : State) (a : Nat) (v : Word) : (s.wr a v).lanes = s.lanes := rfl
@[simp] theorem State.fcs_wr (s : State) (a : Nat) (v : Word) : (s.wr a v).fcs = s.fcs := rfl
@[simp] theorem State.slots_wr (s : State) (a : Nat) (v : Word) : (s.wr a v).slots = s.slots := rfl
@[simp] theorem State.cmps_wr (s : State) (a : Nat) (v : Word) : (s.wr a v).cmps = s.cmps := rfl
@[simp] theorem State.tripOut_wr (s : State) (a : Nat) (v : Word) : (s.wr a v).tripOut = s.tripOut := rfl
@[simp] theorem State.staged_wr (s : State) (a : Nat) (v : Word) : (s.wr a v).staged = s.staged := rfl
@[simp] theorem State.pwms_wr (s : State) (a : Nat) (v : Word) : (s.wr a v).pwms = s.pwms := rfl
@[simp] theorem State.towIn_wr (s : State) (a : Nat) (v : Word) : (s.wr a v).towIn = s.towIn := rfl
@[simp] theorem State.towOut_wr (s : State) (a : Nat) (v : Word) : (s.wr a v).towOut = s.towOut := rfl
@[simp] theorem State.safePinExt_wr (s : State) (a : Nat) (v : Word) : (s.wr a v).safePinExt = s.safePinExt := rfl
@[simp] theorem State.safeDriven_wr (s : State) (a : Nat) (v : Word) : (s.wr a v).safeDriven = s.safeDriven := rfl
@[simp] theorem State.irq_wr (s : State) (a : Nat) (v : Word) : (s.wr a v).irq = s.irq := rfl
@[simp] theorem State.hubq_wr (s : State) (a : Nat) (v : Word) : (s.wr a v).hubq = s.hubq := rfl
@[simp] theorem State.banks_wr (s : State) (a : Nat) (v : Word) : (s.wr a v).banks = s.banks := rfl
@[simp] theorem State.cs_wr (s : State) (a : Nat) (v : Word) : (s.wr a v).cs = s.cs := rfl
@[simp] theorem State.adcs_wr (s : State) (a : Nat) (v : Word) : (s.wr a v).adcs = s.adcs := rfl
@[simp] theorem State.ports_wr (s : State) (a : Nat) (v : Word) : (s.wr a v).ports = s.ports := rfl
@[simp] theorem State.keep_wr (s : State) (a : Nat) (v : Word) : (s.wr a v).keep = s.keep := rfl
@[simp] theorem State.out_wr (s : State) (a : Nat) (v : Word) : (s.wr a v).out = s.out := rfl
@[simp] theorem State.evtRise_wr (s : State) (a : Nat) (v : Word) : (s.wr a v).evtRise = s.evtRise := rfl
@[simp] theorem State.wears_wr (s : State) (a : Nat) (v : Word) : (s.wr a v).wears = s.wears := rfl
@[simp] theorem State.tags_wr (s : State) (a : Nat) (v : Word) : (s.wr a v).tags = s.tags := rfl
@[simp] theorem State.ecc_wr (s : State) (a : Nat) (v : Word) : (s.wr a v).ecc = s.ecc := rfl
@[simp] theorem State.resv_wr (s : State) (a : Nat) (v : Word) : (s.wr a v).resv = s.resv := rfl
@[simp] theorem State.slewNext_wr (s : State) (a : Nat) (v : Word) : (s.wr a v).slewNext = s.slewNext := rfl
@[simp] theorem State.syncDue_wr (s : State) (a : Nat) (v : Word) : (s.wr a v).syncDue = s.syncDue := rfl
@[simp] theorem State.syncOut_wr (s : State) (a : Nat) (v : Word) : (s.wr a v).syncOut = s.syncOut := rfl
@[simp] theorem State.alarms_wr (s : State) (a : Nat) (v : Word) : (s.wr a v).alarms = s.alarms := rfl
@[simp] theorem State.dropped_wr (s : State) (a : Nat) (v : Word) : (s.wr a v).dropped = s.dropped := rfl
@[simp] theorem State.scrub_wr (s : State) (a : Nat) (v : Word) : (s.wr a v).scrub = s.scrub := rfl
@[simp] theorem State.imgFill_wr (s : State) (a : Nat) (v : Word) : (s.wr a v).imgFill = s.imgFill := rfl
@[simp] theorem State.rel_wr (s : State) (a : Nat) (v : Word) : (s.wr a v).rel = s.rel := rfl
@[simp] theorem State.dmas_wr (s : State) (a : Nat) (v : Word) : (s.wr a v).dmas = s.dmas := rfl
@[simp] theorem State.dmaHold_wr (s : State) (a : Nat) (v : Word) : (s.wr a v).dmaHold = s.dmaHold := rfl
@[simp] theorem State.mcs_wr (s : State) (a : Nat) (v : Word) : (s.wr a v).mcs = s.mcs := rfl
@[simp] theorem State.cores_wr (s : State) (a : Nat) (v : Word) : (s.wr a v).cores = s.cores := rfl
@[simp] theorem State.dmaFree_wr (s : State) (a : Nat) (v : Word) : (s.wr a v).dmaFree = s.dmaFree := rfl
@[simp] theorem State.pwr_wr (s : State) (a : Nat) (v : Word) : (s.wr a v).pwr = s.pwr := rfl
@[simp] theorem State.rings_wr (s : State) (a : Nat) (v : Word) : (s.wr a v).rings = s.rings := rfl
@[simp] theorem State.outFell_wr (s : State) (a : Nat) (v : Word) : (s.wr a v).outFell = s.outFell := rfl
@[simp] theorem State.latchTick_wr (s : State) (a : Nat) (v : Word) : (s.wr a v).latchTick = s.latchTick := rfl
@[simp] theorem State.towRx_wr (s : State) (a : Nat) (v : Word) : (s.wr a v).towRx = s.towRx := rfl

@[simp] theorem State.pending_sf (s : State) (a : Nat) (f : Fld) (x : Nat) : (s.sf a f x).pending = s.pending := rfl
@[simp] theorem State.tick_sf (s : State) (a : Nat) (f : Fld) (x : Nat) : (s.sf a f x).tick = s.tick := rfl
@[simp] theorem State.ts_sf (s : State) (a : Nat) (f : Fld) (x : Nat) : (s.sf a f x).ts = s.ts := rfl
@[simp] theorem State.free_sf (s : State) (a : Nat) (f : Fld) (x : Nat) : (s.sf a f x).free = s.free := rfl
@[simp] theorem State.hold_sf (s : State) (a : Nat) (f : Fld) (x : Nat) : (s.sf a f x).hold = s.hold := rfl
@[simp] theorem State.mem_sf (s : State) (a : Nat) (f : Fld) (x : Nat) : (s.sf a f x).mem = s.mem := rfl
@[simp] theorem State.lanes_sf (s : State) (a : Nat) (f : Fld) (x : Nat) : (s.sf a f x).lanes = s.lanes := rfl
@[simp] theorem State.fcs_sf (s : State) (a : Nat) (f : Fld) (x : Nat) : (s.sf a f x).fcs = s.fcs := rfl
@[simp] theorem State.slots_sf (s : State) (a : Nat) (f : Fld) (x : Nat) : (s.sf a f x).slots = s.slots := rfl
@[simp] theorem State.cmps_sf (s : State) (a : Nat) (f : Fld) (x : Nat) : (s.sf a f x).cmps = s.cmps := rfl
@[simp] theorem State.tripOut_sf (s : State) (a : Nat) (f : Fld) (x : Nat) : (s.sf a f x).tripOut = s.tripOut := rfl
@[simp] theorem State.staged_sf (s : State) (a : Nat) (f : Fld) (x : Nat) : (s.sf a f x).staged = s.staged := rfl
@[simp] theorem State.pwms_sf (s : State) (a : Nat) (f : Fld) (x : Nat) : (s.sf a f x).pwms = s.pwms := rfl
@[simp] theorem State.towIn_sf (s : State) (a : Nat) (f : Fld) (x : Nat) : (s.sf a f x).towIn = s.towIn := rfl
@[simp] theorem State.towOut_sf (s : State) (a : Nat) (f : Fld) (x : Nat) : (s.sf a f x).towOut = s.towOut := rfl
@[simp] theorem State.safePinExt_sf (s : State) (a : Nat) (f : Fld) (x : Nat) : (s.sf a f x).safePinExt = s.safePinExt := rfl
@[simp] theorem State.safeDriven_sf (s : State) (a : Nat) (f : Fld) (x : Nat) : (s.sf a f x).safeDriven = s.safeDriven := rfl
@[simp] theorem State.irq_sf (s : State) (a : Nat) (f : Fld) (x : Nat) : (s.sf a f x).irq = s.irq := rfl
@[simp] theorem State.hubq_sf (s : State) (a : Nat) (f : Fld) (x : Nat) : (s.sf a f x).hubq = s.hubq := rfl
@[simp] theorem State.banks_sf (s : State) (a : Nat) (f : Fld) (x : Nat) : (s.sf a f x).banks = s.banks := rfl
@[simp] theorem State.cs_sf (s : State) (a : Nat) (f : Fld) (x : Nat) : (s.sf a f x).cs = s.cs := rfl
@[simp] theorem State.adcs_sf (s : State) (a : Nat) (f : Fld) (x : Nat) : (s.sf a f x).adcs = s.adcs := rfl
@[simp] theorem State.ports_sf (s : State) (a : Nat) (f : Fld) (x : Nat) : (s.sf a f x).ports = s.ports := rfl
@[simp] theorem State.keep_sf (s : State) (a : Nat) (f : Fld) (x : Nat) : (s.sf a f x).keep = s.keep := rfl
@[simp] theorem State.out_sf (s : State) (a : Nat) (f : Fld) (x : Nat) : (s.sf a f x).out = s.out := rfl
@[simp] theorem State.evtRise_sf (s : State) (a : Nat) (f : Fld) (x : Nat) : (s.sf a f x).evtRise = s.evtRise := rfl
@[simp] theorem State.wears_sf (s : State) (a : Nat) (f : Fld) (x : Nat) : (s.sf a f x).wears = s.wears := rfl
@[simp] theorem State.tags_sf (s : State) (a : Nat) (f : Fld) (x : Nat) : (s.sf a f x).tags = s.tags := rfl
@[simp] theorem State.ecc_sf (s : State) (a : Nat) (f : Fld) (x : Nat) : (s.sf a f x).ecc = s.ecc := rfl
@[simp] theorem State.resv_sf (s : State) (a : Nat) (f : Fld) (x : Nat) : (s.sf a f x).resv = s.resv := rfl
@[simp] theorem State.slewNext_sf (s : State) (a : Nat) (f : Fld) (x : Nat) : (s.sf a f x).slewNext = s.slewNext := rfl
@[simp] theorem State.syncDue_sf (s : State) (a : Nat) (f : Fld) (x : Nat) : (s.sf a f x).syncDue = s.syncDue := rfl
@[simp] theorem State.syncOut_sf (s : State) (a : Nat) (f : Fld) (x : Nat) : (s.sf a f x).syncOut = s.syncOut := rfl
@[simp] theorem State.alarms_sf (s : State) (a : Nat) (f : Fld) (x : Nat) : (s.sf a f x).alarms = s.alarms := rfl
@[simp] theorem State.dropped_sf (s : State) (a : Nat) (f : Fld) (x : Nat) : (s.sf a f x).dropped = s.dropped := rfl
@[simp] theorem State.scrub_sf (s : State) (a : Nat) (f : Fld) (x : Nat) : (s.sf a f x).scrub = s.scrub := rfl
@[simp] theorem State.imgFill_sf (s : State) (a : Nat) (f : Fld) (x : Nat) : (s.sf a f x).imgFill = s.imgFill := rfl
@[simp] theorem State.rel_sf (s : State) (a : Nat) (f : Fld) (x : Nat) : (s.sf a f x).rel = s.rel := rfl
@[simp] theorem State.dmas_sf (s : State) (a : Nat) (f : Fld) (x : Nat) : (s.sf a f x).dmas = s.dmas := rfl
@[simp] theorem State.dmaHold_sf (s : State) (a : Nat) (f : Fld) (x : Nat) : (s.sf a f x).dmaHold = s.dmaHold := rfl
@[simp] theorem State.mcs_sf (s : State) (a : Nat) (f : Fld) (x : Nat) : (s.sf a f x).mcs = s.mcs := rfl
@[simp] theorem State.cores_sf (s : State) (a : Nat) (f : Fld) (x : Nat) : (s.sf a f x).cores = s.cores := rfl
@[simp] theorem State.dmaFree_sf (s : State) (a : Nat) (f : Fld) (x : Nat) : (s.sf a f x).dmaFree = s.dmaFree := rfl
@[simp] theorem State.pwr_sf (s : State) (a : Nat) (f : Fld) (x : Nat) : (s.sf a f x).pwr = s.pwr := rfl
@[simp] theorem State.rings_sf (s : State) (a : Nat) (f : Fld) (x : Nat) : (s.sf a f x).rings = s.rings := rfl
@[simp] theorem State.outFell_sf (s : State) (a : Nat) (f : Fld) (x : Nat) : (s.sf a f x).outFell = s.outFell := rfl
@[simp] theorem State.latchTick_sf (s : State) (a : Nat) (f : Fld) (x : Nat) : (s.sf a f x).latchTick = s.latchTick := rfl
@[simp] theorem State.towRx_sf (s : State) (a : Nat) (f : Fld) (x : Nat) : (s.sf a f x).towRx = s.towRx := rfl

@[simp] theorem State.pending_sb (s : State) (a : Nat) (f : Fld) (b : Bool) : (s.sb a f b).pending = s.pending := rfl
@[simp] theorem State.tick_sb (s : State) (a : Nat) (f : Fld) (b : Bool) : (s.sb a f b).tick = s.tick := rfl
@[simp] theorem State.ts_sb (s : State) (a : Nat) (f : Fld) (b : Bool) : (s.sb a f b).ts = s.ts := rfl
@[simp] theorem State.free_sb (s : State) (a : Nat) (f : Fld) (b : Bool) : (s.sb a f b).free = s.free := rfl
@[simp] theorem State.hold_sb (s : State) (a : Nat) (f : Fld) (b : Bool) : (s.sb a f b).hold = s.hold := rfl
@[simp] theorem State.mem_sb (s : State) (a : Nat) (f : Fld) (b : Bool) : (s.sb a f b).mem = s.mem := rfl
@[simp] theorem State.lanes_sb (s : State) (a : Nat) (f : Fld) (b : Bool) : (s.sb a f b).lanes = s.lanes := rfl
@[simp] theorem State.fcs_sb (s : State) (a : Nat) (f : Fld) (b : Bool) : (s.sb a f b).fcs = s.fcs := rfl
@[simp] theorem State.slots_sb (s : State) (a : Nat) (f : Fld) (b : Bool) : (s.sb a f b).slots = s.slots := rfl
@[simp] theorem State.cmps_sb (s : State) (a : Nat) (f : Fld) (b : Bool) : (s.sb a f b).cmps = s.cmps := rfl
@[simp] theorem State.tripOut_sb (s : State) (a : Nat) (f : Fld) (b : Bool) : (s.sb a f b).tripOut = s.tripOut := rfl
@[simp] theorem State.staged_sb (s : State) (a : Nat) (f : Fld) (b : Bool) : (s.sb a f b).staged = s.staged := rfl
@[simp] theorem State.pwms_sb (s : State) (a : Nat) (f : Fld) (b : Bool) : (s.sb a f b).pwms = s.pwms := rfl
@[simp] theorem State.towIn_sb (s : State) (a : Nat) (f : Fld) (b : Bool) : (s.sb a f b).towIn = s.towIn := rfl
@[simp] theorem State.towOut_sb (s : State) (a : Nat) (f : Fld) (b : Bool) : (s.sb a f b).towOut = s.towOut := rfl
@[simp] theorem State.safePinExt_sb (s : State) (a : Nat) (f : Fld) (b : Bool) : (s.sb a f b).safePinExt = s.safePinExt := rfl
@[simp] theorem State.safeDriven_sb (s : State) (a : Nat) (f : Fld) (b : Bool) : (s.sb a f b).safeDriven = s.safeDriven := rfl
@[simp] theorem State.irq_sb (s : State) (a : Nat) (f : Fld) (b : Bool) : (s.sb a f b).irq = s.irq := rfl
@[simp] theorem State.hubq_sb (s : State) (a : Nat) (f : Fld) (b : Bool) : (s.sb a f b).hubq = s.hubq := rfl
@[simp] theorem State.banks_sb (s : State) (a : Nat) (f : Fld) (b : Bool) : (s.sb a f b).banks = s.banks := rfl
@[simp] theorem State.cs_sb (s : State) (a : Nat) (f : Fld) (b : Bool) : (s.sb a f b).cs = s.cs := rfl
@[simp] theorem State.adcs_sb (s : State) (a : Nat) (f : Fld) (b : Bool) : (s.sb a f b).adcs = s.adcs := rfl
@[simp] theorem State.ports_sb (s : State) (a : Nat) (f : Fld) (b : Bool) : (s.sb a f b).ports = s.ports := rfl
@[simp] theorem State.keep_sb (s : State) (a : Nat) (f : Fld) (b : Bool) : (s.sb a f b).keep = s.keep := rfl
@[simp] theorem State.out_sb (s : State) (a : Nat) (f : Fld) (b : Bool) : (s.sb a f b).out = s.out := rfl
@[simp] theorem State.evtRise_sb (s : State) (a : Nat) (f : Fld) (b : Bool) : (s.sb a f b).evtRise = s.evtRise := rfl
@[simp] theorem State.wears_sb (s : State) (a : Nat) (f : Fld) (b : Bool) : (s.sb a f b).wears = s.wears := rfl
@[simp] theorem State.tags_sb (s : State) (a : Nat) (f : Fld) (b : Bool) : (s.sb a f b).tags = s.tags := rfl
@[simp] theorem State.ecc_sb (s : State) (a : Nat) (f : Fld) (b : Bool) : (s.sb a f b).ecc = s.ecc := rfl
@[simp] theorem State.resv_sb (s : State) (a : Nat) (f : Fld) (b : Bool) : (s.sb a f b).resv = s.resv := rfl
@[simp] theorem State.slewNext_sb (s : State) (a : Nat) (f : Fld) (b : Bool) : (s.sb a f b).slewNext = s.slewNext := rfl
@[simp] theorem State.syncDue_sb (s : State) (a : Nat) (f : Fld) (b : Bool) : (s.sb a f b).syncDue = s.syncDue := rfl
@[simp] theorem State.syncOut_sb (s : State) (a : Nat) (f : Fld) (b : Bool) : (s.sb a f b).syncOut = s.syncOut := rfl
@[simp] theorem State.alarms_sb (s : State) (a : Nat) (f : Fld) (b : Bool) : (s.sb a f b).alarms = s.alarms := rfl
@[simp] theorem State.dropped_sb (s : State) (a : Nat) (f : Fld) (b : Bool) : (s.sb a f b).dropped = s.dropped := rfl
@[simp] theorem State.scrub_sb (s : State) (a : Nat) (f : Fld) (b : Bool) : (s.sb a f b).scrub = s.scrub := rfl
@[simp] theorem State.imgFill_sb (s : State) (a : Nat) (f : Fld) (b : Bool) : (s.sb a f b).imgFill = s.imgFill := rfl
@[simp] theorem State.rel_sb (s : State) (a : Nat) (f : Fld) (b : Bool) : (s.sb a f b).rel = s.rel := rfl
@[simp] theorem State.dmas_sb (s : State) (a : Nat) (f : Fld) (b : Bool) : (s.sb a f b).dmas = s.dmas := rfl
@[simp] theorem State.dmaHold_sb (s : State) (a : Nat) (f : Fld) (b : Bool) : (s.sb a f b).dmaHold = s.dmaHold := rfl
@[simp] theorem State.mcs_sb (s : State) (a : Nat) (f : Fld) (b : Bool) : (s.sb a f b).mcs = s.mcs := rfl
@[simp] theorem State.cores_sb (s : State) (a : Nat) (f : Fld) (b : Bool) : (s.sb a f b).cores = s.cores := rfl
@[simp] theorem State.dmaFree_sb (s : State) (a : Nat) (f : Fld) (b : Bool) : (s.sb a f b).dmaFree = s.dmaFree := rfl
@[simp] theorem State.pwr_sb (s : State) (a : Nat) (f : Fld) (b : Bool) : (s.sb a f b).pwr = s.pwr := rfl
@[simp] theorem State.rings_sb (s : State) (a : Nat) (f : Fld) (b : Bool) : (s.sb a f b).rings = s.rings := rfl
@[simp] theorem State.outFell_sb (s : State) (a : Nat) (f : Fld) (b : Bool) : (s.sb a f b).outFell = s.outFell := rfl
@[simp] theorem State.latchTick_sb (s : State) (a : Nat) (f : Fld) (b : Bool) : (s.sb a f b).latchTick = s.latchTick := rfl
@[simp] theorem State.towRx_sb (s : State) (a : Nat) (f : Fld) (b : Bool) : (s.sb a f b).towRx = s.towRx := rfl

@[simp] theorem State.pending_flag (s : State) (a : Nat) (f : Fld) : (s.flag a f).pending = s.pending := rfl
@[simp] theorem State.tick_flag (s : State) (a : Nat) (f : Fld) : (s.flag a f).tick = s.tick := rfl
@[simp] theorem State.ts_flag (s : State) (a : Nat) (f : Fld) : (s.flag a f).ts = s.ts := rfl
@[simp] theorem State.free_flag (s : State) (a : Nat) (f : Fld) : (s.flag a f).free = s.free := rfl
@[simp] theorem State.hold_flag (s : State) (a : Nat) (f : Fld) : (s.flag a f).hold = s.hold := rfl
@[simp] theorem State.mem_flag (s : State) (a : Nat) (f : Fld) : (s.flag a f).mem = s.mem := rfl
@[simp] theorem State.lanes_flag (s : State) (a : Nat) (f : Fld) : (s.flag a f).lanes = s.lanes := rfl
@[simp] theorem State.fcs_flag (s : State) (a : Nat) (f : Fld) : (s.flag a f).fcs = s.fcs := rfl
@[simp] theorem State.slots_flag (s : State) (a : Nat) (f : Fld) : (s.flag a f).slots = s.slots := rfl
@[simp] theorem State.cmps_flag (s : State) (a : Nat) (f : Fld) : (s.flag a f).cmps = s.cmps := rfl
@[simp] theorem State.tripOut_flag (s : State) (a : Nat) (f : Fld) : (s.flag a f).tripOut = s.tripOut := rfl
@[simp] theorem State.staged_flag (s : State) (a : Nat) (f : Fld) : (s.flag a f).staged = s.staged := rfl
@[simp] theorem State.pwms_flag (s : State) (a : Nat) (f : Fld) : (s.flag a f).pwms = s.pwms := rfl
@[simp] theorem State.towIn_flag (s : State) (a : Nat) (f : Fld) : (s.flag a f).towIn = s.towIn := rfl
@[simp] theorem State.towOut_flag (s : State) (a : Nat) (f : Fld) : (s.flag a f).towOut = s.towOut := rfl
@[simp] theorem State.safePinExt_flag (s : State) (a : Nat) (f : Fld) : (s.flag a f).safePinExt = s.safePinExt := rfl
@[simp] theorem State.safeDriven_flag (s : State) (a : Nat) (f : Fld) : (s.flag a f).safeDriven = s.safeDriven := rfl
@[simp] theorem State.irq_flag (s : State) (a : Nat) (f : Fld) : (s.flag a f).irq = s.irq := rfl
@[simp] theorem State.hubq_flag (s : State) (a : Nat) (f : Fld) : (s.flag a f).hubq = s.hubq := rfl
@[simp] theorem State.banks_flag (s : State) (a : Nat) (f : Fld) : (s.flag a f).banks = s.banks := rfl
@[simp] theorem State.cs_flag (s : State) (a : Nat) (f : Fld) : (s.flag a f).cs = s.cs := rfl
@[simp] theorem State.adcs_flag (s : State) (a : Nat) (f : Fld) : (s.flag a f).adcs = s.adcs := rfl
@[simp] theorem State.ports_flag (s : State) (a : Nat) (f : Fld) : (s.flag a f).ports = s.ports := rfl
@[simp] theorem State.keep_flag (s : State) (a : Nat) (f : Fld) : (s.flag a f).keep = s.keep := rfl
@[simp] theorem State.out_flag (s : State) (a : Nat) (f : Fld) : (s.flag a f).out = s.out := rfl
@[simp] theorem State.evtRise_flag (s : State) (a : Nat) (f : Fld) : (s.flag a f).evtRise = s.evtRise := rfl
@[simp] theorem State.wears_flag (s : State) (a : Nat) (f : Fld) : (s.flag a f).wears = s.wears := rfl
@[simp] theorem State.tags_flag (s : State) (a : Nat) (f : Fld) : (s.flag a f).tags = s.tags := rfl
@[simp] theorem State.ecc_flag (s : State) (a : Nat) (f : Fld) : (s.flag a f).ecc = s.ecc := rfl
@[simp] theorem State.resv_flag (s : State) (a : Nat) (f : Fld) : (s.flag a f).resv = s.resv := rfl
@[simp] theorem State.slewNext_flag (s : State) (a : Nat) (f : Fld) : (s.flag a f).slewNext = s.slewNext := rfl
@[simp] theorem State.syncDue_flag (s : State) (a : Nat) (f : Fld) : (s.flag a f).syncDue = s.syncDue := rfl
@[simp] theorem State.syncOut_flag (s : State) (a : Nat) (f : Fld) : (s.flag a f).syncOut = s.syncOut := rfl
@[simp] theorem State.alarms_flag (s : State) (a : Nat) (f : Fld) : (s.flag a f).alarms = s.alarms := rfl
@[simp] theorem State.dropped_flag (s : State) (a : Nat) (f : Fld) : (s.flag a f).dropped = s.dropped := rfl
@[simp] theorem State.scrub_flag (s : State) (a : Nat) (f : Fld) : (s.flag a f).scrub = s.scrub := rfl
@[simp] theorem State.imgFill_flag (s : State) (a : Nat) (f : Fld) : (s.flag a f).imgFill = s.imgFill := rfl
@[simp] theorem State.rel_flag (s : State) (a : Nat) (f : Fld) : (s.flag a f).rel = s.rel := rfl
@[simp] theorem State.dmas_flag (s : State) (a : Nat) (f : Fld) : (s.flag a f).dmas = s.dmas := rfl
@[simp] theorem State.dmaHold_flag (s : State) (a : Nat) (f : Fld) : (s.flag a f).dmaHold = s.dmaHold := rfl
@[simp] theorem State.mcs_flag (s : State) (a : Nat) (f : Fld) : (s.flag a f).mcs = s.mcs := rfl
@[simp] theorem State.cores_flag (s : State) (a : Nat) (f : Fld) : (s.flag a f).cores = s.cores := rfl
@[simp] theorem State.dmaFree_flag (s : State) (a : Nat) (f : Fld) : (s.flag a f).dmaFree = s.dmaFree := rfl
@[simp] theorem State.pwr_flag (s : State) (a : Nat) (f : Fld) : (s.flag a f).pwr = s.pwr := rfl
@[simp] theorem State.rings_flag (s : State) (a : Nat) (f : Fld) : (s.flag a f).rings = s.rings := rfl
@[simp] theorem State.outFell_flag (s : State) (a : Nat) (f : Fld) : (s.flag a f).outFell = s.outFell := rfl
@[simp] theorem State.latchTick_flag (s : State) (a : Nat) (f : Fld) : (s.flag a f).latchTick = s.latchTick := rfl
@[simp] theorem State.towRx_flag (s : State) (a : Nat) (f : Fld) : (s.flag a f).towRx = s.towRx := rfl

@[simp] theorem State.pending_incSat (s : State) (a : Nat) (f : Fld) : (s.incSat a f).pending = s.pending := rfl
@[simp] theorem State.tick_incSat (s : State) (a : Nat) (f : Fld) : (s.incSat a f).tick = s.tick := rfl
@[simp] theorem State.ts_incSat (s : State) (a : Nat) (f : Fld) : (s.incSat a f).ts = s.ts := rfl
@[simp] theorem State.free_incSat (s : State) (a : Nat) (f : Fld) : (s.incSat a f).free = s.free := rfl
@[simp] theorem State.hold_incSat (s : State) (a : Nat) (f : Fld) : (s.incSat a f).hold = s.hold := rfl
@[simp] theorem State.mem_incSat (s : State) (a : Nat) (f : Fld) : (s.incSat a f).mem = s.mem := rfl
@[simp] theorem State.lanes_incSat (s : State) (a : Nat) (f : Fld) : (s.incSat a f).lanes = s.lanes := rfl
@[simp] theorem State.fcs_incSat (s : State) (a : Nat) (f : Fld) : (s.incSat a f).fcs = s.fcs := rfl
@[simp] theorem State.slots_incSat (s : State) (a : Nat) (f : Fld) : (s.incSat a f).slots = s.slots := rfl
@[simp] theorem State.cmps_incSat (s : State) (a : Nat) (f : Fld) : (s.incSat a f).cmps = s.cmps := rfl
@[simp] theorem State.tripOut_incSat (s : State) (a : Nat) (f : Fld) : (s.incSat a f).tripOut = s.tripOut := rfl
@[simp] theorem State.staged_incSat (s : State) (a : Nat) (f : Fld) : (s.incSat a f).staged = s.staged := rfl
@[simp] theorem State.pwms_incSat (s : State) (a : Nat) (f : Fld) : (s.incSat a f).pwms = s.pwms := rfl
@[simp] theorem State.towIn_incSat (s : State) (a : Nat) (f : Fld) : (s.incSat a f).towIn = s.towIn := rfl
@[simp] theorem State.towOut_incSat (s : State) (a : Nat) (f : Fld) : (s.incSat a f).towOut = s.towOut := rfl
@[simp] theorem State.safePinExt_incSat (s : State) (a : Nat) (f : Fld) : (s.incSat a f).safePinExt = s.safePinExt := rfl
@[simp] theorem State.safeDriven_incSat (s : State) (a : Nat) (f : Fld) : (s.incSat a f).safeDriven = s.safeDriven := rfl
@[simp] theorem State.irq_incSat (s : State) (a : Nat) (f : Fld) : (s.incSat a f).irq = s.irq := rfl
@[simp] theorem State.hubq_incSat (s : State) (a : Nat) (f : Fld) : (s.incSat a f).hubq = s.hubq := rfl
@[simp] theorem State.banks_incSat (s : State) (a : Nat) (f : Fld) : (s.incSat a f).banks = s.banks := rfl
@[simp] theorem State.cs_incSat (s : State) (a : Nat) (f : Fld) : (s.incSat a f).cs = s.cs := rfl
@[simp] theorem State.adcs_incSat (s : State) (a : Nat) (f : Fld) : (s.incSat a f).adcs = s.adcs := rfl
@[simp] theorem State.ports_incSat (s : State) (a : Nat) (f : Fld) : (s.incSat a f).ports = s.ports := rfl
@[simp] theorem State.keep_incSat (s : State) (a : Nat) (f : Fld) : (s.incSat a f).keep = s.keep := rfl
@[simp] theorem State.out_incSat (s : State) (a : Nat) (f : Fld) : (s.incSat a f).out = s.out := rfl
@[simp] theorem State.evtRise_incSat (s : State) (a : Nat) (f : Fld) : (s.incSat a f).evtRise = s.evtRise := rfl
@[simp] theorem State.wears_incSat (s : State) (a : Nat) (f : Fld) : (s.incSat a f).wears = s.wears := rfl
@[simp] theorem State.tags_incSat (s : State) (a : Nat) (f : Fld) : (s.incSat a f).tags = s.tags := rfl
@[simp] theorem State.ecc_incSat (s : State) (a : Nat) (f : Fld) : (s.incSat a f).ecc = s.ecc := rfl
@[simp] theorem State.resv_incSat (s : State) (a : Nat) (f : Fld) : (s.incSat a f).resv = s.resv := rfl
@[simp] theorem State.slewNext_incSat (s : State) (a : Nat) (f : Fld) : (s.incSat a f).slewNext = s.slewNext := rfl
@[simp] theorem State.syncDue_incSat (s : State) (a : Nat) (f : Fld) : (s.incSat a f).syncDue = s.syncDue := rfl
@[simp] theorem State.syncOut_incSat (s : State) (a : Nat) (f : Fld) : (s.incSat a f).syncOut = s.syncOut := rfl
@[simp] theorem State.alarms_incSat (s : State) (a : Nat) (f : Fld) : (s.incSat a f).alarms = s.alarms := rfl
@[simp] theorem State.dropped_incSat (s : State) (a : Nat) (f : Fld) : (s.incSat a f).dropped = s.dropped := rfl
@[simp] theorem State.scrub_incSat (s : State) (a : Nat) (f : Fld) : (s.incSat a f).scrub = s.scrub := rfl
@[simp] theorem State.imgFill_incSat (s : State) (a : Nat) (f : Fld) : (s.incSat a f).imgFill = s.imgFill := rfl
@[simp] theorem State.rel_incSat (s : State) (a : Nat) (f : Fld) : (s.incSat a f).rel = s.rel := rfl
@[simp] theorem State.dmas_incSat (s : State) (a : Nat) (f : Fld) : (s.incSat a f).dmas = s.dmas := rfl
@[simp] theorem State.dmaHold_incSat (s : State) (a : Nat) (f : Fld) : (s.incSat a f).dmaHold = s.dmaHold := rfl
@[simp] theorem State.mcs_incSat (s : State) (a : Nat) (f : Fld) : (s.incSat a f).mcs = s.mcs := rfl
@[simp] theorem State.cores_incSat (s : State) (a : Nat) (f : Fld) : (s.incSat a f).cores = s.cores := rfl
@[simp] theorem State.dmaFree_incSat (s : State) (a : Nat) (f : Fld) : (s.incSat a f).dmaFree = s.dmaFree := rfl
@[simp] theorem State.pwr_incSat (s : State) (a : Nat) (f : Fld) : (s.incSat a f).pwr = s.pwr := rfl
@[simp] theorem State.rings_incSat (s : State) (a : Nat) (f : Fld) : (s.incSat a f).rings = s.rings := rfl
@[simp] theorem State.outFell_incSat (s : State) (a : Nat) (f : Fld) : (s.incSat a f).outFell = s.outFell := rfl
@[simp] theorem State.latchTick_incSat (s : State) (a : Nat) (f : Fld) : (s.incSat a f).latchTick = s.latchTick := rfl
@[simp] theorem State.towRx_incSat (s : State) (a : Nat) (f : Fld) : (s.incSat a f).towRx = s.towRx := rfl

@[simp] theorem State.pending_w64 (s : State) (a v : Nat) : (s.w64 a v).pending = s.pending := rfl
@[simp] theorem State.tick_w64 (s : State) (a v : Nat) : (s.w64 a v).tick = s.tick := rfl
@[simp] theorem State.ts_w64 (s : State) (a v : Nat) : (s.w64 a v).ts = s.ts := rfl
@[simp] theorem State.free_w64 (s : State) (a v : Nat) : (s.w64 a v).free = s.free := rfl
@[simp] theorem State.hold_w64 (s : State) (a v : Nat) : (s.w64 a v).hold = s.hold := rfl
@[simp] theorem State.mem_w64 (s : State) (a v : Nat) : (s.w64 a v).mem = s.mem := rfl
@[simp] theorem State.lanes_w64 (s : State) (a v : Nat) : (s.w64 a v).lanes = s.lanes := rfl
@[simp] theorem State.fcs_w64 (s : State) (a v : Nat) : (s.w64 a v).fcs = s.fcs := rfl
@[simp] theorem State.slots_w64 (s : State) (a v : Nat) : (s.w64 a v).slots = s.slots := rfl
@[simp] theorem State.cmps_w64 (s : State) (a v : Nat) : (s.w64 a v).cmps = s.cmps := rfl
@[simp] theorem State.tripOut_w64 (s : State) (a v : Nat) : (s.w64 a v).tripOut = s.tripOut := rfl
@[simp] theorem State.staged_w64 (s : State) (a v : Nat) : (s.w64 a v).staged = s.staged := rfl
@[simp] theorem State.pwms_w64 (s : State) (a v : Nat) : (s.w64 a v).pwms = s.pwms := rfl
@[simp] theorem State.towIn_w64 (s : State) (a v : Nat) : (s.w64 a v).towIn = s.towIn := rfl
@[simp] theorem State.towOut_w64 (s : State) (a v : Nat) : (s.w64 a v).towOut = s.towOut := rfl
@[simp] theorem State.safePinExt_w64 (s : State) (a v : Nat) : (s.w64 a v).safePinExt = s.safePinExt := rfl
@[simp] theorem State.safeDriven_w64 (s : State) (a v : Nat) : (s.w64 a v).safeDriven = s.safeDriven := rfl
@[simp] theorem State.irq_w64 (s : State) (a v : Nat) : (s.w64 a v).irq = s.irq := rfl
@[simp] theorem State.hubq_w64 (s : State) (a v : Nat) : (s.w64 a v).hubq = s.hubq := rfl
@[simp] theorem State.banks_w64 (s : State) (a v : Nat) : (s.w64 a v).banks = s.banks := rfl
@[simp] theorem State.cs_w64 (s : State) (a v : Nat) : (s.w64 a v).cs = s.cs := rfl
@[simp] theorem State.adcs_w64 (s : State) (a v : Nat) : (s.w64 a v).adcs = s.adcs := rfl
@[simp] theorem State.ports_w64 (s : State) (a v : Nat) : (s.w64 a v).ports = s.ports := rfl
@[simp] theorem State.keep_w64 (s : State) (a v : Nat) : (s.w64 a v).keep = s.keep := rfl
@[simp] theorem State.out_w64 (s : State) (a v : Nat) : (s.w64 a v).out = s.out := rfl
@[simp] theorem State.evtRise_w64 (s : State) (a v : Nat) : (s.w64 a v).evtRise = s.evtRise := rfl
@[simp] theorem State.wears_w64 (s : State) (a v : Nat) : (s.w64 a v).wears = s.wears := rfl
@[simp] theorem State.tags_w64 (s : State) (a v : Nat) : (s.w64 a v).tags = s.tags := rfl
@[simp] theorem State.ecc_w64 (s : State) (a v : Nat) : (s.w64 a v).ecc = s.ecc := rfl
@[simp] theorem State.resv_w64 (s : State) (a v : Nat) : (s.w64 a v).resv = s.resv := rfl
@[simp] theorem State.slewNext_w64 (s : State) (a v : Nat) : (s.w64 a v).slewNext = s.slewNext := rfl
@[simp] theorem State.syncDue_w64 (s : State) (a v : Nat) : (s.w64 a v).syncDue = s.syncDue := rfl
@[simp] theorem State.syncOut_w64 (s : State) (a v : Nat) : (s.w64 a v).syncOut = s.syncOut := rfl
@[simp] theorem State.alarms_w64 (s : State) (a v : Nat) : (s.w64 a v).alarms = s.alarms := rfl
@[simp] theorem State.dropped_w64 (s : State) (a v : Nat) : (s.w64 a v).dropped = s.dropped := rfl
@[simp] theorem State.scrub_w64 (s : State) (a v : Nat) : (s.w64 a v).scrub = s.scrub := rfl
@[simp] theorem State.imgFill_w64 (s : State) (a v : Nat) : (s.w64 a v).imgFill = s.imgFill := rfl
@[simp] theorem State.rel_w64 (s : State) (a v : Nat) : (s.w64 a v).rel = s.rel := rfl
@[simp] theorem State.dmas_w64 (s : State) (a v : Nat) : (s.w64 a v).dmas = s.dmas := rfl
@[simp] theorem State.dmaHold_w64 (s : State) (a v : Nat) : (s.w64 a v).dmaHold = s.dmaHold := rfl
@[simp] theorem State.mcs_w64 (s : State) (a v : Nat) : (s.w64 a v).mcs = s.mcs := rfl
@[simp] theorem State.cores_w64 (s : State) (a v : Nat) : (s.w64 a v).cores = s.cores := rfl
@[simp] theorem State.dmaFree_w64 (s : State) (a v : Nat) : (s.w64 a v).dmaFree = s.dmaFree := rfl
@[simp] theorem State.pwr_w64 (s : State) (a v : Nat) : (s.w64 a v).pwr = s.pwr := rfl
@[simp] theorem State.rings_w64 (s : State) (a v : Nat) : (s.w64 a v).rings = s.rings := rfl
@[simp] theorem State.outFell_w64 (s : State) (a v : Nat) : (s.w64 a v).outFell = s.outFell := rfl
@[simp] theorem State.latchTick_w64 (s : State) (a v : Nat) : (s.w64 a v).latchTick = s.latchTick := rfl
@[simp] theorem State.towRx_w64 (s : State) (a v : Nat) : (s.w64 a v).towRx = s.towRx := rfl

@[simp] theorem State.pending_setGlv (s : State) (p x : Nat) : (s.setGlv p x).pending = s.pending := rfl
@[simp] theorem State.tick_setGlv (s : State) (p x : Nat) : (s.setGlv p x).tick = s.tick := rfl
@[simp] theorem State.ts_setGlv (s : State) (p x : Nat) : (s.setGlv p x).ts = s.ts := rfl
@[simp] theorem State.free_setGlv (s : State) (p x : Nat) : (s.setGlv p x).free = s.free := rfl
@[simp] theorem State.hold_setGlv (s : State) (p x : Nat) : (s.setGlv p x).hold = s.hold := rfl
@[simp] theorem State.mem_setGlv (s : State) (p x : Nat) : (s.setGlv p x).mem = s.mem := rfl
@[simp] theorem State.lanes_setGlv (s : State) (p x : Nat) : (s.setGlv p x).lanes = s.lanes := rfl
@[simp] theorem State.fcs_setGlv (s : State) (p x : Nat) : (s.setGlv p x).fcs = s.fcs := rfl
@[simp] theorem State.slots_setGlv (s : State) (p x : Nat) : (s.setGlv p x).slots = s.slots := rfl
@[simp] theorem State.cmps_setGlv (s : State) (p x : Nat) : (s.setGlv p x).cmps = s.cmps := rfl
@[simp] theorem State.tripOut_setGlv (s : State) (p x : Nat) : (s.setGlv p x).tripOut = s.tripOut := rfl
@[simp] theorem State.staged_setGlv (s : State) (p x : Nat) : (s.setGlv p x).staged = s.staged := rfl
@[simp] theorem State.pwms_setGlv (s : State) (p x : Nat) : (s.setGlv p x).pwms = s.pwms := rfl
@[simp] theorem State.towIn_setGlv (s : State) (p x : Nat) : (s.setGlv p x).towIn = s.towIn := rfl
@[simp] theorem State.towOut_setGlv (s : State) (p x : Nat) : (s.setGlv p x).towOut = s.towOut := rfl
@[simp] theorem State.safePinExt_setGlv (s : State) (p x : Nat) : (s.setGlv p x).safePinExt = s.safePinExt := rfl
@[simp] theorem State.safeDriven_setGlv (s : State) (p x : Nat) : (s.setGlv p x).safeDriven = s.safeDriven := rfl
@[simp] theorem State.irq_setGlv (s : State) (p x : Nat) : (s.setGlv p x).irq = s.irq := rfl
@[simp] theorem State.hubq_setGlv (s : State) (p x : Nat) : (s.setGlv p x).hubq = s.hubq := rfl
@[simp] theorem State.banks_setGlv (s : State) (p x : Nat) : (s.setGlv p x).banks = s.banks := rfl
@[simp] theorem State.cs_setGlv (s : State) (p x : Nat) : (s.setGlv p x).cs = s.cs := rfl
@[simp] theorem State.adcs_setGlv (s : State) (p x : Nat) : (s.setGlv p x).adcs = s.adcs := rfl
@[simp] theorem State.ports_setGlv (s : State) (p x : Nat) : (s.setGlv p x).ports = s.ports := rfl
@[simp] theorem State.keep_setGlv (s : State) (p x : Nat) : (s.setGlv p x).keep = s.keep := rfl
@[simp] theorem State.out_setGlv (s : State) (p x : Nat) : (s.setGlv p x).out = s.out := rfl
@[simp] theorem State.evtRise_setGlv (s : State) (p x : Nat) : (s.setGlv p x).evtRise = s.evtRise := rfl
@[simp] theorem State.wears_setGlv (s : State) (p x : Nat) : (s.setGlv p x).wears = s.wears := rfl
@[simp] theorem State.tags_setGlv (s : State) (p x : Nat) : (s.setGlv p x).tags = s.tags := rfl
@[simp] theorem State.ecc_setGlv (s : State) (p x : Nat) : (s.setGlv p x).ecc = s.ecc := rfl
@[simp] theorem State.resv_setGlv (s : State) (p x : Nat) : (s.setGlv p x).resv = s.resv := rfl
@[simp] theorem State.slewNext_setGlv (s : State) (p x : Nat) : (s.setGlv p x).slewNext = s.slewNext := rfl
@[simp] theorem State.syncDue_setGlv (s : State) (p x : Nat) : (s.setGlv p x).syncDue = s.syncDue := rfl
@[simp] theorem State.syncOut_setGlv (s : State) (p x : Nat) : (s.setGlv p x).syncOut = s.syncOut := rfl
@[simp] theorem State.alarms_setGlv (s : State) (p x : Nat) : (s.setGlv p x).alarms = s.alarms := rfl
@[simp] theorem State.dropped_setGlv (s : State) (p x : Nat) : (s.setGlv p x).dropped = s.dropped := rfl
@[simp] theorem State.scrub_setGlv (s : State) (p x : Nat) : (s.setGlv p x).scrub = s.scrub := rfl
@[simp] theorem State.imgFill_setGlv (s : State) (p x : Nat) : (s.setGlv p x).imgFill = s.imgFill := rfl
@[simp] theorem State.rel_setGlv (s : State) (p x : Nat) : (s.setGlv p x).rel = s.rel := rfl
@[simp] theorem State.dmas_setGlv (s : State) (p x : Nat) : (s.setGlv p x).dmas = s.dmas := rfl
@[simp] theorem State.dmaHold_setGlv (s : State) (p x : Nat) : (s.setGlv p x).dmaHold = s.dmaHold := rfl
@[simp] theorem State.mcs_setGlv (s : State) (p x : Nat) : (s.setGlv p x).mcs = s.mcs := rfl
@[simp] theorem State.cores_setGlv (s : State) (p x : Nat) : (s.setGlv p x).cores = s.cores := rfl
@[simp] theorem State.dmaFree_setGlv (s : State) (p x : Nat) : (s.setGlv p x).dmaFree = s.dmaFree := rfl
@[simp] theorem State.pwr_setGlv (s : State) (p x : Nat) : (s.setGlv p x).pwr = s.pwr := rfl
@[simp] theorem State.rings_setGlv (s : State) (p x : Nat) : (s.setGlv p x).rings = s.rings := rfl
@[simp] theorem State.outFell_setGlv (s : State) (p x : Nat) : (s.setGlv p x).outFell = s.outFell := rfl
@[simp] theorem State.latchTick_setGlv (s : State) (p x : Nat) : (s.setGlv p x).latchTick = s.latchTick := rfl
@[simp] theorem State.towRx_setGlv (s : State) (p x : Nat) : (s.setGlv p x).towRx = s.towRx := rfl

@[simp] theorem State.pending_mapLane (s : State) (l : Nat) (f : Lane → Lane) : (s.mapLane l f).pending = s.pending := rfl
@[simp] theorem State.tick_mapLane (s : State) (l : Nat) (f : Lane → Lane) : (s.mapLane l f).tick = s.tick := rfl
@[simp] theorem State.ts_mapLane (s : State) (l : Nat) (f : Lane → Lane) : (s.mapLane l f).ts = s.ts := rfl
@[simp] theorem State.free_mapLane (s : State) (l : Nat) (f : Lane → Lane) : (s.mapLane l f).free = s.free := rfl
@[simp] theorem State.regs_mapLane (s : State) (l : Nat) (f : Lane → Lane) : (s.mapLane l f).regs = s.regs := rfl
@[simp] theorem State.hold_mapLane (s : State) (l : Nat) (f : Lane → Lane) : (s.mapLane l f).hold = s.hold := rfl
@[simp] theorem State.mem_mapLane (s : State) (l : Nat) (f : Lane → Lane) : (s.mapLane l f).mem = s.mem := rfl
@[simp] theorem State.fcs_mapLane (s : State) (l : Nat) (f : Lane → Lane) : (s.mapLane l f).fcs = s.fcs := rfl
@[simp] theorem State.slots_mapLane (s : State) (l : Nat) (f : Lane → Lane) : (s.mapLane l f).slots = s.slots := rfl
@[simp] theorem State.cmps_mapLane (s : State) (l : Nat) (f : Lane → Lane) : (s.mapLane l f).cmps = s.cmps := rfl
@[simp] theorem State.tripOut_mapLane (s : State) (l : Nat) (f : Lane → Lane) : (s.mapLane l f).tripOut = s.tripOut := rfl
@[simp] theorem State.staged_mapLane (s : State) (l : Nat) (f : Lane → Lane) : (s.mapLane l f).staged = s.staged := rfl
@[simp] theorem State.pwms_mapLane (s : State) (l : Nat) (f : Lane → Lane) : (s.mapLane l f).pwms = s.pwms := rfl
@[simp] theorem State.towIn_mapLane (s : State) (l : Nat) (f : Lane → Lane) : (s.mapLane l f).towIn = s.towIn := rfl
@[simp] theorem State.towOut_mapLane (s : State) (l : Nat) (f : Lane → Lane) : (s.mapLane l f).towOut = s.towOut := rfl
@[simp] theorem State.safePinExt_mapLane (s : State) (l : Nat) (f : Lane → Lane) : (s.mapLane l f).safePinExt = s.safePinExt := rfl
@[simp] theorem State.safeDriven_mapLane (s : State) (l : Nat) (f : Lane → Lane) : (s.mapLane l f).safeDriven = s.safeDriven := rfl
@[simp] theorem State.irq_mapLane (s : State) (l : Nat) (f : Lane → Lane) : (s.mapLane l f).irq = s.irq := rfl
@[simp] theorem State.hubq_mapLane (s : State) (l : Nat) (f : Lane → Lane) : (s.mapLane l f).hubq = s.hubq := rfl
@[simp] theorem State.banks_mapLane (s : State) (l : Nat) (f : Lane → Lane) : (s.mapLane l f).banks = s.banks := rfl
@[simp] theorem State.cs_mapLane (s : State) (l : Nat) (f : Lane → Lane) : (s.mapLane l f).cs = s.cs := rfl
@[simp] theorem State.adcs_mapLane (s : State) (l : Nat) (f : Lane → Lane) : (s.mapLane l f).adcs = s.adcs := rfl
@[simp] theorem State.ports_mapLane (s : State) (l : Nat) (f : Lane → Lane) : (s.mapLane l f).ports = s.ports := rfl
@[simp] theorem State.keep_mapLane (s : State) (l : Nat) (f : Lane → Lane) : (s.mapLane l f).keep = s.keep := rfl
@[simp] theorem State.out_mapLane (s : State) (l : Nat) (f : Lane → Lane) : (s.mapLane l f).out = s.out := rfl
@[simp] theorem State.evtRise_mapLane (s : State) (l : Nat) (f : Lane → Lane) : (s.mapLane l f).evtRise = s.evtRise := rfl
@[simp] theorem State.wears_mapLane (s : State) (l : Nat) (f : Lane → Lane) : (s.mapLane l f).wears = s.wears := rfl
@[simp] theorem State.tags_mapLane (s : State) (l : Nat) (f : Lane → Lane) : (s.mapLane l f).tags = s.tags := rfl
@[simp] theorem State.ecc_mapLane (s : State) (l : Nat) (f : Lane → Lane) : (s.mapLane l f).ecc = s.ecc := rfl
@[simp] theorem State.resv_mapLane (s : State) (l : Nat) (f : Lane → Lane) : (s.mapLane l f).resv = s.resv := rfl
@[simp] theorem State.slewNext_mapLane (s : State) (l : Nat) (f : Lane → Lane) : (s.mapLane l f).slewNext = s.slewNext := rfl
@[simp] theorem State.syncDue_mapLane (s : State) (l : Nat) (f : Lane → Lane) : (s.mapLane l f).syncDue = s.syncDue := rfl
@[simp] theorem State.syncOut_mapLane (s : State) (l : Nat) (f : Lane → Lane) : (s.mapLane l f).syncOut = s.syncOut := rfl
@[simp] theorem State.alarms_mapLane (s : State) (l : Nat) (f : Lane → Lane) : (s.mapLane l f).alarms = s.alarms := rfl
@[simp] theorem State.dropped_mapLane (s : State) (l : Nat) (f : Lane → Lane) : (s.mapLane l f).dropped = s.dropped := rfl
@[simp] theorem State.scrub_mapLane (s : State) (l : Nat) (f : Lane → Lane) : (s.mapLane l f).scrub = s.scrub := rfl
@[simp] theorem State.imgFill_mapLane (s : State) (l : Nat) (f : Lane → Lane) : (s.mapLane l f).imgFill = s.imgFill := rfl
@[simp] theorem State.rel_mapLane (s : State) (l : Nat) (f : Lane → Lane) : (s.mapLane l f).rel = s.rel := rfl
@[simp] theorem State.dmas_mapLane (s : State) (l : Nat) (f : Lane → Lane) : (s.mapLane l f).dmas = s.dmas := rfl
@[simp] theorem State.dmaHold_mapLane (s : State) (l : Nat) (f : Lane → Lane) : (s.mapLane l f).dmaHold = s.dmaHold := rfl
@[simp] theorem State.mcs_mapLane (s : State) (l : Nat) (f : Lane → Lane) : (s.mapLane l f).mcs = s.mcs := rfl
@[simp] theorem State.cores_mapLane (s : State) (l : Nat) (f : Lane → Lane) : (s.mapLane l f).cores = s.cores := rfl
@[simp] theorem State.dmaFree_mapLane (s : State) (l : Nat) (f : Lane → Lane) : (s.mapLane l f).dmaFree = s.dmaFree := rfl
@[simp] theorem State.pwr_mapLane (s : State) (l : Nat) (f : Lane → Lane) : (s.mapLane l f).pwr = s.pwr := rfl
@[simp] theorem State.rings_mapLane (s : State) (l : Nat) (f : Lane → Lane) : (s.mapLane l f).rings = s.rings := rfl
@[simp] theorem State.outFell_mapLane (s : State) (l : Nat) (f : Lane → Lane) : (s.mapLane l f).outFell = s.outFell := rfl
@[simp] theorem State.latchTick_mapLane (s : State) (l : Nat) (f : Lane → Lane) : (s.mapLane l f).latchTick = s.latchTick := rfl
@[simp] theorem State.towRx_mapLane (s : State) (l : Nat) (f : Lane → Lane) : (s.mapLane l f).towRx = s.towRx := rfl

@[simp] theorem State.pending_mapFc (s : State) (n : Nat) (f : FcSt → FcSt) : (s.mapFc n f).pending = s.pending := rfl
@[simp] theorem State.tick_mapFc (s : State) (n : Nat) (f : FcSt → FcSt) : (s.mapFc n f).tick = s.tick := rfl
@[simp] theorem State.ts_mapFc (s : State) (n : Nat) (f : FcSt → FcSt) : (s.mapFc n f).ts = s.ts := rfl
@[simp] theorem State.free_mapFc (s : State) (n : Nat) (f : FcSt → FcSt) : (s.mapFc n f).free = s.free := rfl
@[simp] theorem State.regs_mapFc (s : State) (n : Nat) (f : FcSt → FcSt) : (s.mapFc n f).regs = s.regs := rfl
@[simp] theorem State.hold_mapFc (s : State) (n : Nat) (f : FcSt → FcSt) : (s.mapFc n f).hold = s.hold := rfl
@[simp] theorem State.mem_mapFc (s : State) (n : Nat) (f : FcSt → FcSt) : (s.mapFc n f).mem = s.mem := rfl
@[simp] theorem State.lanes_mapFc (s : State) (n : Nat) (f : FcSt → FcSt) : (s.mapFc n f).lanes = s.lanes := rfl
@[simp] theorem State.slots_mapFc (s : State) (n : Nat) (f : FcSt → FcSt) : (s.mapFc n f).slots = s.slots := rfl
@[simp] theorem State.cmps_mapFc (s : State) (n : Nat) (f : FcSt → FcSt) : (s.mapFc n f).cmps = s.cmps := rfl
@[simp] theorem State.tripOut_mapFc (s : State) (n : Nat) (f : FcSt → FcSt) : (s.mapFc n f).tripOut = s.tripOut := rfl
@[simp] theorem State.staged_mapFc (s : State) (n : Nat) (f : FcSt → FcSt) : (s.mapFc n f).staged = s.staged := rfl
@[simp] theorem State.pwms_mapFc (s : State) (n : Nat) (f : FcSt → FcSt) : (s.mapFc n f).pwms = s.pwms := rfl
@[simp] theorem State.towIn_mapFc (s : State) (n : Nat) (f : FcSt → FcSt) : (s.mapFc n f).towIn = s.towIn := rfl
@[simp] theorem State.towOut_mapFc (s : State) (n : Nat) (f : FcSt → FcSt) : (s.mapFc n f).towOut = s.towOut := rfl
@[simp] theorem State.safePinExt_mapFc (s : State) (n : Nat) (f : FcSt → FcSt) : (s.mapFc n f).safePinExt = s.safePinExt := rfl
@[simp] theorem State.safeDriven_mapFc (s : State) (n : Nat) (f : FcSt → FcSt) : (s.mapFc n f).safeDriven = s.safeDriven := rfl
@[simp] theorem State.irq_mapFc (s : State) (n : Nat) (f : FcSt → FcSt) : (s.mapFc n f).irq = s.irq := rfl
@[simp] theorem State.hubq_mapFc (s : State) (n : Nat) (f : FcSt → FcSt) : (s.mapFc n f).hubq = s.hubq := rfl
@[simp] theorem State.banks_mapFc (s : State) (n : Nat) (f : FcSt → FcSt) : (s.mapFc n f).banks = s.banks := rfl
@[simp] theorem State.cs_mapFc (s : State) (n : Nat) (f : FcSt → FcSt) : (s.mapFc n f).cs = s.cs := rfl
@[simp] theorem State.adcs_mapFc (s : State) (n : Nat) (f : FcSt → FcSt) : (s.mapFc n f).adcs = s.adcs := rfl
@[simp] theorem State.ports_mapFc (s : State) (n : Nat) (f : FcSt → FcSt) : (s.mapFc n f).ports = s.ports := rfl
@[simp] theorem State.keep_mapFc (s : State) (n : Nat) (f : FcSt → FcSt) : (s.mapFc n f).keep = s.keep := rfl
@[simp] theorem State.out_mapFc (s : State) (n : Nat) (f : FcSt → FcSt) : (s.mapFc n f).out = s.out := rfl
@[simp] theorem State.evtRise_mapFc (s : State) (n : Nat) (f : FcSt → FcSt) : (s.mapFc n f).evtRise = s.evtRise := rfl
@[simp] theorem State.wears_mapFc (s : State) (n : Nat) (f : FcSt → FcSt) : (s.mapFc n f).wears = s.wears := rfl
@[simp] theorem State.tags_mapFc (s : State) (n : Nat) (f : FcSt → FcSt) : (s.mapFc n f).tags = s.tags := rfl
@[simp] theorem State.ecc_mapFc (s : State) (n : Nat) (f : FcSt → FcSt) : (s.mapFc n f).ecc = s.ecc := rfl
@[simp] theorem State.resv_mapFc (s : State) (n : Nat) (f : FcSt → FcSt) : (s.mapFc n f).resv = s.resv := rfl
@[simp] theorem State.slewNext_mapFc (s : State) (n : Nat) (f : FcSt → FcSt) : (s.mapFc n f).slewNext = s.slewNext := rfl
@[simp] theorem State.syncDue_mapFc (s : State) (n : Nat) (f : FcSt → FcSt) : (s.mapFc n f).syncDue = s.syncDue := rfl
@[simp] theorem State.syncOut_mapFc (s : State) (n : Nat) (f : FcSt → FcSt) : (s.mapFc n f).syncOut = s.syncOut := rfl
@[simp] theorem State.alarms_mapFc (s : State) (n : Nat) (f : FcSt → FcSt) : (s.mapFc n f).alarms = s.alarms := rfl
@[simp] theorem State.dropped_mapFc (s : State) (n : Nat) (f : FcSt → FcSt) : (s.mapFc n f).dropped = s.dropped := rfl
@[simp] theorem State.scrub_mapFc (s : State) (n : Nat) (f : FcSt → FcSt) : (s.mapFc n f).scrub = s.scrub := rfl
@[simp] theorem State.imgFill_mapFc (s : State) (n : Nat) (f : FcSt → FcSt) : (s.mapFc n f).imgFill = s.imgFill := rfl
@[simp] theorem State.rel_mapFc (s : State) (n : Nat) (f : FcSt → FcSt) : (s.mapFc n f).rel = s.rel := rfl
@[simp] theorem State.dmas_mapFc (s : State) (n : Nat) (f : FcSt → FcSt) : (s.mapFc n f).dmas = s.dmas := rfl
@[simp] theorem State.dmaHold_mapFc (s : State) (n : Nat) (f : FcSt → FcSt) : (s.mapFc n f).dmaHold = s.dmaHold := rfl
@[simp] theorem State.mcs_mapFc (s : State) (n : Nat) (f : FcSt → FcSt) : (s.mapFc n f).mcs = s.mcs := rfl
@[simp] theorem State.cores_mapFc (s : State) (n : Nat) (f : FcSt → FcSt) : (s.mapFc n f).cores = s.cores := rfl
@[simp] theorem State.dmaFree_mapFc (s : State) (n : Nat) (f : FcSt → FcSt) : (s.mapFc n f).dmaFree = s.dmaFree := rfl
@[simp] theorem State.pwr_mapFc (s : State) (n : Nat) (f : FcSt → FcSt) : (s.mapFc n f).pwr = s.pwr := rfl
@[simp] theorem State.rings_mapFc (s : State) (n : Nat) (f : FcSt → FcSt) : (s.mapFc n f).rings = s.rings := rfl
@[simp] theorem State.outFell_mapFc (s : State) (n : Nat) (f : FcSt → FcSt) : (s.mapFc n f).outFell = s.outFell := rfl
@[simp] theorem State.latchTick_mapFc (s : State) (n : Nat) (f : FcSt → FcSt) : (s.mapFc n f).latchTick = s.latchTick := rfl
@[simp] theorem State.towRx_mapFc (s : State) (n : Nat) (f : FcSt → FcSt) : (s.mapFc n f).towRx = s.towRx := rfl

@[simp] theorem State.pending_mapSlot (s : State) (n k : Nat) (f : SlotSt → SlotSt) : (s.mapSlot n k f).pending = s.pending := rfl
@[simp] theorem State.tick_mapSlot (s : State) (n k : Nat) (f : SlotSt → SlotSt) : (s.mapSlot n k f).tick = s.tick := rfl
@[simp] theorem State.ts_mapSlot (s : State) (n k : Nat) (f : SlotSt → SlotSt) : (s.mapSlot n k f).ts = s.ts := rfl
@[simp] theorem State.free_mapSlot (s : State) (n k : Nat) (f : SlotSt → SlotSt) : (s.mapSlot n k f).free = s.free := rfl
@[simp] theorem State.regs_mapSlot (s : State) (n k : Nat) (f : SlotSt → SlotSt) : (s.mapSlot n k f).regs = s.regs := rfl
@[simp] theorem State.hold_mapSlot (s : State) (n k : Nat) (f : SlotSt → SlotSt) : (s.mapSlot n k f).hold = s.hold := rfl
@[simp] theorem State.mem_mapSlot (s : State) (n k : Nat) (f : SlotSt → SlotSt) : (s.mapSlot n k f).mem = s.mem := rfl
@[simp] theorem State.lanes_mapSlot (s : State) (n k : Nat) (f : SlotSt → SlotSt) : (s.mapSlot n k f).lanes = s.lanes := rfl
@[simp] theorem State.fcs_mapSlot (s : State) (n k : Nat) (f : SlotSt → SlotSt) : (s.mapSlot n k f).fcs = s.fcs := rfl
@[simp] theorem State.cmps_mapSlot (s : State) (n k : Nat) (f : SlotSt → SlotSt) : (s.mapSlot n k f).cmps = s.cmps := rfl
@[simp] theorem State.tripOut_mapSlot (s : State) (n k : Nat) (f : SlotSt → SlotSt) : (s.mapSlot n k f).tripOut = s.tripOut := rfl
@[simp] theorem State.staged_mapSlot (s : State) (n k : Nat) (f : SlotSt → SlotSt) : (s.mapSlot n k f).staged = s.staged := rfl
@[simp] theorem State.pwms_mapSlot (s : State) (n k : Nat) (f : SlotSt → SlotSt) : (s.mapSlot n k f).pwms = s.pwms := rfl
@[simp] theorem State.towIn_mapSlot (s : State) (n k : Nat) (f : SlotSt → SlotSt) : (s.mapSlot n k f).towIn = s.towIn := rfl
@[simp] theorem State.towOut_mapSlot (s : State) (n k : Nat) (f : SlotSt → SlotSt) : (s.mapSlot n k f).towOut = s.towOut := rfl
@[simp] theorem State.safePinExt_mapSlot (s : State) (n k : Nat) (f : SlotSt → SlotSt) : (s.mapSlot n k f).safePinExt = s.safePinExt := rfl
@[simp] theorem State.safeDriven_mapSlot (s : State) (n k : Nat) (f : SlotSt → SlotSt) : (s.mapSlot n k f).safeDriven = s.safeDriven := rfl
@[simp] theorem State.irq_mapSlot (s : State) (n k : Nat) (f : SlotSt → SlotSt) : (s.mapSlot n k f).irq = s.irq := rfl
@[simp] theorem State.hubq_mapSlot (s : State) (n k : Nat) (f : SlotSt → SlotSt) : (s.mapSlot n k f).hubq = s.hubq := rfl
@[simp] theorem State.banks_mapSlot (s : State) (n k : Nat) (f : SlotSt → SlotSt) : (s.mapSlot n k f).banks = s.banks := rfl
@[simp] theorem State.cs_mapSlot (s : State) (n k : Nat) (f : SlotSt → SlotSt) : (s.mapSlot n k f).cs = s.cs := rfl
@[simp] theorem State.adcs_mapSlot (s : State) (n k : Nat) (f : SlotSt → SlotSt) : (s.mapSlot n k f).adcs = s.adcs := rfl
@[simp] theorem State.ports_mapSlot (s : State) (n k : Nat) (f : SlotSt → SlotSt) : (s.mapSlot n k f).ports = s.ports := rfl
@[simp] theorem State.keep_mapSlot (s : State) (n k : Nat) (f : SlotSt → SlotSt) : (s.mapSlot n k f).keep = s.keep := rfl
@[simp] theorem State.out_mapSlot (s : State) (n k : Nat) (f : SlotSt → SlotSt) : (s.mapSlot n k f).out = s.out := rfl
@[simp] theorem State.evtRise_mapSlot (s : State) (n k : Nat) (f : SlotSt → SlotSt) : (s.mapSlot n k f).evtRise = s.evtRise := rfl
@[simp] theorem State.wears_mapSlot (s : State) (n k : Nat) (f : SlotSt → SlotSt) : (s.mapSlot n k f).wears = s.wears := rfl
@[simp] theorem State.tags_mapSlot (s : State) (n k : Nat) (f : SlotSt → SlotSt) : (s.mapSlot n k f).tags = s.tags := rfl
@[simp] theorem State.ecc_mapSlot (s : State) (n k : Nat) (f : SlotSt → SlotSt) : (s.mapSlot n k f).ecc = s.ecc := rfl
@[simp] theorem State.resv_mapSlot (s : State) (n k : Nat) (f : SlotSt → SlotSt) : (s.mapSlot n k f).resv = s.resv := rfl
@[simp] theorem State.slewNext_mapSlot (s : State) (n k : Nat) (f : SlotSt → SlotSt) : (s.mapSlot n k f).slewNext = s.slewNext := rfl
@[simp] theorem State.syncDue_mapSlot (s : State) (n k : Nat) (f : SlotSt → SlotSt) : (s.mapSlot n k f).syncDue = s.syncDue := rfl
@[simp] theorem State.syncOut_mapSlot (s : State) (n k : Nat) (f : SlotSt → SlotSt) : (s.mapSlot n k f).syncOut = s.syncOut := rfl
@[simp] theorem State.alarms_mapSlot (s : State) (n k : Nat) (f : SlotSt → SlotSt) : (s.mapSlot n k f).alarms = s.alarms := rfl
@[simp] theorem State.dropped_mapSlot (s : State) (n k : Nat) (f : SlotSt → SlotSt) : (s.mapSlot n k f).dropped = s.dropped := rfl
@[simp] theorem State.scrub_mapSlot (s : State) (n k : Nat) (f : SlotSt → SlotSt) : (s.mapSlot n k f).scrub = s.scrub := rfl
@[simp] theorem State.imgFill_mapSlot (s : State) (n k : Nat) (f : SlotSt → SlotSt) : (s.mapSlot n k f).imgFill = s.imgFill := rfl
@[simp] theorem State.rel_mapSlot (s : State) (n k : Nat) (f : SlotSt → SlotSt) : (s.mapSlot n k f).rel = s.rel := rfl
@[simp] theorem State.dmas_mapSlot (s : State) (n k : Nat) (f : SlotSt → SlotSt) : (s.mapSlot n k f).dmas = s.dmas := rfl
@[simp] theorem State.dmaHold_mapSlot (s : State) (n k : Nat) (f : SlotSt → SlotSt) : (s.mapSlot n k f).dmaHold = s.dmaHold := rfl
@[simp] theorem State.mcs_mapSlot (s : State) (n k : Nat) (f : SlotSt → SlotSt) : (s.mapSlot n k f).mcs = s.mcs := rfl
@[simp] theorem State.cores_mapSlot (s : State) (n k : Nat) (f : SlotSt → SlotSt) : (s.mapSlot n k f).cores = s.cores := rfl
@[simp] theorem State.dmaFree_mapSlot (s : State) (n k : Nat) (f : SlotSt → SlotSt) : (s.mapSlot n k f).dmaFree = s.dmaFree := rfl
@[simp] theorem State.pwr_mapSlot (s : State) (n k : Nat) (f : SlotSt → SlotSt) : (s.mapSlot n k f).pwr = s.pwr := rfl
@[simp] theorem State.rings_mapSlot (s : State) (n k : Nat) (f : SlotSt → SlotSt) : (s.mapSlot n k f).rings = s.rings := rfl
@[simp] theorem State.outFell_mapSlot (s : State) (n k : Nat) (f : SlotSt → SlotSt) : (s.mapSlot n k f).outFell = s.outFell := rfl
@[simp] theorem State.latchTick_mapSlot (s : State) (n k : Nat) (f : SlotSt → SlotSt) : (s.mapSlot n k f).latchTick = s.latchTick := rfl
@[simp] theorem State.towRx_mapSlot (s : State) (n k : Nat) (f : SlotSt → SlotSt) : (s.mapSlot n k f).towRx = s.towRx := rfl

@[simp] theorem State.pending_mapCmp (s : State) (c : Nat) (f : CmpSt → CmpSt) : (s.mapCmp c f).pending = s.pending := rfl
@[simp] theorem State.tick_mapCmp (s : State) (c : Nat) (f : CmpSt → CmpSt) : (s.mapCmp c f).tick = s.tick := rfl
@[simp] theorem State.ts_mapCmp (s : State) (c : Nat) (f : CmpSt → CmpSt) : (s.mapCmp c f).ts = s.ts := rfl
@[simp] theorem State.free_mapCmp (s : State) (c : Nat) (f : CmpSt → CmpSt) : (s.mapCmp c f).free = s.free := rfl
@[simp] theorem State.regs_mapCmp (s : State) (c : Nat) (f : CmpSt → CmpSt) : (s.mapCmp c f).regs = s.regs := rfl
@[simp] theorem State.hold_mapCmp (s : State) (c : Nat) (f : CmpSt → CmpSt) : (s.mapCmp c f).hold = s.hold := rfl
@[simp] theorem State.mem_mapCmp (s : State) (c : Nat) (f : CmpSt → CmpSt) : (s.mapCmp c f).mem = s.mem := rfl
@[simp] theorem State.lanes_mapCmp (s : State) (c : Nat) (f : CmpSt → CmpSt) : (s.mapCmp c f).lanes = s.lanes := rfl
@[simp] theorem State.fcs_mapCmp (s : State) (c : Nat) (f : CmpSt → CmpSt) : (s.mapCmp c f).fcs = s.fcs := rfl
@[simp] theorem State.slots_mapCmp (s : State) (c : Nat) (f : CmpSt → CmpSt) : (s.mapCmp c f).slots = s.slots := rfl
@[simp] theorem State.tripOut_mapCmp (s : State) (c : Nat) (f : CmpSt → CmpSt) : (s.mapCmp c f).tripOut = s.tripOut := rfl
@[simp] theorem State.staged_mapCmp (s : State) (c : Nat) (f : CmpSt → CmpSt) : (s.mapCmp c f).staged = s.staged := rfl
@[simp] theorem State.pwms_mapCmp (s : State) (c : Nat) (f : CmpSt → CmpSt) : (s.mapCmp c f).pwms = s.pwms := rfl
@[simp] theorem State.towIn_mapCmp (s : State) (c : Nat) (f : CmpSt → CmpSt) : (s.mapCmp c f).towIn = s.towIn := rfl
@[simp] theorem State.towOut_mapCmp (s : State) (c : Nat) (f : CmpSt → CmpSt) : (s.mapCmp c f).towOut = s.towOut := rfl
@[simp] theorem State.safePinExt_mapCmp (s : State) (c : Nat) (f : CmpSt → CmpSt) : (s.mapCmp c f).safePinExt = s.safePinExt := rfl
@[simp] theorem State.safeDriven_mapCmp (s : State) (c : Nat) (f : CmpSt → CmpSt) : (s.mapCmp c f).safeDriven = s.safeDriven := rfl
@[simp] theorem State.irq_mapCmp (s : State) (c : Nat) (f : CmpSt → CmpSt) : (s.mapCmp c f).irq = s.irq := rfl
@[simp] theorem State.hubq_mapCmp (s : State) (c : Nat) (f : CmpSt → CmpSt) : (s.mapCmp c f).hubq = s.hubq := rfl
@[simp] theorem State.banks_mapCmp (s : State) (c : Nat) (f : CmpSt → CmpSt) : (s.mapCmp c f).banks = s.banks := rfl
@[simp] theorem State.cs_mapCmp (s : State) (c : Nat) (f : CmpSt → CmpSt) : (s.mapCmp c f).cs = s.cs := rfl
@[simp] theorem State.adcs_mapCmp (s : State) (c : Nat) (f : CmpSt → CmpSt) : (s.mapCmp c f).adcs = s.adcs := rfl
@[simp] theorem State.ports_mapCmp (s : State) (c : Nat) (f : CmpSt → CmpSt) : (s.mapCmp c f).ports = s.ports := rfl
@[simp] theorem State.keep_mapCmp (s : State) (c : Nat) (f : CmpSt → CmpSt) : (s.mapCmp c f).keep = s.keep := rfl
@[simp] theorem State.out_mapCmp (s : State) (c : Nat) (f : CmpSt → CmpSt) : (s.mapCmp c f).out = s.out := rfl
@[simp] theorem State.evtRise_mapCmp (s : State) (c : Nat) (f : CmpSt → CmpSt) : (s.mapCmp c f).evtRise = s.evtRise := rfl
@[simp] theorem State.wears_mapCmp (s : State) (c : Nat) (f : CmpSt → CmpSt) : (s.mapCmp c f).wears = s.wears := rfl
@[simp] theorem State.tags_mapCmp (s : State) (c : Nat) (f : CmpSt → CmpSt) : (s.mapCmp c f).tags = s.tags := rfl
@[simp] theorem State.ecc_mapCmp (s : State) (c : Nat) (f : CmpSt → CmpSt) : (s.mapCmp c f).ecc = s.ecc := rfl
@[simp] theorem State.resv_mapCmp (s : State) (c : Nat) (f : CmpSt → CmpSt) : (s.mapCmp c f).resv = s.resv := rfl
@[simp] theorem State.slewNext_mapCmp (s : State) (c : Nat) (f : CmpSt → CmpSt) : (s.mapCmp c f).slewNext = s.slewNext := rfl
@[simp] theorem State.syncDue_mapCmp (s : State) (c : Nat) (f : CmpSt → CmpSt) : (s.mapCmp c f).syncDue = s.syncDue := rfl
@[simp] theorem State.syncOut_mapCmp (s : State) (c : Nat) (f : CmpSt → CmpSt) : (s.mapCmp c f).syncOut = s.syncOut := rfl
@[simp] theorem State.alarms_mapCmp (s : State) (c : Nat) (f : CmpSt → CmpSt) : (s.mapCmp c f).alarms = s.alarms := rfl
@[simp] theorem State.dropped_mapCmp (s : State) (c : Nat) (f : CmpSt → CmpSt) : (s.mapCmp c f).dropped = s.dropped := rfl
@[simp] theorem State.scrub_mapCmp (s : State) (c : Nat) (f : CmpSt → CmpSt) : (s.mapCmp c f).scrub = s.scrub := rfl
@[simp] theorem State.imgFill_mapCmp (s : State) (c : Nat) (f : CmpSt → CmpSt) : (s.mapCmp c f).imgFill = s.imgFill := rfl
@[simp] theorem State.rel_mapCmp (s : State) (c : Nat) (f : CmpSt → CmpSt) : (s.mapCmp c f).rel = s.rel := rfl
@[simp] theorem State.dmas_mapCmp (s : State) (c : Nat) (f : CmpSt → CmpSt) : (s.mapCmp c f).dmas = s.dmas := rfl
@[simp] theorem State.dmaHold_mapCmp (s : State) (c : Nat) (f : CmpSt → CmpSt) : (s.mapCmp c f).dmaHold = s.dmaHold := rfl
@[simp] theorem State.mcs_mapCmp (s : State) (c : Nat) (f : CmpSt → CmpSt) : (s.mapCmp c f).mcs = s.mcs := rfl
@[simp] theorem State.cores_mapCmp (s : State) (c : Nat) (f : CmpSt → CmpSt) : (s.mapCmp c f).cores = s.cores := rfl
@[simp] theorem State.dmaFree_mapCmp (s : State) (c : Nat) (f : CmpSt → CmpSt) : (s.mapCmp c f).dmaFree = s.dmaFree := rfl
@[simp] theorem State.pwr_mapCmp (s : State) (c : Nat) (f : CmpSt → CmpSt) : (s.mapCmp c f).pwr = s.pwr := rfl
@[simp] theorem State.rings_mapCmp (s : State) (c : Nat) (f : CmpSt → CmpSt) : (s.mapCmp c f).rings = s.rings := rfl
@[simp] theorem State.outFell_mapCmp (s : State) (c : Nat) (f : CmpSt → CmpSt) : (s.mapCmp c f).outFell = s.outFell := rfl
@[simp] theorem State.latchTick_mapCmp (s : State) (c : Nat) (f : CmpSt → CmpSt) : (s.mapCmp c f).latchTick = s.latchTick := rfl
@[simp] theorem State.towRx_mapCmp (s : State) (c : Nat) (f : CmpSt → CmpSt) : (s.mapCmp c f).towRx = s.towRx := rfl

@[simp] theorem State.pending_mapPwm (s : State) (k : Nat) (f : PwmSt → PwmSt) : (s.mapPwm k f).pending = s.pending := rfl
@[simp] theorem State.tick_mapPwm (s : State) (k : Nat) (f : PwmSt → PwmSt) : (s.mapPwm k f).tick = s.tick := rfl
@[simp] theorem State.ts_mapPwm (s : State) (k : Nat) (f : PwmSt → PwmSt) : (s.mapPwm k f).ts = s.ts := rfl
@[simp] theorem State.free_mapPwm (s : State) (k : Nat) (f : PwmSt → PwmSt) : (s.mapPwm k f).free = s.free := rfl
@[simp] theorem State.regs_mapPwm (s : State) (k : Nat) (f : PwmSt → PwmSt) : (s.mapPwm k f).regs = s.regs := rfl
@[simp] theorem State.hold_mapPwm (s : State) (k : Nat) (f : PwmSt → PwmSt) : (s.mapPwm k f).hold = s.hold := rfl
@[simp] theorem State.mem_mapPwm (s : State) (k : Nat) (f : PwmSt → PwmSt) : (s.mapPwm k f).mem = s.mem := rfl
@[simp] theorem State.lanes_mapPwm (s : State) (k : Nat) (f : PwmSt → PwmSt) : (s.mapPwm k f).lanes = s.lanes := rfl
@[simp] theorem State.fcs_mapPwm (s : State) (k : Nat) (f : PwmSt → PwmSt) : (s.mapPwm k f).fcs = s.fcs := rfl
@[simp] theorem State.slots_mapPwm (s : State) (k : Nat) (f : PwmSt → PwmSt) : (s.mapPwm k f).slots = s.slots := rfl
@[simp] theorem State.cmps_mapPwm (s : State) (k : Nat) (f : PwmSt → PwmSt) : (s.mapPwm k f).cmps = s.cmps := rfl
@[simp] theorem State.tripOut_mapPwm (s : State) (k : Nat) (f : PwmSt → PwmSt) : (s.mapPwm k f).tripOut = s.tripOut := rfl
@[simp] theorem State.staged_mapPwm (s : State) (k : Nat) (f : PwmSt → PwmSt) : (s.mapPwm k f).staged = s.staged := rfl
@[simp] theorem State.towIn_mapPwm (s : State) (k : Nat) (f : PwmSt → PwmSt) : (s.mapPwm k f).towIn = s.towIn := rfl
@[simp] theorem State.towOut_mapPwm (s : State) (k : Nat) (f : PwmSt → PwmSt) : (s.mapPwm k f).towOut = s.towOut := rfl
@[simp] theorem State.safePinExt_mapPwm (s : State) (k : Nat) (f : PwmSt → PwmSt) : (s.mapPwm k f).safePinExt = s.safePinExt := rfl
@[simp] theorem State.safeDriven_mapPwm (s : State) (k : Nat) (f : PwmSt → PwmSt) : (s.mapPwm k f).safeDriven = s.safeDriven := rfl
@[simp] theorem State.irq_mapPwm (s : State) (k : Nat) (f : PwmSt → PwmSt) : (s.mapPwm k f).irq = s.irq := rfl
@[simp] theorem State.hubq_mapPwm (s : State) (k : Nat) (f : PwmSt → PwmSt) : (s.mapPwm k f).hubq = s.hubq := rfl
@[simp] theorem State.banks_mapPwm (s : State) (k : Nat) (f : PwmSt → PwmSt) : (s.mapPwm k f).banks = s.banks := rfl
@[simp] theorem State.cs_mapPwm (s : State) (k : Nat) (f : PwmSt → PwmSt) : (s.mapPwm k f).cs = s.cs := rfl
@[simp] theorem State.adcs_mapPwm (s : State) (k : Nat) (f : PwmSt → PwmSt) : (s.mapPwm k f).adcs = s.adcs := rfl
@[simp] theorem State.ports_mapPwm (s : State) (k : Nat) (f : PwmSt → PwmSt) : (s.mapPwm k f).ports = s.ports := rfl
@[simp] theorem State.keep_mapPwm (s : State) (k : Nat) (f : PwmSt → PwmSt) : (s.mapPwm k f).keep = s.keep := rfl
@[simp] theorem State.out_mapPwm (s : State) (k : Nat) (f : PwmSt → PwmSt) : (s.mapPwm k f).out = s.out := rfl
@[simp] theorem State.evtRise_mapPwm (s : State) (k : Nat) (f : PwmSt → PwmSt) : (s.mapPwm k f).evtRise = s.evtRise := rfl
@[simp] theorem State.wears_mapPwm (s : State) (k : Nat) (f : PwmSt → PwmSt) : (s.mapPwm k f).wears = s.wears := rfl
@[simp] theorem State.tags_mapPwm (s : State) (k : Nat) (f : PwmSt → PwmSt) : (s.mapPwm k f).tags = s.tags := rfl
@[simp] theorem State.ecc_mapPwm (s : State) (k : Nat) (f : PwmSt → PwmSt) : (s.mapPwm k f).ecc = s.ecc := rfl
@[simp] theorem State.resv_mapPwm (s : State) (k : Nat) (f : PwmSt → PwmSt) : (s.mapPwm k f).resv = s.resv := rfl
@[simp] theorem State.slewNext_mapPwm (s : State) (k : Nat) (f : PwmSt → PwmSt) : (s.mapPwm k f).slewNext = s.slewNext := rfl
@[simp] theorem State.syncDue_mapPwm (s : State) (k : Nat) (f : PwmSt → PwmSt) : (s.mapPwm k f).syncDue = s.syncDue := rfl
@[simp] theorem State.syncOut_mapPwm (s : State) (k : Nat) (f : PwmSt → PwmSt) : (s.mapPwm k f).syncOut = s.syncOut := rfl
@[simp] theorem State.alarms_mapPwm (s : State) (k : Nat) (f : PwmSt → PwmSt) : (s.mapPwm k f).alarms = s.alarms := rfl
@[simp] theorem State.dropped_mapPwm (s : State) (k : Nat) (f : PwmSt → PwmSt) : (s.mapPwm k f).dropped = s.dropped := rfl
@[simp] theorem State.scrub_mapPwm (s : State) (k : Nat) (f : PwmSt → PwmSt) : (s.mapPwm k f).scrub = s.scrub := rfl
@[simp] theorem State.imgFill_mapPwm (s : State) (k : Nat) (f : PwmSt → PwmSt) : (s.mapPwm k f).imgFill = s.imgFill := rfl
@[simp] theorem State.rel_mapPwm (s : State) (k : Nat) (f : PwmSt → PwmSt) : (s.mapPwm k f).rel = s.rel := rfl
@[simp] theorem State.dmas_mapPwm (s : State) (k : Nat) (f : PwmSt → PwmSt) : (s.mapPwm k f).dmas = s.dmas := rfl
@[simp] theorem State.dmaHold_mapPwm (s : State) (k : Nat) (f : PwmSt → PwmSt) : (s.mapPwm k f).dmaHold = s.dmaHold := rfl
@[simp] theorem State.mcs_mapPwm (s : State) (k : Nat) (f : PwmSt → PwmSt) : (s.mapPwm k f).mcs = s.mcs := rfl
@[simp] theorem State.cores_mapPwm (s : State) (k : Nat) (f : PwmSt → PwmSt) : (s.mapPwm k f).cores = s.cores := rfl
@[simp] theorem State.dmaFree_mapPwm (s : State) (k : Nat) (f : PwmSt → PwmSt) : (s.mapPwm k f).dmaFree = s.dmaFree := rfl
@[simp] theorem State.pwr_mapPwm (s : State) (k : Nat) (f : PwmSt → PwmSt) : (s.mapPwm k f).pwr = s.pwr := rfl
@[simp] theorem State.rings_mapPwm (s : State) (k : Nat) (f : PwmSt → PwmSt) : (s.mapPwm k f).rings = s.rings := rfl
@[simp] theorem State.outFell_mapPwm (s : State) (k : Nat) (f : PwmSt → PwmSt) : (s.mapPwm k f).outFell = s.outFell := rfl
@[simp] theorem State.latchTick_mapPwm (s : State) (k : Nat) (f : PwmSt → PwmSt) : (s.mapPwm k f).latchTick = s.latchTick := rfl
@[simp] theorem State.towRx_mapPwm (s : State) (k : Nat) (f : PwmSt → PwmSt) : (s.mapPwm k f).towRx = s.towRx := rfl

@[simp] theorem State.pending_mapAdc (s : State) (g : Nat) (f : AdcSt → AdcSt) : (s.mapAdc g f).pending = s.pending := rfl
@[simp] theorem State.tick_mapAdc (s : State) (g : Nat) (f : AdcSt → AdcSt) : (s.mapAdc g f).tick = s.tick := rfl
@[simp] theorem State.ts_mapAdc (s : State) (g : Nat) (f : AdcSt → AdcSt) : (s.mapAdc g f).ts = s.ts := rfl
@[simp] theorem State.free_mapAdc (s : State) (g : Nat) (f : AdcSt → AdcSt) : (s.mapAdc g f).free = s.free := rfl
@[simp] theorem State.regs_mapAdc (s : State) (g : Nat) (f : AdcSt → AdcSt) : (s.mapAdc g f).regs = s.regs := rfl
@[simp] theorem State.hold_mapAdc (s : State) (g : Nat) (f : AdcSt → AdcSt) : (s.mapAdc g f).hold = s.hold := rfl
@[simp] theorem State.mem_mapAdc (s : State) (g : Nat) (f : AdcSt → AdcSt) : (s.mapAdc g f).mem = s.mem := rfl
@[simp] theorem State.lanes_mapAdc (s : State) (g : Nat) (f : AdcSt → AdcSt) : (s.mapAdc g f).lanes = s.lanes := rfl
@[simp] theorem State.fcs_mapAdc (s : State) (g : Nat) (f : AdcSt → AdcSt) : (s.mapAdc g f).fcs = s.fcs := rfl
@[simp] theorem State.slots_mapAdc (s : State) (g : Nat) (f : AdcSt → AdcSt) : (s.mapAdc g f).slots = s.slots := rfl
@[simp] theorem State.cmps_mapAdc (s : State) (g : Nat) (f : AdcSt → AdcSt) : (s.mapAdc g f).cmps = s.cmps := rfl
@[simp] theorem State.tripOut_mapAdc (s : State) (g : Nat) (f : AdcSt → AdcSt) : (s.mapAdc g f).tripOut = s.tripOut := rfl
@[simp] theorem State.staged_mapAdc (s : State) (g : Nat) (f : AdcSt → AdcSt) : (s.mapAdc g f).staged = s.staged := rfl
@[simp] theorem State.pwms_mapAdc (s : State) (g : Nat) (f : AdcSt → AdcSt) : (s.mapAdc g f).pwms = s.pwms := rfl
@[simp] theorem State.towIn_mapAdc (s : State) (g : Nat) (f : AdcSt → AdcSt) : (s.mapAdc g f).towIn = s.towIn := rfl
@[simp] theorem State.towOut_mapAdc (s : State) (g : Nat) (f : AdcSt → AdcSt) : (s.mapAdc g f).towOut = s.towOut := rfl
@[simp] theorem State.safePinExt_mapAdc (s : State) (g : Nat) (f : AdcSt → AdcSt) : (s.mapAdc g f).safePinExt = s.safePinExt := rfl
@[simp] theorem State.safeDriven_mapAdc (s : State) (g : Nat) (f : AdcSt → AdcSt) : (s.mapAdc g f).safeDriven = s.safeDriven := rfl
@[simp] theorem State.irq_mapAdc (s : State) (g : Nat) (f : AdcSt → AdcSt) : (s.mapAdc g f).irq = s.irq := rfl
@[simp] theorem State.hubq_mapAdc (s : State) (g : Nat) (f : AdcSt → AdcSt) : (s.mapAdc g f).hubq = s.hubq := rfl
@[simp] theorem State.banks_mapAdc (s : State) (g : Nat) (f : AdcSt → AdcSt) : (s.mapAdc g f).banks = s.banks := rfl
@[simp] theorem State.cs_mapAdc (s : State) (g : Nat) (f : AdcSt → AdcSt) : (s.mapAdc g f).cs = s.cs := rfl
@[simp] theorem State.ports_mapAdc (s : State) (g : Nat) (f : AdcSt → AdcSt) : (s.mapAdc g f).ports = s.ports := rfl
@[simp] theorem State.keep_mapAdc (s : State) (g : Nat) (f : AdcSt → AdcSt) : (s.mapAdc g f).keep = s.keep := rfl
@[simp] theorem State.out_mapAdc (s : State) (g : Nat) (f : AdcSt → AdcSt) : (s.mapAdc g f).out = s.out := rfl
@[simp] theorem State.evtRise_mapAdc (s : State) (g : Nat) (f : AdcSt → AdcSt) : (s.mapAdc g f).evtRise = s.evtRise := rfl
@[simp] theorem State.wears_mapAdc (s : State) (g : Nat) (f : AdcSt → AdcSt) : (s.mapAdc g f).wears = s.wears := rfl
@[simp] theorem State.tags_mapAdc (s : State) (g : Nat) (f : AdcSt → AdcSt) : (s.mapAdc g f).tags = s.tags := rfl
@[simp] theorem State.ecc_mapAdc (s : State) (g : Nat) (f : AdcSt → AdcSt) : (s.mapAdc g f).ecc = s.ecc := rfl
@[simp] theorem State.resv_mapAdc (s : State) (g : Nat) (f : AdcSt → AdcSt) : (s.mapAdc g f).resv = s.resv := rfl
@[simp] theorem State.slewNext_mapAdc (s : State) (g : Nat) (f : AdcSt → AdcSt) : (s.mapAdc g f).slewNext = s.slewNext := rfl
@[simp] theorem State.syncDue_mapAdc (s : State) (g : Nat) (f : AdcSt → AdcSt) : (s.mapAdc g f).syncDue = s.syncDue := rfl
@[simp] theorem State.syncOut_mapAdc (s : State) (g : Nat) (f : AdcSt → AdcSt) : (s.mapAdc g f).syncOut = s.syncOut := rfl
@[simp] theorem State.alarms_mapAdc (s : State) (g : Nat) (f : AdcSt → AdcSt) : (s.mapAdc g f).alarms = s.alarms := rfl
@[simp] theorem State.dropped_mapAdc (s : State) (g : Nat) (f : AdcSt → AdcSt) : (s.mapAdc g f).dropped = s.dropped := rfl
@[simp] theorem State.scrub_mapAdc (s : State) (g : Nat) (f : AdcSt → AdcSt) : (s.mapAdc g f).scrub = s.scrub := rfl
@[simp] theorem State.imgFill_mapAdc (s : State) (g : Nat) (f : AdcSt → AdcSt) : (s.mapAdc g f).imgFill = s.imgFill := rfl
@[simp] theorem State.rel_mapAdc (s : State) (g : Nat) (f : AdcSt → AdcSt) : (s.mapAdc g f).rel = s.rel := rfl
@[simp] theorem State.dmas_mapAdc (s : State) (g : Nat) (f : AdcSt → AdcSt) : (s.mapAdc g f).dmas = s.dmas := rfl
@[simp] theorem State.dmaHold_mapAdc (s : State) (g : Nat) (f : AdcSt → AdcSt) : (s.mapAdc g f).dmaHold = s.dmaHold := rfl
@[simp] theorem State.mcs_mapAdc (s : State) (g : Nat) (f : AdcSt → AdcSt) : (s.mapAdc g f).mcs = s.mcs := rfl
@[simp] theorem State.cores_mapAdc (s : State) (g : Nat) (f : AdcSt → AdcSt) : (s.mapAdc g f).cores = s.cores := rfl
@[simp] theorem State.dmaFree_mapAdc (s : State) (g : Nat) (f : AdcSt → AdcSt) : (s.mapAdc g f).dmaFree = s.dmaFree := rfl
@[simp] theorem State.pwr_mapAdc (s : State) (g : Nat) (f : AdcSt → AdcSt) : (s.mapAdc g f).pwr = s.pwr := rfl
@[simp] theorem State.rings_mapAdc (s : State) (g : Nat) (f : AdcSt → AdcSt) : (s.mapAdc g f).rings = s.rings := rfl
@[simp] theorem State.outFell_mapAdc (s : State) (g : Nat) (f : AdcSt → AdcSt) : (s.mapAdc g f).outFell = s.outFell := rfl
@[simp] theorem State.latchTick_mapAdc (s : State) (g : Nat) (f : AdcSt → AdcSt) : (s.mapAdc g f).latchTick = s.latchTick := rfl
@[simp] theorem State.towRx_mapAdc (s : State) (g : Nat) (f : AdcSt → AdcSt) : (s.mapAdc g f).towRx = s.towRx := rfl

@[simp] theorem State.pending_mapPort (s : State) (p : Nat) (f : PortSt → PortSt) : (s.mapPort p f).pending = s.pending := rfl
@[simp] theorem State.tick_mapPort (s : State) (p : Nat) (f : PortSt → PortSt) : (s.mapPort p f).tick = s.tick := rfl
@[simp] theorem State.ts_mapPort (s : State) (p : Nat) (f : PortSt → PortSt) : (s.mapPort p f).ts = s.ts := rfl
@[simp] theorem State.free_mapPort (s : State) (p : Nat) (f : PortSt → PortSt) : (s.mapPort p f).free = s.free := rfl
@[simp] theorem State.regs_mapPort (s : State) (p : Nat) (f : PortSt → PortSt) : (s.mapPort p f).regs = s.regs := rfl
@[simp] theorem State.hold_mapPort (s : State) (p : Nat) (f : PortSt → PortSt) : (s.mapPort p f).hold = s.hold := rfl
@[simp] theorem State.mem_mapPort (s : State) (p : Nat) (f : PortSt → PortSt) : (s.mapPort p f).mem = s.mem := rfl
@[simp] theorem State.lanes_mapPort (s : State) (p : Nat) (f : PortSt → PortSt) : (s.mapPort p f).lanes = s.lanes := rfl
@[simp] theorem State.fcs_mapPort (s : State) (p : Nat) (f : PortSt → PortSt) : (s.mapPort p f).fcs = s.fcs := rfl
@[simp] theorem State.slots_mapPort (s : State) (p : Nat) (f : PortSt → PortSt) : (s.mapPort p f).slots = s.slots := rfl
@[simp] theorem State.cmps_mapPort (s : State) (p : Nat) (f : PortSt → PortSt) : (s.mapPort p f).cmps = s.cmps := rfl
@[simp] theorem State.tripOut_mapPort (s : State) (p : Nat) (f : PortSt → PortSt) : (s.mapPort p f).tripOut = s.tripOut := rfl
@[simp] theorem State.staged_mapPort (s : State) (p : Nat) (f : PortSt → PortSt) : (s.mapPort p f).staged = s.staged := rfl
@[simp] theorem State.pwms_mapPort (s : State) (p : Nat) (f : PortSt → PortSt) : (s.mapPort p f).pwms = s.pwms := rfl
@[simp] theorem State.towIn_mapPort (s : State) (p : Nat) (f : PortSt → PortSt) : (s.mapPort p f).towIn = s.towIn := rfl
@[simp] theorem State.towOut_mapPort (s : State) (p : Nat) (f : PortSt → PortSt) : (s.mapPort p f).towOut = s.towOut := rfl
@[simp] theorem State.safePinExt_mapPort (s : State) (p : Nat) (f : PortSt → PortSt) : (s.mapPort p f).safePinExt = s.safePinExt := rfl
@[simp] theorem State.safeDriven_mapPort (s : State) (p : Nat) (f : PortSt → PortSt) : (s.mapPort p f).safeDriven = s.safeDriven := rfl
@[simp] theorem State.irq_mapPort (s : State) (p : Nat) (f : PortSt → PortSt) : (s.mapPort p f).irq = s.irq := rfl
@[simp] theorem State.hubq_mapPort (s : State) (p : Nat) (f : PortSt → PortSt) : (s.mapPort p f).hubq = s.hubq := rfl
@[simp] theorem State.banks_mapPort (s : State) (p : Nat) (f : PortSt → PortSt) : (s.mapPort p f).banks = s.banks := rfl
@[simp] theorem State.cs_mapPort (s : State) (p : Nat) (f : PortSt → PortSt) : (s.mapPort p f).cs = s.cs := rfl
@[simp] theorem State.adcs_mapPort (s : State) (p : Nat) (f : PortSt → PortSt) : (s.mapPort p f).adcs = s.adcs := rfl
@[simp] theorem State.keep_mapPort (s : State) (p : Nat) (f : PortSt → PortSt) : (s.mapPort p f).keep = s.keep := rfl
@[simp] theorem State.out_mapPort (s : State) (p : Nat) (f : PortSt → PortSt) : (s.mapPort p f).out = s.out := rfl
@[simp] theorem State.evtRise_mapPort (s : State) (p : Nat) (f : PortSt → PortSt) : (s.mapPort p f).evtRise = s.evtRise := rfl
@[simp] theorem State.wears_mapPort (s : State) (p : Nat) (f : PortSt → PortSt) : (s.mapPort p f).wears = s.wears := rfl
@[simp] theorem State.tags_mapPort (s : State) (p : Nat) (f : PortSt → PortSt) : (s.mapPort p f).tags = s.tags := rfl
@[simp] theorem State.ecc_mapPort (s : State) (p : Nat) (f : PortSt → PortSt) : (s.mapPort p f).ecc = s.ecc := rfl
@[simp] theorem State.resv_mapPort (s : State) (p : Nat) (f : PortSt → PortSt) : (s.mapPort p f).resv = s.resv := rfl
@[simp] theorem State.slewNext_mapPort (s : State) (p : Nat) (f : PortSt → PortSt) : (s.mapPort p f).slewNext = s.slewNext := rfl
@[simp] theorem State.syncDue_mapPort (s : State) (p : Nat) (f : PortSt → PortSt) : (s.mapPort p f).syncDue = s.syncDue := rfl
@[simp] theorem State.syncOut_mapPort (s : State) (p : Nat) (f : PortSt → PortSt) : (s.mapPort p f).syncOut = s.syncOut := rfl
@[simp] theorem State.alarms_mapPort (s : State) (p : Nat) (f : PortSt → PortSt) : (s.mapPort p f).alarms = s.alarms := rfl
@[simp] theorem State.dropped_mapPort (s : State) (p : Nat) (f : PortSt → PortSt) : (s.mapPort p f).dropped = s.dropped := rfl
@[simp] theorem State.scrub_mapPort (s : State) (p : Nat) (f : PortSt → PortSt) : (s.mapPort p f).scrub = s.scrub := rfl
@[simp] theorem State.imgFill_mapPort (s : State) (p : Nat) (f : PortSt → PortSt) : (s.mapPort p f).imgFill = s.imgFill := rfl
@[simp] theorem State.rel_mapPort (s : State) (p : Nat) (f : PortSt → PortSt) : (s.mapPort p f).rel = s.rel := rfl
@[simp] theorem State.dmas_mapPort (s : State) (p : Nat) (f : PortSt → PortSt) : (s.mapPort p f).dmas = s.dmas := rfl
@[simp] theorem State.dmaHold_mapPort (s : State) (p : Nat) (f : PortSt → PortSt) : (s.mapPort p f).dmaHold = s.dmaHold := rfl
@[simp] theorem State.mcs_mapPort (s : State) (p : Nat) (f : PortSt → PortSt) : (s.mapPort p f).mcs = s.mcs := rfl
@[simp] theorem State.cores_mapPort (s : State) (p : Nat) (f : PortSt → PortSt) : (s.mapPort p f).cores = s.cores := rfl
@[simp] theorem State.dmaFree_mapPort (s : State) (p : Nat) (f : PortSt → PortSt) : (s.mapPort p f).dmaFree = s.dmaFree := rfl
@[simp] theorem State.pwr_mapPort (s : State) (p : Nat) (f : PortSt → PortSt) : (s.mapPort p f).pwr = s.pwr := rfl
@[simp] theorem State.rings_mapPort (s : State) (p : Nat) (f : PortSt → PortSt) : (s.mapPort p f).rings = s.rings := rfl
@[simp] theorem State.outFell_mapPort (s : State) (p : Nat) (f : PortSt → PortSt) : (s.mapPort p f).outFell = s.outFell := rfl
@[simp] theorem State.latchTick_mapPort (s : State) (p : Nat) (f : PortSt → PortSt) : (s.mapPort p f).latchTick = s.latchTick := rfl
@[simp] theorem State.towRx_mapPort (s : State) (p : Nat) (f : PortSt → PortSt) : (s.mapPort p f).towRx = s.towRx := rfl

@[simp] theorem State.pending_mapKeep (s : State) (f : KeepSt → KeepSt) : (s.mapKeep f).pending = s.pending := rfl
@[simp] theorem State.tick_mapKeep (s : State) (f : KeepSt → KeepSt) : (s.mapKeep f).tick = s.tick := rfl
@[simp] theorem State.ts_mapKeep (s : State) (f : KeepSt → KeepSt) : (s.mapKeep f).ts = s.ts := rfl
@[simp] theorem State.free_mapKeep (s : State) (f : KeepSt → KeepSt) : (s.mapKeep f).free = s.free := rfl
@[simp] theorem State.regs_mapKeep (s : State) (f : KeepSt → KeepSt) : (s.mapKeep f).regs = s.regs := rfl
@[simp] theorem State.hold_mapKeep (s : State) (f : KeepSt → KeepSt) : (s.mapKeep f).hold = s.hold := rfl
@[simp] theorem State.mem_mapKeep (s : State) (f : KeepSt → KeepSt) : (s.mapKeep f).mem = s.mem := rfl
@[simp] theorem State.lanes_mapKeep (s : State) (f : KeepSt → KeepSt) : (s.mapKeep f).lanes = s.lanes := rfl
@[simp] theorem State.fcs_mapKeep (s : State) (f : KeepSt → KeepSt) : (s.mapKeep f).fcs = s.fcs := rfl
@[simp] theorem State.slots_mapKeep (s : State) (f : KeepSt → KeepSt) : (s.mapKeep f).slots = s.slots := rfl
@[simp] theorem State.cmps_mapKeep (s : State) (f : KeepSt → KeepSt) : (s.mapKeep f).cmps = s.cmps := rfl
@[simp] theorem State.tripOut_mapKeep (s : State) (f : KeepSt → KeepSt) : (s.mapKeep f).tripOut = s.tripOut := rfl
@[simp] theorem State.staged_mapKeep (s : State) (f : KeepSt → KeepSt) : (s.mapKeep f).staged = s.staged := rfl
@[simp] theorem State.pwms_mapKeep (s : State) (f : KeepSt → KeepSt) : (s.mapKeep f).pwms = s.pwms := rfl
@[simp] theorem State.towIn_mapKeep (s : State) (f : KeepSt → KeepSt) : (s.mapKeep f).towIn = s.towIn := rfl
@[simp] theorem State.towOut_mapKeep (s : State) (f : KeepSt → KeepSt) : (s.mapKeep f).towOut = s.towOut := rfl
@[simp] theorem State.safePinExt_mapKeep (s : State) (f : KeepSt → KeepSt) : (s.mapKeep f).safePinExt = s.safePinExt := rfl
@[simp] theorem State.safeDriven_mapKeep (s : State) (f : KeepSt → KeepSt) : (s.mapKeep f).safeDriven = s.safeDriven := rfl
@[simp] theorem State.irq_mapKeep (s : State) (f : KeepSt → KeepSt) : (s.mapKeep f).irq = s.irq := rfl
@[simp] theorem State.hubq_mapKeep (s : State) (f : KeepSt → KeepSt) : (s.mapKeep f).hubq = s.hubq := rfl
@[simp] theorem State.banks_mapKeep (s : State) (f : KeepSt → KeepSt) : (s.mapKeep f).banks = s.banks := rfl
@[simp] theorem State.cs_mapKeep (s : State) (f : KeepSt → KeepSt) : (s.mapKeep f).cs = s.cs := rfl
@[simp] theorem State.adcs_mapKeep (s : State) (f : KeepSt → KeepSt) : (s.mapKeep f).adcs = s.adcs := rfl
@[simp] theorem State.ports_mapKeep (s : State) (f : KeepSt → KeepSt) : (s.mapKeep f).ports = s.ports := rfl
@[simp] theorem State.out_mapKeep (s : State) (f : KeepSt → KeepSt) : (s.mapKeep f).out = s.out := rfl
@[simp] theorem State.evtRise_mapKeep (s : State) (f : KeepSt → KeepSt) : (s.mapKeep f).evtRise = s.evtRise := rfl
@[simp] theorem State.wears_mapKeep (s : State) (f : KeepSt → KeepSt) : (s.mapKeep f).wears = s.wears := rfl
@[simp] theorem State.tags_mapKeep (s : State) (f : KeepSt → KeepSt) : (s.mapKeep f).tags = s.tags := rfl
@[simp] theorem State.ecc_mapKeep (s : State) (f : KeepSt → KeepSt) : (s.mapKeep f).ecc = s.ecc := rfl
@[simp] theorem State.resv_mapKeep (s : State) (f : KeepSt → KeepSt) : (s.mapKeep f).resv = s.resv := rfl
@[simp] theorem State.slewNext_mapKeep (s : State) (f : KeepSt → KeepSt) : (s.mapKeep f).slewNext = s.slewNext := rfl
@[simp] theorem State.syncDue_mapKeep (s : State) (f : KeepSt → KeepSt) : (s.mapKeep f).syncDue = s.syncDue := rfl
@[simp] theorem State.syncOut_mapKeep (s : State) (f : KeepSt → KeepSt) : (s.mapKeep f).syncOut = s.syncOut := rfl
@[simp] theorem State.alarms_mapKeep (s : State) (f : KeepSt → KeepSt) : (s.mapKeep f).alarms = s.alarms := rfl
@[simp] theorem State.dropped_mapKeep (s : State) (f : KeepSt → KeepSt) : (s.mapKeep f).dropped = s.dropped := rfl
@[simp] theorem State.scrub_mapKeep (s : State) (f : KeepSt → KeepSt) : (s.mapKeep f).scrub = s.scrub := rfl
@[simp] theorem State.imgFill_mapKeep (s : State) (f : KeepSt → KeepSt) : (s.mapKeep f).imgFill = s.imgFill := rfl
@[simp] theorem State.rel_mapKeep (s : State) (f : KeepSt → KeepSt) : (s.mapKeep f).rel = s.rel := rfl
@[simp] theorem State.dmas_mapKeep (s : State) (f : KeepSt → KeepSt) : (s.mapKeep f).dmas = s.dmas := rfl
@[simp] theorem State.dmaHold_mapKeep (s : State) (f : KeepSt → KeepSt) : (s.mapKeep f).dmaHold = s.dmaHold := rfl
@[simp] theorem State.mcs_mapKeep (s : State) (f : KeepSt → KeepSt) : (s.mapKeep f).mcs = s.mcs := rfl
@[simp] theorem State.cores_mapKeep (s : State) (f : KeepSt → KeepSt) : (s.mapKeep f).cores = s.cores := rfl
@[simp] theorem State.dmaFree_mapKeep (s : State) (f : KeepSt → KeepSt) : (s.mapKeep f).dmaFree = s.dmaFree := rfl
@[simp] theorem State.pwr_mapKeep (s : State) (f : KeepSt → KeepSt) : (s.mapKeep f).pwr = s.pwr := rfl
@[simp] theorem State.rings_mapKeep (s : State) (f : KeepSt → KeepSt) : (s.mapKeep f).rings = s.rings := rfl
@[simp] theorem State.outFell_mapKeep (s : State) (f : KeepSt → KeepSt) : (s.mapKeep f).outFell = s.outFell := rfl
@[simp] theorem State.latchTick_mapKeep (s : State) (f : KeepSt → KeepSt) : (s.mapKeep f).latchTick = s.latchTick := rfl
@[simp] theorem State.towRx_mapKeep (s : State) (f : KeepSt → KeepSt) : (s.mapKeep f).towRx = s.towRx := rfl

@[simp] theorem State.pending_mapPwr (s : State) (f : PowerSt → PowerSt) : (s.mapPwr f).pending = s.pending := rfl
@[simp] theorem State.tick_mapPwr (s : State) (f : PowerSt → PowerSt) : (s.mapPwr f).tick = s.tick := rfl
@[simp] theorem State.ts_mapPwr (s : State) (f : PowerSt → PowerSt) : (s.mapPwr f).ts = s.ts := rfl
@[simp] theorem State.free_mapPwr (s : State) (f : PowerSt → PowerSt) : (s.mapPwr f).free = s.free := rfl
@[simp] theorem State.regs_mapPwr (s : State) (f : PowerSt → PowerSt) : (s.mapPwr f).regs = s.regs := rfl
@[simp] theorem State.hold_mapPwr (s : State) (f : PowerSt → PowerSt) : (s.mapPwr f).hold = s.hold := rfl
@[simp] theorem State.mem_mapPwr (s : State) (f : PowerSt → PowerSt) : (s.mapPwr f).mem = s.mem := rfl
@[simp] theorem State.lanes_mapPwr (s : State) (f : PowerSt → PowerSt) : (s.mapPwr f).lanes = s.lanes := rfl
@[simp] theorem State.fcs_mapPwr (s : State) (f : PowerSt → PowerSt) : (s.mapPwr f).fcs = s.fcs := rfl
@[simp] theorem State.slots_mapPwr (s : State) (f : PowerSt → PowerSt) : (s.mapPwr f).slots = s.slots := rfl
@[simp] theorem State.cmps_mapPwr (s : State) (f : PowerSt → PowerSt) : (s.mapPwr f).cmps = s.cmps := rfl
@[simp] theorem State.tripOut_mapPwr (s : State) (f : PowerSt → PowerSt) : (s.mapPwr f).tripOut = s.tripOut := rfl
@[simp] theorem State.staged_mapPwr (s : State) (f : PowerSt → PowerSt) : (s.mapPwr f).staged = s.staged := rfl
@[simp] theorem State.pwms_mapPwr (s : State) (f : PowerSt → PowerSt) : (s.mapPwr f).pwms = s.pwms := rfl
@[simp] theorem State.towIn_mapPwr (s : State) (f : PowerSt → PowerSt) : (s.mapPwr f).towIn = s.towIn := rfl
@[simp] theorem State.towOut_mapPwr (s : State) (f : PowerSt → PowerSt) : (s.mapPwr f).towOut = s.towOut := rfl
@[simp] theorem State.safePinExt_mapPwr (s : State) (f : PowerSt → PowerSt) : (s.mapPwr f).safePinExt = s.safePinExt := rfl
@[simp] theorem State.safeDriven_mapPwr (s : State) (f : PowerSt → PowerSt) : (s.mapPwr f).safeDriven = s.safeDriven := rfl
@[simp] theorem State.irq_mapPwr (s : State) (f : PowerSt → PowerSt) : (s.mapPwr f).irq = s.irq := rfl
@[simp] theorem State.hubq_mapPwr (s : State) (f : PowerSt → PowerSt) : (s.mapPwr f).hubq = s.hubq := rfl
@[simp] theorem State.banks_mapPwr (s : State) (f : PowerSt → PowerSt) : (s.mapPwr f).banks = s.banks := rfl
@[simp] theorem State.cs_mapPwr (s : State) (f : PowerSt → PowerSt) : (s.mapPwr f).cs = s.cs := rfl
@[simp] theorem State.adcs_mapPwr (s : State) (f : PowerSt → PowerSt) : (s.mapPwr f).adcs = s.adcs := rfl
@[simp] theorem State.ports_mapPwr (s : State) (f : PowerSt → PowerSt) : (s.mapPwr f).ports = s.ports := rfl
@[simp] theorem State.keep_mapPwr (s : State) (f : PowerSt → PowerSt) : (s.mapPwr f).keep = s.keep := rfl
@[simp] theorem State.out_mapPwr (s : State) (f : PowerSt → PowerSt) : (s.mapPwr f).out = s.out := rfl
@[simp] theorem State.evtRise_mapPwr (s : State) (f : PowerSt → PowerSt) : (s.mapPwr f).evtRise = s.evtRise := rfl
@[simp] theorem State.wears_mapPwr (s : State) (f : PowerSt → PowerSt) : (s.mapPwr f).wears = s.wears := rfl
@[simp] theorem State.tags_mapPwr (s : State) (f : PowerSt → PowerSt) : (s.mapPwr f).tags = s.tags := rfl
@[simp] theorem State.ecc_mapPwr (s : State) (f : PowerSt → PowerSt) : (s.mapPwr f).ecc = s.ecc := rfl
@[simp] theorem State.resv_mapPwr (s : State) (f : PowerSt → PowerSt) : (s.mapPwr f).resv = s.resv := rfl
@[simp] theorem State.slewNext_mapPwr (s : State) (f : PowerSt → PowerSt) : (s.mapPwr f).slewNext = s.slewNext := rfl
@[simp] theorem State.syncDue_mapPwr (s : State) (f : PowerSt → PowerSt) : (s.mapPwr f).syncDue = s.syncDue := rfl
@[simp] theorem State.syncOut_mapPwr (s : State) (f : PowerSt → PowerSt) : (s.mapPwr f).syncOut = s.syncOut := rfl
@[simp] theorem State.alarms_mapPwr (s : State) (f : PowerSt → PowerSt) : (s.mapPwr f).alarms = s.alarms := rfl
@[simp] theorem State.dropped_mapPwr (s : State) (f : PowerSt → PowerSt) : (s.mapPwr f).dropped = s.dropped := rfl
@[simp] theorem State.scrub_mapPwr (s : State) (f : PowerSt → PowerSt) : (s.mapPwr f).scrub = s.scrub := rfl
@[simp] theorem State.imgFill_mapPwr (s : State) (f : PowerSt → PowerSt) : (s.mapPwr f).imgFill = s.imgFill := rfl
@[simp] theorem State.rel_mapPwr (s : State) (f : PowerSt → PowerSt) : (s.mapPwr f).rel = s.rel := rfl
@[simp] theorem State.dmas_mapPwr (s : State) (f : PowerSt → PowerSt) : (s.mapPwr f).dmas = s.dmas := rfl
@[simp] theorem State.dmaHold_mapPwr (s : State) (f : PowerSt → PowerSt) : (s.mapPwr f).dmaHold = s.dmaHold := rfl
@[simp] theorem State.mcs_mapPwr (s : State) (f : PowerSt → PowerSt) : (s.mapPwr f).mcs = s.mcs := rfl
@[simp] theorem State.cores_mapPwr (s : State) (f : PowerSt → PowerSt) : (s.mapPwr f).cores = s.cores := rfl
@[simp] theorem State.dmaFree_mapPwr (s : State) (f : PowerSt → PowerSt) : (s.mapPwr f).dmaFree = s.dmaFree := rfl
@[simp] theorem State.rings_mapPwr (s : State) (f : PowerSt → PowerSt) : (s.mapPwr f).rings = s.rings := rfl
@[simp] theorem State.outFell_mapPwr (s : State) (f : PowerSt → PowerSt) : (s.mapPwr f).outFell = s.outFell := rfl
@[simp] theorem State.latchTick_mapPwr (s : State) (f : PowerSt → PowerSt) : (s.mapPwr f).latchTick = s.latchTick := rfl
@[simp] theorem State.towRx_mapPwr (s : State) (f : PowerSt → PowerSt) : (s.mapPwr f).towRx = s.towRx := rfl

@[simp] theorem State.pending_mapMcs (s : State) (m : Nat) (f : McsSt → McsSt) : (s.mapMcs m f).pending = s.pending := rfl
@[simp] theorem State.tick_mapMcs (s : State) (m : Nat) (f : McsSt → McsSt) : (s.mapMcs m f).tick = s.tick := rfl
@[simp] theorem State.ts_mapMcs (s : State) (m : Nat) (f : McsSt → McsSt) : (s.mapMcs m f).ts = s.ts := rfl
@[simp] theorem State.free_mapMcs (s : State) (m : Nat) (f : McsSt → McsSt) : (s.mapMcs m f).free = s.free := rfl
@[simp] theorem State.regs_mapMcs (s : State) (m : Nat) (f : McsSt → McsSt) : (s.mapMcs m f).regs = s.regs := rfl
@[simp] theorem State.hold_mapMcs (s : State) (m : Nat) (f : McsSt → McsSt) : (s.mapMcs m f).hold = s.hold := rfl
@[simp] theorem State.mem_mapMcs (s : State) (m : Nat) (f : McsSt → McsSt) : (s.mapMcs m f).mem = s.mem := rfl
@[simp] theorem State.lanes_mapMcs (s : State) (m : Nat) (f : McsSt → McsSt) : (s.mapMcs m f).lanes = s.lanes := rfl
@[simp] theorem State.fcs_mapMcs (s : State) (m : Nat) (f : McsSt → McsSt) : (s.mapMcs m f).fcs = s.fcs := rfl
@[simp] theorem State.slots_mapMcs (s : State) (m : Nat) (f : McsSt → McsSt) : (s.mapMcs m f).slots = s.slots := rfl
@[simp] theorem State.cmps_mapMcs (s : State) (m : Nat) (f : McsSt → McsSt) : (s.mapMcs m f).cmps = s.cmps := rfl
@[simp] theorem State.tripOut_mapMcs (s : State) (m : Nat) (f : McsSt → McsSt) : (s.mapMcs m f).tripOut = s.tripOut := rfl
@[simp] theorem State.staged_mapMcs (s : State) (m : Nat) (f : McsSt → McsSt) : (s.mapMcs m f).staged = s.staged := rfl
@[simp] theorem State.pwms_mapMcs (s : State) (m : Nat) (f : McsSt → McsSt) : (s.mapMcs m f).pwms = s.pwms := rfl
@[simp] theorem State.towIn_mapMcs (s : State) (m : Nat) (f : McsSt → McsSt) : (s.mapMcs m f).towIn = s.towIn := rfl
@[simp] theorem State.towOut_mapMcs (s : State) (m : Nat) (f : McsSt → McsSt) : (s.mapMcs m f).towOut = s.towOut := rfl
@[simp] theorem State.safePinExt_mapMcs (s : State) (m : Nat) (f : McsSt → McsSt) : (s.mapMcs m f).safePinExt = s.safePinExt := rfl
@[simp] theorem State.safeDriven_mapMcs (s : State) (m : Nat) (f : McsSt → McsSt) : (s.mapMcs m f).safeDriven = s.safeDriven := rfl
@[simp] theorem State.irq_mapMcs (s : State) (m : Nat) (f : McsSt → McsSt) : (s.mapMcs m f).irq = s.irq := rfl
@[simp] theorem State.hubq_mapMcs (s : State) (m : Nat) (f : McsSt → McsSt) : (s.mapMcs m f).hubq = s.hubq := rfl
@[simp] theorem State.banks_mapMcs (s : State) (m : Nat) (f : McsSt → McsSt) : (s.mapMcs m f).banks = s.banks := rfl
@[simp] theorem State.cs_mapMcs (s : State) (m : Nat) (f : McsSt → McsSt) : (s.mapMcs m f).cs = s.cs := rfl
@[simp] theorem State.adcs_mapMcs (s : State) (m : Nat) (f : McsSt → McsSt) : (s.mapMcs m f).adcs = s.adcs := rfl
@[simp] theorem State.ports_mapMcs (s : State) (m : Nat) (f : McsSt → McsSt) : (s.mapMcs m f).ports = s.ports := rfl
@[simp] theorem State.keep_mapMcs (s : State) (m : Nat) (f : McsSt → McsSt) : (s.mapMcs m f).keep = s.keep := rfl
@[simp] theorem State.out_mapMcs (s : State) (m : Nat) (f : McsSt → McsSt) : (s.mapMcs m f).out = s.out := rfl
@[simp] theorem State.evtRise_mapMcs (s : State) (m : Nat) (f : McsSt → McsSt) : (s.mapMcs m f).evtRise = s.evtRise := rfl
@[simp] theorem State.wears_mapMcs (s : State) (m : Nat) (f : McsSt → McsSt) : (s.mapMcs m f).wears = s.wears := rfl
@[simp] theorem State.tags_mapMcs (s : State) (m : Nat) (f : McsSt → McsSt) : (s.mapMcs m f).tags = s.tags := rfl
@[simp] theorem State.ecc_mapMcs (s : State) (m : Nat) (f : McsSt → McsSt) : (s.mapMcs m f).ecc = s.ecc := rfl
@[simp] theorem State.resv_mapMcs (s : State) (m : Nat) (f : McsSt → McsSt) : (s.mapMcs m f).resv = s.resv := rfl
@[simp] theorem State.slewNext_mapMcs (s : State) (m : Nat) (f : McsSt → McsSt) : (s.mapMcs m f).slewNext = s.slewNext := rfl
@[simp] theorem State.syncDue_mapMcs (s : State) (m : Nat) (f : McsSt → McsSt) : (s.mapMcs m f).syncDue = s.syncDue := rfl
@[simp] theorem State.syncOut_mapMcs (s : State) (m : Nat) (f : McsSt → McsSt) : (s.mapMcs m f).syncOut = s.syncOut := rfl
@[simp] theorem State.alarms_mapMcs (s : State) (m : Nat) (f : McsSt → McsSt) : (s.mapMcs m f).alarms = s.alarms := rfl
@[simp] theorem State.dropped_mapMcs (s : State) (m : Nat) (f : McsSt → McsSt) : (s.mapMcs m f).dropped = s.dropped := rfl
@[simp] theorem State.scrub_mapMcs (s : State) (m : Nat) (f : McsSt → McsSt) : (s.mapMcs m f).scrub = s.scrub := rfl
@[simp] theorem State.imgFill_mapMcs (s : State) (m : Nat) (f : McsSt → McsSt) : (s.mapMcs m f).imgFill = s.imgFill := rfl
@[simp] theorem State.rel_mapMcs (s : State) (m : Nat) (f : McsSt → McsSt) : (s.mapMcs m f).rel = s.rel := rfl
@[simp] theorem State.dmas_mapMcs (s : State) (m : Nat) (f : McsSt → McsSt) : (s.mapMcs m f).dmas = s.dmas := rfl
@[simp] theorem State.dmaHold_mapMcs (s : State) (m : Nat) (f : McsSt → McsSt) : (s.mapMcs m f).dmaHold = s.dmaHold := rfl
@[simp] theorem State.cores_mapMcs (s : State) (m : Nat) (f : McsSt → McsSt) : (s.mapMcs m f).cores = s.cores := rfl
@[simp] theorem State.dmaFree_mapMcs (s : State) (m : Nat) (f : McsSt → McsSt) : (s.mapMcs m f).dmaFree = s.dmaFree := rfl
@[simp] theorem State.pwr_mapMcs (s : State) (m : Nat) (f : McsSt → McsSt) : (s.mapMcs m f).pwr = s.pwr := rfl
@[simp] theorem State.rings_mapMcs (s : State) (m : Nat) (f : McsSt → McsSt) : (s.mapMcs m f).rings = s.rings := rfl
@[simp] theorem State.outFell_mapMcs (s : State) (m : Nat) (f : McsSt → McsSt) : (s.mapMcs m f).outFell = s.outFell := rfl
@[simp] theorem State.latchTick_mapMcs (s : State) (m : Nat) (f : McsSt → McsSt) : (s.mapMcs m f).latchTick = s.latchTick := rfl
@[simp] theorem State.towRx_mapMcs (s : State) (m : Nat) (f : McsSt → McsSt) : (s.mapMcs m f).towRx = s.towRx := rfl

@[simp] theorem State.pending_mapDma (s : State) (c : Nat) (f : DmaSt → DmaSt) : (s.mapDma c f).pending = s.pending := rfl
@[simp] theorem State.tick_mapDma (s : State) (c : Nat) (f : DmaSt → DmaSt) : (s.mapDma c f).tick = s.tick := rfl
@[simp] theorem State.ts_mapDma (s : State) (c : Nat) (f : DmaSt → DmaSt) : (s.mapDma c f).ts = s.ts := rfl
@[simp] theorem State.free_mapDma (s : State) (c : Nat) (f : DmaSt → DmaSt) : (s.mapDma c f).free = s.free := rfl
@[simp] theorem State.regs_mapDma (s : State) (c : Nat) (f : DmaSt → DmaSt) : (s.mapDma c f).regs = s.regs := rfl
@[simp] theorem State.hold_mapDma (s : State) (c : Nat) (f : DmaSt → DmaSt) : (s.mapDma c f).hold = s.hold := rfl
@[simp] theorem State.mem_mapDma (s : State) (c : Nat) (f : DmaSt → DmaSt) : (s.mapDma c f).mem = s.mem := rfl
@[simp] theorem State.lanes_mapDma (s : State) (c : Nat) (f : DmaSt → DmaSt) : (s.mapDma c f).lanes = s.lanes := rfl
@[simp] theorem State.fcs_mapDma (s : State) (c : Nat) (f : DmaSt → DmaSt) : (s.mapDma c f).fcs = s.fcs := rfl
@[simp] theorem State.slots_mapDma (s : State) (c : Nat) (f : DmaSt → DmaSt) : (s.mapDma c f).slots = s.slots := rfl
@[simp] theorem State.cmps_mapDma (s : State) (c : Nat) (f : DmaSt → DmaSt) : (s.mapDma c f).cmps = s.cmps := rfl
@[simp] theorem State.tripOut_mapDma (s : State) (c : Nat) (f : DmaSt → DmaSt) : (s.mapDma c f).tripOut = s.tripOut := rfl
@[simp] theorem State.staged_mapDma (s : State) (c : Nat) (f : DmaSt → DmaSt) : (s.mapDma c f).staged = s.staged := rfl
@[simp] theorem State.pwms_mapDma (s : State) (c : Nat) (f : DmaSt → DmaSt) : (s.mapDma c f).pwms = s.pwms := rfl
@[simp] theorem State.towIn_mapDma (s : State) (c : Nat) (f : DmaSt → DmaSt) : (s.mapDma c f).towIn = s.towIn := rfl
@[simp] theorem State.towOut_mapDma (s : State) (c : Nat) (f : DmaSt → DmaSt) : (s.mapDma c f).towOut = s.towOut := rfl
@[simp] theorem State.safePinExt_mapDma (s : State) (c : Nat) (f : DmaSt → DmaSt) : (s.mapDma c f).safePinExt = s.safePinExt := rfl
@[simp] theorem State.safeDriven_mapDma (s : State) (c : Nat) (f : DmaSt → DmaSt) : (s.mapDma c f).safeDriven = s.safeDriven := rfl
@[simp] theorem State.irq_mapDma (s : State) (c : Nat) (f : DmaSt → DmaSt) : (s.mapDma c f).irq = s.irq := rfl
@[simp] theorem State.hubq_mapDma (s : State) (c : Nat) (f : DmaSt → DmaSt) : (s.mapDma c f).hubq = s.hubq := rfl
@[simp] theorem State.banks_mapDma (s : State) (c : Nat) (f : DmaSt → DmaSt) : (s.mapDma c f).banks = s.banks := rfl
@[simp] theorem State.cs_mapDma (s : State) (c : Nat) (f : DmaSt → DmaSt) : (s.mapDma c f).cs = s.cs := rfl
@[simp] theorem State.adcs_mapDma (s : State) (c : Nat) (f : DmaSt → DmaSt) : (s.mapDma c f).adcs = s.adcs := rfl
@[simp] theorem State.ports_mapDma (s : State) (c : Nat) (f : DmaSt → DmaSt) : (s.mapDma c f).ports = s.ports := rfl
@[simp] theorem State.keep_mapDma (s : State) (c : Nat) (f : DmaSt → DmaSt) : (s.mapDma c f).keep = s.keep := rfl
@[simp] theorem State.out_mapDma (s : State) (c : Nat) (f : DmaSt → DmaSt) : (s.mapDma c f).out = s.out := rfl
@[simp] theorem State.evtRise_mapDma (s : State) (c : Nat) (f : DmaSt → DmaSt) : (s.mapDma c f).evtRise = s.evtRise := rfl
@[simp] theorem State.wears_mapDma (s : State) (c : Nat) (f : DmaSt → DmaSt) : (s.mapDma c f).wears = s.wears := rfl
@[simp] theorem State.tags_mapDma (s : State) (c : Nat) (f : DmaSt → DmaSt) : (s.mapDma c f).tags = s.tags := rfl
@[simp] theorem State.ecc_mapDma (s : State) (c : Nat) (f : DmaSt → DmaSt) : (s.mapDma c f).ecc = s.ecc := rfl
@[simp] theorem State.resv_mapDma (s : State) (c : Nat) (f : DmaSt → DmaSt) : (s.mapDma c f).resv = s.resv := rfl
@[simp] theorem State.slewNext_mapDma (s : State) (c : Nat) (f : DmaSt → DmaSt) : (s.mapDma c f).slewNext = s.slewNext := rfl
@[simp] theorem State.syncDue_mapDma (s : State) (c : Nat) (f : DmaSt → DmaSt) : (s.mapDma c f).syncDue = s.syncDue := rfl
@[simp] theorem State.syncOut_mapDma (s : State) (c : Nat) (f : DmaSt → DmaSt) : (s.mapDma c f).syncOut = s.syncOut := rfl
@[simp] theorem State.alarms_mapDma (s : State) (c : Nat) (f : DmaSt → DmaSt) : (s.mapDma c f).alarms = s.alarms := rfl
@[simp] theorem State.dropped_mapDma (s : State) (c : Nat) (f : DmaSt → DmaSt) : (s.mapDma c f).dropped = s.dropped := rfl
@[simp] theorem State.scrub_mapDma (s : State) (c : Nat) (f : DmaSt → DmaSt) : (s.mapDma c f).scrub = s.scrub := rfl
@[simp] theorem State.imgFill_mapDma (s : State) (c : Nat) (f : DmaSt → DmaSt) : (s.mapDma c f).imgFill = s.imgFill := rfl
@[simp] theorem State.rel_mapDma (s : State) (c : Nat) (f : DmaSt → DmaSt) : (s.mapDma c f).rel = s.rel := rfl
@[simp] theorem State.dmaHold_mapDma (s : State) (c : Nat) (f : DmaSt → DmaSt) : (s.mapDma c f).dmaHold = s.dmaHold := rfl
@[simp] theorem State.mcs_mapDma (s : State) (c : Nat) (f : DmaSt → DmaSt) : (s.mapDma c f).mcs = s.mcs := rfl
@[simp] theorem State.cores_mapDma (s : State) (c : Nat) (f : DmaSt → DmaSt) : (s.mapDma c f).cores = s.cores := rfl
@[simp] theorem State.dmaFree_mapDma (s : State) (c : Nat) (f : DmaSt → DmaSt) : (s.mapDma c f).dmaFree = s.dmaFree := rfl
@[simp] theorem State.pwr_mapDma (s : State) (c : Nat) (f : DmaSt → DmaSt) : (s.mapDma c f).pwr = s.pwr := rfl
@[simp] theorem State.rings_mapDma (s : State) (c : Nat) (f : DmaSt → DmaSt) : (s.mapDma c f).rings = s.rings := rfl
@[simp] theorem State.outFell_mapDma (s : State) (c : Nat) (f : DmaSt → DmaSt) : (s.mapDma c f).outFell = s.outFell := rfl
@[simp] theorem State.latchTick_mapDma (s : State) (c : Nat) (f : DmaSt → DmaSt) : (s.mapDma c f).latchTick = s.latchTick := rfl
@[simp] theorem State.towRx_mapDma (s : State) (c : Nat) (f : DmaSt → DmaSt) : (s.mapDma c f).towRx = s.towRx := rfl

@[simp] theorem State.pending_mapWear (s : State) (l : Nat) (f : WearSt → WearSt) : (s.mapWear l f).pending = s.pending := rfl
@[simp] theorem State.tick_mapWear (s : State) (l : Nat) (f : WearSt → WearSt) : (s.mapWear l f).tick = s.tick := rfl
@[simp] theorem State.ts_mapWear (s : State) (l : Nat) (f : WearSt → WearSt) : (s.mapWear l f).ts = s.ts := rfl
@[simp] theorem State.free_mapWear (s : State) (l : Nat) (f : WearSt → WearSt) : (s.mapWear l f).free = s.free := rfl
@[simp] theorem State.regs_mapWear (s : State) (l : Nat) (f : WearSt → WearSt) : (s.mapWear l f).regs = s.regs := rfl
@[simp] theorem State.hold_mapWear (s : State) (l : Nat) (f : WearSt → WearSt) : (s.mapWear l f).hold = s.hold := rfl
@[simp] theorem State.mem_mapWear (s : State) (l : Nat) (f : WearSt → WearSt) : (s.mapWear l f).mem = s.mem := rfl
@[simp] theorem State.lanes_mapWear (s : State) (l : Nat) (f : WearSt → WearSt) : (s.mapWear l f).lanes = s.lanes := rfl
@[simp] theorem State.fcs_mapWear (s : State) (l : Nat) (f : WearSt → WearSt) : (s.mapWear l f).fcs = s.fcs := rfl
@[simp] theorem State.slots_mapWear (s : State) (l : Nat) (f : WearSt → WearSt) : (s.mapWear l f).slots = s.slots := rfl
@[simp] theorem State.cmps_mapWear (s : State) (l : Nat) (f : WearSt → WearSt) : (s.mapWear l f).cmps = s.cmps := rfl
@[simp] theorem State.tripOut_mapWear (s : State) (l : Nat) (f : WearSt → WearSt) : (s.mapWear l f).tripOut = s.tripOut := rfl
@[simp] theorem State.staged_mapWear (s : State) (l : Nat) (f : WearSt → WearSt) : (s.mapWear l f).staged = s.staged := rfl
@[simp] theorem State.pwms_mapWear (s : State) (l : Nat) (f : WearSt → WearSt) : (s.mapWear l f).pwms = s.pwms := rfl
@[simp] theorem State.towIn_mapWear (s : State) (l : Nat) (f : WearSt → WearSt) : (s.mapWear l f).towIn = s.towIn := rfl
@[simp] theorem State.towOut_mapWear (s : State) (l : Nat) (f : WearSt → WearSt) : (s.mapWear l f).towOut = s.towOut := rfl
@[simp] theorem State.safePinExt_mapWear (s : State) (l : Nat) (f : WearSt → WearSt) : (s.mapWear l f).safePinExt = s.safePinExt := rfl
@[simp] theorem State.safeDriven_mapWear (s : State) (l : Nat) (f : WearSt → WearSt) : (s.mapWear l f).safeDriven = s.safeDriven := rfl
@[simp] theorem State.irq_mapWear (s : State) (l : Nat) (f : WearSt → WearSt) : (s.mapWear l f).irq = s.irq := rfl
@[simp] theorem State.hubq_mapWear (s : State) (l : Nat) (f : WearSt → WearSt) : (s.mapWear l f).hubq = s.hubq := rfl
@[simp] theorem State.banks_mapWear (s : State) (l : Nat) (f : WearSt → WearSt) : (s.mapWear l f).banks = s.banks := rfl
@[simp] theorem State.cs_mapWear (s : State) (l : Nat) (f : WearSt → WearSt) : (s.mapWear l f).cs = s.cs := rfl
@[simp] theorem State.adcs_mapWear (s : State) (l : Nat) (f : WearSt → WearSt) : (s.mapWear l f).adcs = s.adcs := rfl
@[simp] theorem State.ports_mapWear (s : State) (l : Nat) (f : WearSt → WearSt) : (s.mapWear l f).ports = s.ports := rfl
@[simp] theorem State.keep_mapWear (s : State) (l : Nat) (f : WearSt → WearSt) : (s.mapWear l f).keep = s.keep := rfl
@[simp] theorem State.out_mapWear (s : State) (l : Nat) (f : WearSt → WearSt) : (s.mapWear l f).out = s.out := rfl
@[simp] theorem State.evtRise_mapWear (s : State) (l : Nat) (f : WearSt → WearSt) : (s.mapWear l f).evtRise = s.evtRise := rfl
@[simp] theorem State.tags_mapWear (s : State) (l : Nat) (f : WearSt → WearSt) : (s.mapWear l f).tags = s.tags := rfl
@[simp] theorem State.ecc_mapWear (s : State) (l : Nat) (f : WearSt → WearSt) : (s.mapWear l f).ecc = s.ecc := rfl
@[simp] theorem State.resv_mapWear (s : State) (l : Nat) (f : WearSt → WearSt) : (s.mapWear l f).resv = s.resv := rfl
@[simp] theorem State.slewNext_mapWear (s : State) (l : Nat) (f : WearSt → WearSt) : (s.mapWear l f).slewNext = s.slewNext := rfl
@[simp] theorem State.syncDue_mapWear (s : State) (l : Nat) (f : WearSt → WearSt) : (s.mapWear l f).syncDue = s.syncDue := rfl
@[simp] theorem State.syncOut_mapWear (s : State) (l : Nat) (f : WearSt → WearSt) : (s.mapWear l f).syncOut = s.syncOut := rfl
@[simp] theorem State.alarms_mapWear (s : State) (l : Nat) (f : WearSt → WearSt) : (s.mapWear l f).alarms = s.alarms := rfl
@[simp] theorem State.dropped_mapWear (s : State) (l : Nat) (f : WearSt → WearSt) : (s.mapWear l f).dropped = s.dropped := rfl
@[simp] theorem State.scrub_mapWear (s : State) (l : Nat) (f : WearSt → WearSt) : (s.mapWear l f).scrub = s.scrub := rfl
@[simp] theorem State.imgFill_mapWear (s : State) (l : Nat) (f : WearSt → WearSt) : (s.mapWear l f).imgFill = s.imgFill := rfl
@[simp] theorem State.rel_mapWear (s : State) (l : Nat) (f : WearSt → WearSt) : (s.mapWear l f).rel = s.rel := rfl
@[simp] theorem State.dmas_mapWear (s : State) (l : Nat) (f : WearSt → WearSt) : (s.mapWear l f).dmas = s.dmas := rfl
@[simp] theorem State.dmaHold_mapWear (s : State) (l : Nat) (f : WearSt → WearSt) : (s.mapWear l f).dmaHold = s.dmaHold := rfl
@[simp] theorem State.mcs_mapWear (s : State) (l : Nat) (f : WearSt → WearSt) : (s.mapWear l f).mcs = s.mcs := rfl
@[simp] theorem State.cores_mapWear (s : State) (l : Nat) (f : WearSt → WearSt) : (s.mapWear l f).cores = s.cores := rfl
@[simp] theorem State.dmaFree_mapWear (s : State) (l : Nat) (f : WearSt → WearSt) : (s.mapWear l f).dmaFree = s.dmaFree := rfl
@[simp] theorem State.pwr_mapWear (s : State) (l : Nat) (f : WearSt → WearSt) : (s.mapWear l f).pwr = s.pwr := rfl
@[simp] theorem State.rings_mapWear (s : State) (l : Nat) (f : WearSt → WearSt) : (s.mapWear l f).rings = s.rings := rfl
@[simp] theorem State.outFell_mapWear (s : State) (l : Nat) (f : WearSt → WearSt) : (s.mapWear l f).outFell = s.outFell := rfl
@[simp] theorem State.latchTick_mapWear (s : State) (l : Nat) (f : WearSt → WearSt) : (s.mapWear l f).latchTick = s.latchTick := rfl
@[simp] theorem State.towRx_mapWear (s : State) (l : Nat) (f : WearSt → WearSt) : (s.mapWear l f).towRx = s.towRx := rfl

@[simp] theorem State.pending_mapCore (s : State) (p : Nat) (f : CoreSt → CoreSt) : (s.mapCore p f).pending = s.pending := rfl
@[simp] theorem State.tick_mapCore (s : State) (p : Nat) (f : CoreSt → CoreSt) : (s.mapCore p f).tick = s.tick := rfl
@[simp] theorem State.ts_mapCore (s : State) (p : Nat) (f : CoreSt → CoreSt) : (s.mapCore p f).ts = s.ts := rfl
@[simp] theorem State.free_mapCore (s : State) (p : Nat) (f : CoreSt → CoreSt) : (s.mapCore p f).free = s.free := rfl
@[simp] theorem State.regs_mapCore (s : State) (p : Nat) (f : CoreSt → CoreSt) : (s.mapCore p f).regs = s.regs := rfl
@[simp] theorem State.hold_mapCore (s : State) (p : Nat) (f : CoreSt → CoreSt) : (s.mapCore p f).hold = s.hold := rfl
@[simp] theorem State.mem_mapCore (s : State) (p : Nat) (f : CoreSt → CoreSt) : (s.mapCore p f).mem = s.mem := rfl
@[simp] theorem State.lanes_mapCore (s : State) (p : Nat) (f : CoreSt → CoreSt) : (s.mapCore p f).lanes = s.lanes := rfl
@[simp] theorem State.fcs_mapCore (s : State) (p : Nat) (f : CoreSt → CoreSt) : (s.mapCore p f).fcs = s.fcs := rfl
@[simp] theorem State.slots_mapCore (s : State) (p : Nat) (f : CoreSt → CoreSt) : (s.mapCore p f).slots = s.slots := rfl
@[simp] theorem State.cmps_mapCore (s : State) (p : Nat) (f : CoreSt → CoreSt) : (s.mapCore p f).cmps = s.cmps := rfl
@[simp] theorem State.tripOut_mapCore (s : State) (p : Nat) (f : CoreSt → CoreSt) : (s.mapCore p f).tripOut = s.tripOut := rfl
@[simp] theorem State.staged_mapCore (s : State) (p : Nat) (f : CoreSt → CoreSt) : (s.mapCore p f).staged = s.staged := rfl
@[simp] theorem State.pwms_mapCore (s : State) (p : Nat) (f : CoreSt → CoreSt) : (s.mapCore p f).pwms = s.pwms := rfl
@[simp] theorem State.towIn_mapCore (s : State) (p : Nat) (f : CoreSt → CoreSt) : (s.mapCore p f).towIn = s.towIn := rfl
@[simp] theorem State.towOut_mapCore (s : State) (p : Nat) (f : CoreSt → CoreSt) : (s.mapCore p f).towOut = s.towOut := rfl
@[simp] theorem State.safePinExt_mapCore (s : State) (p : Nat) (f : CoreSt → CoreSt) : (s.mapCore p f).safePinExt = s.safePinExt := rfl
@[simp] theorem State.safeDriven_mapCore (s : State) (p : Nat) (f : CoreSt → CoreSt) : (s.mapCore p f).safeDriven = s.safeDriven := rfl
@[simp] theorem State.irq_mapCore (s : State) (p : Nat) (f : CoreSt → CoreSt) : (s.mapCore p f).irq = s.irq := rfl
@[simp] theorem State.hubq_mapCore (s : State) (p : Nat) (f : CoreSt → CoreSt) : (s.mapCore p f).hubq = s.hubq := rfl
@[simp] theorem State.banks_mapCore (s : State) (p : Nat) (f : CoreSt → CoreSt) : (s.mapCore p f).banks = s.banks := rfl
@[simp] theorem State.cs_mapCore (s : State) (p : Nat) (f : CoreSt → CoreSt) : (s.mapCore p f).cs = s.cs := rfl
@[simp] theorem State.adcs_mapCore (s : State) (p : Nat) (f : CoreSt → CoreSt) : (s.mapCore p f).adcs = s.adcs := rfl
@[simp] theorem State.ports_mapCore (s : State) (p : Nat) (f : CoreSt → CoreSt) : (s.mapCore p f).ports = s.ports := rfl
@[simp] theorem State.keep_mapCore (s : State) (p : Nat) (f : CoreSt → CoreSt) : (s.mapCore p f).keep = s.keep := rfl
@[simp] theorem State.out_mapCore (s : State) (p : Nat) (f : CoreSt → CoreSt) : (s.mapCore p f).out = s.out := rfl
@[simp] theorem State.evtRise_mapCore (s : State) (p : Nat) (f : CoreSt → CoreSt) : (s.mapCore p f).evtRise = s.evtRise := rfl
@[simp] theorem State.wears_mapCore (s : State) (p : Nat) (f : CoreSt → CoreSt) : (s.mapCore p f).wears = s.wears := rfl
@[simp] theorem State.tags_mapCore (s : State) (p : Nat) (f : CoreSt → CoreSt) : (s.mapCore p f).tags = s.tags := rfl
@[simp] theorem State.ecc_mapCore (s : State) (p : Nat) (f : CoreSt → CoreSt) : (s.mapCore p f).ecc = s.ecc := rfl
@[simp] theorem State.resv_mapCore (s : State) (p : Nat) (f : CoreSt → CoreSt) : (s.mapCore p f).resv = s.resv := rfl
@[simp] theorem State.slewNext_mapCore (s : State) (p : Nat) (f : CoreSt → CoreSt) : (s.mapCore p f).slewNext = s.slewNext := rfl
@[simp] theorem State.syncDue_mapCore (s : State) (p : Nat) (f : CoreSt → CoreSt) : (s.mapCore p f).syncDue = s.syncDue := rfl
@[simp] theorem State.syncOut_mapCore (s : State) (p : Nat) (f : CoreSt → CoreSt) : (s.mapCore p f).syncOut = s.syncOut := rfl
@[simp] theorem State.alarms_mapCore (s : State) (p : Nat) (f : CoreSt → CoreSt) : (s.mapCore p f).alarms = s.alarms := rfl
@[simp] theorem State.dropped_mapCore (s : State) (p : Nat) (f : CoreSt → CoreSt) : (s.mapCore p f).dropped = s.dropped := rfl
@[simp] theorem State.scrub_mapCore (s : State) (p : Nat) (f : CoreSt → CoreSt) : (s.mapCore p f).scrub = s.scrub := rfl
@[simp] theorem State.imgFill_mapCore (s : State) (p : Nat) (f : CoreSt → CoreSt) : (s.mapCore p f).imgFill = s.imgFill := rfl
@[simp] theorem State.rel_mapCore (s : State) (p : Nat) (f : CoreSt → CoreSt) : (s.mapCore p f).rel = s.rel := rfl
@[simp] theorem State.dmas_mapCore (s : State) (p : Nat) (f : CoreSt → CoreSt) : (s.mapCore p f).dmas = s.dmas := rfl
@[simp] theorem State.dmaHold_mapCore (s : State) (p : Nat) (f : CoreSt → CoreSt) : (s.mapCore p f).dmaHold = s.dmaHold := rfl
@[simp] theorem State.mcs_mapCore (s : State) (p : Nat) (f : CoreSt → CoreSt) : (s.mapCore p f).mcs = s.mcs := rfl
@[simp] theorem State.dmaFree_mapCore (s : State) (p : Nat) (f : CoreSt → CoreSt) : (s.mapCore p f).dmaFree = s.dmaFree := rfl
@[simp] theorem State.pwr_mapCore (s : State) (p : Nat) (f : CoreSt → CoreSt) : (s.mapCore p f).pwr = s.pwr := rfl
@[simp] theorem State.rings_mapCore (s : State) (p : Nat) (f : CoreSt → CoreSt) : (s.mapCore p f).rings = s.rings := rfl
@[simp] theorem State.outFell_mapCore (s : State) (p : Nat) (f : CoreSt → CoreSt) : (s.mapCore p f).outFell = s.outFell := rfl
@[simp] theorem State.latchTick_mapCore (s : State) (p : Nat) (f : CoreSt → CoreSt) : (s.mapCore p f).latchTick = s.latchTick := rfl
@[simp] theorem State.towRx_mapCore (s : State) (p : Nat) (f : CoreSt → CoreSt) : (s.mapCore p f).towRx = s.towRx := rfl

@[simp] theorem State.pending_mapImg (s : State) (p : Nat) (f : CoreImg → CoreImg) : (s.mapImg p f).pending = s.pending := rfl
@[simp] theorem State.tick_mapImg (s : State) (p : Nat) (f : CoreImg → CoreImg) : (s.mapImg p f).tick = s.tick := rfl
@[simp] theorem State.ts_mapImg (s : State) (p : Nat) (f : CoreImg → CoreImg) : (s.mapImg p f).ts = s.ts := rfl
@[simp] theorem State.free_mapImg (s : State) (p : Nat) (f : CoreImg → CoreImg) : (s.mapImg p f).free = s.free := rfl
@[simp] theorem State.regs_mapImg (s : State) (p : Nat) (f : CoreImg → CoreImg) : (s.mapImg p f).regs = s.regs := rfl
@[simp] theorem State.hold_mapImg (s : State) (p : Nat) (f : CoreImg → CoreImg) : (s.mapImg p f).hold = s.hold := rfl
@[simp] theorem State.mem_mapImg (s : State) (p : Nat) (f : CoreImg → CoreImg) : (s.mapImg p f).mem = s.mem := rfl
@[simp] theorem State.lanes_mapImg (s : State) (p : Nat) (f : CoreImg → CoreImg) : (s.mapImg p f).lanes = s.lanes := rfl
@[simp] theorem State.fcs_mapImg (s : State) (p : Nat) (f : CoreImg → CoreImg) : (s.mapImg p f).fcs = s.fcs := rfl
@[simp] theorem State.slots_mapImg (s : State) (p : Nat) (f : CoreImg → CoreImg) : (s.mapImg p f).slots = s.slots := rfl
@[simp] theorem State.cmps_mapImg (s : State) (p : Nat) (f : CoreImg → CoreImg) : (s.mapImg p f).cmps = s.cmps := rfl
@[simp] theorem State.tripOut_mapImg (s : State) (p : Nat) (f : CoreImg → CoreImg) : (s.mapImg p f).tripOut = s.tripOut := rfl
@[simp] theorem State.staged_mapImg (s : State) (p : Nat) (f : CoreImg → CoreImg) : (s.mapImg p f).staged = s.staged := rfl
@[simp] theorem State.pwms_mapImg (s : State) (p : Nat) (f : CoreImg → CoreImg) : (s.mapImg p f).pwms = s.pwms := rfl
@[simp] theorem State.towIn_mapImg (s : State) (p : Nat) (f : CoreImg → CoreImg) : (s.mapImg p f).towIn = s.towIn := rfl
@[simp] theorem State.towOut_mapImg (s : State) (p : Nat) (f : CoreImg → CoreImg) : (s.mapImg p f).towOut = s.towOut := rfl
@[simp] theorem State.safePinExt_mapImg (s : State) (p : Nat) (f : CoreImg → CoreImg) : (s.mapImg p f).safePinExt = s.safePinExt := rfl
@[simp] theorem State.safeDriven_mapImg (s : State) (p : Nat) (f : CoreImg → CoreImg) : (s.mapImg p f).safeDriven = s.safeDriven := rfl
@[simp] theorem State.irq_mapImg (s : State) (p : Nat) (f : CoreImg → CoreImg) : (s.mapImg p f).irq = s.irq := rfl
@[simp] theorem State.hubq_mapImg (s : State) (p : Nat) (f : CoreImg → CoreImg) : (s.mapImg p f).hubq = s.hubq := rfl
@[simp] theorem State.banks_mapImg (s : State) (p : Nat) (f : CoreImg → CoreImg) : (s.mapImg p f).banks = s.banks := rfl
@[simp] theorem State.cs_mapImg (s : State) (p : Nat) (f : CoreImg → CoreImg) : (s.mapImg p f).cs = s.cs := rfl
@[simp] theorem State.adcs_mapImg (s : State) (p : Nat) (f : CoreImg → CoreImg) : (s.mapImg p f).adcs = s.adcs := rfl
@[simp] theorem State.ports_mapImg (s : State) (p : Nat) (f : CoreImg → CoreImg) : (s.mapImg p f).ports = s.ports := rfl
@[simp] theorem State.keep_mapImg (s : State) (p : Nat) (f : CoreImg → CoreImg) : (s.mapImg p f).keep = s.keep := rfl
@[simp] theorem State.out_mapImg (s : State) (p : Nat) (f : CoreImg → CoreImg) : (s.mapImg p f).out = s.out := rfl
@[simp] theorem State.evtRise_mapImg (s : State) (p : Nat) (f : CoreImg → CoreImg) : (s.mapImg p f).evtRise = s.evtRise := rfl
@[simp] theorem State.wears_mapImg (s : State) (p : Nat) (f : CoreImg → CoreImg) : (s.mapImg p f).wears = s.wears := rfl
@[simp] theorem State.tags_mapImg (s : State) (p : Nat) (f : CoreImg → CoreImg) : (s.mapImg p f).tags = s.tags := rfl
@[simp] theorem State.ecc_mapImg (s : State) (p : Nat) (f : CoreImg → CoreImg) : (s.mapImg p f).ecc = s.ecc := rfl
@[simp] theorem State.resv_mapImg (s : State) (p : Nat) (f : CoreImg → CoreImg) : (s.mapImg p f).resv = s.resv := rfl
@[simp] theorem State.slewNext_mapImg (s : State) (p : Nat) (f : CoreImg → CoreImg) : (s.mapImg p f).slewNext = s.slewNext := rfl
@[simp] theorem State.syncDue_mapImg (s : State) (p : Nat) (f : CoreImg → CoreImg) : (s.mapImg p f).syncDue = s.syncDue := rfl
@[simp] theorem State.syncOut_mapImg (s : State) (p : Nat) (f : CoreImg → CoreImg) : (s.mapImg p f).syncOut = s.syncOut := rfl
@[simp] theorem State.alarms_mapImg (s : State) (p : Nat) (f : CoreImg → CoreImg) : (s.mapImg p f).alarms = s.alarms := rfl
@[simp] theorem State.dropped_mapImg (s : State) (p : Nat) (f : CoreImg → CoreImg) : (s.mapImg p f).dropped = s.dropped := rfl
@[simp] theorem State.scrub_mapImg (s : State) (p : Nat) (f : CoreImg → CoreImg) : (s.mapImg p f).scrub = s.scrub := rfl
@[simp] theorem State.imgFill_mapImg (s : State) (p : Nat) (f : CoreImg → CoreImg) : (s.mapImg p f).imgFill = s.imgFill := rfl
@[simp] theorem State.rel_mapImg (s : State) (p : Nat) (f : CoreImg → CoreImg) : (s.mapImg p f).rel = s.rel := rfl
@[simp] theorem State.dmas_mapImg (s : State) (p : Nat) (f : CoreImg → CoreImg) : (s.mapImg p f).dmas = s.dmas := rfl
@[simp] theorem State.dmaHold_mapImg (s : State) (p : Nat) (f : CoreImg → CoreImg) : (s.mapImg p f).dmaHold = s.dmaHold := rfl
@[simp] theorem State.mcs_mapImg (s : State) (p : Nat) (f : CoreImg → CoreImg) : (s.mapImg p f).mcs = s.mcs := rfl
@[simp] theorem State.dmaFree_mapImg (s : State) (p : Nat) (f : CoreImg → CoreImg) : (s.mapImg p f).dmaFree = s.dmaFree := rfl
@[simp] theorem State.pwr_mapImg (s : State) (p : Nat) (f : CoreImg → CoreImg) : (s.mapImg p f).pwr = s.pwr := rfl
@[simp] theorem State.rings_mapImg (s : State) (p : Nat) (f : CoreImg → CoreImg) : (s.mapImg p f).rings = s.rings := rfl
@[simp] theorem State.outFell_mapImg (s : State) (p : Nat) (f : CoreImg → CoreImg) : (s.mapImg p f).outFell = s.outFell := rfl
@[simp] theorem State.latchTick_mapImg (s : State) (p : Nat) (f : CoreImg → CoreImg) : (s.mapImg p f).latchTick = s.latchTick := rfl
@[simp] theorem State.towRx_mapImg (s : State) (p : Nat) (f : CoreImg → CoreImg) : (s.mapImg p f).towRx = s.towRx := rfl

@[simp] theorem State.pending_checkpoint (s : State) (p : Nat) : (s.checkpoint p).pending = s.pending := rfl
@[simp] theorem State.tick_checkpoint (s : State) (p : Nat) : (s.checkpoint p).tick = s.tick := rfl
@[simp] theorem State.ts_checkpoint (s : State) (p : Nat) : (s.checkpoint p).ts = s.ts := rfl
@[simp] theorem State.free_checkpoint (s : State) (p : Nat) : (s.checkpoint p).free = s.free := rfl
@[simp] theorem State.regs_checkpoint (s : State) (p : Nat) : (s.checkpoint p).regs = s.regs := rfl
@[simp] theorem State.hold_checkpoint (s : State) (p : Nat) : (s.checkpoint p).hold = s.hold := rfl
@[simp] theorem State.mem_checkpoint (s : State) (p : Nat) : (s.checkpoint p).mem = s.mem := rfl
@[simp] theorem State.lanes_checkpoint (s : State) (p : Nat) : (s.checkpoint p).lanes = s.lanes := rfl
@[simp] theorem State.fcs_checkpoint (s : State) (p : Nat) : (s.checkpoint p).fcs = s.fcs := rfl
@[simp] theorem State.slots_checkpoint (s : State) (p : Nat) : (s.checkpoint p).slots = s.slots := rfl
@[simp] theorem State.cmps_checkpoint (s : State) (p : Nat) : (s.checkpoint p).cmps = s.cmps := rfl
@[simp] theorem State.tripOut_checkpoint (s : State) (p : Nat) : (s.checkpoint p).tripOut = s.tripOut := rfl
@[simp] theorem State.staged_checkpoint (s : State) (p : Nat) : (s.checkpoint p).staged = s.staged := rfl
@[simp] theorem State.pwms_checkpoint (s : State) (p : Nat) : (s.checkpoint p).pwms = s.pwms := rfl
@[simp] theorem State.towIn_checkpoint (s : State) (p : Nat) : (s.checkpoint p).towIn = s.towIn := rfl
@[simp] theorem State.towOut_checkpoint (s : State) (p : Nat) : (s.checkpoint p).towOut = s.towOut := rfl
@[simp] theorem State.safePinExt_checkpoint (s : State) (p : Nat) : (s.checkpoint p).safePinExt = s.safePinExt := rfl
@[simp] theorem State.safeDriven_checkpoint (s : State) (p : Nat) : (s.checkpoint p).safeDriven = s.safeDriven := rfl
@[simp] theorem State.irq_checkpoint (s : State) (p : Nat) : (s.checkpoint p).irq = s.irq := rfl
@[simp] theorem State.hubq_checkpoint (s : State) (p : Nat) : (s.checkpoint p).hubq = s.hubq := rfl
@[simp] theorem State.banks_checkpoint (s : State) (p : Nat) : (s.checkpoint p).banks = s.banks := rfl
@[simp] theorem State.cs_checkpoint (s : State) (p : Nat) : (s.checkpoint p).cs = s.cs := rfl
@[simp] theorem State.adcs_checkpoint (s : State) (p : Nat) : (s.checkpoint p).adcs = s.adcs := rfl
@[simp] theorem State.ports_checkpoint (s : State) (p : Nat) : (s.checkpoint p).ports = s.ports := rfl
@[simp] theorem State.keep_checkpoint (s : State) (p : Nat) : (s.checkpoint p).keep = s.keep := rfl
@[simp] theorem State.out_checkpoint (s : State) (p : Nat) : (s.checkpoint p).out = s.out := rfl
@[simp] theorem State.evtRise_checkpoint (s : State) (p : Nat) : (s.checkpoint p).evtRise = s.evtRise := rfl
@[simp] theorem State.wears_checkpoint (s : State) (p : Nat) : (s.checkpoint p).wears = s.wears := rfl
@[simp] theorem State.tags_checkpoint (s : State) (p : Nat) : (s.checkpoint p).tags = s.tags := rfl
@[simp] theorem State.ecc_checkpoint (s : State) (p : Nat) : (s.checkpoint p).ecc = s.ecc := rfl
@[simp] theorem State.resv_checkpoint (s : State) (p : Nat) : (s.checkpoint p).resv = s.resv := rfl
@[simp] theorem State.slewNext_checkpoint (s : State) (p : Nat) : (s.checkpoint p).slewNext = s.slewNext := rfl
@[simp] theorem State.syncDue_checkpoint (s : State) (p : Nat) : (s.checkpoint p).syncDue = s.syncDue := rfl
@[simp] theorem State.syncOut_checkpoint (s : State) (p : Nat) : (s.checkpoint p).syncOut = s.syncOut := rfl
@[simp] theorem State.alarms_checkpoint (s : State) (p : Nat) : (s.checkpoint p).alarms = s.alarms := rfl
@[simp] theorem State.dropped_checkpoint (s : State) (p : Nat) : (s.checkpoint p).dropped = s.dropped := rfl
@[simp] theorem State.scrub_checkpoint (s : State) (p : Nat) : (s.checkpoint p).scrub = s.scrub := rfl
@[simp] theorem State.imgFill_checkpoint (s : State) (p : Nat) : (s.checkpoint p).imgFill = s.imgFill := rfl
@[simp] theorem State.rel_checkpoint (s : State) (p : Nat) : (s.checkpoint p).rel = s.rel := rfl
@[simp] theorem State.dmas_checkpoint (s : State) (p : Nat) : (s.checkpoint p).dmas = s.dmas := rfl
@[simp] theorem State.dmaHold_checkpoint (s : State) (p : Nat) : (s.checkpoint p).dmaHold = s.dmaHold := rfl
@[simp] theorem State.mcs_checkpoint (s : State) (p : Nat) : (s.checkpoint p).mcs = s.mcs := rfl
@[simp] theorem State.dmaFree_checkpoint (s : State) (p : Nat) : (s.checkpoint p).dmaFree = s.dmaFree := rfl
@[simp] theorem State.pwr_checkpoint (s : State) (p : Nat) : (s.checkpoint p).pwr = s.pwr := rfl
@[simp] theorem State.rings_checkpoint (s : State) (p : Nat) : (s.checkpoint p).rings = s.rings := rfl
@[simp] theorem State.outFell_checkpoint (s : State) (p : Nat) : (s.checkpoint p).outFell = s.outFell := rfl
@[simp] theorem State.latchTick_checkpoint (s : State) (p : Nat) : (s.checkpoint p).latchTick = s.latchTick := rfl
@[simp] theorem State.towRx_checkpoint (s : State) (p : Nat) : (s.checkpoint p).towRx = s.towRx := rfl

@[simp] theorem State.pending_holdE (s : State) (p c : Nat) : (s.holdE p c).pending = s.pending := rfl
@[simp] theorem State.tick_holdE (s : State) (p c : Nat) : (s.holdE p c).tick = s.tick := rfl
@[simp] theorem State.ts_holdE (s : State) (p c : Nat) : (s.holdE p c).ts = s.ts := rfl
@[simp] theorem State.free_holdE (s : State) (p c : Nat) : (s.holdE p c).free = s.free := rfl
@[simp] theorem State.regs_holdE (s : State) (p c : Nat) : (s.holdE p c).regs = s.regs := rfl
@[simp] theorem State.hold_holdE (s : State) (p c : Nat) : (s.holdE p c).hold = s.hold := rfl
@[simp] theorem State.mem_holdE (s : State) (p c : Nat) : (s.holdE p c).mem = s.mem := rfl
@[simp] theorem State.lanes_holdE (s : State) (p c : Nat) : (s.holdE p c).lanes = s.lanes := rfl
@[simp] theorem State.fcs_holdE (s : State) (p c : Nat) : (s.holdE p c).fcs = s.fcs := rfl
@[simp] theorem State.slots_holdE (s : State) (p c : Nat) : (s.holdE p c).slots = s.slots := rfl
@[simp] theorem State.cmps_holdE (s : State) (p c : Nat) : (s.holdE p c).cmps = s.cmps := rfl
@[simp] theorem State.tripOut_holdE (s : State) (p c : Nat) : (s.holdE p c).tripOut = s.tripOut := rfl
@[simp] theorem State.staged_holdE (s : State) (p c : Nat) : (s.holdE p c).staged = s.staged := rfl
@[simp] theorem State.pwms_holdE (s : State) (p c : Nat) : (s.holdE p c).pwms = s.pwms := rfl
@[simp] theorem State.towIn_holdE (s : State) (p c : Nat) : (s.holdE p c).towIn = s.towIn := rfl
@[simp] theorem State.towOut_holdE (s : State) (p c : Nat) : (s.holdE p c).towOut = s.towOut := rfl
@[simp] theorem State.safePinExt_holdE (s : State) (p c : Nat) : (s.holdE p c).safePinExt = s.safePinExt := rfl
@[simp] theorem State.safeDriven_holdE (s : State) (p c : Nat) : (s.holdE p c).safeDriven = s.safeDriven := rfl
@[simp] theorem State.irq_holdE (s : State) (p c : Nat) : (s.holdE p c).irq = s.irq := rfl
@[simp] theorem State.hubq_holdE (s : State) (p c : Nat) : (s.holdE p c).hubq = s.hubq := rfl
@[simp] theorem State.banks_holdE (s : State) (p c : Nat) : (s.holdE p c).banks = s.banks := rfl
@[simp] theorem State.cs_holdE (s : State) (p c : Nat) : (s.holdE p c).cs = s.cs := rfl
@[simp] theorem State.adcs_holdE (s : State) (p c : Nat) : (s.holdE p c).adcs = s.adcs := rfl
@[simp] theorem State.ports_holdE (s : State) (p c : Nat) : (s.holdE p c).ports = s.ports := rfl
@[simp] theorem State.keep_holdE (s : State) (p c : Nat) : (s.holdE p c).keep = s.keep := rfl
@[simp] theorem State.out_holdE (s : State) (p c : Nat) : (s.holdE p c).out = s.out := rfl
@[simp] theorem State.evtRise_holdE (s : State) (p c : Nat) : (s.holdE p c).evtRise = s.evtRise := rfl
@[simp] theorem State.wears_holdE (s : State) (p c : Nat) : (s.holdE p c).wears = s.wears := rfl
@[simp] theorem State.tags_holdE (s : State) (p c : Nat) : (s.holdE p c).tags = s.tags := rfl
@[simp] theorem State.ecc_holdE (s : State) (p c : Nat) : (s.holdE p c).ecc = s.ecc := rfl
@[simp] theorem State.resv_holdE (s : State) (p c : Nat) : (s.holdE p c).resv = s.resv := rfl
@[simp] theorem State.slewNext_holdE (s : State) (p c : Nat) : (s.holdE p c).slewNext = s.slewNext := rfl
@[simp] theorem State.syncDue_holdE (s : State) (p c : Nat) : (s.holdE p c).syncDue = s.syncDue := rfl
@[simp] theorem State.syncOut_holdE (s : State) (p c : Nat) : (s.holdE p c).syncOut = s.syncOut := rfl
@[simp] theorem State.alarms_holdE (s : State) (p c : Nat) : (s.holdE p c).alarms = s.alarms := rfl
@[simp] theorem State.dropped_holdE (s : State) (p c : Nat) : (s.holdE p c).dropped = s.dropped := rfl
@[simp] theorem State.scrub_holdE (s : State) (p c : Nat) : (s.holdE p c).scrub = s.scrub := rfl
@[simp] theorem State.imgFill_holdE (s : State) (p c : Nat) : (s.holdE p c).imgFill = s.imgFill := rfl
@[simp] theorem State.rel_holdE (s : State) (p c : Nat) : (s.holdE p c).rel = s.rel := rfl
@[simp] theorem State.dmas_holdE (s : State) (p c : Nat) : (s.holdE p c).dmas = s.dmas := rfl
@[simp] theorem State.dmaHold_holdE (s : State) (p c : Nat) : (s.holdE p c).dmaHold = s.dmaHold := rfl
@[simp] theorem State.mcs_holdE (s : State) (p c : Nat) : (s.holdE p c).mcs = s.mcs := rfl
@[simp] theorem State.dmaFree_holdE (s : State) (p c : Nat) : (s.holdE p c).dmaFree = s.dmaFree := rfl
@[simp] theorem State.pwr_holdE (s : State) (p c : Nat) : (s.holdE p c).pwr = s.pwr := rfl
@[simp] theorem State.rings_holdE (s : State) (p c : Nat) : (s.holdE p c).rings = s.rings := rfl
@[simp] theorem State.outFell_holdE (s : State) (p c : Nat) : (s.holdE p c).outFell = s.outFell := rfl
@[simp] theorem State.latchTick_holdE (s : State) (p c : Nat) : (s.holdE p c).latchTick = s.latchTick := rfl
@[simp] theorem State.towRx_holdE (s : State) (p c : Nat) : (s.holdE p c).towRx = s.towRx := rfl

@[simp] theorem State.pending_nextFree (s : State) : (s.nextFree).pending = s.pending := rfl
@[simp] theorem State.tick_nextFree (s : State) : (s.nextFree).tick = s.tick := rfl
@[simp] theorem State.ts_nextFree (s : State) : (s.nextFree).ts = s.ts := rfl
@[simp] theorem State.regs_nextFree (s : State) : (s.nextFree).regs = s.regs := rfl
@[simp] theorem State.hold_nextFree (s : State) : (s.nextFree).hold = s.hold := rfl
@[simp] theorem State.mem_nextFree (s : State) : (s.nextFree).mem = s.mem := rfl
@[simp] theorem State.lanes_nextFree (s : State) : (s.nextFree).lanes = s.lanes := rfl
@[simp] theorem State.fcs_nextFree (s : State) : (s.nextFree).fcs = s.fcs := rfl
@[simp] theorem State.slots_nextFree (s : State) : (s.nextFree).slots = s.slots := rfl
@[simp] theorem State.cmps_nextFree (s : State) : (s.nextFree).cmps = s.cmps := rfl
@[simp] theorem State.tripOut_nextFree (s : State) : (s.nextFree).tripOut = s.tripOut := rfl
@[simp] theorem State.staged_nextFree (s : State) : (s.nextFree).staged = s.staged := rfl
@[simp] theorem State.pwms_nextFree (s : State) : (s.nextFree).pwms = s.pwms := rfl
@[simp] theorem State.towIn_nextFree (s : State) : (s.nextFree).towIn = s.towIn := rfl
@[simp] theorem State.towOut_nextFree (s : State) : (s.nextFree).towOut = s.towOut := rfl
@[simp] theorem State.safePinExt_nextFree (s : State) : (s.nextFree).safePinExt = s.safePinExt := rfl
@[simp] theorem State.safeDriven_nextFree (s : State) : (s.nextFree).safeDriven = s.safeDriven := rfl
@[simp] theorem State.irq_nextFree (s : State) : (s.nextFree).irq = s.irq := rfl
@[simp] theorem State.hubq_nextFree (s : State) : (s.nextFree).hubq = s.hubq := rfl
@[simp] theorem State.banks_nextFree (s : State) : (s.nextFree).banks = s.banks := rfl
@[simp] theorem State.cs_nextFree (s : State) : (s.nextFree).cs = s.cs := rfl
@[simp] theorem State.adcs_nextFree (s : State) : (s.nextFree).adcs = s.adcs := rfl
@[simp] theorem State.ports_nextFree (s : State) : (s.nextFree).ports = s.ports := rfl
@[simp] theorem State.keep_nextFree (s : State) : (s.nextFree).keep = s.keep := rfl
@[simp] theorem State.out_nextFree (s : State) : (s.nextFree).out = s.out := rfl
@[simp] theorem State.evtRise_nextFree (s : State) : (s.nextFree).evtRise = s.evtRise := rfl
@[simp] theorem State.wears_nextFree (s : State) : (s.nextFree).wears = s.wears := rfl
@[simp] theorem State.tags_nextFree (s : State) : (s.nextFree).tags = s.tags := rfl
@[simp] theorem State.ecc_nextFree (s : State) : (s.nextFree).ecc = s.ecc := rfl
@[simp] theorem State.resv_nextFree (s : State) : (s.nextFree).resv = s.resv := rfl
@[simp] theorem State.slewNext_nextFree (s : State) : (s.nextFree).slewNext = s.slewNext := rfl
@[simp] theorem State.syncDue_nextFree (s : State) : (s.nextFree).syncDue = s.syncDue := rfl
@[simp] theorem State.syncOut_nextFree (s : State) : (s.nextFree).syncOut = s.syncOut := rfl
@[simp] theorem State.alarms_nextFree (s : State) : (s.nextFree).alarms = s.alarms := rfl
@[simp] theorem State.dropped_nextFree (s : State) : (s.nextFree).dropped = s.dropped := rfl
@[simp] theorem State.scrub_nextFree (s : State) : (s.nextFree).scrub = s.scrub := rfl
@[simp] theorem State.imgFill_nextFree (s : State) : (s.nextFree).imgFill = s.imgFill := rfl
@[simp] theorem State.rel_nextFree (s : State) : (s.nextFree).rel = s.rel := rfl
@[simp] theorem State.dmas_nextFree (s : State) : (s.nextFree).dmas = s.dmas := rfl
@[simp] theorem State.dmaHold_nextFree (s : State) : (s.nextFree).dmaHold = s.dmaHold := rfl
@[simp] theorem State.mcs_nextFree (s : State) : (s.nextFree).mcs = s.mcs := rfl
@[simp] theorem State.cores_nextFree (s : State) : (s.nextFree).cores = s.cores := rfl
@[simp] theorem State.dmaFree_nextFree (s : State) : (s.nextFree).dmaFree = s.dmaFree := rfl
@[simp] theorem State.pwr_nextFree (s : State) : (s.nextFree).pwr = s.pwr := rfl
@[simp] theorem State.rings_nextFree (s : State) : (s.nextFree).rings = s.rings := rfl
@[simp] theorem State.outFell_nextFree (s : State) : (s.nextFree).outFell = s.outFell := rfl
@[simp] theorem State.latchTick_nextFree (s : State) : (s.nextFree).latchTick = s.latchTick := rfl
@[simp] theorem State.towRx_nextFree (s : State) : (s.nextFree).towRx = s.towRx := rfl

@[simp] theorem State.pending_line (s : State) (p l : Nat) : (s.line p l).pending = s.pending := rfl
@[simp] theorem State.tick_line (s : State) (p l : Nat) : (s.line p l).tick = s.tick := rfl
@[simp] theorem State.ts_line (s : State) (p l : Nat) : (s.line p l).ts = s.ts := rfl
@[simp] theorem State.free_line (s : State) (p l : Nat) : (s.line p l).free = s.free := rfl
@[simp] theorem State.regs_line (s : State) (p l : Nat) : (s.line p l).regs = s.regs := rfl
@[simp] theorem State.hold_line (s : State) (p l : Nat) : (s.line p l).hold = s.hold := rfl
@[simp] theorem State.mem_line (s : State) (p l : Nat) : (s.line p l).mem = s.mem := rfl
@[simp] theorem State.lanes_line (s : State) (p l : Nat) : (s.line p l).lanes = s.lanes := rfl
@[simp] theorem State.fcs_line (s : State) (p l : Nat) : (s.line p l).fcs = s.fcs := rfl
@[simp] theorem State.slots_line (s : State) (p l : Nat) : (s.line p l).slots = s.slots := rfl
@[simp] theorem State.cmps_line (s : State) (p l : Nat) : (s.line p l).cmps = s.cmps := rfl
@[simp] theorem State.tripOut_line (s : State) (p l : Nat) : (s.line p l).tripOut = s.tripOut := rfl
@[simp] theorem State.staged_line (s : State) (p l : Nat) : (s.line p l).staged = s.staged := rfl
@[simp] theorem State.pwms_line (s : State) (p l : Nat) : (s.line p l).pwms = s.pwms := rfl
@[simp] theorem State.towIn_line (s : State) (p l : Nat) : (s.line p l).towIn = s.towIn := rfl
@[simp] theorem State.towOut_line (s : State) (p l : Nat) : (s.line p l).towOut = s.towOut := rfl
@[simp] theorem State.safePinExt_line (s : State) (p l : Nat) : (s.line p l).safePinExt = s.safePinExt := rfl
@[simp] theorem State.safeDriven_line (s : State) (p l : Nat) : (s.line p l).safeDriven = s.safeDriven := rfl
@[simp] theorem State.hubq_line (s : State) (p l : Nat) : (s.line p l).hubq = s.hubq := rfl
@[simp] theorem State.banks_line (s : State) (p l : Nat) : (s.line p l).banks = s.banks := rfl
@[simp] theorem State.cs_line (s : State) (p l : Nat) : (s.line p l).cs = s.cs := rfl
@[simp] theorem State.adcs_line (s : State) (p l : Nat) : (s.line p l).adcs = s.adcs := rfl
@[simp] theorem State.ports_line (s : State) (p l : Nat) : (s.line p l).ports = s.ports := rfl
@[simp] theorem State.keep_line (s : State) (p l : Nat) : (s.line p l).keep = s.keep := rfl
@[simp] theorem State.out_line (s : State) (p l : Nat) : (s.line p l).out = s.out := rfl
@[simp] theorem State.evtRise_line (s : State) (p l : Nat) : (s.line p l).evtRise = s.evtRise := rfl
@[simp] theorem State.wears_line (s : State) (p l : Nat) : (s.line p l).wears = s.wears := rfl
@[simp] theorem State.tags_line (s : State) (p l : Nat) : (s.line p l).tags = s.tags := rfl
@[simp] theorem State.ecc_line (s : State) (p l : Nat) : (s.line p l).ecc = s.ecc := rfl
@[simp] theorem State.resv_line (s : State) (p l : Nat) : (s.line p l).resv = s.resv := rfl
@[simp] theorem State.slewNext_line (s : State) (p l : Nat) : (s.line p l).slewNext = s.slewNext := rfl
@[simp] theorem State.syncDue_line (s : State) (p l : Nat) : (s.line p l).syncDue = s.syncDue := rfl
@[simp] theorem State.syncOut_line (s : State) (p l : Nat) : (s.line p l).syncOut = s.syncOut := rfl
@[simp] theorem State.alarms_line (s : State) (p l : Nat) : (s.line p l).alarms = s.alarms := rfl
@[simp] theorem State.dropped_line (s : State) (p l : Nat) : (s.line p l).dropped = s.dropped := rfl
@[simp] theorem State.scrub_line (s : State) (p l : Nat) : (s.line p l).scrub = s.scrub := rfl
@[simp] theorem State.imgFill_line (s : State) (p l : Nat) : (s.line p l).imgFill = s.imgFill := rfl
@[simp] theorem State.rel_line (s : State) (p l : Nat) : (s.line p l).rel = s.rel := rfl
@[simp] theorem State.dmas_line (s : State) (p l : Nat) : (s.line p l).dmas = s.dmas := rfl
@[simp] theorem State.dmaHold_line (s : State) (p l : Nat) : (s.line p l).dmaHold = s.dmaHold := rfl
@[simp] theorem State.mcs_line (s : State) (p l : Nat) : (s.line p l).mcs = s.mcs := rfl
@[simp] theorem State.cores_line (s : State) (p l : Nat) : (s.line p l).cores = s.cores := rfl
@[simp] theorem State.dmaFree_line (s : State) (p l : Nat) : (s.line p l).dmaFree = s.dmaFree := rfl
@[simp] theorem State.pwr_line (s : State) (p l : Nat) : (s.line p l).pwr = s.pwr := rfl
@[simp] theorem State.rings_line (s : State) (p l : Nat) : (s.line p l).rings = s.rings := rfl
@[simp] theorem State.outFell_line (s : State) (p l : Nat) : (s.line p l).outFell = s.outFell := rfl
@[simp] theorem State.latchTick_line (s : State) (p l : Nat) : (s.line p l).latchTick = s.latchTick := rfl
@[simp] theorem State.towRx_line (s : State) (p l : Nat) : (s.line p l).towRx = s.towRx := rfl

@[simp] theorem State.pending_hostWrite (s : State) (p a : Nat) (b : List Byte) : (s.hostWrite p a b).pending = s.pending := rfl
@[simp] theorem State.tick_hostWrite (s : State) (p a : Nat) (b : List Byte) : (s.hostWrite p a b).tick = s.tick := rfl
@[simp] theorem State.ts_hostWrite (s : State) (p a : Nat) (b : List Byte) : (s.hostWrite p a b).ts = s.ts := rfl
@[simp] theorem State.free_hostWrite (s : State) (p a : Nat) (b : List Byte) : (s.hostWrite p a b).free = s.free := rfl
@[simp] theorem State.regs_hostWrite (s : State) (p a : Nat) (b : List Byte) : (s.hostWrite p a b).regs = s.regs := rfl
@[simp] theorem State.hold_hostWrite (s : State) (p a : Nat) (b : List Byte) : (s.hostWrite p a b).hold = s.hold := rfl
@[simp] theorem State.mem_hostWrite (s : State) (p a : Nat) (b : List Byte) : (s.hostWrite p a b).mem = s.mem := rfl
@[simp] theorem State.lanes_hostWrite (s : State) (p a : Nat) (b : List Byte) : (s.hostWrite p a b).lanes = s.lanes := rfl
@[simp] theorem State.fcs_hostWrite (s : State) (p a : Nat) (b : List Byte) : (s.hostWrite p a b).fcs = s.fcs := rfl
@[simp] theorem State.slots_hostWrite (s : State) (p a : Nat) (b : List Byte) : (s.hostWrite p a b).slots = s.slots := rfl
@[simp] theorem State.cmps_hostWrite (s : State) (p a : Nat) (b : List Byte) : (s.hostWrite p a b).cmps = s.cmps := rfl
@[simp] theorem State.tripOut_hostWrite (s : State) (p a : Nat) (b : List Byte) : (s.hostWrite p a b).tripOut = s.tripOut := rfl
@[simp] theorem State.staged_hostWrite (s : State) (p a : Nat) (b : List Byte) : (s.hostWrite p a b).staged = s.staged := rfl
@[simp] theorem State.pwms_hostWrite (s : State) (p a : Nat) (b : List Byte) : (s.hostWrite p a b).pwms = s.pwms := rfl
@[simp] theorem State.towIn_hostWrite (s : State) (p a : Nat) (b : List Byte) : (s.hostWrite p a b).towIn = s.towIn := rfl
@[simp] theorem State.towOut_hostWrite (s : State) (p a : Nat) (b : List Byte) : (s.hostWrite p a b).towOut = s.towOut := rfl
@[simp] theorem State.safePinExt_hostWrite (s : State) (p a : Nat) (b : List Byte) : (s.hostWrite p a b).safePinExt = s.safePinExt := rfl
@[simp] theorem State.safeDriven_hostWrite (s : State) (p a : Nat) (b : List Byte) : (s.hostWrite p a b).safeDriven = s.safeDriven := rfl
@[simp] theorem State.irq_hostWrite (s : State) (p a : Nat) (b : List Byte) : (s.hostWrite p a b).irq = s.irq := rfl
@[simp] theorem State.hubq_hostWrite (s : State) (p a : Nat) (b : List Byte) : (s.hostWrite p a b).hubq = s.hubq := rfl
@[simp] theorem State.banks_hostWrite (s : State) (p a : Nat) (b : List Byte) : (s.hostWrite p a b).banks = s.banks := rfl
@[simp] theorem State.cs_hostWrite (s : State) (p a : Nat) (b : List Byte) : (s.hostWrite p a b).cs = s.cs := rfl
@[simp] theorem State.adcs_hostWrite (s : State) (p a : Nat) (b : List Byte) : (s.hostWrite p a b).adcs = s.adcs := rfl
@[simp] theorem State.ports_hostWrite (s : State) (p a : Nat) (b : List Byte) : (s.hostWrite p a b).ports = s.ports := rfl
@[simp] theorem State.keep_hostWrite (s : State) (p a : Nat) (b : List Byte) : (s.hostWrite p a b).keep = s.keep := rfl
@[simp] theorem State.evtRise_hostWrite (s : State) (p a : Nat) (b : List Byte) : (s.hostWrite p a b).evtRise = s.evtRise := rfl
@[simp] theorem State.wears_hostWrite (s : State) (p a : Nat) (b : List Byte) : (s.hostWrite p a b).wears = s.wears := rfl
@[simp] theorem State.tags_hostWrite (s : State) (p a : Nat) (b : List Byte) : (s.hostWrite p a b).tags = s.tags := rfl
@[simp] theorem State.ecc_hostWrite (s : State) (p a : Nat) (b : List Byte) : (s.hostWrite p a b).ecc = s.ecc := rfl
@[simp] theorem State.resv_hostWrite (s : State) (p a : Nat) (b : List Byte) : (s.hostWrite p a b).resv = s.resv := rfl
@[simp] theorem State.slewNext_hostWrite (s : State) (p a : Nat) (b : List Byte) : (s.hostWrite p a b).slewNext = s.slewNext := rfl
@[simp] theorem State.syncDue_hostWrite (s : State) (p a : Nat) (b : List Byte) : (s.hostWrite p a b).syncDue = s.syncDue := rfl
@[simp] theorem State.syncOut_hostWrite (s : State) (p a : Nat) (b : List Byte) : (s.hostWrite p a b).syncOut = s.syncOut := rfl
@[simp] theorem State.alarms_hostWrite (s : State) (p a : Nat) (b : List Byte) : (s.hostWrite p a b).alarms = s.alarms := rfl
@[simp] theorem State.dropped_hostWrite (s : State) (p a : Nat) (b : List Byte) : (s.hostWrite p a b).dropped = s.dropped := rfl
@[simp] theorem State.scrub_hostWrite (s : State) (p a : Nat) (b : List Byte) : (s.hostWrite p a b).scrub = s.scrub := rfl
@[simp] theorem State.imgFill_hostWrite (s : State) (p a : Nat) (b : List Byte) : (s.hostWrite p a b).imgFill = s.imgFill := rfl
@[simp] theorem State.rel_hostWrite (s : State) (p a : Nat) (b : List Byte) : (s.hostWrite p a b).rel = s.rel := rfl
@[simp] theorem State.dmas_hostWrite (s : State) (p a : Nat) (b : List Byte) : (s.hostWrite p a b).dmas = s.dmas := rfl
@[simp] theorem State.dmaHold_hostWrite (s : State) (p a : Nat) (b : List Byte) : (s.hostWrite p a b).dmaHold = s.dmaHold := rfl
@[simp] theorem State.mcs_hostWrite (s : State) (p a : Nat) (b : List Byte) : (s.hostWrite p a b).mcs = s.mcs := rfl
@[simp] theorem State.cores_hostWrite (s : State) (p a : Nat) (b : List Byte) : (s.hostWrite p a b).cores = s.cores := rfl
@[simp] theorem State.dmaFree_hostWrite (s : State) (p a : Nat) (b : List Byte) : (s.hostWrite p a b).dmaFree = s.dmaFree := rfl
@[simp] theorem State.pwr_hostWrite (s : State) (p a : Nat) (b : List Byte) : (s.hostWrite p a b).pwr = s.pwr := rfl
@[simp] theorem State.rings_hostWrite (s : State) (p a : Nat) (b : List Byte) : (s.hostWrite p a b).rings = s.rings := rfl
@[simp] theorem State.outFell_hostWrite (s : State) (p a : Nat) (b : List Byte) : (s.hostWrite p a b).outFell = s.outFell := rfl
@[simp] theorem State.latchTick_hostWrite (s : State) (p a : Nat) (b : List Byte) : (s.hostWrite p a b).latchTick = s.latchTick := rfl
@[simp] theorem State.towRx_hostWrite (s : State) (p a : Nat) (b : List Byte) : (s.hostWrite p a b).towRx = s.towRx := rfl

@[simp] theorem State.pending_setTag (s : State) (g : Nat) (b : Bool) : (s.setTag g b).pending = s.pending := rfl
@[simp] theorem State.tick_setTag (s : State) (g : Nat) (b : Bool) : (s.setTag g b).tick = s.tick := rfl
@[simp] theorem State.ts_setTag (s : State) (g : Nat) (b : Bool) : (s.setTag g b).ts = s.ts := rfl
@[simp] theorem State.free_setTag (s : State) (g : Nat) (b : Bool) : (s.setTag g b).free = s.free := rfl
@[simp] theorem State.regs_setTag (s : State) (g : Nat) (b : Bool) : (s.setTag g b).regs = s.regs := rfl
@[simp] theorem State.hold_setTag (s : State) (g : Nat) (b : Bool) : (s.setTag g b).hold = s.hold := rfl
@[simp] theorem State.mem_setTag (s : State) (g : Nat) (b : Bool) : (s.setTag g b).mem = s.mem := rfl
@[simp] theorem State.lanes_setTag (s : State) (g : Nat) (b : Bool) : (s.setTag g b).lanes = s.lanes := rfl
@[simp] theorem State.fcs_setTag (s : State) (g : Nat) (b : Bool) : (s.setTag g b).fcs = s.fcs := rfl
@[simp] theorem State.slots_setTag (s : State) (g : Nat) (b : Bool) : (s.setTag g b).slots = s.slots := rfl
@[simp] theorem State.cmps_setTag (s : State) (g : Nat) (b : Bool) : (s.setTag g b).cmps = s.cmps := rfl
@[simp] theorem State.tripOut_setTag (s : State) (g : Nat) (b : Bool) : (s.setTag g b).tripOut = s.tripOut := rfl
@[simp] theorem State.staged_setTag (s : State) (g : Nat) (b : Bool) : (s.setTag g b).staged = s.staged := rfl
@[simp] theorem State.pwms_setTag (s : State) (g : Nat) (b : Bool) : (s.setTag g b).pwms = s.pwms := rfl
@[simp] theorem State.towIn_setTag (s : State) (g : Nat) (b : Bool) : (s.setTag g b).towIn = s.towIn := rfl
@[simp] theorem State.towOut_setTag (s : State) (g : Nat) (b : Bool) : (s.setTag g b).towOut = s.towOut := rfl
@[simp] theorem State.safePinExt_setTag (s : State) (g : Nat) (b : Bool) : (s.setTag g b).safePinExt = s.safePinExt := rfl
@[simp] theorem State.safeDriven_setTag (s : State) (g : Nat) (b : Bool) : (s.setTag g b).safeDriven = s.safeDriven := rfl
@[simp] theorem State.irq_setTag (s : State) (g : Nat) (b : Bool) : (s.setTag g b).irq = s.irq := rfl
@[simp] theorem State.hubq_setTag (s : State) (g : Nat) (b : Bool) : (s.setTag g b).hubq = s.hubq := rfl
@[simp] theorem State.banks_setTag (s : State) (g : Nat) (b : Bool) : (s.setTag g b).banks = s.banks := rfl
@[simp] theorem State.cs_setTag (s : State) (g : Nat) (b : Bool) : (s.setTag g b).cs = s.cs := rfl
@[simp] theorem State.adcs_setTag (s : State) (g : Nat) (b : Bool) : (s.setTag g b).adcs = s.adcs := rfl
@[simp] theorem State.ports_setTag (s : State) (g : Nat) (b : Bool) : (s.setTag g b).ports = s.ports := rfl
@[simp] theorem State.keep_setTag (s : State) (g : Nat) (b : Bool) : (s.setTag g b).keep = s.keep := rfl
@[simp] theorem State.out_setTag (s : State) (g : Nat) (b : Bool) : (s.setTag g b).out = s.out := rfl
@[simp] theorem State.evtRise_setTag (s : State) (g : Nat) (b : Bool) : (s.setTag g b).evtRise = s.evtRise := rfl
@[simp] theorem State.wears_setTag (s : State) (g : Nat) (b : Bool) : (s.setTag g b).wears = s.wears := rfl
@[simp] theorem State.ecc_setTag (s : State) (g : Nat) (b : Bool) : (s.setTag g b).ecc = s.ecc := rfl
@[simp] theorem State.resv_setTag (s : State) (g : Nat) (b : Bool) : (s.setTag g b).resv = s.resv := rfl
@[simp] theorem State.slewNext_setTag (s : State) (g : Nat) (b : Bool) : (s.setTag g b).slewNext = s.slewNext := rfl
@[simp] theorem State.syncDue_setTag (s : State) (g : Nat) (b : Bool) : (s.setTag g b).syncDue = s.syncDue := rfl
@[simp] theorem State.syncOut_setTag (s : State) (g : Nat) (b : Bool) : (s.setTag g b).syncOut = s.syncOut := rfl
@[simp] theorem State.alarms_setTag (s : State) (g : Nat) (b : Bool) : (s.setTag g b).alarms = s.alarms := rfl
@[simp] theorem State.dropped_setTag (s : State) (g : Nat) (b : Bool) : (s.setTag g b).dropped = s.dropped := rfl
@[simp] theorem State.scrub_setTag (s : State) (g : Nat) (b : Bool) : (s.setTag g b).scrub = s.scrub := rfl
@[simp] theorem State.imgFill_setTag (s : State) (g : Nat) (b : Bool) : (s.setTag g b).imgFill = s.imgFill := rfl
@[simp] theorem State.rel_setTag (s : State) (g : Nat) (b : Bool) : (s.setTag g b).rel = s.rel := rfl
@[simp] theorem State.dmas_setTag (s : State) (g : Nat) (b : Bool) : (s.setTag g b).dmas = s.dmas := rfl
@[simp] theorem State.dmaHold_setTag (s : State) (g : Nat) (b : Bool) : (s.setTag g b).dmaHold = s.dmaHold := rfl
@[simp] theorem State.mcs_setTag (s : State) (g : Nat) (b : Bool) : (s.setTag g b).mcs = s.mcs := rfl
@[simp] theorem State.cores_setTag (s : State) (g : Nat) (b : Bool) : (s.setTag g b).cores = s.cores := rfl
@[simp] theorem State.dmaFree_setTag (s : State) (g : Nat) (b : Bool) : (s.setTag g b).dmaFree = s.dmaFree := rfl
@[simp] theorem State.pwr_setTag (s : State) (g : Nat) (b : Bool) : (s.setTag g b).pwr = s.pwr := rfl
@[simp] theorem State.rings_setTag (s : State) (g : Nat) (b : Bool) : (s.setTag g b).rings = s.rings := rfl
@[simp] theorem State.outFell_setTag (s : State) (g : Nat) (b : Bool) : (s.setTag g b).outFell = s.outFell := rfl
@[simp] theorem State.latchTick_setTag (s : State) (g : Nat) (b : Bool) : (s.setTag g b).latchTick = s.latchTick := rfl
@[simp] theorem State.towRx_setTag (s : State) (g : Nat) (b : Bool) : (s.setTag g b).towRx = s.towRx := rfl

@[simp] theorem State.pending_wrByte (s : State) (a : Nat) (b : Byte) : (s.wrByte a b).pending = s.pending := rfl
@[simp] theorem State.tick_wrByte (s : State) (a : Nat) (b : Byte) : (s.wrByte a b).tick = s.tick := rfl
@[simp] theorem State.ts_wrByte (s : State) (a : Nat) (b : Byte) : (s.wrByte a b).ts = s.ts := rfl
@[simp] theorem State.free_wrByte (s : State) (a : Nat) (b : Byte) : (s.wrByte a b).free = s.free := rfl
@[simp] theorem State.regs_wrByte (s : State) (a : Nat) (b : Byte) : (s.wrByte a b).regs = s.regs := rfl
@[simp] theorem State.hold_wrByte (s : State) (a : Nat) (b : Byte) : (s.wrByte a b).hold = s.hold := rfl
@[simp] theorem State.lanes_wrByte (s : State) (a : Nat) (b : Byte) : (s.wrByte a b).lanes = s.lanes := rfl
@[simp] theorem State.fcs_wrByte (s : State) (a : Nat) (b : Byte) : (s.wrByte a b).fcs = s.fcs := rfl
@[simp] theorem State.slots_wrByte (s : State) (a : Nat) (b : Byte) : (s.wrByte a b).slots = s.slots := rfl
@[simp] theorem State.cmps_wrByte (s : State) (a : Nat) (b : Byte) : (s.wrByte a b).cmps = s.cmps := rfl
@[simp] theorem State.tripOut_wrByte (s : State) (a : Nat) (b : Byte) : (s.wrByte a b).tripOut = s.tripOut := rfl
@[simp] theorem State.staged_wrByte (s : State) (a : Nat) (b : Byte) : (s.wrByte a b).staged = s.staged := rfl
@[simp] theorem State.pwms_wrByte (s : State) (a : Nat) (b : Byte) : (s.wrByte a b).pwms = s.pwms := rfl
@[simp] theorem State.towIn_wrByte (s : State) (a : Nat) (b : Byte) : (s.wrByte a b).towIn = s.towIn := rfl
@[simp] theorem State.towOut_wrByte (s : State) (a : Nat) (b : Byte) : (s.wrByte a b).towOut = s.towOut := rfl
@[simp] theorem State.safePinExt_wrByte (s : State) (a : Nat) (b : Byte) : (s.wrByte a b).safePinExt = s.safePinExt := rfl
@[simp] theorem State.safeDriven_wrByte (s : State) (a : Nat) (b : Byte) : (s.wrByte a b).safeDriven = s.safeDriven := rfl
@[simp] theorem State.irq_wrByte (s : State) (a : Nat) (b : Byte) : (s.wrByte a b).irq = s.irq := rfl
@[simp] theorem State.hubq_wrByte (s : State) (a : Nat) (b : Byte) : (s.wrByte a b).hubq = s.hubq := rfl
@[simp] theorem State.banks_wrByte (s : State) (a : Nat) (b : Byte) : (s.wrByte a b).banks = s.banks := rfl
@[simp] theorem State.cs_wrByte (s : State) (a : Nat) (b : Byte) : (s.wrByte a b).cs = s.cs := rfl
@[simp] theorem State.adcs_wrByte (s : State) (a : Nat) (b : Byte) : (s.wrByte a b).adcs = s.adcs := rfl
@[simp] theorem State.ports_wrByte (s : State) (a : Nat) (b : Byte) : (s.wrByte a b).ports = s.ports := rfl
@[simp] theorem State.keep_wrByte (s : State) (a : Nat) (b : Byte) : (s.wrByte a b).keep = s.keep := rfl
@[simp] theorem State.out_wrByte (s : State) (a : Nat) (b : Byte) : (s.wrByte a b).out = s.out := rfl
@[simp] theorem State.evtRise_wrByte (s : State) (a : Nat) (b : Byte) : (s.wrByte a b).evtRise = s.evtRise := rfl
@[simp] theorem State.wears_wrByte (s : State) (a : Nat) (b : Byte) : (s.wrByte a b).wears = s.wears := rfl
@[simp] theorem State.slewNext_wrByte (s : State) (a : Nat) (b : Byte) : (s.wrByte a b).slewNext = s.slewNext := rfl
@[simp] theorem State.syncDue_wrByte (s : State) (a : Nat) (b : Byte) : (s.wrByte a b).syncDue = s.syncDue := rfl
@[simp] theorem State.syncOut_wrByte (s : State) (a : Nat) (b : Byte) : (s.wrByte a b).syncOut = s.syncOut := rfl
@[simp] theorem State.alarms_wrByte (s : State) (a : Nat) (b : Byte) : (s.wrByte a b).alarms = s.alarms := rfl
@[simp] theorem State.dropped_wrByte (s : State) (a : Nat) (b : Byte) : (s.wrByte a b).dropped = s.dropped := rfl
@[simp] theorem State.scrub_wrByte (s : State) (a : Nat) (b : Byte) : (s.wrByte a b).scrub = s.scrub := rfl
@[simp] theorem State.imgFill_wrByte (s : State) (a : Nat) (b : Byte) : (s.wrByte a b).imgFill = s.imgFill := rfl
@[simp] theorem State.rel_wrByte (s : State) (a : Nat) (b : Byte) : (s.wrByte a b).rel = s.rel := rfl
@[simp] theorem State.dmas_wrByte (s : State) (a : Nat) (b : Byte) : (s.wrByte a b).dmas = s.dmas := rfl
@[simp] theorem State.dmaHold_wrByte (s : State) (a : Nat) (b : Byte) : (s.wrByte a b).dmaHold = s.dmaHold := rfl
@[simp] theorem State.mcs_wrByte (s : State) (a : Nat) (b : Byte) : (s.wrByte a b).mcs = s.mcs := rfl
@[simp] theorem State.cores_wrByte (s : State) (a : Nat) (b : Byte) : (s.wrByte a b).cores = s.cores := rfl
@[simp] theorem State.dmaFree_wrByte (s : State) (a : Nat) (b : Byte) : (s.wrByte a b).dmaFree = s.dmaFree := rfl
@[simp] theorem State.pwr_wrByte (s : State) (a : Nat) (b : Byte) : (s.wrByte a b).pwr = s.pwr := rfl
@[simp] theorem State.rings_wrByte (s : State) (a : Nat) (b : Byte) : (s.wrByte a b).rings = s.rings := rfl
@[simp] theorem State.outFell_wrByte (s : State) (a : Nat) (b : Byte) : (s.wrByte a b).outFell = s.outFell := rfl
@[simp] theorem State.latchTick_wrByte (s : State) (a : Nat) (b : Byte) : (s.wrByte a b).latchTick = s.latchTick := rfl
@[simp] theorem State.towRx_wrByte (s : State) (a : Nat) (b : Byte) : (s.wrByte a b).towRx = s.towRx := rfl

@[simp] theorem State.pending_wrRun (s : State) (a : Nat) (l : List Byte) : (s.wrRun a l).pending = s.pending := rfl
@[simp] theorem State.tick_wrRun (s : State) (a : Nat) (l : List Byte) : (s.wrRun a l).tick = s.tick := rfl
@[simp] theorem State.ts_wrRun (s : State) (a : Nat) (l : List Byte) : (s.wrRun a l).ts = s.ts := rfl
@[simp] theorem State.free_wrRun (s : State) (a : Nat) (l : List Byte) : (s.wrRun a l).free = s.free := rfl
@[simp] theorem State.regs_wrRun (s : State) (a : Nat) (l : List Byte) : (s.wrRun a l).regs = s.regs := rfl
@[simp] theorem State.hold_wrRun (s : State) (a : Nat) (l : List Byte) : (s.wrRun a l).hold = s.hold := rfl
@[simp] theorem State.lanes_wrRun (s : State) (a : Nat) (l : List Byte) : (s.wrRun a l).lanes = s.lanes := rfl
@[simp] theorem State.fcs_wrRun (s : State) (a : Nat) (l : List Byte) : (s.wrRun a l).fcs = s.fcs := rfl
@[simp] theorem State.slots_wrRun (s : State) (a : Nat) (l : List Byte) : (s.wrRun a l).slots = s.slots := rfl
@[simp] theorem State.cmps_wrRun (s : State) (a : Nat) (l : List Byte) : (s.wrRun a l).cmps = s.cmps := rfl
@[simp] theorem State.tripOut_wrRun (s : State) (a : Nat) (l : List Byte) : (s.wrRun a l).tripOut = s.tripOut := rfl
@[simp] theorem State.staged_wrRun (s : State) (a : Nat) (l : List Byte) : (s.wrRun a l).staged = s.staged := rfl
@[simp] theorem State.pwms_wrRun (s : State) (a : Nat) (l : List Byte) : (s.wrRun a l).pwms = s.pwms := rfl
@[simp] theorem State.towIn_wrRun (s : State) (a : Nat) (l : List Byte) : (s.wrRun a l).towIn = s.towIn := rfl
@[simp] theorem State.towOut_wrRun (s : State) (a : Nat) (l : List Byte) : (s.wrRun a l).towOut = s.towOut := rfl
@[simp] theorem State.safePinExt_wrRun (s : State) (a : Nat) (l : List Byte) : (s.wrRun a l).safePinExt = s.safePinExt := rfl
@[simp] theorem State.safeDriven_wrRun (s : State) (a : Nat) (l : List Byte) : (s.wrRun a l).safeDriven = s.safeDriven := rfl
@[simp] theorem State.irq_wrRun (s : State) (a : Nat) (l : List Byte) : (s.wrRun a l).irq = s.irq := rfl
@[simp] theorem State.hubq_wrRun (s : State) (a : Nat) (l : List Byte) : (s.wrRun a l).hubq = s.hubq := rfl
@[simp] theorem State.banks_wrRun (s : State) (a : Nat) (l : List Byte) : (s.wrRun a l).banks = s.banks := rfl
@[simp] theorem State.cs_wrRun (s : State) (a : Nat) (l : List Byte) : (s.wrRun a l).cs = s.cs := rfl
@[simp] theorem State.adcs_wrRun (s : State) (a : Nat) (l : List Byte) : (s.wrRun a l).adcs = s.adcs := rfl
@[simp] theorem State.ports_wrRun (s : State) (a : Nat) (l : List Byte) : (s.wrRun a l).ports = s.ports := rfl
@[simp] theorem State.keep_wrRun (s : State) (a : Nat) (l : List Byte) : (s.wrRun a l).keep = s.keep := rfl
@[simp] theorem State.out_wrRun (s : State) (a : Nat) (l : List Byte) : (s.wrRun a l).out = s.out := rfl
@[simp] theorem State.evtRise_wrRun (s : State) (a : Nat) (l : List Byte) : (s.wrRun a l).evtRise = s.evtRise := rfl
@[simp] theorem State.wears_wrRun (s : State) (a : Nat) (l : List Byte) : (s.wrRun a l).wears = s.wears := rfl
@[simp] theorem State.slewNext_wrRun (s : State) (a : Nat) (l : List Byte) : (s.wrRun a l).slewNext = s.slewNext := rfl
@[simp] theorem State.syncDue_wrRun (s : State) (a : Nat) (l : List Byte) : (s.wrRun a l).syncDue = s.syncDue := rfl
@[simp] theorem State.syncOut_wrRun (s : State) (a : Nat) (l : List Byte) : (s.wrRun a l).syncOut = s.syncOut := rfl
@[simp] theorem State.alarms_wrRun (s : State) (a : Nat) (l : List Byte) : (s.wrRun a l).alarms = s.alarms := rfl
@[simp] theorem State.dropped_wrRun (s : State) (a : Nat) (l : List Byte) : (s.wrRun a l).dropped = s.dropped := rfl
@[simp] theorem State.scrub_wrRun (s : State) (a : Nat) (l : List Byte) : (s.wrRun a l).scrub = s.scrub := rfl
@[simp] theorem State.imgFill_wrRun (s : State) (a : Nat) (l : List Byte) : (s.wrRun a l).imgFill = s.imgFill := rfl
@[simp] theorem State.rel_wrRun (s : State) (a : Nat) (l : List Byte) : (s.wrRun a l).rel = s.rel := rfl
@[simp] theorem State.dmas_wrRun (s : State) (a : Nat) (l : List Byte) : (s.wrRun a l).dmas = s.dmas := rfl
@[simp] theorem State.dmaHold_wrRun (s : State) (a : Nat) (l : List Byte) : (s.wrRun a l).dmaHold = s.dmaHold := rfl
@[simp] theorem State.mcs_wrRun (s : State) (a : Nat) (l : List Byte) : (s.wrRun a l).mcs = s.mcs := rfl
@[simp] theorem State.cores_wrRun (s : State) (a : Nat) (l : List Byte) : (s.wrRun a l).cores = s.cores := rfl
@[simp] theorem State.dmaFree_wrRun (s : State) (a : Nat) (l : List Byte) : (s.wrRun a l).dmaFree = s.dmaFree := rfl
@[simp] theorem State.pwr_wrRun (s : State) (a : Nat) (l : List Byte) : (s.wrRun a l).pwr = s.pwr := rfl
@[simp] theorem State.rings_wrRun (s : State) (a : Nat) (l : List Byte) : (s.wrRun a l).rings = s.rings := rfl
@[simp] theorem State.outFell_wrRun (s : State) (a : Nat) (l : List Byte) : (s.wrRun a l).outFell = s.outFell := rfl
@[simp] theorem State.latchTick_wrRun (s : State) (a : Nat) (l : List Byte) : (s.wrRun a l).latchTick = s.latchTick := rfl
@[simp] theorem State.towRx_wrRun (s : State) (a : Nat) (l : List Byte) : (s.wrRun a l).towRx = s.towRx := rfl

@[simp] theorem State.pending_zeroRange (s : State) (k n : Nat) : (s.zeroRange k n).pending = s.pending := rfl
@[simp] theorem State.tick_zeroRange (s : State) (k n : Nat) : (s.zeroRange k n).tick = s.tick := rfl
@[simp] theorem State.ts_zeroRange (s : State) (k n : Nat) : (s.zeroRange k n).ts = s.ts := rfl
@[simp] theorem State.free_zeroRange (s : State) (k n : Nat) : (s.zeroRange k n).free = s.free := rfl
@[simp] theorem State.regs_zeroRange (s : State) (k n : Nat) : (s.zeroRange k n).regs = s.regs := rfl
@[simp] theorem State.hold_zeroRange (s : State) (k n : Nat) : (s.zeroRange k n).hold = s.hold := rfl
@[simp] theorem State.lanes_zeroRange (s : State) (k n : Nat) : (s.zeroRange k n).lanes = s.lanes := rfl
@[simp] theorem State.fcs_zeroRange (s : State) (k n : Nat) : (s.zeroRange k n).fcs = s.fcs := rfl
@[simp] theorem State.slots_zeroRange (s : State) (k n : Nat) : (s.zeroRange k n).slots = s.slots := rfl
@[simp] theorem State.cmps_zeroRange (s : State) (k n : Nat) : (s.zeroRange k n).cmps = s.cmps := rfl
@[simp] theorem State.tripOut_zeroRange (s : State) (k n : Nat) : (s.zeroRange k n).tripOut = s.tripOut := rfl
@[simp] theorem State.staged_zeroRange (s : State) (k n : Nat) : (s.zeroRange k n).staged = s.staged := rfl
@[simp] theorem State.pwms_zeroRange (s : State) (k n : Nat) : (s.zeroRange k n).pwms = s.pwms := rfl
@[simp] theorem State.towIn_zeroRange (s : State) (k n : Nat) : (s.zeroRange k n).towIn = s.towIn := rfl
@[simp] theorem State.towOut_zeroRange (s : State) (k n : Nat) : (s.zeroRange k n).towOut = s.towOut := rfl
@[simp] theorem State.safePinExt_zeroRange (s : State) (k n : Nat) : (s.zeroRange k n).safePinExt = s.safePinExt := rfl
@[simp] theorem State.safeDriven_zeroRange (s : State) (k n : Nat) : (s.zeroRange k n).safeDriven = s.safeDriven := rfl
@[simp] theorem State.irq_zeroRange (s : State) (k n : Nat) : (s.zeroRange k n).irq = s.irq := rfl
@[simp] theorem State.hubq_zeroRange (s : State) (k n : Nat) : (s.zeroRange k n).hubq = s.hubq := rfl
@[simp] theorem State.banks_zeroRange (s : State) (k n : Nat) : (s.zeroRange k n).banks = s.banks := rfl
@[simp] theorem State.cs_zeroRange (s : State) (k n : Nat) : (s.zeroRange k n).cs = s.cs := rfl
@[simp] theorem State.adcs_zeroRange (s : State) (k n : Nat) : (s.zeroRange k n).adcs = s.adcs := rfl
@[simp] theorem State.ports_zeroRange (s : State) (k n : Nat) : (s.zeroRange k n).ports = s.ports := rfl
@[simp] theorem State.keep_zeroRange (s : State) (k n : Nat) : (s.zeroRange k n).keep = s.keep := rfl
@[simp] theorem State.out_zeroRange (s : State) (k n : Nat) : (s.zeroRange k n).out = s.out := rfl
@[simp] theorem State.evtRise_zeroRange (s : State) (k n : Nat) : (s.zeroRange k n).evtRise = s.evtRise := rfl
@[simp] theorem State.wears_zeroRange (s : State) (k n : Nat) : (s.zeroRange k n).wears = s.wears := rfl
@[simp] theorem State.resv_zeroRange (s : State) (k n : Nat) : (s.zeroRange k n).resv = s.resv := rfl
@[simp] theorem State.slewNext_zeroRange (s : State) (k n : Nat) : (s.zeroRange k n).slewNext = s.slewNext := rfl
@[simp] theorem State.syncDue_zeroRange (s : State) (k n : Nat) : (s.zeroRange k n).syncDue = s.syncDue := rfl
@[simp] theorem State.syncOut_zeroRange (s : State) (k n : Nat) : (s.zeroRange k n).syncOut = s.syncOut := rfl
@[simp] theorem State.alarms_zeroRange (s : State) (k n : Nat) : (s.zeroRange k n).alarms = s.alarms := rfl
@[simp] theorem State.dropped_zeroRange (s : State) (k n : Nat) : (s.zeroRange k n).dropped = s.dropped := rfl
@[simp] theorem State.scrub_zeroRange (s : State) (k n : Nat) : (s.zeroRange k n).scrub = s.scrub := rfl
@[simp] theorem State.imgFill_zeroRange (s : State) (k n : Nat) : (s.zeroRange k n).imgFill = s.imgFill := rfl
@[simp] theorem State.rel_zeroRange (s : State) (k n : Nat) : (s.zeroRange k n).rel = s.rel := rfl
@[simp] theorem State.dmas_zeroRange (s : State) (k n : Nat) : (s.zeroRange k n).dmas = s.dmas := rfl
@[simp] theorem State.dmaHold_zeroRange (s : State) (k n : Nat) : (s.zeroRange k n).dmaHold = s.dmaHold := rfl
@[simp] theorem State.mcs_zeroRange (s : State) (k n : Nat) : (s.zeroRange k n).mcs = s.mcs := rfl
@[simp] theorem State.cores_zeroRange (s : State) (k n : Nat) : (s.zeroRange k n).cores = s.cores := rfl
@[simp] theorem State.dmaFree_zeroRange (s : State) (k n : Nat) : (s.zeroRange k n).dmaFree = s.dmaFree := rfl
@[simp] theorem State.pwr_zeroRange (s : State) (k n : Nat) : (s.zeroRange k n).pwr = s.pwr := rfl
@[simp] theorem State.rings_zeroRange (s : State) (k n : Nat) : (s.zeroRange k n).rings = s.rings := rfl
@[simp] theorem State.outFell_zeroRange (s : State) (k n : Nat) : (s.zeroRange k n).outFell = s.outFell := rfl
@[simp] theorem State.latchTick_zeroRange (s : State) (k n : Nat) : (s.zeroRange k n).latchTick = s.latchTick := rfl
@[simp] theorem State.towRx_zeroRange (s : State) (k n : Nat) : (s.zeroRange k n).towRx = s.towRx := rfl

@[simp] theorem State.pending_atTick (s : State) (t : Nat) : (s.atTick t).pending = s.pending := by
  unfold State.atTick; split <;> rfl
@[simp] theorem State.free_atTick (s : State) (t : Nat) : (s.atTick t).free = s.free := by
  unfold State.atTick; split <;> rfl
@[simp] theorem State.regs_atTick (s : State) (t : Nat) : (s.atTick t).regs = s.regs := by
  unfold State.atTick; split <;> rfl
@[simp] theorem State.hold_atTick (s : State) (t : Nat) : (s.atTick t).hold = s.hold := by
  unfold State.atTick; split <;> rfl
@[simp] theorem State.mem_atTick (s : State) (t : Nat) : (s.atTick t).mem = s.mem := by
  unfold State.atTick; split <;> rfl
@[simp] theorem State.lanes_atTick (s : State) (t : Nat) : (s.atTick t).lanes = s.lanes := by
  unfold State.atTick; split <;> rfl
@[simp] theorem State.fcs_atTick (s : State) (t : Nat) : (s.atTick t).fcs = s.fcs := by
  unfold State.atTick; split <;> rfl
@[simp] theorem State.slots_atTick (s : State) (t : Nat) : (s.atTick t).slots = s.slots := by
  unfold State.atTick; split <;> rfl
@[simp] theorem State.cmps_atTick (s : State) (t : Nat) : (s.atTick t).cmps = s.cmps := by
  unfold State.atTick; split <;> rfl
@[simp] theorem State.tripOut_atTick (s : State) (t : Nat) : (s.atTick t).tripOut = s.tripOut := by
  unfold State.atTick; split <;> rfl
@[simp] theorem State.staged_atTick (s : State) (t : Nat) : (s.atTick t).staged = s.staged := by
  unfold State.atTick; split <;> rfl
@[simp] theorem State.pwms_atTick (s : State) (t : Nat) : (s.atTick t).pwms = s.pwms := by
  unfold State.atTick; split <;> rfl
@[simp] theorem State.towIn_atTick (s : State) (t : Nat) : (s.atTick t).towIn = s.towIn := by
  unfold State.atTick; split <;> rfl
@[simp] theorem State.towOut_atTick (s : State) (t : Nat) : (s.atTick t).towOut = s.towOut := by
  unfold State.atTick; split <;> rfl
@[simp] theorem State.safePinExt_atTick (s : State) (t : Nat) : (s.atTick t).safePinExt = s.safePinExt := by
  unfold State.atTick; split <;> rfl
@[simp] theorem State.safeDriven_atTick (s : State) (t : Nat) : (s.atTick t).safeDriven = s.safeDriven := by
  unfold State.atTick; split <;> rfl
@[simp] theorem State.irq_atTick (s : State) (t : Nat) : (s.atTick t).irq = s.irq := by
  unfold State.atTick; split <;> rfl
@[simp] theorem State.hubq_atTick (s : State) (t : Nat) : (s.atTick t).hubq = s.hubq := by
  unfold State.atTick; split <;> rfl
@[simp] theorem State.banks_atTick (s : State) (t : Nat) : (s.atTick t).banks = s.banks := by
  unfold State.atTick; split <;> rfl
@[simp] theorem State.cs_atTick (s : State) (t : Nat) : (s.atTick t).cs = s.cs := by
  unfold State.atTick; split <;> rfl
@[simp] theorem State.adcs_atTick (s : State) (t : Nat) : (s.atTick t).adcs = s.adcs := by
  unfold State.atTick; split <;> rfl
@[simp] theorem State.ports_atTick (s : State) (t : Nat) : (s.atTick t).ports = s.ports := by
  unfold State.atTick; split <;> rfl
@[simp] theorem State.keep_atTick (s : State) (t : Nat) : (s.atTick t).keep = s.keep := by
  unfold State.atTick; split <;> rfl
@[simp] theorem State.out_atTick (s : State) (t : Nat) : (s.atTick t).out = s.out := by
  unfold State.atTick; split <;> rfl
@[simp] theorem State.evtRise_atTick (s : State) (t : Nat) : (s.atTick t).evtRise = s.evtRise := by
  unfold State.atTick; split <;> rfl
@[simp] theorem State.wears_atTick (s : State) (t : Nat) : (s.atTick t).wears = s.wears := by
  unfold State.atTick; split <;> rfl
@[simp] theorem State.tags_atTick (s : State) (t : Nat) : (s.atTick t).tags = s.tags := by
  unfold State.atTick; split <;> rfl
@[simp] theorem State.ecc_atTick (s : State) (t : Nat) : (s.atTick t).ecc = s.ecc := by
  unfold State.atTick; split <;> rfl
@[simp] theorem State.resv_atTick (s : State) (t : Nat) : (s.atTick t).resv = s.resv := by
  unfold State.atTick; split <;> rfl
@[simp] theorem State.slewNext_atTick (s : State) (t : Nat) : (s.atTick t).slewNext = s.slewNext := by
  unfold State.atTick; split <;> rfl
@[simp] theorem State.syncDue_atTick (s : State) (t : Nat) : (s.atTick t).syncDue = s.syncDue := by
  unfold State.atTick; split <;> rfl
@[simp] theorem State.syncOut_atTick (s : State) (t : Nat) : (s.atTick t).syncOut = s.syncOut := by
  unfold State.atTick; split <;> rfl
@[simp] theorem State.alarms_atTick (s : State) (t : Nat) : (s.atTick t).alarms = s.alarms := by
  unfold State.atTick; split <;> rfl
@[simp] theorem State.dropped_atTick (s : State) (t : Nat) : (s.atTick t).dropped = s.dropped := by
  unfold State.atTick; split <;> rfl
@[simp] theorem State.scrub_atTick (s : State) (t : Nat) : (s.atTick t).scrub = s.scrub := by
  unfold State.atTick; split <;> rfl
@[simp] theorem State.imgFill_atTick (s : State) (t : Nat) : (s.atTick t).imgFill = s.imgFill := by
  unfold State.atTick; split <;> rfl
@[simp] theorem State.rel_atTick (s : State) (t : Nat) : (s.atTick t).rel = s.rel := by
  unfold State.atTick; split <;> rfl
@[simp] theorem State.dmas_atTick (s : State) (t : Nat) : (s.atTick t).dmas = s.dmas := by
  unfold State.atTick; split <;> rfl
@[simp] theorem State.dmaHold_atTick (s : State) (t : Nat) : (s.atTick t).dmaHold = s.dmaHold := by
  unfold State.atTick; split <;> rfl
@[simp] theorem State.mcs_atTick (s : State) (t : Nat) : (s.atTick t).mcs = s.mcs := by
  unfold State.atTick; split <;> rfl
@[simp] theorem State.cores_atTick (s : State) (t : Nat) : (s.atTick t).cores = s.cores := by
  unfold State.atTick; split <;> rfl
@[simp] theorem State.dmaFree_atTick (s : State) (t : Nat) : (s.atTick t).dmaFree = s.dmaFree := by
  unfold State.atTick; split <;> rfl
@[simp] theorem State.pwr_atTick (s : State) (t : Nat) : (s.atTick t).pwr = s.pwr := by
  unfold State.atTick; split <;> rfl
@[simp] theorem State.rings_atTick (s : State) (t : Nat) : (s.atTick t).rings = s.rings := by
  unfold State.atTick; split <;> rfl
@[simp] theorem State.outFell_atTick (s : State) (t : Nat) : (s.atTick t).outFell = s.outFell := by
  unfold State.atTick; split <;> rfl
@[simp] theorem State.latchTick_atTick (s : State) (t : Nat) : (s.atTick t).latchTick = s.latchTick := by
  unfold State.atTick; split <;> rfl
@[simp] theorem State.towRx_atTick (s : State) (t : Nat) : (s.atTick t).towRx = s.towRx := by
  unfold State.atTick; split <;> rfl

@[simp] theorem State.pending_atTs (s : State) (t : Nat) : (s.atTs t).pending = s.pending := by
  unfold State.atTs; split <;> rfl
@[simp] theorem State.free_atTs (s : State) (t : Nat) : (s.atTs t).free = s.free := by
  unfold State.atTs; split <;> rfl
@[simp] theorem State.regs_atTs (s : State) (t : Nat) : (s.atTs t).regs = s.regs := by
  unfold State.atTs; split <;> rfl
@[simp] theorem State.hold_atTs (s : State) (t : Nat) : (s.atTs t).hold = s.hold := by
  unfold State.atTs; split <;> rfl
@[simp] theorem State.mem_atTs (s : State) (t : Nat) : (s.atTs t).mem = s.mem := by
  unfold State.atTs; split <;> rfl
@[simp] theorem State.lanes_atTs (s : State) (t : Nat) : (s.atTs t).lanes = s.lanes := by
  unfold State.atTs; split <;> rfl
@[simp] theorem State.fcs_atTs (s : State) (t : Nat) : (s.atTs t).fcs = s.fcs := by
  unfold State.atTs; split <;> rfl
@[simp] theorem State.slots_atTs (s : State) (t : Nat) : (s.atTs t).slots = s.slots := by
  unfold State.atTs; split <;> rfl
@[simp] theorem State.cmps_atTs (s : State) (t : Nat) : (s.atTs t).cmps = s.cmps := by
  unfold State.atTs; split <;> rfl
@[simp] theorem State.tripOut_atTs (s : State) (t : Nat) : (s.atTs t).tripOut = s.tripOut := by
  unfold State.atTs; split <;> rfl
@[simp] theorem State.staged_atTs (s : State) (t : Nat) : (s.atTs t).staged = s.staged := by
  unfold State.atTs; split <;> rfl
@[simp] theorem State.pwms_atTs (s : State) (t : Nat) : (s.atTs t).pwms = s.pwms := by
  unfold State.atTs; split <;> rfl
@[simp] theorem State.towIn_atTs (s : State) (t : Nat) : (s.atTs t).towIn = s.towIn := by
  unfold State.atTs; split <;> rfl
@[simp] theorem State.towOut_atTs (s : State) (t : Nat) : (s.atTs t).towOut = s.towOut := by
  unfold State.atTs; split <;> rfl
@[simp] theorem State.safePinExt_atTs (s : State) (t : Nat) : (s.atTs t).safePinExt = s.safePinExt := by
  unfold State.atTs; split <;> rfl
@[simp] theorem State.safeDriven_atTs (s : State) (t : Nat) : (s.atTs t).safeDriven = s.safeDriven := by
  unfold State.atTs; split <;> rfl
@[simp] theorem State.irq_atTs (s : State) (t : Nat) : (s.atTs t).irq = s.irq := by
  unfold State.atTs; split <;> rfl
@[simp] theorem State.hubq_atTs (s : State) (t : Nat) : (s.atTs t).hubq = s.hubq := by
  unfold State.atTs; split <;> rfl
@[simp] theorem State.banks_atTs (s : State) (t : Nat) : (s.atTs t).banks = s.banks := by
  unfold State.atTs; split <;> rfl
@[simp] theorem State.cs_atTs (s : State) (t : Nat) : (s.atTs t).cs = s.cs := by
  unfold State.atTs; split <;> rfl
@[simp] theorem State.adcs_atTs (s : State) (t : Nat) : (s.atTs t).adcs = s.adcs := by
  unfold State.atTs; split <;> rfl
@[simp] theorem State.ports_atTs (s : State) (t : Nat) : (s.atTs t).ports = s.ports := by
  unfold State.atTs; split <;> rfl
@[simp] theorem State.keep_atTs (s : State) (t : Nat) : (s.atTs t).keep = s.keep := by
  unfold State.atTs; split <;> rfl
@[simp] theorem State.out_atTs (s : State) (t : Nat) : (s.atTs t).out = s.out := by
  unfold State.atTs; split <;> rfl
@[simp] theorem State.evtRise_atTs (s : State) (t : Nat) : (s.atTs t).evtRise = s.evtRise := by
  unfold State.atTs; split <;> rfl
@[simp] theorem State.wears_atTs (s : State) (t : Nat) : (s.atTs t).wears = s.wears := by
  unfold State.atTs; split <;> rfl
@[simp] theorem State.tags_atTs (s : State) (t : Nat) : (s.atTs t).tags = s.tags := by
  unfold State.atTs; split <;> rfl
@[simp] theorem State.ecc_atTs (s : State) (t : Nat) : (s.atTs t).ecc = s.ecc := by
  unfold State.atTs; split <;> rfl
@[simp] theorem State.resv_atTs (s : State) (t : Nat) : (s.atTs t).resv = s.resv := by
  unfold State.atTs; split <;> rfl
@[simp] theorem State.slewNext_atTs (s : State) (t : Nat) : (s.atTs t).slewNext = s.slewNext := by
  unfold State.atTs; split <;> rfl
@[simp] theorem State.syncDue_atTs (s : State) (t : Nat) : (s.atTs t).syncDue = s.syncDue := by
  unfold State.atTs; split <;> rfl
@[simp] theorem State.syncOut_atTs (s : State) (t : Nat) : (s.atTs t).syncOut = s.syncOut := by
  unfold State.atTs; split <;> rfl
@[simp] theorem State.alarms_atTs (s : State) (t : Nat) : (s.atTs t).alarms = s.alarms := by
  unfold State.atTs; split <;> rfl
@[simp] theorem State.dropped_atTs (s : State) (t : Nat) : (s.atTs t).dropped = s.dropped := by
  unfold State.atTs; split <;> rfl
@[simp] theorem State.scrub_atTs (s : State) (t : Nat) : (s.atTs t).scrub = s.scrub := by
  unfold State.atTs; split <;> rfl
@[simp] theorem State.imgFill_atTs (s : State) (t : Nat) : (s.atTs t).imgFill = s.imgFill := by
  unfold State.atTs; split <;> rfl
@[simp] theorem State.rel_atTs (s : State) (t : Nat) : (s.atTs t).rel = s.rel := by
  unfold State.atTs; split <;> rfl
@[simp] theorem State.dmas_atTs (s : State) (t : Nat) : (s.atTs t).dmas = s.dmas := by
  unfold State.atTs; split <;> rfl
@[simp] theorem State.dmaHold_atTs (s : State) (t : Nat) : (s.atTs t).dmaHold = s.dmaHold := by
  unfold State.atTs; split <;> rfl
@[simp] theorem State.mcs_atTs (s : State) (t : Nat) : (s.atTs t).mcs = s.mcs := by
  unfold State.atTs; split <;> rfl
@[simp] theorem State.cores_atTs (s : State) (t : Nat) : (s.atTs t).cores = s.cores := by
  unfold State.atTs; split <;> rfl
@[simp] theorem State.dmaFree_atTs (s : State) (t : Nat) : (s.atTs t).dmaFree = s.dmaFree := by
  unfold State.atTs; split <;> rfl
@[simp] theorem State.pwr_atTs (s : State) (t : Nat) : (s.atTs t).pwr = s.pwr := by
  unfold State.atTs; split <;> rfl
@[simp] theorem State.rings_atTs (s : State) (t : Nat) : (s.atTs t).rings = s.rings := by
  unfold State.atTs; split <;> rfl
@[simp] theorem State.outFell_atTs (s : State) (t : Nat) : (s.atTs t).outFell = s.outFell := by
  unfold State.atTs; split <;> rfl
@[simp] theorem State.latchTick_atTs (s : State) (t : Nat) : (s.atTs t).latchTick = s.latchTick := by
  unfold State.atTs; split <;> rfl
@[simp] theorem State.towRx_atTs (s : State) (t : Nat) : (s.atTs t).towRx = s.towRx := by
  unfold State.atTs; split <;> rfl

end Sys2Proof.Machine
end

