-- ==== Sys2Proof/Laws/Ops.lean ====
section
/-! SUPPORT. What each shared operation can do: raising events, letting time run, the trip matrix, replying, taking a command and
executing an instruction word. -/

namespace Sys2Proof.Machine

/-- Raising an event writes registers and puts records on their way, and does nothing else. -/
theorem State.raise_frame (s : State) (src code pay : Nat) :
    ∃ r h, s.raise src code pay = { s with regs := r, hubq := h } := by
  unfold State.raise
  refine forN_induct (fun t => ∃ r h, t = { s with regs := r, hubq := h }) 32 _ _ ?_ ?_
  · split <;> exact ⟨_, _, rfl⟩
  · rintro i - _ ⟨r, h, rfl⟩
    split <;> exact ⟨_, _, rfl⟩

theorem State.raiseIf_frame (s : State) (c : Bool) (src code pay : Nat) :
    ∃ r h, s.raiseIf c src code pay = { s with regs := r, hubq := h } := by
  unfold State.raiseIf
  split
  · exact s.raise_frame src code pay
  · exact ⟨_, _, rfl⟩

theorem State.flagOnce_frame (s : State) (a : Nat) (f : Fld) (src code pay : Nat) :
    ∃ r h, s.flagOnce a f src code pay = { s with regs := r, hubq := h } := by
  unfold State.flagOnce
  obtain ⟨r, h, e⟩ := (s.flag a f).raiseIf_frame (!s.bit a f) src code pay
  exact ⟨r, h, e⟩

@[simp] theorem State.pending_raise (s : State) (src code pay : Nat) : (s.raise src code pay).pending = s.pending := by
  obtain ⟨r, h, e⟩ := s.raise_frame src code pay; rw [e]
@[simp] theorem State.tick_raise (s : State) (src code pay : Nat) : (s.raise src code pay).tick = s.tick := by
  obtain ⟨r, h, e⟩ := s.raise_frame src code pay; rw [e]
@[simp] theorem State.ts_raise (s : State) (src code pay : Nat) : (s.raise src code pay).ts = s.ts := by
  obtain ⟨r, h, e⟩ := s.raise_frame src code pay; rw [e]
@[simp] theorem State.free_raise (s : State) (src code pay : Nat) : (s.raise src code pay).free = s.free := by
  obtain ⟨r, h, e⟩ := s.raise_frame src code pay; rw [e]
@[simp] theorem State.hold_raise (s : State) (src code pay : Nat) : (s.raise src code pay).hold = s.hold := by
  obtain ⟨r, h, e⟩ := s.raise_frame src code pay; rw [e]
@[simp] theorem State.mem_raise (s : State) (src code pay : Nat) : (s.raise src code pay).mem = s.mem := by
  obtain ⟨r, h, e⟩ := s.raise_frame src code pay; rw [e]
@[simp] theorem State.lanes_raise (s : State) (src code pay : Nat) : (s.raise src code pay).lanes = s.lanes := by
  obtain ⟨r, h, e⟩ := s.raise_frame src code pay; rw [e]
@[simp] theorem State.fcs_raise (s : State) (src code pay : Nat) : (s.raise src code pay).fcs = s.fcs := by
  obtain ⟨r, h, e⟩ := s.raise_frame src code pay; rw [e]
@[simp] theorem State.slots_raise (s : State) (src code pay : Nat) : (s.raise src code pay).slots = s.slots := by
  obtain ⟨r, h, e⟩ := s.raise_frame src code pay; rw [e]
@[simp] theorem State.cmps_raise (s : State) (src code pay : Nat) : (s.raise src code pay).cmps = s.cmps := by
  obtain ⟨r, h, e⟩ := s.raise_frame src code pay; rw [e]
@[simp] theorem State.tripOut_raise (s : State) (src code pay : Nat) : (s.raise src code pay).tripOut = s.tripOut := by
  obtain ⟨r, h, e⟩ := s.raise_frame src code pay; rw [e]
@[simp] theorem State.staged_raise (s : State) (src code pay : Nat) : (s.raise src code pay).staged = s.staged := by
  obtain ⟨r, h, e⟩ := s.raise_frame src code pay; rw [e]
@[simp] theorem State.pwms_raise (s : State) (src code pay : Nat) : (s.raise src code pay).pwms = s.pwms := by
  obtain ⟨r, h, e⟩ := s.raise_frame src code pay; rw [e]
@[simp] theorem State.towIn_raise (s : State) (src code pay : Nat) : (s.raise src code pay).towIn = s.towIn := by
  obtain ⟨r, h, e⟩ := s.raise_frame src code pay; rw [e]
@[simp] theorem State.towOut_raise (s : State) (src code pay : Nat) : (s.raise src code pay).towOut = s.towOut := by
  obtain ⟨r, h, e⟩ := s.raise_frame src code pay; rw [e]
@[simp] theorem State.safePinExt_raise (s : State) (src code pay : Nat) : (s.raise src code pay).safePinExt = s.safePinExt := by
  obtain ⟨r, h, e⟩ := s.raise_frame src code pay; rw [e]
@[simp] theorem State.safeDriven_raise (s : State) (src code pay : Nat) : (s.raise src code pay).safeDriven = s.safeDriven := by
  obtain ⟨r, h, e⟩ := s.raise_frame src code pay; rw [e]
@[simp] theorem State.irq_raise (s : State) (src code pay : Nat) : (s.raise src code pay).irq = s.irq := by
  obtain ⟨r, h, e⟩ := s.raise_frame src code pay; rw [e]
@[simp] theorem State.banks_raise (s : State) (src code pay : Nat) : (s.raise src code pay).banks = s.banks := by
  obtain ⟨r, h, e⟩ := s.raise_frame src code pay; rw [e]
@[simp] theorem State.cs_raise (s : State) (src code pay : Nat) : (s.raise src code pay).cs = s.cs := by
  obtain ⟨r, h, e⟩ := s.raise_frame src code pay; rw [e]
@[simp] theorem State.adcs_raise (s : State) (src code pay : Nat) : (s.raise src code pay).adcs = s.adcs := by
  obtain ⟨r, h, e⟩ := s.raise_frame src code pay; rw [e]
@[simp] theorem State.ports_raise (s : State) (src code pay : Nat) : (s.raise src code pay).ports = s.ports := by
  obtain ⟨r, h, e⟩ := s.raise_frame src code pay; rw [e]
@[simp] theorem State.keep_raise (s : State) (src code pay : Nat) : (s.raise src code pay).keep = s.keep := by
  obtain ⟨r, h, e⟩ := s.raise_frame src code pay; rw [e]
@[simp] theorem State.out_raise (s : State) (src code pay : Nat) : (s.raise src code pay).out = s.out := by
  obtain ⟨r, h, e⟩ := s.raise_frame src code pay; rw [e]
@[simp] theorem State.evtRise_raise (s : State) (src code pay : Nat) : (s.raise src code pay).evtRise = s.evtRise := by
  obtain ⟨r, h, e⟩ := s.raise_frame src code pay; rw [e]
@[simp] theorem State.wears_raise (s : State) (src code pay : Nat) : (s.raise src code pay).wears = s.wears := by
  obtain ⟨r, h, e⟩ := s.raise_frame src code pay; rw [e]
@[simp] theorem State.tags_raise (s : State) (src code pay : Nat) : (s.raise src code pay).tags = s.tags := by
  obtain ⟨r, h, e⟩ := s.raise_frame src code pay; rw [e]
@[simp] theorem State.ecc_raise (s : State) (src code pay : Nat) : (s.raise src code pay).ecc = s.ecc := by
  obtain ⟨r, h, e⟩ := s.raise_frame src code pay; rw [e]
@[simp] theorem State.resv_raise (s : State) (src code pay : Nat) : (s.raise src code pay).resv = s.resv := by
  obtain ⟨r, h, e⟩ := s.raise_frame src code pay; rw [e]
@[simp] theorem State.slewNext_raise (s : State) (src code pay : Nat) : (s.raise src code pay).slewNext = s.slewNext := by
  obtain ⟨r, h, e⟩ := s.raise_frame src code pay; rw [e]
@[simp] theorem State.syncDue_raise (s : State) (src code pay : Nat) : (s.raise src code pay).syncDue = s.syncDue := by
  obtain ⟨r, h, e⟩ := s.raise_frame src code pay; rw [e]
@[simp] theorem State.syncOut_raise (s : State) (src code pay : Nat) : (s.raise src code pay).syncOut = s.syncOut := by
  obtain ⟨r, h, e⟩ := s.raise_frame src code pay; rw [e]
@[simp] theorem State.alarms_raise (s : State) (src code pay : Nat) : (s.raise src code pay).alarms = s.alarms := by
  obtain ⟨r, h, e⟩ := s.raise_frame src code pay; rw [e]
@[simp] theorem State.dropped_raise (s : State) (src code pay : Nat) : (s.raise src code pay).dropped = s.dropped := by
  obtain ⟨r, h, e⟩ := s.raise_frame src code pay; rw [e]
@[simp] theorem State.scrub_raise (s : State) (src code pay : Nat) : (s.raise src code pay).scrub = s.scrub := by
  obtain ⟨r, h, e⟩ := s.raise_frame src code pay; rw [e]
@[simp] theorem State.imgFill_raise (s : State) (src code pay : Nat) : (s.raise src code pay).imgFill = s.imgFill := by
  obtain ⟨r, h, e⟩ := s.raise_frame src code pay; rw [e]
@[simp] theorem State.rel_raise (s : State) (src code pay : Nat) : (s.raise src code pay).rel = s.rel := by
  obtain ⟨r, h, e⟩ := s.raise_frame src code pay; rw [e]
@[simp] theorem State.dmas_raise (s : State) (src code pay : Nat) : (s.raise src code pay).dmas = s.dmas := by
  obtain ⟨r, h, e⟩ := s.raise_frame src code pay; rw [e]
@[simp] theorem State.dmaHold_raise (s : State) (src code pay : Nat) : (s.raise src code pay).dmaHold = s.dmaHold := by
  obtain ⟨r, h, e⟩ := s.raise_frame src code pay; rw [e]
@[simp] theorem State.mcs_raise (s : State) (src code pay : Nat) : (s.raise src code pay).mcs = s.mcs := by
  obtain ⟨r, h, e⟩ := s.raise_frame src code pay; rw [e]
@[simp] theorem State.cores_raise (s : State) (src code pay : Nat) : (s.raise src code pay).cores = s.cores := by
  obtain ⟨r, h, e⟩ := s.raise_frame src code pay; rw [e]
@[simp] theorem State.dmaFree_raise (s : State) (src code pay : Nat) : (s.raise src code pay).dmaFree = s.dmaFree := by
  obtain ⟨r, h, e⟩ := s.raise_frame src code pay; rw [e]
@[simp] theorem State.pwr_raise (s : State) (src code pay : Nat) : (s.raise src code pay).pwr = s.pwr := by
  obtain ⟨r, h, e⟩ := s.raise_frame src code pay; rw [e]
@[simp] theorem State.rings_raise (s : State) (src code pay : Nat) : (s.raise src code pay).rings = s.rings := by
  obtain ⟨r, h, e⟩ := s.raise_frame src code pay; rw [e]
@[simp] theorem State.outFell_raise (s : State) (src code pay : Nat) : (s.raise src code pay).outFell = s.outFell := by
  obtain ⟨r, h, e⟩ := s.raise_frame src code pay; rw [e]
@[simp] theorem State.latchTick_raise (s : State) (src code pay : Nat) : (s.raise src code pay).latchTick = s.latchTick := by
  obtain ⟨r, h, e⟩ := s.raise_frame src code pay; rw [e]
@[simp] theorem State.towRx_raise (s : State) (src code pay : Nat) : (s.raise src code pay).towRx = s.towRx := by
  obtain ⟨r, h, e⟩ := s.raise_frame src code pay; rw [e]

@[simp] theorem State.pending_raiseIf (s : State) (c : Bool) (src code pay : Nat) : (s.raiseIf c src code pay).pending = s.pending := by
  obtain ⟨r, h, e⟩ := s.raiseIf_frame c src code pay; rw [e]
@[simp] theorem State.tick_raiseIf (s : State) (c : Bool) (src code pay : Nat) : (s.raiseIf c src code pay).tick = s.tick := by
  obtain ⟨r, h, e⟩ := s.raiseIf_frame c src code pay; rw [e]
@[simp] theorem State.ts_raiseIf (s : State) (c : Bool) (src code pay : Nat) : (s.raiseIf c src code pay).ts = s.ts := by
  obtain ⟨r, h, e⟩ := s.raiseIf_frame c src code pay; rw [e]
@[simp] theorem State.free_raiseIf (s : State) (c : Bool) (src code pay : Nat) : (s.raiseIf c src code pay).free = s.free := by
  obtain ⟨r, h, e⟩ := s.raiseIf_frame c src code pay; rw [e]
@[simp] theorem State.hold_raiseIf (s : State) (c : Bool) (src code pay : Nat) : (s.raiseIf c src code pay).hold = s.hold := by
  obtain ⟨r, h, e⟩ := s.raiseIf_frame c src code pay; rw [e]
@[simp] theorem State.mem_raiseIf (s : State) (c : Bool) (src code pay : Nat) : (s.raiseIf c src code pay).mem = s.mem := by
  obtain ⟨r, h, e⟩ := s.raiseIf_frame c src code pay; rw [e]
@[simp] theorem State.lanes_raiseIf (s : State) (c : Bool) (src code pay : Nat) : (s.raiseIf c src code pay).lanes = s.lanes := by
  obtain ⟨r, h, e⟩ := s.raiseIf_frame c src code pay; rw [e]
@[simp] theorem State.fcs_raiseIf (s : State) (c : Bool) (src code pay : Nat) : (s.raiseIf c src code pay).fcs = s.fcs := by
  obtain ⟨r, h, e⟩ := s.raiseIf_frame c src code pay; rw [e]
@[simp] theorem State.slots_raiseIf (s : State) (c : Bool) (src code pay : Nat) : (s.raiseIf c src code pay).slots = s.slots := by
  obtain ⟨r, h, e⟩ := s.raiseIf_frame c src code pay; rw [e]
@[simp] theorem State.cmps_raiseIf (s : State) (c : Bool) (src code pay : Nat) : (s.raiseIf c src code pay).cmps = s.cmps := by
  obtain ⟨r, h, e⟩ := s.raiseIf_frame c src code pay; rw [e]
@[simp] theorem State.tripOut_raiseIf (s : State) (c : Bool) (src code pay : Nat) : (s.raiseIf c src code pay).tripOut = s.tripOut := by
  obtain ⟨r, h, e⟩ := s.raiseIf_frame c src code pay; rw [e]
@[simp] theorem State.staged_raiseIf (s : State) (c : Bool) (src code pay : Nat) : (s.raiseIf c src code pay).staged = s.staged := by
  obtain ⟨r, h, e⟩ := s.raiseIf_frame c src code pay; rw [e]
@[simp] theorem State.pwms_raiseIf (s : State) (c : Bool) (src code pay : Nat) : (s.raiseIf c src code pay).pwms = s.pwms := by
  obtain ⟨r, h, e⟩ := s.raiseIf_frame c src code pay; rw [e]
@[simp] theorem State.towIn_raiseIf (s : State) (c : Bool) (src code pay : Nat) : (s.raiseIf c src code pay).towIn = s.towIn := by
  obtain ⟨r, h, e⟩ := s.raiseIf_frame c src code pay; rw [e]
@[simp] theorem State.towOut_raiseIf (s : State) (c : Bool) (src code pay : Nat) : (s.raiseIf c src code pay).towOut = s.towOut := by
  obtain ⟨r, h, e⟩ := s.raiseIf_frame c src code pay; rw [e]
@[simp] theorem State.safePinExt_raiseIf (s : State) (c : Bool) (src code pay : Nat) : (s.raiseIf c src code pay).safePinExt = s.safePinExt := by
  obtain ⟨r, h, e⟩ := s.raiseIf_frame c src code pay; rw [e]
@[simp] theorem State.safeDriven_raiseIf (s : State) (c : Bool) (src code pay : Nat) : (s.raiseIf c src code pay).safeDriven = s.safeDriven := by
  obtain ⟨r, h, e⟩ := s.raiseIf_frame c src code pay; rw [e]
@[simp] theorem State.irq_raiseIf (s : State) (c : Bool) (src code pay : Nat) : (s.raiseIf c src code pay).irq = s.irq := by
  obtain ⟨r, h, e⟩ := s.raiseIf_frame c src code pay; rw [e]
@[simp] theorem State.banks_raiseIf (s : State) (c : Bool) (src code pay : Nat) : (s.raiseIf c src code pay).banks = s.banks := by
  obtain ⟨r, h, e⟩ := s.raiseIf_frame c src code pay; rw [e]
@[simp] theorem State.cs_raiseIf (s : State) (c : Bool) (src code pay : Nat) : (s.raiseIf c src code pay).cs = s.cs := by
  obtain ⟨r, h, e⟩ := s.raiseIf_frame c src code pay; rw [e]
@[simp] theorem State.adcs_raiseIf (s : State) (c : Bool) (src code pay : Nat) : (s.raiseIf c src code pay).adcs = s.adcs := by
  obtain ⟨r, h, e⟩ := s.raiseIf_frame c src code pay; rw [e]
@[simp] theorem State.ports_raiseIf (s : State) (c : Bool) (src code pay : Nat) : (s.raiseIf c src code pay).ports = s.ports := by
  obtain ⟨r, h, e⟩ := s.raiseIf_frame c src code pay; rw [e]
@[simp] theorem State.keep_raiseIf (s : State) (c : Bool) (src code pay : Nat) : (s.raiseIf c src code pay).keep = s.keep := by
  obtain ⟨r, h, e⟩ := s.raiseIf_frame c src code pay; rw [e]
@[simp] theorem State.out_raiseIf (s : State) (c : Bool) (src code pay : Nat) : (s.raiseIf c src code pay).out = s.out := by
  obtain ⟨r, h, e⟩ := s.raiseIf_frame c src code pay; rw [e]
@[simp] theorem State.evtRise_raiseIf (s : State) (c : Bool) (src code pay : Nat) : (s.raiseIf c src code pay).evtRise = s.evtRise := by
  obtain ⟨r, h, e⟩ := s.raiseIf_frame c src code pay; rw [e]
@[simp] theorem State.wears_raiseIf (s : State) (c : Bool) (src code pay : Nat) : (s.raiseIf c src code pay).wears = s.wears := by
  obtain ⟨r, h, e⟩ := s.raiseIf_frame c src code pay; rw [e]
@[simp] theorem State.tags_raiseIf (s : State) (c : Bool) (src code pay : Nat) : (s.raiseIf c src code pay).tags = s.tags := by
  obtain ⟨r, h, e⟩ := s.raiseIf_frame c src code pay; rw [e]
@[simp] theorem State.ecc_raiseIf (s : State) (c : Bool) (src code pay : Nat) : (s.raiseIf c src code pay).ecc = s.ecc := by
  obtain ⟨r, h, e⟩ := s.raiseIf_frame c src code pay; rw [e]
@[simp] theorem State.resv_raiseIf (s : State) (c : Bool) (src code pay : Nat) : (s.raiseIf c src code pay).resv = s.resv := by
  obtain ⟨r, h, e⟩ := s.raiseIf_frame c src code pay; rw [e]
@[simp] theorem State.slewNext_raiseIf (s : State) (c : Bool) (src code pay : Nat) : (s.raiseIf c src code pay).slewNext = s.slewNext := by
  obtain ⟨r, h, e⟩ := s.raiseIf_frame c src code pay; rw [e]
@[simp] theorem State.syncDue_raiseIf (s : State) (c : Bool) (src code pay : Nat) : (s.raiseIf c src code pay).syncDue = s.syncDue := by
  obtain ⟨r, h, e⟩ := s.raiseIf_frame c src code pay; rw [e]
@[simp] theorem State.syncOut_raiseIf (s : State) (c : Bool) (src code pay : Nat) : (s.raiseIf c src code pay).syncOut = s.syncOut := by
  obtain ⟨r, h, e⟩ := s.raiseIf_frame c src code pay; rw [e]
@[simp] theorem State.alarms_raiseIf (s : State) (c : Bool) (src code pay : Nat) : (s.raiseIf c src code pay).alarms = s.alarms := by
  obtain ⟨r, h, e⟩ := s.raiseIf_frame c src code pay; rw [e]
@[simp] theorem State.dropped_raiseIf (s : State) (c : Bool) (src code pay : Nat) : (s.raiseIf c src code pay).dropped = s.dropped := by
  obtain ⟨r, h, e⟩ := s.raiseIf_frame c src code pay; rw [e]
@[simp] theorem State.scrub_raiseIf (s : State) (c : Bool) (src code pay : Nat) : (s.raiseIf c src code pay).scrub = s.scrub := by
  obtain ⟨r, h, e⟩ := s.raiseIf_frame c src code pay; rw [e]
@[simp] theorem State.imgFill_raiseIf (s : State) (c : Bool) (src code pay : Nat) : (s.raiseIf c src code pay).imgFill = s.imgFill := by
  obtain ⟨r, h, e⟩ := s.raiseIf_frame c src code pay; rw [e]
@[simp] theorem State.rel_raiseIf (s : State) (c : Bool) (src code pay : Nat) : (s.raiseIf c src code pay).rel = s.rel := by
  obtain ⟨r, h, e⟩ := s.raiseIf_frame c src code pay; rw [e]
@[simp] theorem State.dmas_raiseIf (s : State) (c : Bool) (src code pay : Nat) : (s.raiseIf c src code pay).dmas = s.dmas := by
  obtain ⟨r, h, e⟩ := s.raiseIf_frame c src code pay; rw [e]
@[simp] theorem State.dmaHold_raiseIf (s : State) (c : Bool) (src code pay : Nat) : (s.raiseIf c src code pay).dmaHold = s.dmaHold := by
  obtain ⟨r, h, e⟩ := s.raiseIf_frame c src code pay; rw [e]
@[simp] theorem State.mcs_raiseIf (s : State) (c : Bool) (src code pay : Nat) : (s.raiseIf c src code pay).mcs = s.mcs := by
  obtain ⟨r, h, e⟩ := s.raiseIf_frame c src code pay; rw [e]
@[simp] theorem State.cores_raiseIf (s : State) (c : Bool) (src code pay : Nat) : (s.raiseIf c src code pay).cores = s.cores := by
  obtain ⟨r, h, e⟩ := s.raiseIf_frame c src code pay; rw [e]
@[simp] theorem State.dmaFree_raiseIf (s : State) (c : Bool) (src code pay : Nat) : (s.raiseIf c src code pay).dmaFree = s.dmaFree := by
  obtain ⟨r, h, e⟩ := s.raiseIf_frame c src code pay; rw [e]
@[simp] theorem State.pwr_raiseIf (s : State) (c : Bool) (src code pay : Nat) : (s.raiseIf c src code pay).pwr = s.pwr := by
  obtain ⟨r, h, e⟩ := s.raiseIf_frame c src code pay; rw [e]
@[simp] theorem State.rings_raiseIf (s : State) (c : Bool) (src code pay : Nat) : (s.raiseIf c src code pay).rings = s.rings := by
  obtain ⟨r, h, e⟩ := s.raiseIf_frame c src code pay; rw [e]
@[simp] theorem State.outFell_raiseIf (s : State) (c : Bool) (src code pay : Nat) : (s.raiseIf c src code pay).outFell = s.outFell := by
  obtain ⟨r, h, e⟩ := s.raiseIf_frame c src code pay; rw [e]
@[simp] theorem State.latchTick_raiseIf (s : State) (c : Bool) (src code pay : Nat) : (s.raiseIf c src code pay).latchTick = s.latchTick := by
  obtain ⟨r, h, e⟩ := s.raiseIf_frame c src code pay; rw [e]
@[simp] theorem State.towRx_raiseIf (s : State) (c : Bool) (src code pay : Nat) : (s.raiseIf c src code pay).towRx = s.towRx := by
  obtain ⟨r, h, e⟩ := s.raiseIf_frame c src code pay; rw [e]

@[simp] theorem State.pending_flagOnce (s : State) (a : Nat) (f : Fld) (src code pay : Nat) : (s.flagOnce a f src code pay).pending = s.pending := by
  obtain ⟨r, h, e⟩ := s.flagOnce_frame a f src code pay; rw [e]
@[simp] theorem State.tick_flagOnce (s : State) (a : Nat) (f : Fld) (src code pay : Nat) : (s.flagOnce a f src code pay).tick = s.tick := by
  obtain ⟨r, h, e⟩ := s.flagOnce_frame a f src code pay; rw [e]
@[simp] theorem State.ts_flagOnce (s : State) (a : Nat) (f : Fld) (src code pay : Nat) : (s.flagOnce a f src code pay).ts = s.ts := by
  obtain ⟨r, h, e⟩ := s.flagOnce_frame a f src code pay; rw [e]
@[simp] theorem State.free_flagOnce (s : State) (a : Nat) (f : Fld) (src code pay : Nat) : (s.flagOnce a f src code pay).free = s.free := by
  obtain ⟨r, h, e⟩ := s.flagOnce_frame a f src code pay; rw [e]
@[simp] theorem State.hold_flagOnce (s : State) (a : Nat) (f : Fld) (src code pay : Nat) : (s.flagOnce a f src code pay).hold = s.hold := by
  obtain ⟨r, h, e⟩ := s.flagOnce_frame a f src code pay; rw [e]
@[simp] theorem State.mem_flagOnce (s : State) (a : Nat) (f : Fld) (src code pay : Nat) : (s.flagOnce a f src code pay).mem = s.mem := by
  obtain ⟨r, h, e⟩ := s.flagOnce_frame a f src code pay; rw [e]
@[simp] theorem State.lanes_flagOnce (s : State) (a : Nat) (f : Fld) (src code pay : Nat) : (s.flagOnce a f src code pay).lanes = s.lanes := by
  obtain ⟨r, h, e⟩ := s.flagOnce_frame a f src code pay; rw [e]
@[simp] theorem State.fcs_flagOnce (s : State) (a : Nat) (f : Fld) (src code pay : Nat) : (s.flagOnce a f src code pay).fcs = s.fcs := by
  obtain ⟨r, h, e⟩ := s.flagOnce_frame a f src code pay; rw [e]
@[simp] theorem State.slots_flagOnce (s : State) (a : Nat) (f : Fld) (src code pay : Nat) : (s.flagOnce a f src code pay).slots = s.slots := by
  obtain ⟨r, h, e⟩ := s.flagOnce_frame a f src code pay; rw [e]
@[simp] theorem State.cmps_flagOnce (s : State) (a : Nat) (f : Fld) (src code pay : Nat) : (s.flagOnce a f src code pay).cmps = s.cmps := by
  obtain ⟨r, h, e⟩ := s.flagOnce_frame a f src code pay; rw [e]
@[simp] theorem State.tripOut_flagOnce (s : State) (a : Nat) (f : Fld) (src code pay : Nat) : (s.flagOnce a f src code pay).tripOut = s.tripOut := by
  obtain ⟨r, h, e⟩ := s.flagOnce_frame a f src code pay; rw [e]
@[simp] theorem State.staged_flagOnce (s : State) (a : Nat) (f : Fld) (src code pay : Nat) : (s.flagOnce a f src code pay).staged = s.staged := by
  obtain ⟨r, h, e⟩ := s.flagOnce_frame a f src code pay; rw [e]
@[simp] theorem State.pwms_flagOnce (s : State) (a : Nat) (f : Fld) (src code pay : Nat) : (s.flagOnce a f src code pay).pwms = s.pwms := by
  obtain ⟨r, h, e⟩ := s.flagOnce_frame a f src code pay; rw [e]
@[simp] theorem State.towIn_flagOnce (s : State) (a : Nat) (f : Fld) (src code pay : Nat) : (s.flagOnce a f src code pay).towIn = s.towIn := by
  obtain ⟨r, h, e⟩ := s.flagOnce_frame a f src code pay; rw [e]
@[simp] theorem State.towOut_flagOnce (s : State) (a : Nat) (f : Fld) (src code pay : Nat) : (s.flagOnce a f src code pay).towOut = s.towOut := by
  obtain ⟨r, h, e⟩ := s.flagOnce_frame a f src code pay; rw [e]
@[simp] theorem State.safePinExt_flagOnce (s : State) (a : Nat) (f : Fld) (src code pay : Nat) : (s.flagOnce a f src code pay).safePinExt = s.safePinExt := by
  obtain ⟨r, h, e⟩ := s.flagOnce_frame a f src code pay; rw [e]
@[simp] theorem State.safeDriven_flagOnce (s : State) (a : Nat) (f : Fld) (src code pay : Nat) : (s.flagOnce a f src code pay).safeDriven = s.safeDriven := by
  obtain ⟨r, h, e⟩ := s.flagOnce_frame a f src code pay; rw [e]
@[simp] theorem State.irq_flagOnce (s : State) (a : Nat) (f : Fld) (src code pay : Nat) : (s.flagOnce a f src code pay).irq = s.irq := by
  obtain ⟨r, h, e⟩ := s.flagOnce_frame a f src code pay; rw [e]
@[simp] theorem State.banks_flagOnce (s : State) (a : Nat) (f : Fld) (src code pay : Nat) : (s.flagOnce a f src code pay).banks = s.banks := by
  obtain ⟨r, h, e⟩ := s.flagOnce_frame a f src code pay; rw [e]
@[simp] theorem State.cs_flagOnce (s : State) (a : Nat) (f : Fld) (src code pay : Nat) : (s.flagOnce a f src code pay).cs = s.cs := by
  obtain ⟨r, h, e⟩ := s.flagOnce_frame a f src code pay; rw [e]
@[simp] theorem State.adcs_flagOnce (s : State) (a : Nat) (f : Fld) (src code pay : Nat) : (s.flagOnce a f src code pay).adcs = s.adcs := by
  obtain ⟨r, h, e⟩ := s.flagOnce_frame a f src code pay; rw [e]
@[simp] theorem State.ports_flagOnce (s : State) (a : Nat) (f : Fld) (src code pay : Nat) : (s.flagOnce a f src code pay).ports = s.ports := by
  obtain ⟨r, h, e⟩ := s.flagOnce_frame a f src code pay; rw [e]
@[simp] theorem State.keep_flagOnce (s : State) (a : Nat) (f : Fld) (src code pay : Nat) : (s.flagOnce a f src code pay).keep = s.keep := by
  obtain ⟨r, h, e⟩ := s.flagOnce_frame a f src code pay; rw [e]
@[simp] theorem State.out_flagOnce (s : State) (a : Nat) (f : Fld) (src code pay : Nat) : (s.flagOnce a f src code pay).out = s.out := by
  obtain ⟨r, h, e⟩ := s.flagOnce_frame a f src code pay; rw [e]
@[simp] theorem State.evtRise_flagOnce (s : State) (a : Nat) (f : Fld) (src code pay : Nat) : (s.flagOnce a f src code pay).evtRise = s.evtRise := by
  obtain ⟨r, h, e⟩ := s.flagOnce_frame a f src code pay; rw [e]
@[simp] theorem State.wears_flagOnce (s : State) (a : Nat) (f : Fld) (src code pay : Nat) : (s.flagOnce a f src code pay).wears = s.wears := by
  obtain ⟨r, h, e⟩ := s.flagOnce_frame a f src code pay; rw [e]
@[simp] theorem State.tags_flagOnce (s : State) (a : Nat) (f : Fld) (src code pay : Nat) : (s.flagOnce a f src code pay).tags = s.tags := by
  obtain ⟨r, h, e⟩ := s.flagOnce_frame a f src code pay; rw [e]
@[simp] theorem State.ecc_flagOnce (s : State) (a : Nat) (f : Fld) (src code pay : Nat) : (s.flagOnce a f src code pay).ecc = s.ecc := by
  obtain ⟨r, h, e⟩ := s.flagOnce_frame a f src code pay; rw [e]
@[simp] theorem State.resv_flagOnce (s : State) (a : Nat) (f : Fld) (src code pay : Nat) : (s.flagOnce a f src code pay).resv = s.resv := by
  obtain ⟨r, h, e⟩ := s.flagOnce_frame a f src code pay; rw [e]
@[simp] theorem State.slewNext_flagOnce (s : State) (a : Nat) (f : Fld) (src code pay : Nat) : (s.flagOnce a f src code pay).slewNext = s.slewNext := by
  obtain ⟨r, h, e⟩ := s.flagOnce_frame a f src code pay; rw [e]
@[simp] theorem State.syncDue_flagOnce (s : State) (a : Nat) (f : Fld) (src code pay : Nat) : (s.flagOnce a f src code pay).syncDue = s.syncDue := by
  obtain ⟨r, h, e⟩ := s.flagOnce_frame a f src code pay; rw [e]
@[simp] theorem State.syncOut_flagOnce (s : State) (a : Nat) (f : Fld) (src code pay : Nat) : (s.flagOnce a f src code pay).syncOut = s.syncOut := by
  obtain ⟨r, h, e⟩ := s.flagOnce_frame a f src code pay; rw [e]
@[simp] theorem State.alarms_flagOnce (s : State) (a : Nat) (f : Fld) (src code pay : Nat) : (s.flagOnce a f src code pay).alarms = s.alarms := by
  obtain ⟨r, h, e⟩ := s.flagOnce_frame a f src code pay; rw [e]
@[simp] theorem State.dropped_flagOnce (s : State) (a : Nat) (f : Fld) (src code pay : Nat) : (s.flagOnce a f src code pay).dropped = s.dropped := by
  obtain ⟨r, h, e⟩ := s.flagOnce_frame a f src code pay; rw [e]
@[simp] theorem State.scrub_flagOnce (s : State) (a : Nat) (f : Fld) (src code pay : Nat) : (s.flagOnce a f src code pay).scrub = s.scrub := by
  obtain ⟨r, h, e⟩ := s.flagOnce_frame a f src code pay; rw [e]
@[simp] theorem State.imgFill_flagOnce (s : State) (a : Nat) (f : Fld) (src code pay : Nat) : (s.flagOnce a f src code pay).imgFill = s.imgFill := by
  obtain ⟨r, h, e⟩ := s.flagOnce_frame a f src code pay; rw [e]
@[simp] theorem State.rel_flagOnce (s : State) (a : Nat) (f : Fld) (src code pay : Nat) : (s.flagOnce a f src code pay).rel = s.rel := by
  obtain ⟨r, h, e⟩ := s.flagOnce_frame a f src code pay; rw [e]
@[simp] theorem State.dmas_flagOnce (s : State) (a : Nat) (f : Fld) (src code pay : Nat) : (s.flagOnce a f src code pay).dmas = s.dmas := by
  obtain ⟨r, h, e⟩ := s.flagOnce_frame a f src code pay; rw [e]
@[simp] theorem State.dmaHold_flagOnce (s : State) (a : Nat) (f : Fld) (src code pay : Nat) : (s.flagOnce a f src code pay).dmaHold = s.dmaHold := by
  obtain ⟨r, h, e⟩ := s.flagOnce_frame a f src code pay; rw [e]
@[simp] theorem State.mcs_flagOnce (s : State) (a : Nat) (f : Fld) (src code pay : Nat) : (s.flagOnce a f src code pay).mcs = s.mcs := by
  obtain ⟨r, h, e⟩ := s.flagOnce_frame a f src code pay; rw [e]
@[simp] theorem State.cores_flagOnce (s : State) (a : Nat) (f : Fld) (src code pay : Nat) : (s.flagOnce a f src code pay).cores = s.cores := by
  obtain ⟨r, h, e⟩ := s.flagOnce_frame a f src code pay; rw [e]
@[simp] theorem State.dmaFree_flagOnce (s : State) (a : Nat) (f : Fld) (src code pay : Nat) : (s.flagOnce a f src code pay).dmaFree = s.dmaFree := by
  obtain ⟨r, h, e⟩ := s.flagOnce_frame a f src code pay; rw [e]
@[simp] theorem State.pwr_flagOnce (s : State) (a : Nat) (f : Fld) (src code pay : Nat) : (s.flagOnce a f src code pay).pwr = s.pwr := by
  obtain ⟨r, h, e⟩ := s.flagOnce_frame a f src code pay; rw [e]
@[simp] theorem State.rings_flagOnce (s : State) (a : Nat) (f : Fld) (src code pay : Nat) : (s.flagOnce a f src code pay).rings = s.rings := by
  obtain ⟨r, h, e⟩ := s.flagOnce_frame a f src code pay; rw [e]
@[simp] theorem State.outFell_flagOnce (s : State) (a : Nat) (f : Fld) (src code pay : Nat) : (s.flagOnce a f src code pay).outFell = s.outFell := by
  obtain ⟨r, h, e⟩ := s.flagOnce_frame a f src code pay; rw [e]
@[simp] theorem State.latchTick_flagOnce (s : State) (a : Nat) (f : Fld) (src code pay : Nat) : (s.flagOnce a f src code pay).latchTick = s.latchTick := by
  obtain ⟨r, h, e⟩ := s.flagOnce_frame a f src code pay; rw [e]
@[simp] theorem State.towRx_flagOnce (s : State) (a : Nat) (f : Fld) (src code pay : Nat) : (s.flagOnce a f src code pay).towRx = s.towRx := by
  obtain ⟨r, h, e⟩ := s.flagOnce_frame a f src code pay; rw [e]

/-- The record that raising an event puts on its way: with the mask of the enabled queues of its route, or none where the mask
is empty (R334–R336). -/
theorem State.hubq_raise (s : State) (src code pay : Nat) :
    (s.raise src code pay).hubq =
      if s.routeOf src = 0 then s.hubq
      else s.hubq ++ [{ ts := s.ts, src := src, code := code, pay := pay % 2 ^ 32, queues := s.routeOf src,
                        slewing := s.rn Reg.TS_SLEW_LEFT != 0 }] := by
  unfold State.raise
  refine (forN_frame (fun t : State => t.hubq) 32 _ _ ?_).trans ?_
  · intro i _ t
    split <;> rfl
  · split <;> rfl

/-- A queue is routed exactly where EVT_ROUTE names it and it is enabled. -/
theorem State.nbit_routeOf (s : State) (src q : Nat) (hq : q < 32) :
    nbit (s.routeOf src) q = (nbit (s.rn (Reg.EVT_ROUTE src)) q && s.bit (Reg.EVT_QCFG q) F.EVT_QCFG_EN) := by
  unfold State.routeOf
  rw [nbit_forN_mask (fun q => nbit (s.rn (Reg.EVT_ROUTE src)) q && s.bit (Reg.EVT_QCFG q) F.EVT_QCFG_EN)]
  simp [hq]

/-- Raising an event leaves every register but the generation counters. -/
theorem State.rg_raise (s : State) (src code pay a : Nat) (h : ∀ q < 32, a ≠ Reg.EVT_QGEN q) :
    (s.raise src code pay).rg a = s.rg a := by
  unfold State.raise
  refine (forN_frame (fun t : State => t.rg a) 32 _ _ ?_).trans ?_
  · intro i hi t
    split
    · exact t.rg_wr_ne _ (h i hi)
    · rfl
  · split <;> rfl

/-- The generation counter of a routed queue counts, that of another stays. -/
theorem State.rg_raise_gen (s : State) (src code pay q : Nat) (hq : q < 32) :
    (s.raise src code pay).rg (Reg.EVT_QGEN q) =
      if nbit (s.routeOf src) q then s.rg (Reg.EVT_QGEN q) + 1 else s.rg (Reg.EVT_QGEN q) := by
  have hne : ∀ {i j : Nat}, i ≠ j → Reg.EVT_QGEN i ≠ Reg.EVT_QGEN j := by
    intro i j hij he
    unfold Reg.EVT_QGEN at he
    omega
  have key : ∀ (m : Nat) (n : Nat) (s0 : State),
      (forN n (fun q s => if nbit m q then s.wr (Reg.EVT_QGEN q) (s.rg (Reg.EVT_QGEN q) + 1) else s) s0).rg (Reg.EVT_QGEN q) =
        if q < n ∧ nbit m q = true then s0.rg (Reg.EVT_QGEN q) + 1 else s0.rg (Reg.EVT_QGEN q) := by
    intro m n s0
    induction n with
    | zero => simp
    | succ n ih =>
      rw [forN_succ]
      by_cases hn : n = q
      · subst hn
        have h0 : ¬ (n < n ∧ nbit m n = true) := by omega
        rw [if_neg h0] at ih
        by_cases hm : nbit m n = true
        · rw [if_pos hm, State.rg_wr_self, ih, if_pos ⟨Nat.lt_succ_self n, hm⟩]
        · rw [if_neg hm, ih, if_neg (fun h => hm h.2)]
      · have heq : (q < n + 1 ∧ nbit m q = true) ↔ (q < n ∧ nbit m q = true) := by
          constructor
          · rintro ⟨h1, h2⟩
            exact ⟨by omega, h2⟩
          · rintro ⟨h1, h2⟩
            exact ⟨by omega, h2⟩
        simp only [heq]
        rw [← ih]
        split
        · exact State.rg_wr_ne _ _ (hne (Ne.symm hn))
        · rfl
  unfold State.raise
  dsimp only
  rw [key]
  by_cases h0 : s.routeOf src = 0
  · simp [h0, hq]
  · simp only [h0, if_false, hq, true_and]
    rfl

/-- Time runs to a tick that lies ahead, and stands still otherwise. -/
theorem State.tick_atTick (s : State) (t : Nat) : (s.atTick t).tick = max s.tick t := by
  unfold State.atTick
  split
  · show t = max s.tick t
    omega
  · omega

theorem State.ts_atTick (s : State) (t : Nat) (h : s.ts < 2 ^ 64) : (s.atTick t).ts = (s.ts + (t - s.tick)) % 2 ^ 64 := by
  unfold State.atTick
  split
  · rfl
  · have : t - s.tick = 0 := by omega
    rw [this, Nat.add_zero, Nat.mod_eq_of_lt h]

theorem State.ts_atTick_lt (s : State) (t : Nat) (h : s.ts < 2 ^ 64) : (s.atTick t).ts < 2 ^ 64 := by
  rw [s.ts_atTick t h]
  exact Nat.mod_lt _ (by decide)

theorem State.ts_atTs_lt (s : State) (t : Nat) (h : s.ts < 2 ^ 64) : (s.atTs t).ts < 2 ^ 64 := by
  unfold State.atTs
  split
  · exact Nat.mod_lt _ (by decide)
  · exact h

@[simp] theorem State.rg_atTick (s : State) (t a : Nat) : (s.atTick t).rg a = s.rg a := State.rg_congr (s.regs_atTick t) a

@[simp] theorem State.rg_atTs (s : State) (t a : Nat) : (s.atTs t).rg a = s.rg a := State.rg_congr (s.regs_atTs t) a

/-- A step on an empty queue is one tick. -/
theorem idle_tick (s : State) : s.idle.tick = s.tick + 1 := by
  rw [State.idle, State.tick_atTick]
  omega

/-- A group that latches marks the flights that it maps (R170). -/
theorem State.noteTrip_frame (s : State) (g : Nat) : ∃ y, s.noteTrip g = { s with slots := y } := by
  unfold State.noteTrip
  generalize (s.boundSlots.filter _) = l
  induction l generalizing s with
  | nil => exact ⟨_, rfl⟩
  | cons x r ih => exact (ih (s.mapSlot x.1 x.2 fun y => { y with tripPend := true })).imp fun y e => e

theorem State.showLatch_frame (s : State) (g first : Nat) : ∃ r h, s.showLatch g first = { s with regs := r, hubq := h } := by
  unfold State.showLatch
  dsimp only
  exact State.raise_frame _ _ _ _ |>.imp fun r h => h.imp fun q e => e

/-- Latching a group writes registers, marks flights, notes the tick and puts a record on its way (R170, R171). -/
theorem State.latchGroup_frame (s : State) (g : Nat) :
    ∃ r h y l, s.latchGroup g = { s with regs := r, hubq := h, slots := y, latchTick := l } := by
  unfold State.latchGroup
  obtain ⟨y, e⟩ := State.noteTrip_frame { s with latchTick := tput s.latchTick g s.tick } g
  rw [e]
  obtain ⟨r, h, e⟩ := State.showLatch_frame { s with latchTick := tput s.latchTick g s.tick, slots := y } g (s.firstOf g)
  exact ⟨r, h, y, _, e⟩

/-- An edge of a pair starts blanking intervals, and nothing else (R164). -/
theorem State.blankFrom_frame (s : State) (k : Nat) : ∃ c, s.blankFrom k = { s with cmps := c } := by
  unfold State.blankFrom
  refine forN_induct (fun t => ∃ c, t = { s with cmps := c }) 128 _ s ⟨s.cmps, rfl⟩ ?_
  rintro i - _ ⟨c, rfl⟩
  split <;> exact ⟨_, rfl⟩

theorem State.setOut_frame (s : State) (k : Nat) (a b : Bool) : ∃ c p, s.setOut k a b = { s with cmps := c, pwms := p } := by
  unfold State.setOut
  dsimp only
  split
  · exact ⟨s.cmps, _, rfl⟩
  · obtain ⟨c, e⟩ := State.blankFrom_frame (s.mapPwm k fun x => { x with outA := a, outB := b }) k
    exact ⟨c, _, e⟩

theorem State.pwmMakeSafe_frame (s : State) (k : Nat) :
    ∃ r c p, s.pwmMakeSafe k = { s with regs := r, cmps := c, pwms := p } := by
  unfold State.pwmMakeSafe
  dsimp only
  obtain ⟨c, p, e⟩ := s.setOut_frame k (s.bit (Reg.PWM_CTRL k) F.PWM_CTRL_SAFE_A) (s.bit (Reg.PWM_CTRL k) F.PWM_CTRL_SAFE_B)
  rw [e]
  exact ⟨_, c, _, rfl⟩

/-- Refreshing what derives from the latches touches registers, pulse-width pairs and their blanking alone (R171, R174). -/
theorem State.sluRefresh_frame (s : State) : ∃ r c p, s.sluRefresh = { s with regs := r, cmps := c, pwms := p } := by
  unfold State.sluRefresh
  dsimp only
  refine forN_induct (fun t => ∃ r c p, t = { s with regs := r, cmps := c, pwms := p }) 32 _ _ ?_ ?_
  · have key : ∃ r, forN 32 (fun g t => State.sb t (Reg.SLU_GSTAT g) F.SLU_GSTAT_SRC_ACTIVE (t.groupMask g &&& s.activeMask != 0)) s =
        { s with regs := r } :=
      forN_induct (fun t => ∃ r, t = { s with regs := r }) 32 _ s ⟨_, rfl⟩ (by rintro i - _ ⟨r, rfl⟩; exact ⟨_, rfl⟩)
    obtain ⟨r, e⟩ := key
    rw [e]
    exact ⟨_, _, _, rfl⟩
  · rintro i - _ ⟨r, c, p, rfl⟩
    split
    · obtain ⟨r', c', p', e⟩ := State.pwmMakeSafe_frame { s with regs := r, cmps := c, pwms := p } i
      exact ⟨r', c', p', e⟩
    · exact ⟨_, _, _, rfl⟩

theorem State.sluEval_frame (s : State) :
    ∃ r h y l c p, s.sluEval = { s with regs := r, hubq := h, slots := y, latchTick := l, cmps := c, pwms := p } := by
  unfold State.sluEval
  obtain ⟨r, h, y, l, e⟩ := forN_induct (fun t => ∃ r h y l, t = { s with regs := r, hubq := h, slots := y, latchTick := l }) 32
    (fun g s => if s.bit (Reg.SLU_GCFG g) F.SLU_GCFG_EN && !s.latched g && (s.groupMask g &&& s.tripOut != 0) then s.latchGroup g
      else s) s ⟨_, _, _, _, rfl⟩ (by
      rintro i - _ ⟨r, h, y, l, rfl⟩
      dsimp only
      split
      · obtain ⟨r', h', y', l', e⟩ := State.latchGroup_frame { s with regs := r, hubq := h, slots := y, latchTick := l } i
        exact ⟨r', h', y', l', e⟩
      · exact ⟨_, _, _, _, rfl⟩)
  rw [e]
  obtain ⟨r', c, p, e'⟩ := State.sluRefresh_frame { s with regs := r, hubq := h, slots := y, latchTick := l }
  exact ⟨r', h, y, l, c, p, e'⟩

/-- A trip output that moves may name itself in the record of a latch of the same tick, and notes when it falls (R171). -/
theorem State.setTrip_frame (s : State) (k : Nat) (out : Bool) :
    ∃ r h o, s.setTrip k out = { s with regs := r, hubq := h, tripOut := (s.setTrip k out).tripOut, outFell := o } := by
  unfold State.setTrip
  split
  · exact ⟨_, _, _, rfl⟩
  · split
    · obtain ⟨r, h, e⟩ := forN_induct (fun t => ∃ r h, t = { s with regs := r, hubq := h, tripOut := setBit s.tripOut k true }) 32
        (fun g s => s.reviseFirst g k) { s with tripOut := setBit s.tripOut k true } ⟨_, _, rfl⟩ (by
        rintro i - _ ⟨r, h, rfl⟩
        unfold State.reviseFirst
        dsimp only
        split <;> exact ⟨_, _, rfl⟩)
      rw [e]
      exact ⟨r, h, s.outFell, rfl⟩
    · exact ⟨_, _, _, rfl⟩

/-- A source that changes touches registers, records, flights, comparators, pairs and the trip outputs alone (R167). -/
theorem State.setSource_frame (s : State) (k : Nat) (act out : Bool) :
    ∃ r h y l c p t o, s.setSource k act out =
      { s with regs := r, hubq := h, slots := y, latchTick := l, cmps := c, pwms := p, tripOut := t, outFell := o } := by
  unfold State.setSource
  dsimp only
  obtain ⟨r, h, o, e⟩ := State.setTrip_frame (s.wr (Reg.SLU_SRC_ACT (k / 32)) (BitVec.ofNat 32
    (setBit (s.rn (Reg.SLU_SRC_ACT (k / 32))) (k % 32) act))) k out
  rw [e]
  obtain ⟨r, h, y, l, c, p, e⟩ := State.sluEval_frame _
  exact ⟨r, h, y, l, c, p, _, _, e⟩

/-- A reply touches the port's registers and its outbox alone (R346, R353, R359). -/
theorem State.replyTo_frame (s : State) (e : Entry) (live devref : Bool) (status resx : Nat) (res : List Nat) :
    ∃ r p, s.replyTo e live devref status resx res = { s with regs := r, ports := p } := by
  unfold State.replyTo
  split
  · exact ⟨_, _, rfl⟩
  · unfold State.pushReply
    split <;> exact ⟨_, _, rfl⟩

@[simp] theorem State.port_outFree (s : State) (p q : Nat) : (s.outFree p).port q = s.port q := rfl

/-- A reply that its port can take is the newest of its outbox. -/
theorem State.outbox_replyTo (s : State) (e : Entry) (devref : Bool) (status resx : Nat) (res : List Nat)
    (h : (s.port e.port).d3 = false) :
    ∃ r : Reply, ((s.replyTo e true devref status resx res).port e.port).outbox = (s.port e.port).outbox ++ [r] ∧ r.tag = eTag e ∧
      r.op = eOp e ∧ r.status = status ∧ r.res = res := by
  refine ⟨{ cq := s.fld (Reg.HIF_SQCFG e.port e.sq) F.HIF_SQCFG_CQ, tag := eTag e, op := eOp e, status := status,
            state := s.stateByte e devref, sq := e.sq, resx := resx % 65536, ts := s.ts, res := res }, ?_, rfl, rfl, rfl, rfl⟩
  unfold State.replyTo State.pushReply
  simp only [Bool.not_true, Bool.false_eq_true, if_false, h]
  rw [State.port_outFree, State.port_mapPort_self]

/-- A command that passes the shared checks is carried out at once, without its inbox entry (R362, R363). -/
theorem State.take_accepted (op : Nat) (e : Entry) (body : Entry → State → State) (s : State) (h : Accepted op e s) :
    s.take op e body = body e (s.popEntry e) := by
  unfold State.take
  have h1 : (decide (eOp e ≠ op) || s.dev == 0 && !s.keep.romReady || s.pwr.inReset) = false := by
    have := h.rom
    have := h.op
    have := h.reset
    by_cases hd : s.dev = 0 <;> simp_all
  have h2 : ¬ 64 ≤ s.outstanding e.port := by
    have := h.room
    omega
  rw [if_neg (by rw [h1]; decide), h.keeper, h.check]
  dsimp only
  rw [if_neg (by simp), if_neg h.dev, if_neg h2, h.turn]
  rfl

/-- Taking an entry out of an inbox touches the ports alone. -/
theorem State.popEntry_frame (s : State) (e : Entry) : ∃ p, s.popEntry e = { s with ports := p } := ⟨_, rfl⟩

/-- An instruction that a pair fetches at a boundary is executed on the state at its fetch (R267). -/
theorem State.insn_fetches (p : Nat) (o : Op) (body : Word → State → Ends × State) (w : Word) (s s1 : State)
    (h : Fetches p o w s s1) :
    s.insn p o body =
      (body w (if o = .cx then s1 else s1.dropPend p)).2.finishInsn p (body w (if o = .cx then s1 else s1.dropPend p)).1 := by
  unfold State.insn
  rw [h.boundary, h.watchdog, h.fetch]
  dsimp only
  rw [if_neg (by decide), if_neg (by decide), if_pos h.op, h.line]

@[simp] theorem State.core_mapCore_self (s : State) (p : Nat) (f : CoreSt → CoreSt) : (s.mapCore p f).core p = f (s.core p) := by
  simp [State.core, State.mapCore]

theorem State.core_mapCore_ne (s : State) {p q : Nat} (f : CoreSt → CoreSt) (h : q ≠ p) : (s.mapCore p f).core q = s.core q := by
  simp [State.core, State.mapCore, tget_tput_ne _ _ _ h]

@[simp] theorem State.img_mapImg_self (s : State) (p : Nat) (f : CoreImg → CoreImg) : (s.mapImg p f).img p = f (s.img p) := by
  simp [State.img, State.mapImg]

theorem State.core_mapImg_ne (s : State) {p q : Nat} (f : CoreImg → CoreImg) (h : q ≠ p) : (s.mapImg p f).core q = s.core q :=
  s.core_mapCore_ne _ h

/-- A write of a g-register, read back: register 0 stays 0 (R213). -/
theorem State.gR_setG (s : State) (p d n : Nat) (v : Word) : (s.setG p d v).gR p n = upd0 (s.gR p) d v n := by
  unfold State.setG State.gR upd0
  by_cases hn : n = 0
  · simp [hn]
  · by_cases hd : d = 0
    · simp [hn, hd]
    · simp only [hn, hd, if_false]
      rw [State.img_mapImg_self]
      dsimp only
      rw [tget_tput]
      simp [hn]

theorem State.fR_setF (s : State) (p d n : Nat) (v : Word) : (s.setF p d v).fR p n = upd (s.fR p) d v n := by
  unfold State.setF State.fR upd
  rw [State.img_mapImg_self]
  exact tget_tput _ _ _ _ _

theorem State.cR_setC (s : State) (p d n : Nat) (v : Cap) : (s.setC p d v).cR p n = upd0 (s.cR p) d v n := by
  unfold State.setC State.cR upd0
  by_cases hn : n = 0
  · simp [hn]
  · by_cases hd : d = 0
    · simp [hn, hd]
    · simp only [hn, hd, if_false]
      rw [State.img_mapImg_self]
      dsimp only
      rw [tget_tput]
      simp [hn]

/-- Retiring an instruction touches the pairs alone (R242, R200). -/
theorem State.retire_frame (s : State) (p : Nat) (c : Cap) (cyc : Nat) : ∃ k, s.retire p c cyc = { s with cores := k } := by
  unfold State.retire
  dsimp only
  split <;> exact ⟨_, rfl⟩

end Sys2Proof.Machine
end

