-- ==== Sys2Proof/WellFormed.lean ====
section
/-! DEFINITION. When the operands of a command are what the part can meet: aligned addresses of words, entries of 64 bytes, lists of
the lengths that the spec gives. `exec` does not depend on it. -/

namespace Sys2Proof

/-- A command entry of R357: 64 bytes. -/
def Entry.wellFormed (e : Entry) : Bool := e.bytes.length == 64

/-- Whether the operands of a command are well formed. -/
def Instr.wellFormed : Instr → Bool
  | .registerWrite who addr _ => addr % 4 == 0 && (if who.val < 21 then decide (addr < 2 ^ 32) else decide (addr < 0x10000))
  | .holdingCopyRead addr => addr % 4 == 0 && decide (addr < 2 ^ 32)
  | .conversionComplete _ raw => decide (raw.length ≤ 96)
  | .upBarge _ _ groups => decide (groups.length ≤ 63)
  | .pathTestLevel _ codes => codes.length == 16
  | .sliceCheckDone _ raw => raw.length == 192
  | .entryFetch _ (some bytes) => bytes.length == 64
  | .bar2Read _ off len => decide (0 < len) && decide (off + len ≤ 0x10000000)
  | .otpRead bad => bad.all fun a => a % 4 == 0 && decide (0x78000000 ≤ a) && decide (a < 0x78010000)
  | .sensorSample temps => temps.length == 24
  | .lifeTick ages => ages.length == 8
  | .programKeyHash hash => hash.length == 32
  | .identify e => e.wellFormed
  | .loadFwChunk e => e.wellFormed
  | .authFw e => e.wellFormed
  | .startFw e => e.wellFormed
  | .getState e => e.wellFormed
  | .getSelftest e => e.wellFormed
  | .setTime e => e.wellFormed
  | .resetDevice e => e.wellFormed
  | .bindFlight e => e.wellFormed
  | .unbindFlight e => e.wellFormed
  | .setCellMap e => e.wellFormed
  | .setCellParams e => e.wellFormed
  | .bypassCell e => e.wellFormed
  | .loadObserver e => e.wellFormed
  | .swapCoeff e => e.wellFormed
  | .setReference e => e.wellFormed
  | .startFlight e => e.wellFormed
  | .stopFlight e => e.wellFormed
  | .holdFlight e => e.wellFormed
  | .setTripPolicy e => e.wellFormed
  | .clearTrip e => e.wellFormed
  | .setWindow e => e.wellFormed
  | .lockLimits e => e.wellFormed
  | .setUserCal e => e.wellFormed
  | .getFactoryCal e => e.wellFormed
  | .runPathTest e => e.wellFormed
  | .scrubRange e => e.wellFormed
  | .openStream e => e.wellFormed
  | .closeStream e => e.wellFormed
  | .getWear e => e.wellFormed
  | .setWearModel e => e.wellFormed
  | .rebaseLedger e => e.wellFormed
  | .takeOwnership e => e.wellFormed
  | .releaseOwnership e => e.wellFormed
  | .heartbeat e => e.wellFormed
  | .badOpcode e => e.wellFormed
  | _ => true

end Sys2Proof
end

