-- ==== Sys2Proof/Tests/Slice0.lean ====
section
/-! SUPPORT. Tests: a command of each check of well-formedness that fails it, words of the manual's encodings, worked examples of
the manual, and for every statement a state and operands that meet its hypotheses. -/

namespace Sys2Proof.Tests

set_option linter.unusedVariables false
set_option Elab.async false

open Sys2Proof.Machine

/-- The state after device reset, which the states of the tests are built from. -/
abbrev r : State := State.reset

/-- A bound flight of number 31 in slot `f` of FC `n`, of the four lanes from lane 0, in state `st`. -/
def flt (n f st : Nat) : State :=
  (r.wr (Reg.FC_FLT_CFG n f) 0x0004003F).sf (Reg.FC_FLT_STAT n f) F.FC_FLT_STAT_STATE st

/-- FC `n` cycles, and has had a sample instant. -/
def going (n : Nat) (s : State) : State :=
  ((s.sf (Reg.FC_CYC_STAT n) F.FC_CYC_STAT_RUNNING 1).sf (Reg.FC_CYC_CTRL n) F.FC_CYC_CTRL_RUN 1).mapFc n fun x =>
    { x with started := true }

/-- The device is OPERATIONAL and port HA owns it. -/
def owned (s : State) : State := (s.sf (Reg.HIF_DEVSTATE 0) F.HIF_DEVSTATE_STATE 2).sf (Reg.HIF_KOWN 0) F.HIF_KOWN_OWNER 1

/-- An entry of submission queue 0 of port HA: opcode, target, bytes 8 to 47, buffer length and what the buffer holds. -/
def cmd (op tgt : Nat) (par : List Byte) (len : Nat) (b : Option (List Byte)) : Entry :=
  { port := 0, sq := 0, buf := b,
    bytes := leBytes 4 (op + 0x70000) ++ leBytes 4 tgt ++ (par ++ List.replicate 40 0).take 40 ++ leBytes 8 (if len = 0 then 0 else 4096) ++
      leBytes 4 len ++ [0, 0, 0, 0] }

theorem accepted_of {op : Nat} {e : Entry} {s : State}
    (h : eOp e = op ∧ (s.dev = 0 → s.keep.romReady = true) ∧ s.pwr.inReset = false ∧ s.keeperOn = true ∧ s.precheck e = none ∧
      s.dev ≠ 4 ∧ s.outstanding e.port < 64 ∧ s.mustWait s.keep.waits e = false) : Accepted op e s :=
  ⟨h.1, h.2.1, h.2.2.1, h.2.2.2.1, h.2.2.2.2.1, h.2.2.2.2.2.1, h.2.2.2.2.2.2.1, h.2.2.2.2.2.2.2⟩

theorem fetches_of {p : Nat} {o : Op} {w : Word} {s : State}
    (h : s.atBoundary p = true ∧ (s.core p).wdPend = false ∧ ((s.toBoundary p).fetch p).1 = .inr w ∧ o.is w = true ∧
      s.lineNow p = none) : Fetches p o w s ((s.toBoundary p).fetch p).2 :=
  ⟨h.1, h.2.1, Prod.ext h.2.2.1 rfl, h.2.2.2.1, h.2.2.2.2⟩

/-- The CTRL reply of link 1023 for cycle 0 (R45, R46): TYPE 0x11, CYC 0, LINK 1023, every value 0, and the CRC of bytes 1 to 61. -/
def goodBarge : List Byte := [0, 0x11, 0, 0, 0xFF, 3] ++ List.replicate 56 0 ++ [0x92, 0x73]

theorem nowaits {P : Wait → Prop} {l : List Wait} (h : l = [] := by rfl) : ∀ w ∈ l, P w := by
  subst h; exact fun _ h => absurd h List.not_mem_nil

theorem nowrites (m : Nat) : (((r.sf (Reg.FC_CYC_CTRL 15) F.FC_CYC_CTRL_RUN 1).mapFc 15 fun x => { x with next := 1600 }).fc m).writes = [] := by
  by_cases h : m = 15
  · subst h; rfl
  · simp [State.fc, State.mapFc, tget_tput_ne _ _ _ h]; rfl

/-- Every reference is ready and every balancer store valid. -/
def ready (s : State) : State :=
  forN 16 (fun m s => s.wr (Reg.MCS_VMAPE m 2) 0xFF) (forN 20 (fun g s => s.sf (Reg.ADC_STAT g) F.ADC_STAT_REF_READY 1) s)

/-- A set of coefficients of 9,512 bytes that is whole and zero but for a SET_ID that makes its CRC 0 (R130). -/
def image : List Byte := [1, 1, 0, 0, 0xc5, 0x44] ++ List.replicate 9506 0

/-- Its program in the store: 96 words in pairs that issue nothing (R127). -/
def idleProgram : Tbl Nat := (List.range 48).map fun i => (csKey 15 1 (2 * i + 1), 64)

/-- A bound flight whose flight controller holds that program. -/
def observed : State := { owned ((flt 15 1 1).wr (Reg.MCS_VMAPE 15 1) 0xFFFF) with cs := idleProgram }

theorem leAt_image (o n : Nat) (h : 6 ≤ o) : leAt image o n = 0 := by
  have h0 : ∀ m : Nat, leNat (List.replicate m 0) = 0 := by
    intro m
    induction m with
    | zero => rfl
    | succ m ih =>
      rw [List.replicate_succ]
      show (0 : Byte).toNat + 256 * leNat (List.replicate m 0) = 0
      rw [ih]
      rfl
  unfold leAt image
  rw [List.drop_append, List.drop_eq_nil_of_le (by simpa using h), List.nil_append, List.drop_replicate, List.take_replicate, h0]

theorem crc_image : crc16 0xFFFF (image.take 9504) = 0 := by
  have h0 : ∀ m : Nat, List.foldl crc16Byte 0 (List.replicate m 0) = 0 := by
    intro m
    induction m with
    | zero => rfl
    | succ m ih =>
      rw [List.replicate_succ, List.foldl_cons]
      have : crc16Byte 0 0 = 0 := by decide
      rw [this, ih]
  unfold crc16 image
  rw [List.take_append, List.foldl_append, List.take_of_length_le (by simp), List.take_replicate]
  have : List.foldl crc16Byte 0xFFFF [1, 1, 0, 0, 0xc5, 0x44] = 0 := by decide +kernel
  rw [this, h0]

theorem image_ok : observed.imageOk (some (15, 1)) image = true := by
  have hp : observed.programOk 15 1 image true = true := by
    have h1 : imgU image 2 2 = 0 := by decide +kernel
    have h2 : setWhole image = true := by decide +kernel
    have h3 : ∀ r, ownsRow image 1 r = decide (r < 48) := by
      intro r
      unfold ownsRow owns
      rw [h2]
      simp only [Bool.true_or, Bool.and_true]
      split_ifs <;> simp <;> omega
    unfold State.programOk
    rw [h1, h2]
    simp only [h3]
    decide +kernel
  have h2 : setWhole image = true := by decide +kernel
  have ha : imgU image 0 1 = 1 := by decide +kernel
  have hb : imgU image 1 1 = 1 := by decide +kernel
  have hu : ∀ o n, 6 ≤ o → imgU image o n = 0 := leAt_image
  have hi : ∀ o, 6 ≤ o → imgI image o 1 = 0 := fun o h => by unfold imgI; rw [leAt_image _ _ h]; rfl
  unfold State.imageOk
  simp only [Option.map_some, crc_image, hp, ha, hb, owns, h2, ownsRow]
  simp (disch := omega) only [hu, hi]
  decide +kernel

theorem image_ok_going : (going 15 observed).imageOk (some (15, 1)) image = true := by
  have hp : (going 15 observed).programOk 15 1 image true = true := by
    have h1 : imgU image 2 2 = 0 := by decide +kernel
    have h2 : setWhole image = true := by decide +kernel
    have h3 : ∀ r, ownsRow image 1 r = decide (r < 48) := by
      intro r
      unfold ownsRow owns
      rw [h2]
      simp only [Bool.true_or, Bool.and_true]
      split_ifs <;> simp <;> omega
    unfold State.programOk
    rw [h1, h2]
    simp only [h3]
    decide +kernel
  have h2 : setWhole image = true := by decide +kernel
  have ha : imgU image 0 1 = 1 := by decide +kernel
  have hb : imgU image 1 1 = 1 := by decide +kernel
  have hu : ∀ o n, 6 ≤ o → imgU image o n = 0 := leAt_image
  have hi : ∀ o, 6 ≤ o → imgI image o 1 = 0 := fun o h => by unfold imgI; rw [leAt_image _ _ h]; rfl
  unfold State.imageOk
  simp only [Option.map_some, crc_image, hp, ha, hb, owns, h2, ownsRow]
  simp (disch := omega) only [hu, hi]
  decide +kernel

/-- Both ports are up and may send. -/
def linked (s : State) : State :=
  (s.mapPort 0 fun x => { x with up := true, bme := true }).mapPort 1 fun x => { x with up := true, bme := true }

/-- The digest registers of the Keeper's load port hold the SHA-256 of no bytes. -/
def emptyDigest (s : State) : State :=
  (([0x42C4B0E3, 0x141CFC98, 0xC8F4FB9A, 0x24B96F99, 0xE441AE27, 0x4C939B64, 0x1B9995A4, 0x55B85278].zipIdx).foldl
    (fun s e => s.wr (Reg.MCS_DIGEST 16 e.2) e.1) s)

/-- A descriptor of 2 elements of one byte from the first byte of the shared SRAM to its second 4 KiB. -/
def dmaDescr : List Byte :=
  leBytes 8 (capOver 0x40000000 0x2000 (pLoad + pStore + pGlobal) 0x40000000).w.toNat ++
    leBytes 8 (capOver 0x40000000 0x2000 (pLoad + pStore + pGlobal) 0x40001000).w.toNat ++ leBytes 4 2 ++ leBytes 4 0 ++
    leBytes 4 1 ++ leBytes 4 1 ++ List.replicate 32 0


/-- A device that has booted to the point where the boot ROM takes entries, with no key fused. -/
def boot : State := ((r.sf (Reg.HIF_DEVSTATE 0) F.HIF_DEVSTATE_DEVMODE 1).mapKeep fun k => { k with romReady := true })

/-- The 8 bytes 1 to 8. -/
def eight : List Byte := [1, 2, 3, 4, 5, 6, 7, 8]

/-- A package of version 7 (R378, R379) with one section of the given kind, unit and data of up to 64 bytes, its digest and the two halves of its signature
as numbers, under the P-256 key whose private half is 1. -/
def pack (kind unit : Nat) (d : List Byte) (dg sr ss : Nat) : List Byte :=
  let be := fun v => (leBytes 32 v).reverse
  leBytes 4 0x57464A45 ++ leBytes 2 1 ++ leBytes 2 1 ++ leBytes 4 448 ++ leBytes 4 7 ++ leBytes 4 0 ++ leBytes 2 0x0401 ++
    List.replicate 10 0 ++ be 0x6b17d1f2e12c4247f8bce6e563a440f277037d812deb33a0f4a13945d898c296 ++
    be 0x4fe342e2fe1a7f9b8ee7eb4a7c0f9e162bce33576b315ececbb6406837bf51f5 ++ List.replicate 160 0 ++
    [BitVec.ofNat 8 kind, BitVec.ofNat 8 unit] ++ leBytes 4 0 ++ [0, 0] ++ leBytes 4 320 ++ leBytes 4 d.length ++ be dg ++
    List.replicate 16 0 ++ (d ++ List.replicate 64 0).take 64 ++ be sr ++ be ss

/-- An image staged in full. -/
def staged (im : List Byte) (s : State) : State := (s.wrRun staging im).mapKeep fun k => { k with imgLen := im.length }

/-- The program section of 8 bytes with its SHA-256, and the signature of that package under the key above with nonce 1. -/
def goodPack : List Byte :=
  pack 0x01 20 eight 0x66840dda154e8a113c31dd0ad32f7f3a366a80e8136979d8f5a101d3d29d6f72
    0x6b17d1f2e12c4247f8bce6e563a440f277037d812deb33a0f4a13945d898c296 0x90baad105fd3fab79692b60c6dfe078c367c1c0cddb07e77abadc34f01e36ddc

/-- The same section with digest 0, signed. -/
def wrongDigest : List Byte :=
  pack 0x01 20 eight 0 0x6b17d1f2e12c4247f8bce6e563a440f277037d812deb33a0f4a13945d898c296
    0x82837f247cbf7335a580c3310446466fab5b5bf1570ae2e7d10aeda820c28d83

/-- A state of device state LOADED whose boot ROM has started a staged package. -/
def loaded (im : List Byte) : State := (staged im (boot.sf (Reg.HIF_DEVSTATE 0) F.HIF_DEVSTATE_STATE 1)).mapKeep fun k => { k with started := true }

/-- A record of pair 19's request ring that asks for a service and has not been served. -/
def asks (svc : Byte) : State := { owned r with mem := [(ringRec 19 15, svc), (ringRec 19 15 + 1, 1)] }

/-- A table of wear that SET_WEAR_MODEL takes (R394). -/
def wearTbl : List Byte := [1, 0, 0, 0] ++ List.replicate 40 0 ++ [1, 0, 1, 0, 0, 0, 1, 0] ++ List.replicate 4044 0

theorem wearTbl_ok : wearTblOk wearTbl = true := by
  have h0 : ∀ m : Nat, leNat (List.replicate m 0) = 0 := by
    intro m
    induction m with
    | zero => rfl
    | succ m ih =>
      rw [List.replicate_succ]
      show (0 : Byte).toNat + 256 * leNat (List.replicate m 0) = 0
      rw [ih]
      rfl
  have h1 : leAt wearTbl 1088 3008 = 0 := by
    unfold leAt wearTbl
    rw [List.drop_append, List.drop_eq_nil_of_le (by simp), List.nil_append, List.drop_replicate, List.take_replicate, h0]
  unfold wearTblOk
  rw [h1]
  decide +kernel

/-- A table of a register file from register `k` on. -/
def regsFrom {α : Type} (k : Nat) (l : List α) : Tbl α := (l.zipIdx k).map fun e => (e.2, e.1)

/-- A capability over the pair's DTCM at its offset `o`, with every permission but DEVICE. -/
def data (o : Nat) : Cap := capOver 0x10000000 0x40000 511 (0x10000000 + o)

/-- Pair 19 runs and stands at pc 0x100, where the word `w` stands; its registers from g1, f0 and c1 on, and the bytes of its DTCM from offset 0x40. -/
def pairAt (w : Word) (g f : List Word) (c : List Cap) (d : List Byte := []) : State :=
  let s := { (r.sf (Reg.GLV_STAT 19) F.GLV_STAT_STATE 0).mapImg 19 fun _ =>
    { resetImg 19 0x100 0 with g := regsFrom 1 g, f := regsFrom 0 f, c := regsFrom 1 c } with rel := [19] }
  (s.wrLe (itcm 19 0x100) 4 w.toNat).wrBytes (dtcm 19 0x40) d

/-- The capability of every handler in `vectored`. -/
def handler : Cap := capOver 0 0x40000 (pLoad + pExec) 0x400

/-- Pair 19 with a frame area below its DTCM offset 0x3F000, and vectors of exceptions and of lines 63 and 64. -/
def vectored : State :=
  ([0, 71, 72].foldl (fun s k => (s.wrLe (dtcm 19 (0x2000 + 8 * k)) 8 handler.w.toNat).setTag (dtcm 19 (0x2000 + 8 * k) / 8) true)
    (pairAt 0 [1, 2, 3, 4] [] [data 0, data 0x3F000])).mapImg 19 fun i => { i with cvt := data 0x2000 }

/-- Pair 19 at an ERET whose frame, with a tagged pcc, stands at offset 0x40 of its DTCM, or below cfs. -/
def frameAt (w : Word) (df : Bool) : State :=
  let s := pairAt w [] [] [data 0, data 0x40]
  let s := if df then s.setCr 19 0 0x10 else s
  let k := if df then faultRam 19 0x3C0 else dtcm 19 0x40
  (s.wrLe k 8 handler.w.toNat).setTag (k / 8) true

/-- The frame of a return passed its checks. -/
def returned {α : Type} : Sum (Nat × Nat × Nat) α → Bool
  | .inl _ => false
  | .inr _ => true

/-- States that meet the hypotheses of ComparatorAndPinCommandsSetFoAndQ, clause by clause. -/
theorem test_witness_ComparatorAndPinCommandsSetFoAndQ :
    (let s : State := r.sf (Reg.CMP_CFG 127) F.CMP_CFG_HI_EN 1
     let c : Fin 128 := 127
     let x : BitVec 16 := 0x7FFF
     s.pwr.inReset = false ∧
     s.filtOf c = 0 ∧
     (s.cmp c).settle = none ∧
     (s.cmp c).out = 0 ∧
     (s.cmp c).raw = false ∧
     s.bit (Reg.CMP_CFG c) F.CMP_CFG_HI_EN = true ∧
     16 * sx 12 (s.fld (Reg.CMP_THR c) F.CMP_THR_HIGH) < x.toInt) ∧
    (let s : State := (((r.wr (Reg.CMP_CFG 127) 3).wr (Reg.CMP_THR 127) 0).sf (Reg.CMP_FILT 127) F.CMP_FILT_HYST 0).mapCmp 127 fun x => { x with out := 0, raw := 0 != 0 }
     let c : Fin 128 := 127
     let x : BitVec 16 := 0x10
     let hi := 16 * sx 12 (s.fld (Reg.CMP_THR c) F.CMP_THR_HIGH)
     let lo := 16 * sx 12 (s.fld (Reg.CMP_THR c) F.CMP_THR_LOW)
     let h : Int := 16 * s.fld (Reg.CMP_FILT c) F.CMP_FILT_HYST
     let hen := s.bit (Reg.CMP_CFG c) F.CMP_CFG_HI_EN
     let len := s.bit (Reg.CMP_CFG c) F.CMP_CFG_LO_EN
     let v := x.toInt
     let o := (s.cmp c).out
     (s.pwr.inReset = false ∧ (s.cmp c).settle = none ∧ o = 0 ∧ hen = true ∧ hi < v)) ∧
    (let s : State := (((r.wr (Reg.CMP_CFG 127) 3).wr (Reg.CMP_THR 127) 0).sf (Reg.CMP_FILT 127) F.CMP_FILT_HYST 0).mapCmp 127 fun x => { x with out := 0, raw := 0 != 0 }
     let c : Fin 128 := 127
     let x : BitVec 16 := -1
     let hi := 16 * sx 12 (s.fld (Reg.CMP_THR c) F.CMP_THR_HIGH)
     let lo := 16 * sx 12 (s.fld (Reg.CMP_THR c) F.CMP_THR_LOW)
     let h : Int := 16 * s.fld (Reg.CMP_FILT c) F.CMP_FILT_HYST
     let hen := s.bit (Reg.CMP_CFG c) F.CMP_CFG_HI_EN
     let len := s.bit (Reg.CMP_CFG c) F.CMP_CFG_LO_EN
     let v := x.toInt
     let o := (s.cmp c).out
     (s.pwr.inReset = false ∧ (s.cmp c).settle = none ∧ o = 0 ∧ v ≤ hi ∧ len = true ∧ v < lo)) ∧
    (let s : State := (((r.wr (Reg.CMP_CFG 127) 3).wr (Reg.CMP_THR 127) 0).sf (Reg.CMP_FILT 127) F.CMP_FILT_HYST 1).mapCmp 127 fun x => { x with out := 1, raw := 1 != 0 }
     let c : Fin 128 := 127
     let x : BitVec 16 := -16
     let hi := 16 * sx 12 (s.fld (Reg.CMP_THR c) F.CMP_THR_HIGH)
     let lo := 16 * sx 12 (s.fld (Reg.CMP_THR c) F.CMP_THR_LOW)
     let h : Int := 16 * s.fld (Reg.CMP_FILT c) F.CMP_FILT_HYST
     let hen := s.bit (Reg.CMP_CFG c) F.CMP_CFG_HI_EN
     let len := s.bit (Reg.CMP_CFG c) F.CMP_CFG_LO_EN
     let v := x.toInt
     let o := (s.cmp c).out
     (s.pwr.inReset = false ∧ (s.cmp c).settle = none ∧ o = 1 ∧ hen = true ∧ hi - h ≤ v)) ∧
    (let s : State := (((r.wr (Reg.CMP_CFG 127) 3).wr (Reg.CMP_THR 127) 0).sf (Reg.CMP_FILT 127) F.CMP_FILT_HYST 1).mapCmp 127 fun x => { x with out := 2, raw := 2 != 0 }
     let c : Fin 128 := 127
     let x : BitVec 16 := 16
     let hi := 16 * sx 12 (s.fld (Reg.CMP_THR c) F.CMP_THR_HIGH)
     let lo := 16 * sx 12 (s.fld (Reg.CMP_THR c) F.CMP_THR_LOW)
     let h : Int := 16 * s.fld (Reg.CMP_FILT c) F.CMP_FILT_HYST
     let hen := s.bit (Reg.CMP_CFG c) F.CMP_CFG_HI_EN
     let len := s.bit (Reg.CMP_CFG c) F.CMP_CFG_LO_EN
     let v := x.toInt
     let o := (s.cmp c).out
     (s.pwr.inReset = false ∧ (s.cmp c).settle = none ∧ o = 2 ∧ len = true ∧ v ≤ lo + h)) ∧
    (let s : State := (((r.wr (Reg.CMP_CFG 127) 3).wr (Reg.CMP_THR 127) 0).sf (Reg.CMP_FILT 127) F.CMP_FILT_HYST 1).mapCmp 127 fun x => { x with out := 1, raw := 1 != 0 }
     let c : Fin 128 := 127
     let x : BitVec 16 := -17
     let hi := 16 * sx 12 (s.fld (Reg.CMP_THR c) F.CMP_THR_HIGH)
     let lo := 16 * sx 12 (s.fld (Reg.CMP_THR c) F.CMP_THR_LOW)
     let h : Int := 16 * s.fld (Reg.CMP_FILT c) F.CMP_FILT_HYST
     let hen := s.bit (Reg.CMP_CFG c) F.CMP_CFG_HI_EN
     let len := s.bit (Reg.CMP_CFG c) F.CMP_CFG_LO_EN
     let v := x.toInt
     let o := (s.cmp c).out
     (s.pwr.inReset = false ∧ (s.cmp c).settle = none ∧ o = 1 ∧ v < hi - h ∧ len = true)) ∧
    (let s : State := { r with pwr := { r.pwr with inReset := true } }
     let c : Fin 128 := 127
     let x : BitVec 16 := -17
     let hi := 16 * sx 12 (s.fld (Reg.CMP_THR c) F.CMP_THR_HIGH)
     let lo := 16 * sx 12 (s.fld (Reg.CMP_THR c) F.CMP_THR_LOW)
     let h : Int := 16 * s.fld (Reg.CMP_FILT c) F.CMP_FILT_HYST
     let hen := s.bit (Reg.CMP_CFG c) F.CMP_CFG_HI_EN
     let len := s.bit (Reg.CMP_CFG c) F.CMP_CFG_LO_EN
     let v := x.toInt
     let o := (s.cmp c).out
     s.pwr.inReset = true) ∧
    (let s : State := r
     let p : Fin 16 := 15
     let level : Bool := false
     (s.pwr.inReset = false ∧ s.filtOf (128 + p) = 0)) ∧
    (let s : State := r.wr (Reg.SLU_PINCFG 15) 0x332
     let p : Fin 16 := 15
     let level : Bool := false
     (s.pwr.inReset = false ∧ s.filtOf (128 + p) ≠ 0)) ∧
    (let s : State := ((r.sf (Reg.CMP_CFG 127) F.CMP_CFG_FILT 1).wr (Reg.CMP_FILT 127) 0x32).mapCmp 127 fun x => { x with raw := true, samples := [true, false] }
     let c : Fin 144 := 127
     s.filtOf c = 1 ∧
     let k := if c.val < 128 then s.fld (Reg.CMP_FILT c) F.CMP_FILT_K else s.fld (Reg.SLU_PINCFG (c - 128 : Nat)) F.SLU_PINCFG_K
     let n := if c.val < 128 then s.fld (Reg.CMP_FILT c) F.CMP_FILT_N else s.fld (Reg.SLU_PINCFG (c - 128 : Nat)) F.SLU_PINCFG_N
     let l := ((s.cmp c).raw :: (s.cmp c).samples).take n
     k ≤ l.count true) ∧
    (let s : State := ((r.sf (Reg.CMP_CFG 127) F.CMP_CFG_FILT 1).wr (Reg.CMP_FILT 127) 0x32).mapCmp 127 fun x => { x with raw := true, samples := [false, false] }
     let c : Fin 144 := 127
     s.filtOf c = 1 ∧
     let k := if c.val < 128 then s.fld (Reg.CMP_FILT c) F.CMP_FILT_K else s.fld (Reg.SLU_PINCFG (c - 128 : Nat)) F.SLU_PINCFG_K
     let n := if c.val < 128 then s.fld (Reg.CMP_FILT c) F.CMP_FILT_N else s.fld (Reg.SLU_PINCFG (c - 128 : Nat)) F.SLU_PINCFG_N
     let l := ((s.cmp c).raw :: (s.cmp c).samples).take n
     l.count true < k ∧ k ≤ l.count false) ∧
    (let s : State := ((r.sf (Reg.CMP_CFG 127) F.CMP_CFG_FILT 1).wr (Reg.CMP_FILT 127) 0x33).mapCmp 127 fun x => { x with raw := true, samples := [true, false] }
     let c : Fin 144 := 127
     s.filtOf c = 1 ∧
     let k := if c.val < 128 then s.fld (Reg.CMP_FILT c) F.CMP_FILT_K else s.fld (Reg.SLU_PINCFG (c - 128 : Nat)) F.SLU_PINCFG_K
     let n := if c.val < 128 then s.fld (Reg.CMP_FILT c) F.CMP_FILT_N else s.fld (Reg.SLU_PINCFG (c - 128 : Nat)) F.SLU_PINCFG_N
     let l := ((s.cmp c).raw :: (s.cmp c).samples).take n
     l.count true < k ∧ l.count false < k) ∧
    (let s : State := r.sf (Reg.CMP_CFG 127) F.CMP_CFG_FILT 2
     let c : Fin 128 := 127
     s.filtOf c = 2) :=
  ⟨by decide +kernel,
    by decide +kernel,
    by decide +kernel,
    by decide +kernel,
    by decide +kernel,
    by decide +kernel,
    by decide +kernel,
    by decide +kernel,
    by decide +kernel,
    by decide +kernel,
    by decide +kernel,
    by decide +kernel,
    by decide +kernel⟩

/-- States that meet the hypotheses of ClearsAndPeriodBoundariesOfQ, clause by clause. -/
theorem test_witness_ClearsAndPeriodBoundariesOfQ :
    (let s : State := r.mapCmp 127 fun x => { x with q := true }
     let c : Fin 128 := 127
     (s.cmp c).fo = false) ∧
    (let s : State := r.mapCmp 127 fun x => { x with q := true, fo := true }
     let c : Fin 128 := 127
     (s.cmp c).fo = true) ∧
    (let s : State := (r.wr (Reg.CMP_CFG 127) 0x3F10).mapCmp 127 fun x => { x with q := true }
     let tb : Fin 64 := 63
     s.cycleBase 127 = some tb.val) ∧
    (let s : State := (r.sf (Reg.CMP_CFG 127) F.CMP_CFG_HI_EN 1).mapCmp 127 fun x => { x with settle := some { since := 5, low := 0, high := 0, hyst := 0, hiEn := false, loEn := false }, input := 0x8000 }
     let c : Fin 128 := 127
     let w : Window := { since := 5, low := 0, high := 0, hyst := 0, hiEn := false, loEn := false }
     (s.cmp c).settle = some w ∧
     (s.cmp c).out = 0 ∧
     s.bit (Reg.CMP_CFG c) F.CMP_CFG_HI_EN = true ∧
     16 * sx 12 (s.fld (Reg.CMP_THR c) F.CMP_THR_HIGH) < (s.cmp c).input) :=
  ⟨by decide +kernel,
    by decide +kernel,
    by decide +kernel,
    by decide +kernel⟩

/-- States that meet the hypotheses of TripSourceAndGroupCommands, clause by clause. -/
theorem test_witness_TripSourceAndGroupCommands :
    (let s : State := { r with safeDriven := false }
     s.safeDriven = false) ∧
    (let s : State := { r with safeDriven := true }
     s.safeDriven = true) ∧
    (let s : State := ((r.sf (Reg.SLU_GSTAT 31) F.SLU_GSTAT_LATCHED 1).wr (Reg.SLU_GFLT 31) 0x80000000).wr (Reg.FC_FLT_CFG 15 1) 0x0004003F
     let g : Fin 32 := 31
     (s.allStop = true ∨ s.latched g = true ∧ s.bit (Reg.SLU_GCFG g) F.SLU_GCFG_ACTION = false) ∧
     ((15, 1) ∈ s.boundSlots ∧ nbit (s.rn (Reg.SLU_GFLT 31)) (s.flightOf 15 1) = true)) ∧
    (let s : State := r.wr (Reg.SLU_SRC_ACT 5) 1
     let g : Fin 32 := 31
     (s.allStop = true ∨ s.latched g = true ∧ s.bit (Reg.SLU_GCFG g) F.SLU_GCFG_ACTION = false) ∧
     s.allStop = true) ∧
    (let s : State := r.sf (Reg.SLU_GCFG 31) F.SLU_GCFG_ACTION 1
     let g : Fin 32 := 31
     s.allStop = false ∧
     (s.latched g = false ∨ s.bit (Reg.SLU_GCFG g) F.SLU_GCFG_ACTION = true)) :=
  ⟨by decide +kernel,
    by decide +kernel,
    by decide +kernel,
    by decide +kernel,
    by decide +kernel⟩

/-- States that meet the hypotheses of SlewAndSyncCommandsRun, clause by clause. -/
theorem test_witness_SlewAndSyncCommandsRun :
    (let s : State := { r.wr Reg.TS_SLEW_LEFT 1 with slewNext := 4096 }
     0 < (s.rg Reg.TS_SLEW_LEFT).toInt ∧
     s.tick < s.slewNext ∧
     s.anyRun = false) ∧
    (let s : State := { r.wr Reg.TS_SLEW_LEFT 0xFFFFFFFF with slewNext := 4096 }
     (s.rg Reg.TS_SLEW_LEFT).toInt < 0 ∧
     s.tick < s.slewNext ∧
     s.anyRun = false) ∧
    (let s : State := { (flt 0 0 3).wr Reg.TS_SLEW_LEFT 1 with slewNext := 4096 }
     s.rg Reg.TS_SLEW_LEFT ≠ 0 ∧
     s.tick < s.slewNext ∧
     s.anyRun = true) ∧
    (let s : State := { r.sf Reg.TS_SYNC_CFG F.TS_SYNC_CFG_MODE 1 with ts := 1 }
     s.fld Reg.TS_SYNC_CFG F.TS_SYNC_CFG_MODE = 1 ∧
     s.pwr.inReset = false ∧
     let e := syncErr s.ts (s.fld Reg.TS_SYNC_DLY F.TS_SYNC_DLY_DLY) s.syncP
     e.natAbs ≤ 1) ∧
    (let s : State := { r.sf Reg.TS_SYNC_CFG F.TS_SYNC_CFG_MODE 1 with ts := 65536 }
     s.fld Reg.TS_SYNC_CFG F.TS_SYNC_CFG_MODE = 1 ∧
     s.pwr.inReset = false ∧
     let e := syncErr s.ts (s.fld Reg.TS_SYNC_DLY F.TS_SYNC_DLY_DLY) s.syncP
     1 < e.natAbs ∧ e.natAbs ≤ 65536) ∧
    (let s : State := { r.sf Reg.TS_SYNC_CFG F.TS_SYNC_CFG_MODE 1 with ts := 65537 }
     s.fld Reg.TS_SYNC_CFG F.TS_SYNC_CFG_MODE = 1 ∧
     s.pwr.inReset = false ∧
     let e := syncErr s.ts (s.fld Reg.TS_SYNC_DLY F.TS_SYNC_DLY_DLY) s.syncP
     65536 < e.natAbs) ∧
    (let s : State := { r.sf Reg.TS_SYNC_CFG F.TS_SYNC_CFG_MODE 2 with ts := 1 }
     s.fld Reg.TS_SYNC_CFG F.TS_SYNC_CFG_MODE = 2 ∧
     s.pwr.inReset = false ∧
     let e := syncErr s.ts (s.fld Reg.TS_SYNC_DLY F.TS_SYNC_DLY_DLY) 800000000
     e.natAbs ≤ 1) ∧
    (let s : State := { r.sf Reg.TS_SYNC_CFG F.TS_SYNC_CFG_MODE 2 with ts := 65536 }
     s.fld Reg.TS_SYNC_CFG F.TS_SYNC_CFG_MODE = 2 ∧
     s.pwr.inReset = false ∧
     let e := syncErr s.ts (s.fld Reg.TS_SYNC_DLY F.TS_SYNC_DLY_DLY) 800000000
     1 < e.natAbs ∧ e.natAbs ≤ 65536) ∧
    (let s : State := r.sf Reg.TS_SYNC_CFG F.TS_SYNC_CFG_MODE 2
     let pps : Bool := false
     s.fld Reg.TS_SYNC_CFG F.TS_SYNC_CFG_MODE ≠ (if pps then 2 else 1)) ∧
    (let s : State := { r with syncDue := some 9 }
     let d : Nat := 9
     s.syncDue = some d) ∧
    (let s : State := r.sf Reg.TS_SYNC_CFG F.TS_SYNC_CFG_OUT_EN 1
     s.bit Reg.TS_SYNC_CFG F.TS_SYNC_CFG_OUT_EN = true) :=
  ⟨by decide +kernel,
    by decide +kernel,
    by decide +kernel,
    by decide +kernel,
    by decide +kernel,
    by decide +kernel,
    by decide +kernel,
    by decide +kernel,
    by decide +kernel,
    by decide +kernel,
    by decide +kernel⟩

/-- States that meet the hypotheses of EventQueuesAndAlarmsRun, clause by clause. -/
theorem test_witness_EventQueuesAndAlarmsRun :
    (let s : State := ((r.sf (Reg.EVT_IOCFG 31) F.EVT_IOCFG_RISE_EN 1).wr (Reg.EVT_ROUTE 1759) 1).sf (Reg.EVT_QCFG 0) F.EVT_QCFG_EN 1
     let k : Fin 32 := 31
     s.bit (Reg.EVT_IOCFG k) F.EVT_IOCFG_DIR = false ∧
     s.bit (Reg.EVT_IOCFG k) F.EVT_IOCFG_IN = false ∧
     s.pwr.inReset = false ∧
     s.bit (Reg.EVT_IOCFG k) F.EVT_IOCFG_RISE_EN = true ∧
     s.routeOf (1728 + k) ≠ 0) ∧
    (let s : State := (((r.sf (Reg.EVT_IOCFG 31) F.EVT_IOCFG_FALL_EN 1).sf (Reg.EVT_IOCFG 31) F.EVT_IOCFG_IN 1).wr (Reg.EVT_ROUTE 1759) 1).sf (Reg.EVT_QCFG 0) F.EVT_QCFG_EN 1
     let k : Fin 32 := 31
     let level : Bool := false
     let a := Reg.EVT_IOCFG k
     (s.bit a F.EVT_IOCFG_DIR = false ∧ s.bit a F.EVT_IOCFG_IN ≠ level ∧ s.pwr.inReset = false ∧ s.bit a F.EVT_IOCFG_FALL_EN = true ∧ s.routeOf (1728 + k) ≠ 0)) ∧
    (let s : State := { (r.wr (Reg.EVT_QBASE 31) 0x40000000).sf (Reg.EVT_QCFG 31) F.EVT_QCFG_EN 1 with hubq := [{ ts := 7, src := 3, code := 0x60, pay := 1, queues := 0x80000000, slewing := false }] }
     let r : EvRec := { ts := 7, src := 3, code := 0x60, pay := 1, queues := 0x80000000, slewing := false }
     let q : Fin 32 := 31
     firstRec s.hubq = some r ∧
     r.queues = 2 ^ q.val ∧
     s.bit (Reg.EVT_QCFG q) F.EVT_QCFG_EN = true ∧
     (s.rg (Reg.EVT_QWIDX q) - s.rg (Reg.EVT_QRIDX q)).toNat < s.qSize q ∧
     let a := s.rn (Reg.EVT_QBASE q) + 16 * (s.rn (Reg.EVT_QWIDX q) % s.qSize q)
     inSharedMem a = true) ∧
    (let s : State := r.wr (Reg.EVT_QWIDX 31) 16
     let q : Fin 32 := 31
     let v : Word := 0
     (s.rg (Reg.EVT_QWIDX q) - v).toNat ≤ s.qSize q) ∧
    (let s : State := r.wr (Reg.EVT_QWIDX 31) 17
     let q : Fin 32 := 31
     let v : Word := 0
     s.qSize q < (s.rg (Reg.EVT_QWIDX q) - v).toNat) ∧
    (let s : State := { r with alarms := [20] }
     let p : Fin 21 := 20
     p.val ∈ s.alarms) :=
  ⟨by decide +kernel,
    by decide +kernel,
    by decide +kernel,
    by decide +kernel,
    by decide +kernel,
    by decide +kernel⟩

/-- States that meet the hypotheses of LaneTrainingCommandsRun, clause by clause. -/
theorem test_witness_LaneTrainingCommandsRun :
    (let s : State := ((r.wr (lnkStat 1023) 2)).sf (Reg.FC_CYC_STAT 15) F.FC_CYC_STAT_RUNNING 1
     let l : Fin 1024 := 1023
     s.laneState l = 2 ∧
     s.cycling (l / 64) = true ∧
     s.slot72Blocked l = false) ∧
    (let s : State := (r.wr (lnkStat 1023) 2).mapLane 1023 fun x => { x with probeOut := true }
     let l : Fin 1024 := 1023
     let rtt : Nat := 100
     s.laneState l = 2 ∧
     (s.lane l).probeOut = true ∧
     (s.lane l).probes.length < 3) ∧
    (let s : State := (r.wr (lnkStat 1023) 2).mapLane 1023 fun x => { x with probeOut := true, probes := [100, 101, 102] }
     let l : Fin 1024 := 1023
     let a : Nat := 100
     let b : Nat := 101
     let c : Nat := 102
     let rtt : Nat := 102
     s.laneState l = 2 ∧
     (s.lane l).probeOut = true ∧
     (s.lane l).probes = [a, b, c] ∧
     let spread := max (max a b) (max c rtt) - min (min a b) (min c rtt)
     spread ≤ 2) ∧
    (let s : State := (r.wr (lnkStat 1023) 2).mapLane 1023 fun x => { x with probeOut := true, probes := [100, 101, 102] }
     let l : Fin 1024 := 1023
     let a : Nat := 100
     let b : Nat := 101
     let c : Nat := 102
     let rtt : Nat := 103
     s.laneState l = 2 ∧
     (s.lane l).probeOut = true ∧
     (s.lane l).probes = [a, b, c] ∧
     let spread := max (max a b) (max c rtt) - min (min a b) (min c rtt)
     2 < spread) ∧
    (let s : State := ((r.wr (lnkStat 1023) 3).mapLane 1023 fun x => { x with good := 4 }).wr (Reg.LNK_DECL 15 63 0) 1
     let l : Fin 1024 := 1023
     s.laneState l = 3 ∧
     4 ≤ (s.lane l).good ∧
     s.mismatches l = 0) ∧
    (let s : State := (r.wr (lnkStat 1023) 3).mapLane 1023 fun x => { x with good := 4 }
     let l : Fin 1024 := 1023
     s.laneState l = 3 ∧
     4 ≤ (s.lane l).good ∧
     s.mismatches l ≠ 0) ∧
    (let s : State := (r.wr (lnkStat 1023) 1).mapLane 1023 fun x => { x with tcyc := 256 }
     let l : Fin 1024 := 1023
     (s.laneState l = 1 ∧ 256 ≤ (s.lane l).tcyc)) ∧
    (let s : State := (r.wr (lnkStat 1023) 2).mapLane 1023 fun x => { x with tcyc := 64 }
     let l : Fin 1024 := 1023
     (s.laneState l = 2 ∧ 64 ≤ (s.lane l).tcyc)) ∧
    (let s : State := (r.wr (lnkStat 1023) 3).mapLane 1023 fun x => { x with tcyc := 64, good := 3 }
     let l : Fin 1024 := 1023
     (s.laneState l = 3 ∧ 64 ≤ (s.lane l).tcyc ∧ (s.lane l).good < 4)) ∧
    (let s : State := (r.wr (lnkStat 1023) 1)
     let l : Fin 1024 := 1023
     let sof : BitVec 10 := 0x0FA
     let groups : List (BitVec 10) := List.replicate 63 0
     s.laneState l ≠ 0) ∧
    (let s : State := ((r.wr (lnkStat 1023) 5)).mapFc 15 fun x => { x with fresh := true }
     let l : Fin 1024 := 1023
     let sof : BitVec 10 := BitVec.ofNat 10 ((encodeSyms false (.sof :: (goodBarge.drop 1).map .d)).1.headD 0)
     let groups : List (BitVec 10) := ((encodeSyms false (.sof :: (goodBarge.drop 1).map .d)).1.drop 1).map (BitVec.ofNat 10)
     s.laneState l ≠ 0 ∧
     (s.laneUp l = true ∧ s.judged l (s.upCycle (l / 64)) = true)) ∧
    (let s : State := (r.wr (lnkStat 1023) 5).mapLane 1023 fun x => { x with judgeFrom := 3 }
     let l : Fin 1024 := 1023
     let sof : BitVec 10 := 0x305
     let groups : List (BitVec 10) := []
     s.laneState l ≠ 0 ∧
     (s.laneUp l = true ∧ s.judged l (s.upCycle (l / 64)) = false)) :=
  ⟨by decide +kernel,
    by decide +kernel,
    by decide +kernel,
    by decide +kernel,
    by decide +kernel,
    by decide +kernel,
    by decide +kernel,
    by decide +kernel,
    by decide +kernel,
    by decide +kernel,
    by decide +kernel,
    by decide +kernel⟩

/-- States that meet the hypotheses of LinkControlCommandsRun, clause by clause. -/
theorem test_witness_LinkControlCommandsRun :
    (let s : State := r.sf (Reg.FC_CYC_CTRL 15) F.FC_CYC_CTRL_RUN 1
     let l : Fin 1024 := 1023
     s.bit (Reg.LNK_CTRL (l / 64) (l % 64)) F.LNK_CTRL_ENABLE = false ∧
     s.laneState l = 0 ∧
     s.runOn (l / 64) = true ∧
     s.stalled (l / 64) (l % 64 / 8) = false ∧
     (s.eng (l / 64) (l % 64 / 8)).run = 0) ∧
    (let s : State := (r.wr (lnkStat 1023) 5)
     let l : Fin 1024 := 1023
     s.laneState l ≠ 0 ∧
     s.stalled (l / 64) (l % 64 / 8) = false ∧
     (s.eng (l / 64) (l % 64 / 8)).run = 0) ∧
    (let s : State := ((r.wr (lnkStat 1023) 5)).mapEng 15 7 fun x => { x with run := 1 }
     let l : Fin 1024 := 1023
     s.laneState l ≠ 0 ∧
     s.stalled (l / 64) (l % 64 / 8) = false ∧
     (s.eng (l / 64) (l % 64 / 8)).run ≠ 0) ∧
    (let s : State := (r.wr (lnkStat 1023) 5)
     let l : Fin 1024 := 1023
     s.stalled (l / 64) (l % 64 / 8) = false ∧
     (s.eng (l / 64) (l % 64 / 8)).run = 0) ∧
    (let s : State := (r.wr (lnkStat 1023) 5).mapLane 1023 fun x => { x with pendRetrain := true }
     let n : Fin 16 := 15
     let e : Fin 8 := 7
     s.stalled n e = false ∧
     ((s.lane 1023).pendRetrain = true ∧ s.laneState 1023 ≠ 0)) :=
  ⟨by decide +kernel,
    by decide +kernel,
    by decide +kernel,
    by decide +kernel,
    by decide +kernel⟩

/-- States that meet the hypotheses of EngineAndCycleLinkCommandsRun, clause by clause. -/
theorem test_witness_EngineAndCycleLinkCommandsRun :
    (let s : State := r
     let n : Fin 16 := 15
     let e : Fin 8 := 7
     s.stalled n e = false) ∧
    (let s : State := ((r.wr (lnkStat 1023) 5).mapLane 1023 fun x => { x with alignDue := true, txSt := 5 }).sf (Reg.FC_CYC_STAT 15) F.FC_CYC_STAT_RUNNING 1
     let n : Fin 16 := 15
     s.cycling n = true ∧
     ((s.lane 1023).alignDue = true ∧ (s.lane 1023).txSt ≠ 0 ∧ s.slot72Blocked 1023 = false)) ∧
    (let s : State := ((r.wr (lnkStat 1023) 5)).sf (Reg.FC_CYC_STAT 15) F.FC_CYC_STAT_RUNNING 1
     let n : Fin 16 := 15
     s.cycling n = true ∧
     s.ecc = [] ∧
     s.laneUp 1023 = true) ∧
    (let s : State := (r.wr (lnkStat 1023) 5).mapLane 1023 fun x => { x with bypass := true }
     let l : Fin 1024 := 1023
     (s.lane l).bypass = true ∧
     (s.lane l).bypassDone = false ∧
     (s.lane l).bypassOut = false) :=
  ⟨by decide +kernel,
    by decide +kernel,
    by decide +kernel,
    by decide +kernel⟩

/-- States that meet the hypotheses of PulseWidthPairsRunTheirPeriods, clause by clause. -/
theorem test_witness_PulseWidthPairsRunTheirPeriods :
    (let s : State := (r.sf (Reg.PWM_CTRL 31) F.PWM_CTRL_EN 1).wr (Reg.PWM_PER 31) 100
     let k : Fin 32 := 31
     s.bit (Reg.PWM_CTRL k) F.PWM_CTRL_EN = true ∧
     s.bit (Reg.PWM_STAT k) F.PWM_STAT_WAIT_TOW = false ∧
     s.bit (Reg.PWM_STAT k) F.PWM_STAT_RUNNING = false) ∧
    (let s : State := (((r.sf (Reg.PWM_CTRL 31) F.PWM_CTRL_EN 1).sf (Reg.PWM_STAT 31) F.PWM_STAT_RUNNING 1).wr (Reg.PWM_APER 31) 100).mapPwm 31 fun x => { x with cw := 800 }
     let k : Fin 32 := 31
     s.bit (Reg.PWM_CTRL k) F.PWM_CTRL_EN = true ∧
     s.bit (Reg.PWM_STAT k) F.PWM_STAT_WAIT_TOW = false ∧
     (s.bit (Reg.PWM_STAT k) F.PWM_STAT_RUNNING = true ∧ s.rg (Reg.PWM_PEND k) = 0 ∧ s.bit (Reg.PWM_CTRL k) F.PWM_CTRL_AUTO = false)) ∧
    (let s : State := r
     let k : Fin 32 := 31
     s.bit (Reg.PWM_CTRL k) F.PWM_CTRL_EN = false) ∧
    (let s : State := ((((r.sf (Reg.PWM_CTRL 31) F.PWM_CTRL_EN 1).sf (Reg.PWM_STAT 31) F.PWM_STAT_RUNNING 1).wr (Reg.PWM_APER 31) 100).mapPwm 31 fun x => { x with p := true }).wr (Reg.PWM_ACMP 31) 1599
     let k : Fin 32 := 31
     s.bit (Reg.PWM_STAT k) F.PWM_STAT_RUNNING = true ∧
     (s.pwm k).p = true ∧
     s.fld (Reg.PWM_ACMP k) F.PWM_ACMP_C < 16 * s.pwmPer k ∧
     (s.pwm k).tripped = false) ∧
    (let s : State := (((r.sf (Reg.PWM_CTRL 31) F.PWM_CTRL_EN 1).sf (Reg.PWM_STAT 31) F.PWM_STAT_RUNNING 1)).mapPwm 31 fun x => { x with dtTo := 1, dtEnd := 9 }
     let k : Fin 32 := 31
     (s.pwm k).tripped = false ∧
     (s.pwm k).dtTo ≠ 0 ∧
     (s.pwm k).dtTo = 1) ∧
    (let s : State := (((r.sf (Reg.PWM_CTRL 31) F.PWM_CTRL_EN 1).sf (Reg.PWM_STAT 31) F.PWM_STAT_RUNNING 1)).mapPwm 31 fun x => { x with dtTo := 2, dtEnd := 9 }
     let k : Fin 32 := 31
     (s.pwm k).tripped = false ∧
     (s.pwm k).dtTo ≠ 0 ∧
     (s.pwm k).dtTo = 2) :=
  ⟨by decide +kernel,
    by decide +kernel,
    by decide +kernel,
    by decide +kernel,
    by decide +kernel,
    by decide +kernel⟩

/-- States that meet the hypotheses of TowChainAndShadowCommandsRun, clause by clause. -/
theorem test_witness_TowChainAndShadowCommandsRun :
    (let s : State := ((((r.sf (Reg.PWM_STAT 30) F.PWM_STAT_RUNNING 1).wr (Reg.PWM_APER 30) 100).sf (Reg.PWM_CTRL 31) F.PWM_CTRL_EN 1).sf (Reg.PWM_CTRL 31) F.PWM_CTRL_SYNC 1).mapPwm 30 fun x => { x with ofs := 99 }
     let k : Fin 32 := 30
     s.bit (Reg.PWM_STAT k) F.PWM_STAT_RUNNING = true ∧
     (s.pwm k).ofs < s.pwmPer k ∧
     (s.pwm k).towSent = false ∧
     (k.val < 31 ∧ s.bit (Reg.PWM_CTRL (k + 1)) F.PWM_CTRL_EN = true ∧ s.fld (Reg.PWM_CTRL (k + 1)) F.PWM_CTRL_SYNC = 1)) ∧
    (let s : State := (((r.sf (Reg.PWM_CTRL 31) F.PWM_CTRL_EN 1).sf (Reg.PWM_STAT 31) F.PWM_STAT_RUNNING 1).wr (Reg.PWM_APER 31) 100).sf Reg.PWM_TOWCFG F.PWM_TOWCFG_OUT_EN 1
     let k : Fin 32 := 31
     s.bit (Reg.PWM_STAT k) F.PWM_STAT_RUNNING = true ∧
     (s.pwm k).ofs < s.pwmPer k ∧
     (s.pwm k).towSent = false ∧
     (k.val = 31 ∧ s.bit Reg.PWM_TOWCFG F.PWM_TOWCFG_OUT_EN = true)) ∧
    (let s : State := (((r.sf (Reg.PWM_CTRL 31) F.PWM_CTRL_EN 1).sf (Reg.PWM_STAT 31) F.PWM_STAT_RUNNING 1).wr (Reg.PWM_APER 31) 100).mapPwm 31 fun x => { x with tow := some 50 }
     let k : Fin 32 := 31
     let u : Nat := 50
     s.bit (Reg.PWM_STAT k) F.PWM_STAT_RUNNING = true ∧
     (s.pwm k).tow = some u ∧
     let x := s.pwm k
     let e := max u (x.since + b2n (x.fine != 0) + (if x.p then s.pwmDtR k else s.pwmDtF k) + nbits x.mp.toNat 0 8)
     e < x.start + s.pwmPer k) ∧
    (let s : State := (((r.sf (Reg.PWM_CTRL 31) F.PWM_CTRL_EN 1).sf (Reg.PWM_STAT 31) F.PWM_STAT_RUNNING 1).wr (Reg.PWM_APER 31) 50).mapPwm 31 fun x => { x with tow := some 50 }
     let k : Fin 32 := 31
     let u : Nat := 50
     s.bit (Reg.PWM_STAT k) F.PWM_STAT_RUNNING = true ∧
     (s.pwm k).tow = some u ∧
     let x := s.pwm k
     let e := max u (x.since + b2n (x.fine != 0) + (if x.p then s.pwmDtR k else s.pwmDtF k) + nbits x.mp.toNat 0 8)
     x.start + s.pwmPer k ≤ e) ∧
    (let s0 : State := r
     let s : State := s0
     let k : Fin 32 := 31
     let r : ShadowReg := .per
     let v : Word := 1048577
     let due := s.bit (Reg.PWM_CTRL k) F.PWM_CTRL_EN && !s.bit (Reg.PWM_STAT k) F.PWM_STAT_WAIT_TOW && decide (s.pwmNext k ≤ s.tick)
     let u := if due then s.periodStart k else s
     (r = .per ∧ 1048576 < (v &&& shadowMask r).toNat)) ∧
    (let s0 : State := r
     let s : State := s0
     let k : Fin 32 := 31
     let r : ShadowReg := .per
     let v : Word := 1048576
     let due := s.bit (Reg.PWM_CTRL k) F.PWM_CTRL_EN && !s.bit (Reg.PWM_STAT k) F.PWM_STAT_WAIT_TOW && decide (s.pwmNext k ≤ s.tick)
     let u := if due then s.periodStart k else s
     (¬(r = .per ∧ ((v &&& shadowMask r).toNat < 2 ∨ 1048576 < (v &&& shadowMask r).toNat)))) ∧
    (let s0 : State := { ((r.sf (Reg.PWM_CTRL 31) F.PWM_CTRL_EN 1).sf (Reg.PWM_STAT 31) F.PWM_STAT_RUNNING 1).wr (Reg.PWM_APER 31) 100 with tick := 5000 }
     let s : State := s0
     let k : Fin 32 := 31
     let r : ShadowReg := .per
     let v : Word := 1048576
     let due := s.bit (Reg.PWM_CTRL k) F.PWM_CTRL_EN && !s.bit (Reg.PWM_STAT k) F.PWM_STAT_WAIT_TOW && decide (s.pwmNext k ≤ s.tick)
     let u := if due then s.periodStart k else s
     due = true) :=
  ⟨by decide +kernel,
    by decide +kernel,
    by decide +kernel,
    by decide +kernel,
    by decide +kernel,
    by decide +kernel,
    by decide +kernel⟩

/-- States that meet the hypotheses of RunAndObligationCommandsTakeEffect, clause by clause. -/
theorem test_witness_RunAndObligationCommandsTakeEffect :
    (let s : State := (r.wr (Reg.MCS_VMAPE 15 0) 0xFFFF).wr Reg.MEM_BIST_FC 0x1FFFF
     let n : Fin 16 := 15
     s.follower n = false ∧
     s.bit (Reg.FC_CYC_CTRL n) F.FC_CYC_CTRL_RUN = false ∧
     s.bit (Reg.FC_CYC_STAT n) F.FC_CYC_STAT_RUNNING = false ∧
     let len := s.fld (Reg.FC_CYC_LEN n) F.FC_CYC_LEN_LEN
     let ph := s.fld (Reg.FC_CYC_PHASE n) F.FC_CYC_PHASE_PHASE
     let ok := cycleOk len ph (s.fld (Reg.FC_APPLY_LAT n) F.FC_APPLY_LAT_LAT) && s.fcCan n
     ok = true) ∧
    (let s : State := r
     let n : Fin 16 := 15
     s.follower n = false ∧
     s.bit (Reg.FC_CYC_CTRL n) F.FC_CYC_CTRL_RUN = false ∧
     s.bit (Reg.FC_CYC_STAT n) F.FC_CYC_STAT_RUNNING = false ∧
     let len := s.fld (Reg.FC_CYC_LEN n) F.FC_CYC_LEN_LEN
     let ph := s.fld (Reg.FC_CYC_PHASE n) F.FC_CYC_PHASE_PHASE
     let ok := cycleOk len ph (s.fld (Reg.FC_APPLY_LAT n) F.FC_APPLY_LAT_LAT) && s.fcCan n
     ok = false) ∧
    (let s : State := flt 15 1 1
     let n : Fin 16 := 15
     s.follower n = false ∧
     ((∀ f, f < 2 → s.bound n f = true → s.fltState n f ≤ 1)) ∧
     s.bit (Reg.FC_CYC_STAT n) F.FC_CYC_STAT_RUNNING = false) ∧
    (let s : State := going 15 (flt 15 1 1)
     let n : Fin 16 := 15
     s.follower n = false ∧
     ((∀ f, f < 2 → s.bound n f = true → s.fltState n f ≤ 1)) ∧
     s.bit (Reg.FC_CYC_STAT n) F.FC_CYC_STAT_RUNNING = true) ∧
    (let s : State := ((going 15 r).wr (Reg.FC_CYC_COUNT 15) 0x1FF).sf (Reg.FC_CYC_CTRL 15) F.FC_CYC_CTRL_INNER_CHK 1
     let n : Fin 16 := 15
     let c : Byte := 0xFF
     s.follower n = false ∧
     s.cycling n = true ∧
     (s.fc n).innerDone = false ∧
     c.toNat = s.rn (Reg.FC_CYC_COUNT n) % 256 ∧
     let chk := s.bit (Reg.FC_CYC_CTRL n) F.FC_CYC_CTRL_INNER_CHK
     let late := (s.fc n).done.contains 200
     (chk = true ∧ late = false)) ∧
    (let s : State := (((going 15 r).mapFc 15 fun x => { x with done := [200] }).wr (Reg.FC_CYC_COUNT 15) 0x1FF).sf (Reg.FC_CYC_CTRL 15) F.FC_CYC_CTRL_INNER_CHK 1
     let n : Fin 16 := 15
     let c : Byte := 0xFF
     s.follower n = false ∧
     s.cycling n = true ∧
     (s.fc n).innerDone = false ∧
     c.toNat = s.rn (Reg.FC_CYC_COUNT n) % 256 ∧
     let chk := s.bit (Reg.FC_CYC_CTRL n) F.FC_CYC_CTRL_INNER_CHK
     let late := (s.fc n).done.contains 200
     (chk = true ∧ late = true ∧ (s.fc n).holdCyc = false)) ∧
    (let s : State := (((going 15 r).mapFc 15 fun x => { x with done := [200], holdCyc := true }).wr (Reg.FC_CYC_COUNT 15) 0x1FF).sf (Reg.FC_CYC_CTRL 15) F.FC_CYC_CTRL_INNER_CHK 1
     let n : Fin 16 := 15
     let c : Byte := 0xFF
     s.follower n = false ∧
     s.cycling n = true ∧
     (s.fc n).innerDone = false ∧
     c.toNat = s.rn (Reg.FC_CYC_COUNT n) % 256 ∧
     let chk := s.bit (Reg.FC_CYC_CTRL n) F.FC_CYC_CTRL_INNER_CHK
     let late := (s.fc n).done.contains 200
     (s.fc n).holdCyc = true) ∧
    (let s : State := r.sf (Reg.FC_OVR_COUNT 15) F.FC_OVR_COUNT_CONSEC 9
     let n : Fin 16 := 15
     let v : Word := 255
     (v.toNat % 256 ≠ 0 ∧ s.bit (Reg.FC_LOCK n) F.FC_LOCK_LOCK = false)) ∧
    (let s : State := r.mapFc 15 fun x => { x with hubSent := [(31, 5)] }
     let n : Fin 16 := 15
     (s.fc n).switching = false ∧
     ((s.fc n).hubSent.map (·.1)).Nodup) :=
  ⟨by decide +kernel,
    by decide +kernel,
    by decide +kernel,
    by decide +kernel,
    by decide +kernel,
    by decide +kernel,
    by decide +kernel,
    by decide +kernel,
    by decide +kernel⟩

/-- States that meet the hypotheses of ReferenceBuffersAndSequencesRun, clause by clause. -/
theorem test_witness_ReferenceBuffersAndSequencesRun :
    (let s : State := r
     let g : Fin 20 := 19
     s.bit (Reg.ADC_REF_CTRL g) F.ADC_REF_CTRL_EN = false) ∧
    (let s : State := (r.sf (Reg.ADC_REF_CTRL 19) F.ADC_REF_CTRL_EN 1).sf (Reg.ADC_STAT 19) F.ADC_STAT_REF_READY 1
     let g : Fin 20 := 19
     s.groupBusy g = false) ∧
    (let s : State := ((flt 0 0 3).wr (Reg.FC_HUB_MASK 0 0) 0x80000000).sf (Reg.ADC_REF_CTRL 19) F.ADC_REF_CTRL_EN 1
     let g : Fin 20 := 19
     s.groupBusy g = true) ∧
    (let s : State := (r.sf (Reg.ADC_REF_CTRL 19) F.ADC_REF_CTRL_EN 1)
     let g : Fin 20 := 19
     s.settling g = true) ∧
    (let s : State := (r.sf (Reg.ADC_REF_CTRL 19) F.ADC_REF_CTRL_EN 1)
     let g : Fin 20 := 19
     s.settling g = true) ∧
    (let s : State := (r.sf (Reg.ADC_REF_CTRL 19) F.ADC_REF_CTRL_EN 1).sf (Reg.ADC_STAT 19) F.ADC_STAT_REF_READY 1
     let g : Fin 20 := 19
     s.bit (Reg.ADC_REF_CTRL g) F.ADC_REF_CTRL_EN = true ∧
     s.refReady g = true) ∧
    (let s : State := (r.wr (Reg.ADC_SEQ 19 15) (fput 0 F.ADC_SEQ_TRIG 0x10)).sf (Reg.FC_CYC_CTRL 15) F.FC_CYC_CTRL_RUN 1
     let g : Fin 20 := 19
     let k : Fin 16 := 15
     let tr := s.trigOf g k
     let d := s.fld (Reg.ADC_SEQ g k) F.ADC_SEQ_DELAY
     let c := s.fld (Reg.ADC_SEQ g k) F.ADC_SEQ_CH
     (tget none (s.adc g).pend k = none ∧ 1 ≤ tr ∧ tr ≤ 0x10 ∧ s.runOn (tr - 1) = true)) ∧
    (let s : State := r.wr (Reg.ADC_SEQ 19 15) (fput 0 F.ADC_SEQ_TRIG 0x3F)
     let g : Fin 20 := 19
     let k : Fin 16 := 15
     let tr := s.trigOf g k
     let d := s.fld (Reg.ADC_SEQ g k) F.ADC_SEQ_DELAY
     let c := s.fld (Reg.ADC_SEQ g k) F.ADC_SEQ_CH
     (tget none (s.adc g).pend k = none ∧ 0x20 ≤ tr ∧ tr < 0x40)) ∧
    (let s : State := r.wr (Reg.ADC_SEQ 19 15) (fput 0 F.ADC_SEQ_TRIG 0x5F)
     let g : Fin 20 := 19
     let k : Fin 16 := 15
     let tr := s.trigOf g k
     let d := s.fld (Reg.ADC_SEQ g k) F.ADC_SEQ_DELAY
     let c := s.fld (Reg.ADC_SEQ g k) F.ADC_SEQ_CH
     (tget none (s.adc g).pend k = none ∧ 0x40 ≤ tr ∧ tr < 0x60)) ∧
    (let s : State := (r.wr (Reg.ADC_SEQ 19 15) (fput 0 F.ADC_SEQ_TRIG 0x5F)).mapAdc 19 fun x => { x with pend := [(15, some (3, 0))] }
     let g : Fin 20 := 19
     let k : Fin 16 := 15
     let tr := s.trigOf g k
     let d := s.fld (Reg.ADC_SEQ g k) F.ADC_SEQ_DELAY
     let c := s.fld (Reg.ADC_SEQ g k) F.ADC_SEQ_CH
     tget none (s.adc g).pend k ≠ none ∧ 0x20 ≤ tr ∧ tr < 0x60) ∧
    (let s : State := (r.wr (Reg.ADC_SEQ 19 15) (fput 0 F.ADC_SEQ_TRIG 0x61)).wr (Reg.ADC_TMR 19) 1
     let g : Fin 20 := 19
     let k : Fin 16 := 15
     let tr := s.trigOf g k
     let d := s.fld (Reg.ADC_SEQ g k) F.ADC_SEQ_DELAY
     let c := s.fld (Reg.ADC_SEQ g k) F.ADC_SEQ_CH
     (tget none (s.adc g).pend k = none ∧ tr = 0x61 ∧ s.tmrPeriod g ≠ 0)) ∧
    (let s : State := r.wr (Reg.ADC_SEQ 19 15) (fput 0 F.ADC_SEQ_TRIG 0x60)
     let g : Fin 20 := 19
     (s.trigOf g 15 = 0x60 ∧ tget none (s.adc g).pend 15 = none)) :=
  ⟨by decide +kernel,
    by decide +kernel,
    by decide +kernel,
    by decide +kernel,
    by decide +kernel,
    by decide +kernel,
    by decide +kernel,
    by decide +kernel,
    by decide +kernel,
    by decide +kernel,
    by decide +kernel,
    by decide +kernel⟩

/-- States that meet the hypotheses of ConversionsAndTheirResults, clause by clause. -/
theorem test_witness_ConversionsAndTheirResults :
    (let s : State := ((r.sf (Reg.ADC_REF_CTRL 19) F.ADC_REF_CTRL_EN 1).sf (Reg.ADC_STAT 19) F.ADC_STAT_REF_READY 1).mapAdc 19 fun x => { x with pend := [(15, some (3, 7))] }
     let g : Fin 20 := 19
     let k : Fin 16 := 15
     let raw : Int := 40000
     let u : Nat := 3
     let c : Nat := 7
     tget none (s.adc g).pend k = some (u, c) ∧
     let sl := (s.serve g c).sliceOf g c
     let near := ∃ h, tget none (s.adc g).held c = some h ∧ h < u ∧ u < h + 80
     let soon := ∃ ns ∈ s.coming g c, u < ns ∧ ns < u + 80
     (¬(near ∨ soon) ∧ tget none (s.adc g).last c = none ∧ tget none (s.adc g).cycHold c = none ∧ sl ≠ 15 ∧ s.refReady g = true)) ∧
    (let s : State := ((r.sf (Reg.ADC_REF_CTRL 19) F.ADC_REF_CTRL_EN 1).sf (Reg.ADC_STAT 19) F.ADC_STAT_REF_READY 1).mapAdc 19 fun x => { x with pend := [(15, some (5, 0))], held := [(0, some 5)], last := [(0, some { ch := 0, start := 5, slice := 0, raw := 7, val := 7, clip := false, sat := false, noref := false, test := false })], out := [(15, [({ ch := 0, start := 5, slice := 0, raw := 7, val := 7, clip := false, sat := false, noref := false, test := false }, true)])] }
     let g : Fin 20 := 19
     let k : Fin 16 := 15
     let raw : Int := 4
     let u : Nat := 5
     let c : Nat := 0
     tget none (s.adc g).pend k = some (u, c) ∧
     let sl := (s.serve g c).sliceOf g c
     let near := ∃ h, tget none (s.adc g).held c = some h ∧ h < u ∧ u < h + 80
     let soon := ∃ ns ∈ s.coming g c, u < ns ∧ ns < u + 80
     (tget none (s.adc g).held c = some u ∧ (tget none (s.adc g).last c).map Conv.start = some u)) ∧
    (let s : State := r.mapAdc 19 fun x => { x with pend := [(15, some (82, 0))], held := [(0, some 3)] }
     let g : Fin 20 := 19
     let k : Fin 16 := 15
     let raw : Int := 4
     let u : Nat := 82
     let c : Nat := 0
     tget none (s.adc g).pend k = some (u, c) ∧
     let sl := (s.serve g c).sliceOf g c
     let near := ∃ h, tget none (s.adc g).held c = some h ∧ h < u ∧ u < h + 80
     let soon := ∃ ns ∈ s.coming g c, u < ns ∧ ns < u + 80
     (tget none (s.adc g).held c ≠ some u ∧ tget none (s.adc g).held c = some 3 ∧ 3 < u ∧ u < 3 + 80)) ∧
    (let s : State := ((r.sf (Reg.FC_CYC_CTRL 15) F.FC_CYC_CTRL_RUN 1).mapFc 15 fun x => { x with next := 161 }).mapAdc 15 fun x => { x with pend := [(15, some (82, 3))] }
     let g : Fin 20 := 15
     let k : Fin 16 := 15
     let raw : Int := 4
     let u : Nat := 82
     let c : Nat := 3
     tget none (s.adc g).pend k = some (u, c) ∧
     let sl := (s.serve g c).sliceOf g c
     let near := ∃ h, tget none (s.adc g).held c = some h ∧ h < u ∧ u < h + 80
     let soon := ∃ ns ∈ s.coming g c, u < ns ∧ ns < u + 80
     soon) ∧
    (let s : State := r.mapAdc 19 fun x => { x with out := [(15, [({ ch := 0, start := 5, slice := 0, raw := 7, val := 7, clip := false, sat := false, noref := false, test := false }, true), ({ ch := 0, start := 5, slice := 0, raw := 7, val := 7, clip := false, sat := false, noref := false, test := false }, false)])] }
     let g : Fin 20 := 19
     let k : Fin 16 := 15
     let v : Conv := { ch := 0, start := 5, slice := 0, raw := 7, val := 7, clip := false, sat := false, noref := false, test := false }
     let sh : Bool := true
     let l : List (Conv × Bool) := [({ ch := 0, start := 5, slice := 0, raw := 7, val := 7, clip := false, sat := false, noref := false, test := false }, false)]
     tget [] (s.adc g).out k = (v, sh) :: l) ∧
    (let s : State := ((going 15 r).sf (Reg.ADC_STAT 15) F.ADC_STAT_REF_READY 1).mapAdc 15 fun x => { x with cycHold := [(3, some { ts := 0, slice := 3, pair := (4194, -10486) })] }
     let n : Fin 16 := 15
     let raw : List Int := [1, 2, 3, 12345]
     s.stepDue n 80 = true ∧
     (tget none (s.adc n).cycHold 3 = some { ts := 0, slice := 3, pair := (4194, -10486) } ∧ tget none (s.adc n).cyc 3 = none ∧ s.refReady n = true)) ∧
    (let s : State := (going 15 r).mapAdc 15 fun x => { x with cycHold := [(0, some { ts := 0, slice := 3, pair := (0, 0) })], cyc := [(0, some { ch := 0, start := 5, slice := 0, raw := 7, val := 7, clip := false, sat := false, noref := false, test := false })] }
     let n : Fin 16 := 15
     let raw : List Int := [1, 2, 3, 4]
     s.stepDue n 80 = true ∧
     ((tget none (s.adc n).cycHold 0).isSome = true ∧ (tget none (s.adc n).cyc 0).isSome = true)) ∧
    (let s : State := r
     let g : Fin 20 := 19
     let c : Fin 8 := 7
     let v : Word := 0xFFFFFFFF
     c.val < chans g) ∧
    (let s : State := r
     let g : Fin 20 := 15
     let c : Fin 8 := 3
     let v : Word := 0xFFFFFFFF
     c.val < chans g) ∧
    (let s : State := going 15 r
     let g : Fin 20 := 15
     let c : Fin 8 := 3
     let v : Word := 0x1FFFF
     c.val < chans g ∧
     let p := (sx 20 (s.rn (Reg.ADC_UGAIN g c)), sx 16 (v.toNat % 65536))
     g.val < 16) ∧
    (let s : State := r
     let g : Fin 20 := 19
     let c : Fin 8 := 7
     let v : Word := 0xFFFF
     c.val < chans g ∧
     let p := (sx 20 (s.rn (Reg.ADC_UGAIN g c)), sx 16 (v.toNat % 65536))
     16 ≤ g.val) :=
  ⟨by decide +kernel,
    by decide +kernel,
    by decide +kernel,
    by decide +kernel,
    by decide +kernel,
    by decide +kernel,
    by decide +kernel,
    by decide +kernel,
    by decide +kernel,
    by decide +kernel,
    by decide +kernel⟩

/-- States that meet the hypotheses of SliceRotationRuns, clause by clause. -/
theorem test_witness_SliceRotationRuns :
    (let s : State := ((r.sf (Reg.ADC_REF_CTRL 19) F.ADC_REF_CTRL_EN 1).sf (Reg.ADC_STAT 19) F.ADC_STAT_REF_READY 1).sf (Reg.ADC_CAL_CFG 19) F.ADC_CAL_CFG_EN 1
     let g : Fin 20 := 19
     let on := s.pathOn g (s.fld (Reg.ADC_CAL_STAT g) F.ADC_CAL_STAT_NEXT)
     s.stepMay g = true ∧
     s.pathOn g (s.fld (Reg.ADC_CAL_STAT g) F.ADC_CAL_STAT_NEXT) = false) ∧
    (let s : State := (((r.sf (Reg.ADC_REF_CTRL 19) F.ADC_REF_CTRL_EN 1).sf (Reg.ADC_STAT 19) F.ADC_STAT_REF_READY 1).sf (Reg.ADC_CAL_CFG 19) F.ADC_CAL_CFG_EN 1).mapKeep fun k => { k with waits := [{ e := cmd 0x62 88 [1] 0 none, live := true, silent := false, on := .path 19, st := 0 }] }
     let g : Fin 20 := 19
     let on := s.pathOn g (s.fld (Reg.ADC_CAL_STAT g) F.ADC_CAL_STAT_NEXT)
     s.stepMay g = true ∧
     s.pathOn g (s.fld (Reg.ADC_CAL_STAT g) F.ADC_CAL_STAT_NEXT) = true) ∧
    (let s : State := (r.sf (Reg.ADC_REF_CTRL 19) F.ADC_REF_CTRL_EN 1).sf (Reg.ADC_STAT 19) F.ADC_STAT_REF_READY 1
     let g : Fin 20 := 19
     let c : Fin 16 := 7
     ((s.freeSlice g).isSome = true ∧ c.val < chans g ∧ s.refReady g = true)) ∧
    (let s : State := (r.sf (Reg.ADC_REF_CTRL 19) F.ADC_REF_CTRL_EN 1).sf (Reg.ADC_STAT 19) F.ADC_STAT_REF_READY 1
     let g : Fin 20 := 19
     let c : Fin 16 := 8
     (¬((s.freeSlice g).isSome = true ∧ c.val < chans g ∧ s.refReady g = true))) ∧
    (let s : State := (((r.sf (Reg.ADC_REF_CTRL 19) F.ADC_REF_CTRL_EN 1).sf (Reg.ADC_STAT 19) F.ADC_STAT_REF_READY 1).wr (Reg.ADC_SLOFF 19 0) 0 |>.wr (Reg.ADC_SLGAIN 19 0) 0 |>.wr (Reg.ADC_SLOFF 19 8) 0 |>.wr (Reg.ADC_SLGAIN 19 8) 0).mapAdc 19 fun x => { x with step := 1 }
     let g : Fin 20 := 19
     let f : Nat := 8
     let raw : List Int := List.replicate 64 0 ++ List.replicate 64 24576 ++ List.replicate 64 (-24576)
     (s.adc g).step = 1 ∧
     s.freeSlice g = some f ∧
     f ≤ chans g ∧
     let avg := fun j => rhe (((List.range 64).map fun i => s.factory g f (satI 16 (raw.getD (64 * j + i) 0))).sum) 64
     let tol : Int := max 1 (s.fld (Reg.ADC_CAL_CFG g) F.ADC_CAL_CFG_TOL)
     let ok := (avg 0).natAbs ≤ tol ∧ (avg 1 - 24576).natAbs ≤ tol ∧ (avg 2 + 24576).natAbs ≤ tol
     ok) ∧
    (let s : State := (((r.sf (Reg.ADC_REF_CTRL 19) F.ADC_REF_CTRL_EN 1).sf (Reg.ADC_STAT 19) F.ADC_STAT_REF_READY 1).wr (Reg.ADC_SLOFF 19 0) 0 |>.wr (Reg.ADC_SLGAIN 19 0) 0 |>.wr (Reg.ADC_SLOFF 19 8) 0 |>.wr (Reg.ADC_SLGAIN 19 8) 0).mapAdc 19 fun x => { x with step := 1 }
     let g : Fin 20 := 19
     let f : Nat := 8
     let raw : List Int := []
     (s.adc g).step = 1 ∧
     s.freeSlice g = some f ∧
     f ≤ chans g ∧
     let avg := fun j => rhe (((List.range 64).map fun i => s.factory g f (satI 16 (raw.getD (64 * j + i) 0))).sum) 64
     let tol : Int := max 1 (s.fld (Reg.ADC_CAL_CFG g) F.ADC_CAL_CFG_TOL)
     let ok := (avg 0).natAbs ≤ tol ∧ (avg 1 - 24576).natAbs ≤ tol ∧ (avg 2 + 24576).natAbs ≤ tol
     (¬ok ∧ (s.adc g).again = false)) ∧
    (let s : State := (((r.sf (Reg.ADC_REF_CTRL 19) F.ADC_REF_CTRL_EN 1).sf (Reg.ADC_STAT 19) F.ADC_STAT_REF_READY 1).wr (Reg.ADC_SLOFF 19 0) 0 |>.wr (Reg.ADC_SLGAIN 19 0) 0 |>.wr (Reg.ADC_SLOFF 19 8) 0 |>.wr (Reg.ADC_SLGAIN 19 8) 0).mapAdc 19 fun x => { x with step := 1, again := true }
     let g : Fin 20 := 19
     let f : Nat := 8
     let raw : List Int := []
     (s.adc g).step = 1 ∧
     s.freeSlice g = some f ∧
     f ≤ chans g ∧
     let avg := fun j => rhe (((List.range 64).map fun i => s.factory g f (satI 16 (raw.getD (64 * j + i) 0))).sum) 64
     let tol : Int := max 1 (s.fld (Reg.ADC_CAL_CFG g) F.ADC_CAL_CFG_TOL)
     let ok := (avg 0).natAbs ≤ tol ∧ (avg 1 - 24576).natAbs ≤ tol ∧ (avg 2 + 24576).natAbs ≤ tol
     (¬ok ∧ (s.adc g).again = true)) ∧
    (let s : State := { (((r.sf (Reg.ADC_REF_CTRL 19) F.ADC_REF_CTRL_EN 1).sf (Reg.ADC_STAT 19) F.ADC_STAT_REF_READY 1).wr (Reg.ADC_SLOFF 19 0) 0 |>.wr (Reg.ADC_SLGAIN 19 0) 0 |>.wr (Reg.ADC_SLOFF 19 8) 0 |>.wr (Reg.ADC_SLGAIN 19 8) 0).mapAdc 19 fun x => { x with step := 2, stepTick := 0, last := [(0, some { ch := 0, start := 5, slice := 0, raw := 7, val := 7, clip := false, sat := false, noref := false, test := false })] } with tick := 400, ts := 5 }
     let g : Fin 20 := 19
     let f : Nat := 8
     let v : Conv := { ch := 0, start := 5, slice := 0, raw := 7, val := 7, clip := false, sat := false, noref := false, test := false }
     let raw : Int := 3
     (s.adc g).step = 2 ∧
     (s.adc g).force = none ∧
     s.freeSlice g = some f ∧
     f ≤ chans g ∧
     s.stepChan g < chans g ∧
     s.sliceOf g (s.stepChan g) ≤ chans g ∧
     tget none (s.adc g).last (s.stepChan g) = some v ∧
     s.ts + 400 ≤ v.start + (s.tick - (s.adc g).stepTick) ∧
     (s.adc g).compared ≠ some v.start ∧
     v.slice ≠ 15 ∧
     let c := s.stepChan g
     let d := s.factory g v.slice v.raw - s.factory g f (satI 16 raw)
     d.natAbs ≤ 4) ∧
    (let s : State := { (((r.sf (Reg.ADC_REF_CTRL 19) F.ADC_REF_CTRL_EN 1).sf (Reg.ADC_STAT 19) F.ADC_STAT_REF_READY 1).wr (Reg.ADC_SLOFF 19 0) 0 |>.wr (Reg.ADC_SLGAIN 19 0) 0 |>.wr (Reg.ADC_SLOFF 19 8) 0 |>.wr (Reg.ADC_SLGAIN 19 8) 0).mapAdc 19 fun x => { x with step := 2, stepTick := 0, last := [(0, some { ch := 0, start := 5, slice := 0, raw := 7, val := 7, clip := false, sat := false, noref := false, test := false })] } with tick := 400, ts := 5 }
     let g : Fin 20 := 19
     let f : Nat := 8
     let v : Conv := { ch := 0, start := 5, slice := 0, raw := 7, val := 7, clip := false, sat := false, noref := false, test := false }
     let raw : Int := 2
     (s.adc g).step = 2 ∧
     (s.adc g).force = none ∧
     s.freeSlice g = some f ∧
     f ≤ chans g ∧
     s.stepChan g < chans g ∧
     s.sliceOf g (s.stepChan g) ≤ chans g ∧
     tget none (s.adc g).last (s.stepChan g) = some v ∧
     s.ts + 400 ≤ v.start + (s.tick - (s.adc g).stepTick) ∧
     (s.adc g).compared ≠ some v.start ∧
     v.slice ≠ 15 ∧
     let c := s.stepChan g
     let d := s.factory g v.slice v.raw - s.factory g f (satI 16 raw)
     4 < d.natAbs) ∧
    (let s : State := (((r.sf (Reg.ADC_REF_CTRL 19) F.ADC_REF_CTRL_EN 1).sf (Reg.ADC_STAT 19) F.ADC_STAT_REF_READY 1).wr (Reg.ADC_SLOFF 19 0) 0 |>.wr (Reg.ADC_SLGAIN 19 0) 0 |>.wr (Reg.ADC_SLOFF 19 8) 0 |>.wr (Reg.ADC_SLGAIN 19 8) 0).mapAdc 19 fun x => { x with step := 2 }
     let g : Fin 20 := 19
     let raw : Int := 3
     16 ≤ g.val ∧
     (s.adc g).step = 2 ∧
     (s.adc g).force = none ∧
     ((∀ v, tget none (s.adc g).last (s.stepChan g) = some v → v.start + (s.tick - (s.adc g).stepTick) < s.ts))) ∧
    (let s : State := { (((r.sf (Reg.ADC_REF_CTRL 19) F.ADC_REF_CTRL_EN 1).sf (Reg.ADC_STAT 19) F.ADC_STAT_REF_READY 1).wr (Reg.ADC_SLOFF 19 0) 0 |>.wr (Reg.ADC_SLGAIN 19 0) 0 |>.wr (Reg.ADC_SLOFF 19 8) 0 |>.wr (Reg.ADC_SLGAIN 19 8) 0).mapAdc 19 fun x => { x with step := 2, stepTick := 0, last := [(0, some { ch := 0, start := 5, slice := 0, raw := 7, val := 7, clip := false, sat := false, noref := false, test := false })] } with tick := 400, ts := 406 }
     let g : Fin 20 := 19
     let raw : Int := 3
     16 ≤ g.val ∧
     (s.adc g).step = 2 ∧
     (s.adc g).force = none ∧
     ((∀ v, tget none (s.adc g).last (s.stepChan g) = some v → v.start + (s.tick - (s.adc g).stepTick) < s.ts))) ∧
    (let s : State := (((r.sf (Reg.ADC_REF_CTRL 19) F.ADC_REF_CTRL_EN 1).sf (Reg.ADC_STAT 19) F.ADC_STAT_REF_READY 1).wr (Reg.ADC_SLOFF 19 0) 0 |>.wr (Reg.ADC_SLGAIN 19 0) 0 |>.wr (Reg.ADC_SLOFF 19 8) 0 |>.wr (Reg.ADC_SLGAIN 19 8) 0).mapAdc 19 fun x => { x with step := 2, force := some 7 }
     let g : Fin 20 := 19
     let c : Nat := 7
     (s.adc g).step = 2 ∧
     (s.adc g).force = some c) ∧
    (let s : State := (((r.sf (Reg.ADC_REF_CTRL 19) F.ADC_REF_CTRL_EN 1).sf (Reg.ADC_STAT 19) F.ADC_STAT_REF_READY 1).wr (Reg.ADC_SLOFF 19 0) 0 |>.wr (Reg.ADC_SLGAIN 19 0) 0 |>.wr (Reg.ADC_SLOFF 19 8) 0 |>.wr (Reg.ADC_SLGAIN 19 8) 0).mapAdc 19 fun x => { x with step := 3, pend := [(15, some (3, 0))] }
     let g : Fin 20 := 19
     let k : Fin 16 := 15
     let raw : Int := 3
     let u : Nat := 3
     let c : Nat := 0
     let f : Nat := 8
     tget none (s.adc g).pend k = some (u, c) ∧
     tget none (s.adc g).held c = none ∧
     s.coming g c = [] ∧
     tget none (s.adc g).last c = none ∧
     tget none (s.adc g).cycHold c = none ∧
     (s.adc g).step = 3 ∧
     s.stepChan g = c ∧
     s.freeSlice g = some f ∧
     f ≤ chans g ∧
     c < chans g ∧
     (s.sliceOf g c ≤ chans g ∨ s.sliceOf g c = 15) ∧
     (s.adc g).force = none) ∧
    (let s : State := (((r.sf (Reg.ADC_REF_CTRL 19) F.ADC_REF_CTRL_EN 1).sf (Reg.ADC_STAT 19) F.ADC_STAT_REF_READY 1).wr (Reg.ADC_SLOFF 19 0) 0 |>.wr (Reg.ADC_SLGAIN 19 0) 0 |>.wr (Reg.ADC_SLOFF 19 8) 0 |>.wr (Reg.ADC_SLGAIN 19 8) 0).mapAdc 19 fun x => { x with step := 3, pend := [(15, some (3, 7))], force := some 7 }
     let g : Fin 20 := 19
     let k : Fin 16 := 15
     let raw : Int := 3
     let u : Nat := 3
     let c : Nat := 7
     let f : Nat := 8
     tget none (s.adc g).pend k = some (u, c) ∧
     tget none (s.adc g).held c = none ∧
     s.coming g c = [] ∧
     tget none (s.adc g).last c = none ∧
     tget none (s.adc g).cycHold c = none ∧
     (s.adc g).step = 3 ∧
     s.stepChan g = c ∧
     s.freeSlice g = some f ∧
     f ≤ chans g ∧
     c < chans g ∧
     (s.sliceOf g c ≤ chans g ∨ s.sliceOf g c = 15) ∧
     (s.adc g).force ≠ none) :=
  ⟨by decide +kernel,
    by decide +kernel,
    by decide +kernel,
    by decide +kernel,
    by decide +kernel,
    by decide +kernel,
    by decide +kernel,
    by decide +kernel,
    by decide +kernel,
    by decide +kernel,
    by decide +kernel,
    by decide +kernel,
    by decide +kernel,
    by decide +kernel⟩

/-- States that meet the hypotheses of AnalogHostCommandsRun, clause by clause. -/
theorem test_witness_AnalogHostCommandsRun :
    (let s : State := owned ((r.sf (Reg.ADC_REF_CTRL 19) F.ADC_REF_CTRL_EN 1).sf (Reg.ADC_STAT 19) F.ADC_STAT_REF_READY 1)
     let e : Entry := cmd 0x62 95 [1] 0 none
     let g := (ainGroup (eTarget e)).1
     let c := (ainGroup (eTarget e)).2
     Accepted 0x62 e s ∧
     1 ≤ ent e 8 1 ∧
     ent e 8 1 ≤ 6 ∧
     ent e 9 1 = 0 ∧
     zeroes e 24 48 = true ∧
     ((∀ j : Fin 6, (j.val < ent e 8 1 → -2048 ≤ ptLevel e j ∧ ptLevel e j ≤ 2047) ∧ (ent e 8 1 ≤ j.val → ptLevel e j = 0))) ∧
     (s.groupBusy g = false ∧ s.refReady g = true ∧ s.bit (Reg.ADC_STAT g) F.ADC_STAT_PT_BUSY = false)) ∧
    (let s : State := owned r
     let e : Entry := cmd 0x62 95 [1] 0 none
     let g := (ainGroup (eTarget e)).1
     let c := (ainGroup (eTarget e)).2
     Accepted 0x62 e s ∧
     1 ≤ ent e 8 1 ∧
     ent e 8 1 ≤ 6 ∧
     ent e 9 1 = 0 ∧
     zeroes e 24 48 = true ∧
     ((∀ j : Fin 6, (j.val < ent e 8 1 → -2048 ≤ ptLevel e j ∧ ptLevel e j ≤ 2047) ∧ (ent e 8 1 ≤ j.val → ptLevel e j = 0))) ∧
     (s.refReady g = false ∧ (s.port e.port).d3 = false)) ∧
    (let s : State := (owned ((r.sf (Reg.ADC_REF_CTRL 19) F.ADC_REF_CTRL_EN 1).sf (Reg.ADC_STAT 19) F.ADC_STAT_REF_READY 1)).flag (Reg.ADC_STAT 19) F.ADC_STAT_PT_BUSY
     let e : Entry := cmd 0x62 95 [1] 0 none
     let g := (ainGroup (eTarget e)).1
     let c := (ainGroup (eTarget e)).2
     Accepted 0x62 e s ∧
     1 ≤ ent e 8 1 ∧
     ent e 8 1 ≤ 6 ∧
     ent e 9 1 = 0 ∧
     zeroes e 24 48 = true ∧
     ((∀ j : Fin 6, (j.val < ent e 8 1 → -2048 ≤ ptLevel e j ∧ ptLevel e j ≤ 2047) ∧ (ent e 8 1 ≤ j.val → ptLevel e j = 0))) ∧
     (s.groupBusy g = false ∧ s.refReady g = true ∧ s.bit (Reg.ADC_STAT g) F.ADC_STAT_PT_BUSY = true ∧ (s.port e.port).d3 = false)) ∧
    (let s : State := ((r.sf (Reg.ADC_REF_CTRL 19) F.ADC_REF_CTRL_EN 1).sf (Reg.ADC_STAT 19) F.ADC_STAT_REF_READY 1).mapKeep fun k => { k with waits := [{ e := cmd 0x62 95 [1] 0 none, live := true, silent := false, on := .path 19, st := 0 }] }
     let g : Fin 20 := 19
     let w : Wait := { e := cmd 0x62 95 [1] 0 none, live := true, silent := false, on := .path 19, st := 0 }
     let codes : List Int := [1, 2]
     s.pathWait g = some w ∧
     (s.adc g).ptDone < ent w.e 8 1 ∧
     s.refReady g = true ∧
     let c := (ainGroup (eTarget w.e)).2
     let sl := s.sliceOf g c
     sl ≠ 15) ∧
    (let s : State := (r.mapKeep fun k => { k with waits := [{ e := cmd 0x62 95 [1] 0 none, live := true, silent := false, on := .path 19, st := 0 }] }).mapAdc 19 fun x => { x with ptDone := 1 }
     let g : Fin 20 := 19
     let w : Wait := { e := cmd 0x62 95 [1] 0 none, live := true, silent := false, on := .path 19, st := 0 }
     s.pathWait g = some w ∧
     (∀ v ∈ s.keep.waits, v.on ≠ .turn) ∧
     ent w.e 8 1 ≤ (s.adc g).ptDone ∧
     (w.live = true ∧ w.silent = false ∧ (s.port w.e.port).d3 = false)) ∧
    (let s : State := owned r
     let e : Entry := cmd 0x60 95 (leBytes 4 0x7FFFF ++ leBytes 2 5) 0 none
     let g := (ainGroup (eTarget e)).1
     let c := (ainGroup (eTarget e)).2
     let gu := sx 32 (ent e 8 4)
     Accepted 0x60 e s ∧
     (s.port e.port).d3 = false ∧
     (16 ≤ g ∧ -(2 ^ 19) ≤ gu ∧ gu < 2 ^ 19 ∧ zeroes e 14 48 = true)) ∧
    (let s : State := owned r
     let e : Entry := cmd 0x60 63 (leBytes 4 0xFFF80000 ++ leBytes 2 5) 0 none
     let g := (ainGroup (eTarget e)).1
     let c := (ainGroup (eTarget e)).2
     let gu := sx 32 (ent e 8 4)
     Accepted 0x60 e s ∧
     (s.port e.port).d3 = false ∧
     (g < 16 ∧ -(2 ^ 19) ≤ gu ∧ gu < 2 ^ 19 ∧ zeroes e 14 48 = true)) ∧
    (let s : State := owned r
     let e : Entry := cmd 0x60 95 (leBytes 4 0x80000) 0 none
     let g := (ainGroup (eTarget e)).1
     let c := (ainGroup (eTarget e)).2
     let gu := sx 32 (ent e 8 4)
     Accepted 0x60 e s ∧
     (s.port e.port).d3 = false ∧
     (gu < -(2 ^ 19) ∨ 2 ^ 19 ≤ gu)) ∧
    (let s : State := owned r
     let e : Entry := cmd 0x61 19 [] 72 (some [])
     let b : List Byte := []
     Accepted 0x61 e s ∧
     (s.port e.port).d3 = false ∧
     e.buf = some b ∧
     eBufLen e = 8 * (chans (eTarget e) + 1) ∧
     zeroes e 8 48 = true) :=
  ⟨⟨accepted_of (by decide +kernel), by decide +kernel⟩,
    ⟨accepted_of (by decide +kernel), by decide +kernel⟩,
    ⟨accepted_of (by decide +kernel), by decide +kernel⟩,
    by decide +kernel,
    by decide +kernel,
    ⟨accepted_of (by decide +kernel), by decide +kernel⟩,
    ⟨accepted_of (by decide +kernel), by decide +kernel⟩,
    ⟨accepted_of (by decide +kernel), by decide +kernel⟩,
    ⟨accepted_of (by decide +kernel), by decide +kernel⟩⟩

/-- States that meet the hypotheses of CyclesBeginEndAndTakeTheirSamples, clause by clause. -/
theorem test_witness_CyclesBeginEndAndTakeTheirSamples :
    (let s : State := (r.sf (Reg.FC_CYC_CTRL 15) F.FC_CYC_CTRL_RUN 1).mapFc 15 fun x => { x with next := 1600 }
     let n : Fin 16 := 15
     s.follower n = false ∧
     s.bit (Reg.FC_CYC_CTRL n) F.FC_CYC_CTRL_RUN = true ∧
     (∀ w ∈ s.keep.waits, w.on ≠ .sample n ∧ w.on ≠ .turn ∧ ∀ l, w.on ≠ .bypass l) ∧
     (∀ m, (s.fc m).writes = [])) ∧
    (let s : State := (r.sf (Reg.FC_CYC_CTRL 15) F.FC_CYC_CTRL_RUN 1).mapFc 15 fun x => { x with next := 1600, writes := [(Reg.OBS_SHTGT 15 7, 9)] }
     let n : Fin 16 := 15
     let ch : Fin 8 := 7
     let v : Word := 9
     s.follower n = false ∧
     s.bit (Reg.FC_CYC_CTRL n) F.FC_CYC_CTRL_RUN = true ∧
     (∀ w ∈ s.keep.waits, w.on ≠ .sample n ∧ w.on ≠ .turn ∧ ∀ l, w.on ≠ .bypass l) ∧
     s.cycleFcs n = [n.val] ∧
     (s.fc n).writes = [(Reg.OBS_SHTGT n ch, v)]) ∧
    (let s : State := r.sf (Reg.FC_CYC_STAT 15) F.FC_CYC_STAT_RUNNING 1
     let n : Fin 16 := 15
     s.follower n = false ∧
     s.bit (Reg.FC_CYC_CTRL n) F.FC_CYC_CTRL_RUN = false ∧
     s.bit (Reg.FC_CYC_STAT n) F.FC_CYC_STAT_RUNNING = true ∧
     (∀ w ∈ s.keep.waits, w.on ≠ .sample n ∧ w.on ≠ .turn ∧ w.on ≠ .stop ∧ ∀ l, w.on ≠ .bypass l)) ∧
    (let s : State := ((going 15 r).wr (Reg.FC_CYC_COUNT 15) 1).wr (lnkStat 1023) 5
     let n : Fin 16 := 15
     s.stepDue n 64 = true ∧
     (s.fc n).fresh = false ∧
     (s.judged 1023 (s.count n - 1) = true ∧ (s.lane 1023).rx = none)) ∧
    (let s : State := (((going 15 r).wr (Reg.FC_CYC_COUNT 15) 1).wr (lnkStat 1023) 5).mapLane 1023 fun x => { x with rx := some { bytes := goodBarge, viol := 0 } }
     let n : Fin 16 := 15
     s.stepDue n 64 = true ∧
     (s.fc n).fresh = false ∧
     (s.judged 1023 (s.count n - 1) = true ∧ ({ bytes := goodBarge, viol := 0 } : Rx).goodCtrl 1023 (s.count n - 1).toNat = true)) ∧
    (let s : State := going 15 r
     let n : Fin 16 := 15
     s.stepDue n 88 = true) ∧
    (let s : State := (flt 15 1 3).sf (Reg.FC_FLT_CFG 15 1) F.FC_FLT_CFG_REF_SRC 4
     let n : Fin 16 := 15
     let ch : Fin 8 := 7
     let who : Fin 21 := 19
     let v : Word := 9
     let f : Nat := 1
     s.shOwner n ch = some f ∧
     let ok := who.val = 20 ∨ (16 ≤ who.val ∧ s.fld (Reg.FC_FLT_CFG n f) F.FC_FLT_CFG_REF_SRC = who.val - 15 ∧ s.fltState n f ≠ 4)
     (who.val = 20 ∨ (16 ≤ who.val ∧ s.fld (Reg.FC_FLT_CFG n f) F.FC_FLT_CFG_REF_SRC = who.val - 15 ∧ s.fltState n f ≠ 4))) ∧
    (let s : State := (flt 15 1 4).sf (Reg.FC_FLT_CFG 15 1) F.FC_FLT_CFG_REF_SRC 4
     let n : Fin 16 := 15
     let ch : Fin 8 := 7
     let who : Fin 21 := 19
     let v : Word := 9
     let f : Nat := 1
     s.shOwner n ch = some f ∧
     let ok := who.val = 20 ∨ (16 ≤ who.val ∧ s.fld (Reg.FC_FLT_CFG n f) F.FC_FLT_CFG_REF_SRC = who.val - 15 ∧ s.fltState n f ≠ 4)
     (¬(who.val = 20 ∨ (16 ≤ who.val ∧ s.fld (Reg.FC_FLT_CFG n f) F.FC_FLT_CFG_REF_SRC = who.val - 15 ∧ s.fltState n f ≠ 4)))) :=
  ⟨⟨by decide +kernel, by decide +kernel, nowaits, nowrites⟩,
    ⟨by decide +kernel, by decide +kernel, nowaits, by decide +kernel, by decide +kernel⟩,
    ⟨by decide +kernel, by decide +kernel, by decide +kernel, nowaits⟩,
    by decide +kernel,
    by decide +kernel,
    by decide +kernel,
    by decide +kernel,
    by decide +kernel⟩

/-- States that meet the hypotheses of BalancerAndObserverStepsRun, clause by clause. -/
theorem test_witness_BalancerAndObserverStepsRun :
    (let s : State := (going 15 r).mapFc 15 fun x => { x with ucRun := true, ucTick := 235 }
     let m : Fin 16 := 15
     s.cycling m = true ∧
     (s.fc m).ucRun = true ∧
     (s.fc m).ucTick < 236 ∧
     let x := s.fc m
     s.csWord m 2 (s.fc m).ucPc = none) ∧
    (let s : State := { ((going 15 r).wr (Reg.MCS_VMAPE 15 2) 0xFFFF).mapFc 15 fun x => { x with ucRun := true, ucTick := 232 } with cs := [(csKey 15 2 0, 0x4000)] }
     let m : Fin 16 := 15
     s.cycling m = true ∧
     (s.fc m).ucRun = true ∧
     (s.fc m).ucTick < 236 ∧
     let x := s.fc m
     (s.csWord m 2 (s.fc m).ucPc = some 0x4000 ∧ nbits 0x4000 56 2 = 0)) ∧
    (let s : State := going 15 (flt 15 1 3)
     let n : Fin 16 := 15
     s.stepDue n 236 = true ∧
     (s.leads n 1 = true ∧ (s.slot n 1).published = false)) ∧
    (let s : State := { (((going 15 (flt 15 1 3)).wr (Reg.MCS_VMAPE 15 1) 0xFFFF).sf (Reg.OBS_BANK 15 1) F.OBS_BANK_VAL_A 1).mapFc 15 fun x => { x with obsRun := true, obsPc := 95 } with banks := [(62, [0, 1])], cs := [(csKey 15 1 95, 0x80)] }
     let n : Fin 16 := 15
     let f : Nat := 1
     let l : List Byte := [0, 1]
     let mw : Nat := 0x80
     s.cycling n = true ∧
     s.follower n = false ∧
     (s.fc n).obsRun = true ∧
     (s.fc n).obsPc < 96 ∧
     let x := s.fc n
     let w := x.obsPc
     s.wordSlot n w = some (f, l) ∧
     s.csWord n 1 (imgU l 2 2 + (if setWhole l then w else w % 48)) = some mw ∧
     owIssue mw = true ∧
     owPass mw = 0) ∧
    (let s : State := { (((going 15 (flt 15 1 3)).wr (Reg.MCS_VMAPE 15 1) 0xFFFF).sf (Reg.OBS_BANK 15 1) F.OBS_BANK_VAL_A 1).mapFc 15 fun x => { x with obsRun := true, obsPc := 95 } with banks := [(62, [0, 1])], cs := [(csKey 15 1 95, 0xDF)] }
     let n : Fin 16 := 15
     let f : Nat := 1
     let l : List Byte := [0, 1]
     let mw : Nat := 0xDF
     s.cycling n = true ∧
     s.follower n = false ∧
     (s.fc n).obsRun = true ∧
     (s.fc n).obsPc < 96 ∧
     let x := s.fc n
     let w := x.obsPc
     s.wordSlot n w = some (f, l) ∧
     s.csWord n 1 (imgU l 2 2 + (if setWhole l then w else w % 48)) = some mw ∧
     owIssue mw = true ∧
     (owPass mw = 1 ∧ x.obsLow = none)) ∧
    (let s : State := { (((going 15 (flt 15 1 3)).wr (Reg.MCS_VMAPE 15 1) 0xFFFF).sf (Reg.OBS_BANK 15 1) F.OBS_BANK_VAL_A 1).mapFc 15 fun x => { x with obsRun := true, obsPc := 95, obsLow := some (-5) } with banks := [(62, [0, 1])], cs := [(csKey 15 1 95, 0xDF)] }
     let n : Fin 16 := 15
     let f : Nat := 1
     let l : List Byte := [0, 1]
     let mw : Nat := 0xDF
     s.cycling n = true ∧
     s.follower n = false ∧
     (s.fc n).obsRun = true ∧
     (s.fc n).obsPc < 96 ∧
     let x := s.fc n
     let w := x.obsPc
     s.wordSlot n w = some (f, l) ∧
     s.csWord n 1 (imgU l 2 2 + (if setWhole l then w else w % 48)) = some mw ∧
     owIssue mw = true ∧
     (x.obsLow = some (-5) ∧ owPass mw = 1 ∧ owRow mw < 32 ∧ owFrz mw = false)) ∧
    (let s : State := (going 15 r).mapFc 15 fun x => { x with obsU := [(7, 5)] }
     let n : Fin 16 := 15
     s.stepDue n 184 = true ∧
     ((s.fc n).obsU.map (·.1)).Nodup) ∧
    (let s : State := (going 15 (flt 15 1 3)).sf (Reg.GLV_STAT 15) F.GLV_STAT_STATE 0 |>.mapSlot 15 1 fun x => { x with sum := 4000, a := 4, afb := 4 }
     let n : Fin 16 := 15
     s.stepDue n 200 = true ∧
     (s.leads n 1 = true ∧ s.runs n 1 = true ∧ s.pairDown n = false ∧ (s.slot n 1).sum ≠ 0 ∧ (s.slot n 1).a ≠ 0)) ∧
    (let s : State := going 15 (flt 15 1 3)
     let n : Fin 16 := 15
     s.stepDue n 240 = true ∧
     (s.runs n 1 = true ∧ (s.fc n).holdCyc = false ∧ s.bit (Reg.FC_N_OVRD n 1) F.FC_N_OVRD_VALID = false)) ∧
    (let s : State := (((going 15 (flt 15 1 3)).wr (Reg.FC_CYC_COUNT 15) 0xFF).wr (Reg.FC_N_OVRD 15 1) (fput (fput (fput 0 F.FC_N_OVRD_VALID 1) F.FC_N_OVRD_N 3) F.FC_N_OVRD_CYC 255)).mapSlot 15 1 fun x => { x with a := 4, n := 1 }
     let n : Fin 16 := 15
     s.stepDue n 240 = true ∧
     (s.runs n 1 = true ∧ (s.fc n).holdCyc = false ∧ s.bit (Reg.FC_N_OVRD n 1) F.FC_N_OVRD_VALID = true ∧ s.fld (Reg.FC_N_OVRD n 1) F.FC_N_OVRD_CYC = (s.count n).toNat % 256)) :=
  ⟨by decide +kernel,
    by decide +kernel,
    by decide +kernel,
    by decide +kernel,
    by decide +kernel,
    by decide +kernel,
    by decide +kernel,
    by decide +kernel,
    by decide +kernel,
    by decide +kernel⟩

/-- States that meet the hypotheses of EdgesPostingsAndBooksRun, clause by clause. -/
theorem test_witness_EdgesPostingsAndBooksRun :
    (let s : State := going 15 (flt 15 1 2)
     let n : Fin 16 := 15
     let f : Fin 2 := 1
     s.stepDue n 256 = true ∧
     s.bound n f = true ∧
     s.bound n (1 - f.val) = false ∧
     (s.slotLinks n f).Nodup ∧
     let frz := s.freezeOn (s.flightOf n f)
     (960 ∈ s.slotLinks n f ∧ s.runs n f = false)) ∧
    (let s : State := (going 15 (flt 15 1 3)).mapLane 960 fun x => { x with mode := 8 }
     let n : Fin 16 := 15
     let f : Fin 2 := 1
     s.stepDue n 256 = true ∧
     s.bound n f = true ∧
     s.bound n (1 - f.val) = false ∧
     (s.slotLinks n f).Nodup ∧
     let frz := s.freezeOn (s.flightOf n f)
     (960 ∈ s.slotLinks n f ∧ s.runs n f = true ∧ nbit (s.lane 960).mode 3 = true)) ∧
    (let s : State := (((going 15 (flt 15 1 3)).sf (Reg.SLU_GSTAT 31) F.SLU_GSTAT_LATCHED 1).sf (Reg.SLU_GCFG 31) F.SLU_GCFG_ACTION 1).wr (Reg.SLU_GFLT 31) 0x80000000
     let n : Fin 16 := 15
     let f : Fin 2 := 1
     s.stepDue n 256 = true ∧
     s.bound n f = true ∧
     s.bound n (1 - f.val) = false ∧
     (s.slotLinks n f).Nodup ∧
     let frz := s.freezeOn (s.flightOf n f)
     (960 ∈ s.slotLinks n f ∧ s.runs n f = true ∧ nbit (s.lane 960).mode 3 = false ∧ frz = true)) ∧
    (let s : State := (going 15 (flt 15 1 3)).mapSlot 15 1 fun x => { x with trim := some 960, d := 800 }
     let n : Fin 16 := 15
     let f : Fin 2 := 1
     s.stepDue n 256 = true ∧
     s.bound n f = true ∧
     s.bound n (1 - f.val) = false ∧
     (s.slotLinks n f).Nodup ∧
     let frz := s.freezeOn (s.flightOf n f)
     (960 ∈ s.slotLinks n f ∧ s.runs n f = true ∧ nbit (s.lane 960).mode 3 = false ∧ frz = false)) ∧
    (let s : State := ((going 15 (flt 15 1 3)).mapSlot 15 1 fun x => { x with na := 2, d := 800, cur := 100 }).mapLane 960 fun x => { x with l1 := 1, l2 := 1 }
     let n : Fin 16 := 15
     let f : Fin 2 := 1
     s.stepDue n 480 = true ∧
     s.bound n f = true ∧
     s.bound n (1 - f.val) = false ∧
     s.runs n f = true ∧
     s.blockOn (s.flightOf n f) = false ∧
     (s.slot n f).freeze = false ∧
     (s.slotLinks n f).Nodup) ∧
    (let s : State := (going 15 (flt 15 1 3)).mapLane 960 fun x => { x with acc := 5 }
     let n : Fin 16 := 15
     let f : Fin 2 := 1
     s.stepDue n 552 = true ∧
     s.bound n f = true ∧
     s.runs n f = true ∧
     wrap64 (s.sumAcc n f - (s.slot n f).facc - (s.slot n f).racc) ≠ 0) ∧
    (let s : State := ((going 15 (flt 15 1 3)).mapFc 15 fun x => { x with done := [552] }).mapKeep fun k => { k with waits := [{ e := cmd 0x92 31 [5] 0 none, live := true, silent := false, on := .rebase 15, st := 3 }] }
     let n : Fin 16 := 15
     let w : Wait := { e := cmd 0x92 31 [5] 0 none, live := true, silent := false, on := .rebase 15, st := 3 }
     let m : Nat := 15
     let f : Nat := 1
     s.stepDue n 560 = true ∧
     552 ∈ (s.fc n).done ∧
     (s.keep.waits.filter fun v => v.on == .rebase n) = [w] ∧
     (∀ v ∈ s.keep.waits, v.on ≠ .turn) ∧
     w.live = true ∧
     w.silent = false ∧
     s.slotOf (eTarget w.e) = some (m, f) ∧
     (s.port w.e.port).d3 = false ∧
     (s.slot m f).rebase = false) ∧
    (let s : State := (((going 15 (flt 15 1 3)).mapSlot 15 1 fun x => { x with rebase := true }).mapFc 15 fun x => { x with done := [552] }).mapKeep fun k => { k with waits := [{ e := cmd 0x92 31 [5] 0 none, live := true, silent := false, on := .rebase 15, st := 3 }] }
     let n : Fin 16 := 15
     let w : Wait := { e := cmd 0x92 31 [5] 0 none, live := true, silent := false, on := .rebase 15, st := 3 }
     let m : Nat := 15
     let f : Nat := 1
     s.stepDue n 560 = true ∧
     552 ∈ (s.fc n).done ∧
     (s.keep.waits.filter fun v => v.on == .rebase n) = [w] ∧
     (∀ v ∈ s.keep.waits, v.on ≠ .turn) ∧
     w.live = true ∧
     w.silent = false ∧
     s.slotOf (eTarget w.e) = some (m, f) ∧
     (s.port w.e.port).d3 = false ∧
     ((s.slot m f).rebase = true ∧ s.fltState m f = w.st ∧ (s.slot m f).res = 0 ∧ s.tripped (s.flightOf m f) = false)) ∧
    (let s : State := (((going 15 (flt 15 1 3)).mapSlot 15 1 fun x => { x with rebase := true, res := 1 }).mapFc 15 fun x => { x with done := [552] }).mapKeep fun k => { k with waits := [{ e := cmd 0x92 31 [5] 0 none, live := true, silent := false, on := .rebase 15, st := 3 }] }
     let n : Fin 16 := 15
     let w : Wait := { e := cmd 0x92 31 [5] 0 none, live := true, silent := false, on := .rebase 15, st := 3 }
     let m : Nat := 15
     let f : Nat := 1
     s.stepDue n 560 = true ∧
     552 ∈ (s.fc n).done ∧
     (s.keep.waits.filter fun v => v.on == .rebase n) = [w] ∧
     (∀ v ∈ s.keep.waits, v.on ≠ .turn) ∧
     w.live = true ∧
     w.silent = false ∧
     s.slotOf (eTarget w.e) = some (m, f) ∧
     (s.port w.e.port).d3 = false ∧
     ((s.slot m f).rebase = true ∧ (s.slot m f).res ≠ 0)) ∧
    (let s : State := going 15 (flt 15 1 3)
     let n : Fin 16 := 15
     let f : Fin 2 := 1
     let l : Nat := 960
     s.stepDue n 553 = true ∧
     s.leads n f = true ∧
     s.runs n f = true ∧
     s.bound n (1 - f.val) = false ∧
     (s.slotLinks n f).Nodup ∧
     l ∈ s.slotLinks n f ∧
     l / 64 = n ∧
     s.bit (Reg.WEAR_CFG n) F.WEAR_CFG_DIV = false) :=
  ⟨by decide +kernel,
    by decide +kernel,
    by decide +kernel,
    by decide +kernel,
    by decide +kernel,
    by decide +kernel,
    by decide +kernel,
    by decide +kernel,
    by decide +kernel,
    by decide +kernel⟩

/-- States that meet the hypotheses of FlightStateCommandsRun, clause by clause. -/
theorem test_witness_FlightStateCommandsRun :
    (let s : State := going 15 r
     let n : Fin 16 := 15
     let f : Fin 2 := 1
     let code : Fin 8 := 5
     (code.val ≤ 5 ∧ s.cycling n = true)) ∧
    (let s : State := r
     let n : Fin 16 := 15
     let f : Fin 2 := 1
     let code : Fin 8 := 5
     (code.val ≤ 5 ∧ s.cycling n = false)) ∧
    (let s : State := owned (ready (going 15 (flt 15 1 2)))
     let e : Entry := cmd 0x33 31 [] 0 none
     let n : Nat := 15
     let f : Nat := 1
     Accepted 0x33 e s ∧
     zeroes e 8 48 = true ∧
     s.slotOf (eTarget e) = some (n, f) ∧
     s.startFail n f = none ∧
     s.fltState n f = 2 ∧
     s.startReady n f = true ∧
     (s.port e.port).d3 = false ∧
     s.cycling n = true) ∧
    (let s : State := owned (ready (flt 15 1 2))
     let e : Entry := cmd 0x33 31 [] 0 none
     let n : Nat := 15
     let f : Nat := 1
     Accepted 0x33 e s ∧
     zeroes e 8 48 = true ∧
     s.slotOf (eTarget e) = some (n, f) ∧
     s.startFail n f = none ∧
     s.fltState n f = 2 ∧
     s.startReady n f = true ∧
     (s.port e.port).d3 = false ∧
     s.cycling n = false) ∧
    (let s : State := owned (going 15 (flt 15 1 4))
     let e : Entry := cmd 0x34 31 [] 0 none
     let n : Nat := 15
     let f : Nat := 1
     Accepted 0x34 e s ∧
     zeroes e 8 48 = true ∧
     s.slotOf (eTarget e) = some (n, f) ∧
     s.runs n f = true ∧
     (s.port e.port).d3 = false ∧
     s.cycling n = true) ∧
    (let s : State := owned (flt 15 1 4)
     let e : Entry := cmd 0x34 31 [] 0 none
     let n : Nat := 15
     let f : Nat := 1
     Accepted 0x34 e s ∧
     zeroes e 8 48 = true ∧
     s.slotOf (eTarget e) = some (n, f) ∧
     s.runs n f = true ∧
     (s.port e.port).d3 = false ∧
     s.cycling n = false) ∧
    (let s : State := owned (going 15 (flt 15 1 4))
     let e : Entry := cmd 0x35 31 [] 0 none
     let n : Nat := 15
     let f : Nat := 1
     Accepted 0x35 e s ∧
     ent e 8 1 ≤ 1 ∧
     zeroes e 9 48 = true ∧
     s.slotOf (eTarget e) = some (n, f) ∧
     s.fltState n f = (if ent e 8 1 = 1 then 3 else 4) ∧
     (s.port e.port).d3 = false ∧
     s.cycling n = true) ∧
    (let s : State := owned ((flt 15 1 3).wr (Reg.OBS_SHOUT 15 7) 5)
     let e : Entry := cmd 0x35 31 [1] 0 none
     let n : Nat := 15
     let f : Nat := 1
     Accepted 0x35 e s ∧
     ent e 8 1 ≤ 1 ∧
     zeroes e 9 48 = true ∧
     s.slotOf (eTarget e) = some (n, f) ∧
     s.fltState n f = (if ent e 8 1 = 1 then 3 else 4) ∧
     (s.port e.port).d3 = false ∧
     (s.cycling n = false ∧ ent e 8 1 = 1 ∧ s.shOwner n 7 = some f)) ∧
    (let s : State := owned (going 15 (flt 15 1 3))
     let e : Entry := cmd 0x32 31 ([0xF0] ++ List.replicate 31 0 ++ [9]) 0 none
     let n : Nat := 15
     let f : Nat := 1
     Accepted 0x32 e s ∧
     ent e 8 1 ≠ 0 ∧
     zeroes e 9 12 = true ∧
     zeroes e 44 48 = true ∧
     s.slotOf (eTarget e) = some (n, f) ∧
     ((∀ ch : Fin 8, nbit (ent e 8 1) ch = true → s.shOwner n ch = some f)) ∧
     s.fltState n f ≠ 4 ∧
     s.fltState n f ≠ 0 ∧
     s.fld (Reg.FC_FLT_CFG n f) F.FC_FLT_CFG_REF_SRC = 0 ∧
     (s.port e.port).d3 = false ∧
     s.cycling n = true) ∧
    (let s : State := owned (flt 15 1 3)
     let e : Entry := cmd 0x32 31 ([0xF0] ++ List.replicate 31 0 ++ [9]) 0 none
     let n : Nat := 15
     let f : Nat := 1
     Accepted 0x32 e s ∧
     ent e 8 1 ≠ 0 ∧
     zeroes e 9 12 = true ∧
     zeroes e 44 48 = true ∧
     s.slotOf (eTarget e) = some (n, f) ∧
     ((∀ ch : Fin 8, nbit (ent e 8 1) ch = true → s.shOwner n ch = some f)) ∧
     s.fltState n f ≠ 4 ∧
     s.fltState n f ≠ 0 ∧
     s.fld (Reg.FC_FLT_CFG n f) F.FC_FLT_CFG_REF_SRC = 0 ∧
     (s.port e.port).d3 = false ∧
     s.cycling n = false) ∧
    (let s : State := owned (flt 15 1 3)
     let e : Entry := cmd 0x92 31 [5] 0 none
     let n : Nat := 15
     let f : Nat := 1
     Accepted 0x92 e s ∧
     zeroes e 16 48 = true ∧
     s.slotOf (eTarget e) = some (n, f) ∧
     s.runs n f = true) :=
  ⟨by decide +kernel,
    by decide +kernel,
    ⟨accepted_of (by decide +kernel), by decide +kernel⟩,
    ⟨accepted_of (by decide +kernel), by decide +kernel⟩,
    ⟨accepted_of (by decide +kernel), by decide +kernel⟩,
    ⟨accepted_of (by decide +kernel), by decide +kernel⟩,
    ⟨accepted_of (by decide +kernel), by decide +kernel⟩,
    ⟨accepted_of (by decide +kernel), by decide +kernel⟩,
    ⟨accepted_of (by decide +kernel), by decide +kernel⟩,
    ⟨accepted_of (by decide +kernel), by decide +kernel⟩,
    ⟨accepted_of (by decide +kernel), by decide +kernel⟩⟩

/-- States that meet the hypotheses of BindingsAreMadeAndEnded, clause by clause. -/
theorem test_witness_BindingsAreMadeAndEnded :
    (let s : State := owned (((r.wr (Reg.FC_CDESC 15 56 0) 0x101).wr (Reg.MCS_VMAPE 15 0) 0xFFFF).wr Reg.MEM_BIST_FC 0x1FFFF)
     let e : Entry := cmd 0x10 0 (leBytes 1 31 ++ [1, 15, 56, 8, 0, 1, 0] ++ leBytes 2 8 ++ leBytes 4 1599 ++ leBytes 4 720) 0 none
     let d := fltDesc e
     Accepted 0x10 e s ∧
     d.formOk e = true ∧
     d.gang = 1 ∧
     s.bindBad d = false ∧
     s.bindConflict d = false ∧
     s.follower d.ld = false ∧
     (s.port e.port).d3 = false ∧
     s.runOn d.ld = false ∧
     s.cycling d.ld = false) ∧
    (let s : State := owned (going 15 ((((r.wr (Reg.FC_CDESC 15 56 0) 0x101).wr (Reg.MCS_VMAPE 15 0) 0xFFFF).wr Reg.MEM_BIST_FC 0x1FFFF).wr (Reg.FC_APPLY_LAT 15) 1280))
     let e : Entry := cmd 0x10 0 (leBytes 1 31 ++ [1, 15, 56, 8, 0, 1, 0] ++ leBytes 2 8 ++ leBytes 4 0 ++ leBytes 4 1280) 0 none
     let d := fltDesc e
     Accepted 0x10 e s ∧
     d.formOk e = true ∧
     d.gang = 1 ∧
     s.bindBad d = false ∧
     s.bindConflict d = false ∧
     s.runOn d.ld = true ∧
     s.cycling d.ld = true ∧
     s.cycVals d.ld = (d.len, d.phase, d.lat)) ∧
    (let s : State := owned ((forN 4 (fun k s => s.wr (Reg.MCS_VMAPE (12 + k) 0) 0xFFFF) (r.wr (Reg.FC_CDESC 15 63 0) 0x101)).wr Reg.MEM_BIST_FC 0x1FFFF)
     let e : Entry := cmd 0x10 0 (leBytes 1 31 ++ [4, 12, 0, 0, 1, 1, 0] ++ leBytes 2 8 ++ leBytes 4 1599 ++ leBytes 4 720) 0 none
     let d := fltDesc e
     Accepted 0x10 e s ∧
     d.formOk e = true ∧
     d.gang ≠ 1 ∧
     s.bindBad d = false ∧
     s.bindConflict d = false ∧
     ((∀ m ∈ d.fcs, s.follower m = false ∧ s.runOn m = false ∧ s.cycling m = false)) ∧
     (s.port e.port).d3 = false) ∧
    (let s : State := owned (going 15 (flt 15 1 5))
     let e : Entry := cmd 0x11 31 [1] 0 none
     let n : Nat := 15
     let f : Nat := 1
     Accepted 0x11 e s ∧
     ent e 8 1 ≤ 1 ∧
     zeroes e 9 48 = true ∧
     s.slotOf (eTarget e) = some (n, f) ∧
     (s.fltState n f = 1 ∨ s.fltState n f = 2 ∨ s.fltState n f = 5) ∧
     (s.port e.port).d3 = false ∧
     s.cycling n = true) ∧
    (let s : State := owned ((flt 15 1 1).wr (lnkStat 960) 5)
     let e : Entry := cmd 0x11 31 [] 0 none
     let n : Nat := 15
     let f : Nat := 1
     Accepted 0x11 e s ∧
     ent e 8 1 ≤ 1 ∧
     zeroes e 9 48 = true ∧
     s.slotOf (eTarget e) = some (n, f) ∧
     (s.fltState n f = 1 ∨ s.fltState n f = 2 ∨ s.fltState n f = 5) ∧
     (s.port e.port).d3 = false ∧
     (s.cycling n = false ∧ ent e 8 1 = 0 ∧ 960 ∈ s.slotLinks n f)) :=
  ⟨⟨accepted_of (by decide +kernel), by decide +kernel⟩,
    ⟨accepted_of (by decide +kernel), by decide +kernel⟩,
    ⟨accepted_of (by decide +kernel), by decide +kernel⟩,
    ⟨accepted_of (by decide +kernel), by decide +kernel⟩,
    ⟨accepted_of (by decide +kernel), by decide +kernel⟩⟩

/-- States that meet the hypotheses of CellAndCoefficientCommandsRun, clause by clause. -/
theorem test_witness_CellAndCoefficientCommandsRun :
    (let s : State := owned (r)
     let e : Entry := cmd 0x12 1023 [1] 32 (some ([1, 1, 1, 0, 0, 0, 40] ++ List.replicate 25 0))
     let b : List Byte := ([1, 1, 1, 0, 0, 0, 40] ++ List.replicate 25 0)
     let l := eTarget e
     let cnt := ent e 8 2
     let d := fun i => (b.drop (32 * i)).take 32
     Accepted 0x12 e s ∧
     1 ≤ cnt ∧
     l + cnt ≤ 1024 ∧
     eBufLen e = 32 * cnt ∧
     e.buf = some b ∧
     zeroes e 10 48 = true ∧
     ((∀ i, i < cnt → descOk (d i) = true ∧ s.linkSlot (l + i) = none ∧ (s.fcLocked ((l + i) / 64) = true → leAt (d i) 20 2 ≤ s.vcapOv (l + i)))) ∧
     (s.port e.port).d3 = false) ∧
    (let s : State := owned ((r.sf (Reg.FC_LOCK 15) F.FC_LOCK_LOCK 1).wr (Reg.FC_CDESC 15 63 5) 5)
     let e : Entry := cmd 0x12 1023 [1] 32 (some ([1, 1, 1, 0, 0, 0, 40] ++ List.replicate 13 0 ++ [5] ++ List.replicate 11 0))
     let b : List Byte := ([1, 1, 1, 0, 0, 0, 40] ++ List.replicate 13 0 ++ [5] ++ List.replicate 11 0)
     let l := eTarget e
     let cnt := ent e 8 2
     let d := fun i => (b.drop (32 * i)).take 32
     Accepted 0x12 e s ∧
     1 ≤ cnt ∧
     l + cnt ≤ 1024 ∧
     eBufLen e = 32 * cnt ∧
     e.buf = some b ∧
     zeroes e 10 48 = true ∧
     ((∀ i, i < cnt → descOk (d i) = true ∧ s.linkSlot (l + i) = none ∧ (s.fcLocked ((l + i) / 64) = true → leAt (d i) 20 2 ≤ s.vcapOv (l + i)))) ∧
     (s.port e.port).d3 = false) ∧
    (let s : State := owned (r.wr (Reg.FC_CDESC 15 63 0) 0x101)
     let e : Entry := cmd 0x13 1023 [2, 0, 0, 0, 9] 0 none
     let l := eTarget e
     let fl := ent e 8 1
     Accepted 0x13 e s ∧
     1 ≤ fl ∧
     fl ≤ 7 ∧
     s.cellType l ≠ 0 ∧
     ent e 9 1 ≤ (if nbit fl 0 then 7 else 0) ∧
     (nbit fl 1 = true ∨ ent e 12 4 = 0) ∧
     (nbit fl 2 = true ∨ ent e 16 2 = 0) ∧
     zeroes e 10 12 = true ∧
     zeroes e 18 48 = true ∧
     (nbit fl 2 = false ∨ s.fcLocked (l / 64) = false ∨ ent e 16 2 ≤ s.vcapOv l) ∧
     (s.port e.port).d3 = false ∧
     s.cycling (s.leader (l / 64)) = false) ∧
    (let s : State := owned (going 15 ((r.wr (Reg.FC_CDESC 15 63 0) 0x101).sf (Reg.FC_LOCK 15) F.FC_LOCK_LOCK 1))
     let e : Entry := cmd 0x13 1023 [7, 7, 0, 0, 9, 0, 0, 0, 0] 0 none
     let l := eTarget e
     let fl := ent e 8 1
     Accepted 0x13 e s ∧
     1 ≤ fl ∧
     fl ≤ 7 ∧
     s.cellType l ≠ 0 ∧
     ent e 9 1 ≤ (if nbit fl 0 then 7 else 0) ∧
     (nbit fl 1 = true ∨ ent e 12 4 = 0) ∧
     (nbit fl 2 = true ∨ ent e 16 2 = 0) ∧
     zeroes e 10 12 = true ∧
     zeroes e 18 48 = true ∧
     (nbit fl 2 = false ∨ s.fcLocked (l / 64) = false ∨ ent e 16 2 ≤ s.vcapOv l) ∧
     (s.port e.port).d3 = false ∧
     (s.cycling (s.leader (l / 64)) = true ∧ s.fcLocked 15 = true)) ∧
    (let s : State := owned (((flt 15 1 1).wr (Reg.FC_CDESC 15 3 0) 0x101).wr (lnkStat 963) 5)
     let e : Entry := cmd 0x14 963 [] 0 none
     let n : Nat := 15
     let f : Nat := 1
     let l := eTarget e
     Accepted 0x14 e s ∧
     zeroes e 8 48 = true ∧
     (s.cellType l = 1 ∨ s.cellType l = 2) ∧
     (s.decl8 l 0 = 0 ∨ nbit (s.decl8 l 28) 1 = true) ∧
     s.linkFlight l = some (n, f) ∧
     s.fltState n f ≠ 0 ∧
     s.laneUp l = true ∧
     s.decl8 l 0 = 0) ∧
    (let s : State := owned (((((flt 15 1 1).wr (Reg.FC_CDESC 15 3 0) 0x101).wr (lnkStat 963) 5).wr (Reg.LNK_DECL 15 3 0) 1).wr (Reg.LNK_DECL 15 3 7) 2)
     let e : Entry := cmd 0x14 963 [] 0 none
     let n : Nat := 15
     let f : Nat := 1
     let l := eTarget e
     Accepted 0x14 e s ∧
     zeroes e 8 48 = true ∧
     (s.cellType l = 1 ∨ s.cellType l = 2) ∧
     (s.decl8 l 0 = 0 ∨ nbit (s.decl8 l 28) 1 = true) ∧
     s.linkFlight l = some (n, f) ∧
     s.fltState n f ≠ 0 ∧
     s.laneUp l = true ∧
     nbit (s.decl8 l 28) 1 = true) ∧
    (let s : State := observed
     let e : Entry := cmd 0x30 31 [1] 9512 (some image)
     let b : List Byte := image
     let n : Nat := 15
     let f : Nat := 1
     let k := ent e 8 1
     Accepted 0x30 e s ∧
     eBufLen e = 9512 ∧
     e.buf = some b ∧
     b.length = 9512 ∧
     k ≤ 1 ∧
     zeroes e 9 48 = true ∧
     s.slotOf (eTarget e) = some (n, f) ∧
     s.imageOk (some (n, f)) b = true ∧
     s.fltState n f ≠ 0 ∧
     ((s.actBank n f = k → s.fltState n f = 1)) ∧
     ((s.actBank n f ≠ k → s.bit (Reg.OBS_BANK n f) F.OBS_BANK_SWAP_PEND = false)) ∧
     ((setWhole b = true → s.bound n (1 - f) = false)) ∧
     (s.port e.port).d3 = false) ∧
    (let s : State := observed
     let e : Entry := cmd 0x30 31 [0] 9512 (some image)
     let b : List Byte := image
     let n : Nat := 15
     let f : Nat := 1
     let k := ent e 8 1
     Accepted 0x30 e s ∧
     eBufLen e = 9512 ∧
     e.buf = some b ∧
     b.length = 9512 ∧
     k ≤ 1 ∧
     zeroes e 9 48 = true ∧
     s.slotOf (eTarget e) = some (n, f) ∧
     s.imageOk (some (n, f)) b = true ∧
     s.fltState n f ≠ 0 ∧
     ((s.actBank n f = k → s.fltState n f = 1)) ∧
     ((s.actBank n f ≠ k → s.bit (Reg.OBS_BANK n f) F.OBS_BANK_SWAP_PEND = false)) ∧
     ((setWhole b = true → s.bound n (1 - f) = false)) ∧
     (s.port e.port).d3 = false ∧
     (s.actBank n f = k ∧ s.cycling n = false)) ∧
    (let s : State := going 15 observed
     let e : Entry := cmd 0x30 31 [0] 9512 (some image)
     let b : List Byte := image
     let n : Nat := 15
     let f : Nat := 1
     let k := ent e 8 1
     Accepted 0x30 e s ∧
     eBufLen e = 9512 ∧
     e.buf = some b ∧
     b.length = 9512 ∧
     k ≤ 1 ∧
     zeroes e 9 48 = true ∧
     s.slotOf (eTarget e) = some (n, f) ∧
     s.imageOk (some (n, f)) b = true ∧
     s.fltState n f ≠ 0 ∧
     ((s.actBank n f = k → s.fltState n f = 1)) ∧
     ((s.actBank n f ≠ k → s.bit (Reg.OBS_BANK n f) F.OBS_BANK_SWAP_PEND = false)) ∧
     ((setWhole b = true → s.bound n (1 - f) = false)) ∧
     (s.port e.port).d3 = false ∧
     (s.actBank n f = k ∧ s.cycling n = true)) ∧
    (let s : State := owned (going 15 ((flt 15 1 1).sf (Reg.OBS_BANK 15 1) F.OBS_BANK_VAL_B 1))
     let e : Entry := cmd 0x31 31 [] 0 none
     let n : Nat := 15
     let f : Nat := 1
     Accepted 0x31 e s ∧
     ent e 8 1 ≤ 1 ∧
     zeroes e 9 48 = true ∧
     s.slotOf (eTarget e) = some (n, f) ∧
     s.fltState n f ≠ 0 ∧
     s.bankVal n f (1 - s.actBank n f) = true ∧
     s.bit (Reg.OBS_BANK n f) F.OBS_BANK_SWAP_PEND = false ∧
     (s.port e.port).d3 = false ∧
     s.cycling n = true) ∧
    (let s : State := { owned ((flt 15 1 1).sf (Reg.OBS_BANK 15 1) F.OBS_BANK_VAL_B 1) with banks := [(63, [1, 1])] }
     let e : Entry := cmd 0x31 31 [1] 0 none
     let n : Nat := 15
     let f : Nat := 1
     Accepted 0x31 e s ∧
     ent e 8 1 ≤ 1 ∧
     zeroes e 9 48 = true ∧
     s.slotOf (eTarget e) = some (n, f) ∧
     s.fltState n f ≠ 0 ∧
     s.bankVal n f (1 - s.actBank n f) = true ∧
     s.bit (Reg.OBS_BANK n f) F.OBS_BANK_SWAP_PEND = false ∧
     (s.port e.port).d3 = false ∧
     s.cycling n = false) ∧
    (let s : State := owned (r)
     let e : Entry := cmd 0xFF 0 [] 0 none
     opInfo (eOp e) = none ∧
     (s.dev ≠ 0 ∨ s.keep.romReady = true) ∧
     s.pwr.inReset = false ∧
     (s.dev = 4 ∨ s.keeperOn = true) ∧
     (s.port e.port).d3 = false ∧
     s.keeperOn = true) :=
  ⟨⟨accepted_of (by decide +kernel), by decide +kernel, by decide +kernel, by decide +kernel, rfl, by decide +kernel, by decide +kernel, by decide +kernel⟩,
    ⟨accepted_of (by decide +kernel), by decide +kernel, by decide +kernel, by decide +kernel, rfl, by decide +kernel, by decide +kernel, by decide +kernel⟩,
    ⟨accepted_of (by decide +kernel), by decide +kernel⟩,
    ⟨accepted_of (by decide +kernel), by decide +kernel⟩,
    ⟨accepted_of (by decide +kernel), by decide +kernel⟩,
    ⟨accepted_of (by decide +kernel), by decide +kernel⟩,
    ⟨accepted_of (by decide +kernel), by decide +kernel, rfl, by rw [image, List.length_append, List.length_replicate]; rfl, by decide +kernel, by decide +kernel, by decide +kernel, image_ok, by decide +kernel⟩,
    ⟨accepted_of (by decide +kernel), by decide +kernel, rfl, by rw [image, List.length_append, List.length_replicate]; rfl, by decide +kernel, by decide +kernel, by decide +kernel, image_ok, by decide +kernel, by decide +kernel, by decide +kernel, by decide +kernel⟩,
    ⟨accepted_of (by decide +kernel), by decide +kernel, rfl, by rw [image, List.length_append, List.length_replicate]; rfl, by decide +kernel, by decide +kernel, by decide +kernel, image_ok_going, by decide +kernel, by decide +kernel, by decide +kernel, by decide +kernel⟩,
    ⟨accepted_of (by decide +kernel), by decide +kernel⟩,
    ⟨accepted_of (by decide +kernel), by decide +kernel⟩,
    by decide +kernel⟩

/-- States that meet the hypotheses of ScrubsAndImageCommandsRun, clause by clause. -/
theorem test_witness_ScrubsAndImageCommandsRun :
    (let s : State := ((r.wr Reg.MEM_SCRUB_MID 0x20).wr Reg.MEM_SCRUB_OFF 0x1FFFFF8).wr Reg.MEM_SCRUB_LEN 8
     let wb : Bool := true
     let mid := s.fld Reg.MEM_SCRUB_MID F.MEM_SCRUB_MID_MID
     let off := s.rn Reg.MEM_SCRUB_OFF
     let len := s.rn Reg.MEM_SCRUB_LEN
     (s.scrubBusy = false ∧ scrubRangeOk mid off len = true)) ∧
    (let s : State := ((r.wr Reg.MEM_SCRUB_MID 0x20).wr Reg.MEM_SCRUB_OFF 0x1FFFFF8).wr Reg.MEM_SCRUB_LEN 16
     let wb : Bool := true
     let mid := s.fld Reg.MEM_SCRUB_MID F.MEM_SCRUB_MID_MID
     let off := s.rn Reg.MEM_SCRUB_OFF
     let len := s.rn Reg.MEM_SCRUB_LEN
     scrubRangeOk mid off len = false) ∧
    (let s : State := owned (r)
     let e : Entry := cmd 0x70 0x20 (leBytes 4 0x1FFFFF8 ++ leBytes 4 8 ++ [1]) 64 (some [])
     Accepted 0x70 e s ∧
     eBufLen e = 64 ∧
     eTarget e < 65536 ∧
     eTarget e % 256 ≠ 4 ∧
     scrubRangeOk (eTarget e) (ent e 8 4) (ent e 12 4) = true ∧
     ent e 16 1 ≤ 1 ∧
     zeroes e 17 48 = true ∧
     s.scrubBusy = false) ∧
    (let s : State := { r with scrub := some { mid := 0x20, off := 0, len := 8, wb := true, slice := false, done := 0, ce := 0, ue := 0, fix := 0, firstUe := none, lastUe := none, ueKeys := [], tsStart := 0, next := 0 } }
     let x : ScrubSt := { mid := 0x20, off := 0, len := 8, wb := true, slice := false, done := 0, ce := 0, ue := 0, fix := 0, firstUe := none, lastUe := none, ueKeys := [], tsStart := 0, next := 0 }
     let gb : Nat := 8
     let nb : Nat := 8
     let k : Nat := 0x400000
     s.scrub = some x ∧
     scrubGeom x.mid = some (gb, nb, k) ∧
     x.done < x.total ∧
     let key := fun b => scrubKey x.mid ((x.off + gb * x.done) / gb) b
     (∀ b, b < nb → tget 0 s.ecc (key b) = 0)) ∧
    (let s : State := { r with scrub := some { mid := 0x20, off := 0, len := 8, wb := true, slice := false, done := 0, ce := 0, ue := 0, fix := 0, firstUe := none, lastUe := none, ueKeys := [], tsStart := 0, next := 0 }, ecc := [(0x40000007, 1)] }
     let x : ScrubSt := { mid := 0x20, off := 0, len := 8, wb := true, slice := false, done := 0, ce := 0, ue := 0, fix := 0, firstUe := none, lastUe := none, ueKeys := [], tsStart := 0, next := 0 }
     let gb : Nat := 8
     let nb : Nat := 8
     let k : Nat := 0x400000
     s.scrub = some x ∧
     scrubGeom x.mid = some (gb, nb, k) ∧
     x.done < x.total ∧
     let key := fun b => scrubKey x.mid ((x.off + gb * x.done) / gb) b
     ((∀ b, b < nb → tget 0 s.ecc (key b) ≤ 1) ∧ x.wb = true)) ∧
    (let s : State := owned (r.sf Reg.MEM_STAT F.MEM_STAT_SCRUB_BUSY 1)
     s.fwRuns = true ∧
     s.keep.slice < scrubSlices ∧
     s.scrubBusy = true) ∧
    (let s : State := owned (r.mapKeep fun k => { k with slice := 1323 })
     s.fwRuns = true ∧
     s.keep.slice < scrubSlices ∧
     s.scrubBusy = false) ∧
    (let s : State := { r.mapKeep fun k => { k with waits := [{ e := cmd 0x70 0x20 (leBytes 4 0 ++ leBytes 4 8) 64 (some []), live := true, silent := false, on := .scrub, st := 0 }] } with scrub := some { mid := 0x20, off := 0, len := 8, wb := true, slice := false, done := 1, ce := 0, ue := 0, fix := 0, firstUe := none, lastUe := none, ueKeys := [], tsStart := 0, next := 0 } }
     let x : ScrubSt := { mid := 0x20, off := 0, len := 8, wb := true, slice := false, done := 1, ce := 0, ue := 0, fix := 0, firstUe := none, lastUe := none, ueKeys := [], tsStart := 0, next := 0 }
     s.scrub = some x ∧
     x.total ≤ x.done ∧
     (∀ w ∈ s.keep.waits, w.on ≠ .turn) ∧
     ((x.slice = true → x.ueKeys = [])) ∧
     s.keep.sliceWait = false ∧
     (x.slice = false ∧ s.keep.waits.find? (fun w => w.on == .scrub) = some { e := cmd 0x70 0x20 (leBytes 4 0 ++ leBytes 4 8) 64 (some []), live := true, silent := false, on := .scrub, st := 0 } ∧ (s.port 0).d3 = false)) ∧
    (let s : State := { r with scrub := some { mid := 0x20, off := 0, len := 8, wb := true, slice := true, done := 1, ce := 0, ue := 0, fix := 0, firstUe := none, lastUe := none, ueKeys := [], tsStart := 0, next := 0 } }
     let x : ScrubSt := { mid := 0x20, off := 0, len := 8, wb := true, slice := true, done := 1, ce := 0, ue := 0, fix := 0, firstUe := none, lastUe := none, ueKeys := [], tsStart := 0, next := 0 }
     s.scrub = some x ∧
     x.total ≤ x.done ∧
     (∀ w ∈ s.keep.waits, w.on ≠ .turn) ∧
     ((x.slice = true → x.ueKeys = [])) ∧
     s.keep.sliceWait = false ∧
     x.slice = true) ∧
    (let s : State := { r with mem := [(dtcm 20 0, 7)], tags := [(dtcm 20 0 / 8, 7)] }
     let v : Word := 0x13000008
     let p := fget v F.MEM_IMG_CDST_PAIR
     let src := dtcm 20 (s.fld Reg.MEM_IMG_CSRC F.MEM_IMG_CSRC_OFFSET / 8 * 8)
     let dst := dtcm p (fget v F.MEM_IMG_CDST_OFFSET / 8 * 8)
     (s.imgOpen p = true ∧ s.ecc = [])) ∧
    (let s : State := r
     let v : Word := 0x14000008
     let p := fget v F.MEM_IMG_CDST_PAIR
     let src := dtcm 20 (s.fld Reg.MEM_IMG_CSRC F.MEM_IMG_CSRC_OFFSET / 8 * 8)
     let dst := dtcm p (fget v F.MEM_IMG_CDST_OFFSET / 8 * 8)
     s.imgOpen p = false) ∧
    (let s : State := r
     let v : Word := 0x53
     let p := fget v F.MEM_IMG_FILL_PAIR
     let m := fget v F.MEM_IMG_FILL_MEM
     (s.imgFill = none ∧ s.imgOpen p = true ∧ m ≠ 3)) ∧
    (let s : State := r
     let v : Word := 0x73
     let p := fget v F.MEM_IMG_FILL_PAIR
     let m := fget v F.MEM_IMG_FILL_MEM
     m = 3) ∧
    (let s : State := { r with imgFill := some (19, 2, 9), mem := [(faultRam 19 3, 7)] }
     let p : Nat := 19
     let m : Nat := 2
     let u : Nat := 9
     s.imgFill = some (p, m, u)) :=
  ⟨by decide +kernel,
    by decide +kernel,
    ⟨accepted_of (by decide +kernel), by decide +kernel⟩,
    by decide +kernel,
    by decide +kernel,
    by decide +kernel,
    by decide +kernel,
    by decide +kernel,
    by decide +kernel,
    by decide +kernel,
    by decide +kernel,
    by decide +kernel,
    by decide +kernel,
    by decide +kernel⟩

/-- States that meet the hypotheses of HostQueuesMoveEntriesAndReplies, clause by clause. -/
theorem test_witness_HostQueuesMoveEntriesAndReplies :
    (let s : State := r
     let p : Fin 2 := 1
     let q : Fin 8 := 7
     let v : Half := 15
     v.toNat < s.sqSize p q) ∧
    (let s : State := r
     let p : Fin 2 := 1
     let q : Fin 8 := 7
     let v : Half := 16
     s.sqSize p q ≤ v.toNat) ∧
    (let s : State := r
     let p : Fin 2 := 1
     let q : Fin 8 := 7
     let v : Half := 15
     v.toNat < s.cqSize p q) ∧
    (let s : State := r
     let p : Fin 2 := 1
     let q : Fin 8 := 7
     let v : Half := 16
     s.cqSize p q ≤ v.toNat) ∧
    (let s : State := linked ((r.sf (Reg.HIF_SQCFG 1 7) F.HIF_SQCFG_EN 1).wr (Reg.HIF_SQTDB 1 7) 1)
     let p : Fin 2 := 1
     let q : Nat := 7
     let b : Option (List Byte) := some [1]
     s.nextQueue p = some q ∧
     s.portOk p = true ∧
     (s.port p).inbox.length < 32) ∧
    (let s : State := linked ((r.sf (Reg.HIF_SQCFG 1 7) F.HIF_SQCFG_EN 1).wr (Reg.HIF_SQTDB 1 7) 1)
     let p : Fin 2 := 1
     let q : Nat := 7
     let b : Option (List Byte) := none
     s.nextQueue p = some q ∧
     s.portOk p = true ∧
     (s.port p).inbox.length < 32) ∧
    (let rp : Reply := { cq := 7, tag := 1, op := 2, status := 0, state := 2, sq := 3, resx := 0, ts := 5, res := [1, 2] }
     let s : State := (linked (r.sf (Reg.HIF_CQCFG 1 7) F.HIF_CQCFG_EN 1)).mapPort 1 fun x => { x with outbox := [{ cq := 7, tag := 1, op := 2, status := 0, state := 2, sq := 3, resx := 0, ts := 5, res := [1, 2] }] }
     let p : Fin 2 := 1
     let r : Reply := rp
     s.nextReply p = some r ∧
     s.portOk p = true ∧
     let u := s.cqTail p r.cq
     let nt := (u + 1) % s.cqSize p r.cq
     s.bit (Reg.HIF_CQCFG p r.cq) F.HIF_CQCFG_IRQ_EN = false) ∧
    (let s : State := r
     let p : Fin 2 := 1
     let cq : Fin 8 := 7
     (s.port p).d3 = false ∧
     (s.port p).outbox.length < 32) ∧
    (let s : State := r.mapPort 1 fun x => { x with outbox := List.replicate 32 { cq := 7, tag := 1, op := 2, status := 0, state := 2, sq := 3, resx := 0, ts := 5, res := [1, 2] } }
     let p : Fin 2 := 1
     let cq : Fin 8 := 7
     (s.port p).d3 = false ∧
     32 ≤ (s.port p).outbox.length) ∧
    (let s : State := (linked r).mapPort 1 fun x => { x with pba := 2 ^ 63 }
     let p : Fin 2 := 1
     let v : Fin 64 := 63
     (nbit (s.port p).pba v = true ∧ s.portOk p = true ∧ (s.port p).fmask = false)) :=
  ⟨by decide +kernel,
    by decide +kernel,
    by decide +kernel,
    by decide +kernel,
    by decide +kernel,
    by decide +kernel,
    by decide +kernel,
    by decide +kernel,
    by decide +kernel,
    by decide +kernel⟩

/-- States that meet the hypotheses of PortsHeartbeatsAndResetsAct, clause by clause. -/
theorem test_witness_PortsHeartbeatsAndResetsAct :
    (let s : State := (owned r).mapKeep fun k => { k with loss := some (0, 0) }
     let p : Fin 2 := 0
     let v : Word := 7
     s.owner = p.val + 1) ∧
    (let s : State := (State.setLapsed 0 false (owned r)).mapPort 0 fun x => { x with hb := some 9 }
     let p : Fin 2 := 0
     let u : Nat := 9
     (s.port p).hb = some u ∧
     s.lapsed p = false ∧
     (s.owner = p.val + 1 ∧ s.fwRuns = true)) ∧
    (let s : State := (owned (flt 15 1 4)).mapKeep fun k => { k with loss := some (2 ^ 31, 9) }
     let m : Nat := 2 ^ 31
     let u : Nat := 9
     s.keep.loss = some (m, u) ∧
     s.fwRuns = true ∧
     (∀ fl ∈ s.flightsIn 3, nbit m fl = false) ∧
     (31 ∈ s.flightsIn 4 ∧ nbit m 31 = true)) ∧
    (let s : State := r
     s.keep.loss = none) ∧
    (let s : State := (owned (flt 15 1 3)).mapKeep fun k => { k with loss := some (2 ^ 31, 9) }
     (31 ∈ s.flightsIn 3 ∧ s.keep.loss = some (2 ^ 31, 9))) ∧
    (let s : State := r.mapPwr fun x => { x with train := [1] }
     let p : Fin 2 := 1
     let rate : Fin 8 := 5
     let width : Fin 8 := 4
     let bme : Bool := true
     s.pwr.inReset = false) :=
  ⟨by decide +kernel,
    by decide +kernel,
    by decide +kernel,
    by decide +kernel,
    by decide +kernel,
    by decide +kernel⟩

/-- States that meet the hypotheses of MismatchesRestartAndFailPairs, clause by clause. -/
theorem test_witness_MismatchesRestartAndFailPairs :
    (let s : State := { (r.sf (Reg.GLV_STAT 20) F.GLV_STAT_STATE 0).mapCore 20 fun x => { x with mism := [0, 800000000] } with tick := 800000001 }
     let p : Fin 21 := 20
     let path : Fin 48 := 47
     s.glvState p = 0 ∧
     let n := ((s.core p).mism.filter fun u => decide (s.tick ≤ u + 800000000)).length
     n < 2) ∧
    (let s : State := { (r.sf (Reg.GLV_STAT 20) F.GLV_STAT_STATE 0).mapCore 20 fun x => { x with mism := [0, 800000000] } with tick := 800000000 }
     let p : Fin 21 := 20
     let path : Fin 48 := 47
     s.glvState p = 0 ∧
     let n := ((s.core p).mism.filter fun u => decide (s.tick ≤ u + 800000000)).length
     2 ≤ n) ∧
    (let s : State := (r.sf (Reg.GLV_STAT 19) F.GLV_STAT_STATE 1).mapCore 19 fun x => { x with restart := some 9 }
     let p : Fin 21 := 19
     let u : Nat := 9
     (s.core p).restart = some u ∧
     (s.ckptBad p = none ∧ (s.core p).forced = false ∧ (s.core p).undo = [])) ∧
    (let s : State := (r.sf (Reg.GLV_STAT 19) F.GLV_STAT_STATE 1).mapCore 19 fun x => { x with restart := some 9, halt := true, undo := [{ g := dtcm 19 0 / 8, mask := 255, bytes := [1, 2, 3, 4, 5, 6, 7, 8], tag := true }] }
     let p : Fin 21 := 19
     let u : Nat := 9
     (s.core p).restart = some u ∧
     (s.ckptBad p = none ∧ (s.core p).forced = false ∧ (s.core p).undo = [{ g := dtcm 19 0 / 8, mask := 255, bytes := [1, 2, 3, 4, 5, 6, 7, 8], tag := true }])) ∧
    (let s : State := (r.sf (Reg.GLV_STAT 20) F.GLV_STAT_STATE 1).mapCore 20 fun x => { x with restart := some 9, forced := true }
     let p : Fin 21 := 20
     let u : Nat := 9
     (s.core p).restart = some u ∧
     (s.ckptBad p = none ∧ (s.core p).forced = true ∧ (s.core p).halt = false)) ∧
    (let s : State := { (r.sf (Reg.GLV_STAT 19) F.GLV_STAT_STATE 1).mapCore 19 fun x => { x with restart := some 9 } with ecc := [(ckptByte 19 0x7FF, 2)] }
     let p : Fin 21 := 19
     let u : Nat := 9
     (s.core p).restart = some u ∧
     s.ckptBad p = some (ckptByte 19 0x7FF)) ∧
    (let s : State := r
     let p : Fin 21 := 20
     s.glvState p ≠ 2) ∧
    (let s : State := r
     let p : Fin 21 := 19
     let k : Fin 6 := 5
     s.glvState p ≠ 2) ∧
    (let s : State := r.sf (Reg.GLV_STAT 20) F.GLV_STAT_STATE 0
     let p : Fin 21 := 20
     s.glvState p = 0) ∧
    (let s : State := r.sf (Reg.GLV_STAT 20) F.GLV_STAT_STATE 1
     let p : Fin 21 := 20
     s.glvState p = 1) ∧
    (let s : State := r.sf (Reg.GLV_STAT 20) F.GLV_STAT_STATE 2
     let p : Fin 21 := 20
     2 ≤ s.glvState p) ∧
    (let s : State := { (r.sf (Reg.GLV_WDCFG 19) F.GLV_WDCFG_EN 1).sf (Reg.GLV_WDKICK 19) F.GLV_WDKICK_STAGE1 1 with rel := [19] }
     let p : Fin 21 := 19
     s.wdRuns p = true ∧
     s.bit (Reg.GLV_WDKICK p) F.GLV_WDKICK_STAGE1 = true ∧
     p.val < 20) ∧
    (let s : State := (r.sf (Reg.GLV_WDKICK 20) F.GLV_WDKICK_STAGE1 1).mapKeep fun k => { k with started := true }
     let p : Fin 21 := 20
     s.wdRuns p = true ∧
     s.bit (Reg.GLV_WDKICK p) F.GLV_WDKICK_STAGE1 = true ∧
     p.val = 20) :=
  ⟨by decide +kernel,
    by decide +kernel,
    by decide +kernel,
    by decide +kernel,
    by decide +kernel,
    by decide +kernel,
    by decide +kernel,
    by decide +kernel,
    by decide +kernel,
    by decide +kernel,
    by decide +kernel,
    by decide +kernel,
    by decide +kernel⟩

/-- States that meet the hypotheses of PairsHaltReleaseRecallAndReset, clause by clause. -/
theorem test_witness_PairsHaltReleaseRecallAndReset :
    (let s : State := r.sf (Reg.GLV_STAT 20) F.GLV_STAT_STATE 1
     let p : Fin 21 := 20
     let on : Bool := true
     s.glvState p = 1) ∧
    (let s : State := r.sf (Reg.GLV_STAT 15) F.GLV_STAT_STATE 0
     let p : Fin 21 := 15
     let on : Bool := true
     s.glvState p ≠ 1 ∧ s.glvState p ≠ 2) ∧
    (let s : State := { (r.sf (Reg.GLV_STAT 20) F.GLV_STAT_STATE 3).mapCore 20 fun x => { x with halt := true } with rel := [20] }
     let p : Fin 21 := 20
     let on : Bool := false
     s.started p = true) ∧
    (let s : State := { (r.sf (Reg.GLV_STAT 15) F.GLV_STAT_STATE 3).mapCore 15 fun x => { x with halt := true } with rel := [15] }
     let n : Fin 16 := 15
     (s.glvState n = 3 ∧ (s.core n).halt = true ∧ s.started n = true)) ∧
    (let s : State := r
     let n : Fin 16 := 15
     (s.glvState n ≠ 3 ∨ (s.core n).halt = false ∨ s.started n = false)) ∧
    (let s : State := (r.sf (Reg.GLV_STAT 20) F.GLV_STAT_STATE 3).mapCore 20 fun x => { x with reset := some 9 }
     let p : Fin 21 := 20
     let u : Nat := 9
     (s.core p).reset = some u) ∧
    (let s : State := (r.sf Reg.GLV_BIST F.GLV_BIST_START_PASS 0x1FFFFF).wr Reg.MEM_BIST_PAIR 0x1FFFFF
     let v : Word := 0x80000
     (nbit v.toNat 19 = true ∧ s.mayRelease 19 = true ∧ s.loadOpen 19 = false)) ∧
    (let s : State := r
     let v : Word := 0x80000
     s.mayRelease 19 = false) ∧
    (let s : State := { r with rel := [19] }
     let v : Word := 0x80000
     (nbit v.toNat 19 = true ∧ 19 ∈ s.rel ∧ s.glvState 19 ≠ 2)) ∧
    (let s : State := r
     let v : Word := 0x80000
     (19 ∉ s.rel ∧ ∀ p : Fin 20, (s.core p).sb = [])) ∧
    (let s : State := r.mapCore 20 fun x => { x with kickSeq := true }
     let p : Fin 21 := 20
     let v : Byte := 0xA5
     (v = 0xA5 ∧ (s.core p).kickSeq = true)) ∧
    (let s : State := r
     let p : Fin 21 := 20
     let v : Byte := 0xA5
     (v ≠ 0x5A ∧ (v ≠ 0xA5 ∨ (s.core p).kickSeq = false))) :=
  ⟨by decide +kernel,
    by decide +kernel,
    by decide +kernel,
    by decide +kernel,
    by decide +kernel,
    by decide +kernel,
    by decide +kernel,
    by decide +kernel,
    by decide +kernel,
    by decide +kernel,
    by decide +kernel,
    by decide +kernel⟩

/-- States that meet the hypotheses of ControlStoreLoadsRun, clause by clause. -/
theorem test_witness_ControlStoreLoadsRun :
    (let s : State := (r.sf (Reg.MCS_STAT 16) F.MCS_STAT_OPENED 1)
     let m : Fin 17 := 16
     let x : McsSt := { store := s.fld (Reg.MCS_SEL m) F.MCS_SEL_STORE, pair := if m.val = 16 then s.fld (Reg.MCS_SEL m) F.MCS_SEL_PAIR else 0, start := s.fld (Reg.MCS_SEL m) F.MCS_SEL_START, count := s.fld (Reg.MCS_COUNT m) F.MCS_COUNT_COUNT, bytes := [], check := none }
     let map := if m.val < 16 then Reg.MCS_VMAPE m x.store else Reg.MCS_VMAPP x.pair
     s.mcsOpened m = true) ∧
    (let s : State := (r.sf (Reg.MCS_SEL 15) F.MCS_SEL_START 1024).wr (Reg.MCS_COUNT 15) 64
     let m : Fin 17 := 15
     let x : McsSt := { store := s.fld (Reg.MCS_SEL m) F.MCS_SEL_STORE, pair := if m.val = 16 then s.fld (Reg.MCS_SEL m) F.MCS_SEL_PAIR else 0, start := s.fld (Reg.MCS_SEL m) F.MCS_SEL_START, count := s.fld (Reg.MCS_COUNT m) F.MCS_COUNT_COUNT, bytes := [], check := none }
     let map := if m.val < 16 then Reg.MCS_VMAPE m x.store else Reg.MCS_VMAPP x.pair
     (s.mcsOpened m = false ∧ mcsRangeOk m x = false)) ∧
    (let s : State := going 15 ((r.sf (Reg.MCS_SEL 15) F.MCS_SEL_START 960).wr (Reg.MCS_COUNT 15) 64)
     let m : Fin 17 := 15
     let x : McsSt := { store := s.fld (Reg.MCS_SEL m) F.MCS_SEL_STORE, pair := if m.val = 16 then s.fld (Reg.MCS_SEL m) F.MCS_SEL_PAIR else 0, start := s.fld (Reg.MCS_SEL m) F.MCS_SEL_START, count := s.fld (Reg.MCS_COUNT m) F.MCS_COUNT_COUNT, bytes := [], check := none }
     let map := if m.val < 16 then Reg.MCS_VMAPE m x.store else Reg.MCS_VMAPP x.pair
     (s.mcsOpened m = false ∧ mcsRangeOk m x = true ∧ s.mcsInUse m x = true)) ∧
    (let s : State := ((r.sf (Reg.MCS_SEL 15) F.MCS_SEL_START 960).wr (Reg.MCS_COUNT 15) 64).wr (Reg.MCS_VMAPE 15 0) 0xFFFF
     let m : Fin 17 := 15
     let x : McsSt := { store := s.fld (Reg.MCS_SEL m) F.MCS_SEL_STORE, pair := if m.val = 16 then s.fld (Reg.MCS_SEL m) F.MCS_SEL_PAIR else 0, start := s.fld (Reg.MCS_SEL m) F.MCS_SEL_START, count := s.fld (Reg.MCS_COUNT m) F.MCS_COUNT_COUNT, bytes := [], check := none }
     let map := if m.val < 16 then Reg.MCS_VMAPE m x.store else Reg.MCS_VMAPP x.pair
     (s.mcsOpened m = false ∧ mcsRangeOk m x = true ∧ s.mcsInUse m x = false)) ∧
    (let s : State := r
     let m : Fin 17 := 16
     let v : Word := 5
     let x := s.mcsPort m
     let np := (mcsGeom m x.store).2
     let n := s.fld (Reg.MCS_STAT m) F.MCS_STAT_WRITTEN
     let b := x.bytes ++ leBytes 4 v.toNat
     let w := leNat (b.drop (b.length - 4 * np))
     s.mcsOpened m = false) ∧
    (let s : State := ((r.sf (Reg.MCS_STAT 16) F.MCS_STAT_OPENED 1).sf (Reg.MCS_STAT 16) F.MCS_STAT_WRITTEN 64).mapMcs 16 fun _ => { store := 0, pair := 0, start := 0, count := 64, bytes := [], check := none }
     let m : Fin 17 := 16
     let v : Word := 5
     let x := s.mcsPort m
     let np := (mcsGeom m x.store).2
     let n := s.fld (Reg.MCS_STAT m) F.MCS_STAT_WRITTEN
     let b := x.bytes ++ leBytes 4 v.toNat
     let w := leNat (b.drop (b.length - 4 * np))
     (s.mcsOpened m = true ∧ x.count ≤ n)) ∧
    (let s : State := (r.sf (Reg.MCS_STAT 15) F.MCS_STAT_OPENED 1).mapMcs 15 fun _ => { store := 1, pair := 0, start := 0, count := 64, bytes := [], check := none }
     let m : Fin 17 := 15
     let v : Word := 5
     let x := s.mcsPort m
     let np := (mcsGeom m x.store).2
     let n := s.fld (Reg.MCS_STAT m) F.MCS_STAT_WRITTEN
     let b := x.bytes ++ leBytes 4 v.toNat
     let w := leNat (b.drop (b.length - 4 * np))
     (s.mcsOpened m = true ∧ x.check = none ∧ n < x.count ∧ b.length % (4 * np) ≠ 0)) ∧
    (let s : State := ((r.sf (Reg.MCS_STAT 16) F.MCS_STAT_OPENED 1).sf (Reg.MCS_STAT 16) F.MCS_STAT_WRITTEN 63).mapMcs 16 fun _ => { store := 0, pair := 0, start := 0, count := 64, bytes := [], check := none }
     let m : Fin 17 := 16
     let v : Word := 0xFFFFFFFF
     let x := s.mcsPort m
     let np := (mcsGeom m x.store).2
     let n := s.fld (Reg.MCS_STAT m) F.MCS_STAT_WRITTEN
     let b := x.bytes ++ leBytes 4 v.toNat
     let w := leNat (b.drop (b.length - 4 * np))
     (s.mcsOpened m = true ∧ x.check = none ∧ n < x.count ∧ b.length % (4 * np) = 0 ∧ mcsWordOk m x.store w = false)) ∧
    (let s : State := ((r.sf (Reg.MCS_STAT 16) F.MCS_STAT_OPENED 1).sf (Reg.MCS_STAT 16) F.MCS_STAT_WRITTEN 63).mapMcs 16 fun _ => { store := 0, pair := 0, start := 0, count := 64, bytes := [], check := none }
     let m : Fin 17 := 16
     let v : Word := 0
     let x := s.mcsPort m
     let np := (mcsGeom m x.store).2
     let n := s.fld (Reg.MCS_STAT m) F.MCS_STAT_WRITTEN
     let b := x.bytes ++ leBytes 4 v.toNat
     let w := leNat (b.drop (b.length - 4 * np))
     (s.mcsOpened m = true ∧ x.check = none ∧ n < x.count ∧ x.count ≤ 2048 ∧ b.length % (4 * np) = 0 ∧ mcsWordOk m x.store w = true)) ∧
    (let s : State := ((r.sf (Reg.MCS_STAT 16) F.MCS_STAT_OPENED 1).sf (Reg.MCS_STAT 16) F.MCS_STAT_WRITTEN 64).mapMcs 16 fun _ => { store := 0, pair := 0, start := 0, count := 64, bytes := [], check := none }
     let m : Fin 17 := 16
     s.mcsOpened m = true ∧
     (s.mcsPort m).check = none ∧
     let x := s.mcsPort m
     let whole := x.count = s.fld (Reg.MCS_STAT m) F.MCS_STAT_WRITTEN ∧ x.bytes.length % (4 * (mcsGeom m x.store).2) = 0
     whole) ∧
    (let s : State := ((r.sf (Reg.MCS_STAT 16) F.MCS_STAT_OPENED 1).sf (Reg.MCS_STAT 16) F.MCS_STAT_WRITTEN 63).mapMcs 16 fun _ => { store := 0, pair := 0, start := 0, count := 64, bytes := [], check := none }
     let m : Fin 17 := 16
     s.mcsOpened m = true ∧
     (s.mcsPort m).check = none ∧
     let x := s.mcsPort m
     let whole := x.count = s.fld (Reg.MCS_STAT m) F.MCS_STAT_WRITTEN ∧ x.bytes.length % (4 * (mcsGeom m x.store).2) = 0
     ¬whole) ∧
    (let s : State := (emptyDigest (r.sf (Reg.MCS_STAT 16) F.MCS_STAT_OPENED 1)).mapMcs 16 fun _ => { store := 0, pair := 0, start := 0, count := 64, bytes := [], check := some 5 }
     let m : Fin 17 := 16
     let u : Nat := 5
     (s.mcsPort m).check = some u ∧
     let x := s.mcsPort m
     let map := if m.val < 16 then Reg.MCS_VMAPE m x.store else Reg.MCS_VMAPP x.pair
     (sha256 x.bytes = s.mcsDigest m ∧ (m.val < 16 ∨ x.store = 0) ∧ x.start + x.count ≤ 2048)) ∧
    (let s : State := (r.sf (Reg.MCS_STAT 15) F.MCS_STAT_OPENED 1).mapMcs 15 fun _ => { store := 0, pair := 0, start := 0, count := 64, bytes := [], check := some 5 }
     let m : Fin 17 := 15
     let u : Nat := 5
     (s.mcsPort m).check = some u ∧
     let x := s.mcsPort m
     let map := if m.val < 16 then Reg.MCS_VMAPE m x.store else Reg.MCS_VMAPP x.pair
     sha256 x.bytes ≠ s.mcsDigest m) :=
  ⟨by decide +kernel,
    by decide +kernel,
    by decide +kernel,
    by decide +kernel,
    by decide +kernel,
    by decide +kernel,
    by decide +kernel,
    by decide +kernel,
    by decide +kernel,
    by decide +kernel,
    by decide +kernel,
    by decide +kernel,
    by decide +kernel⟩

/-- States that meet the hypotheses of LockEngineWordsRun, clause by clause. -/
theorem test_witness_LockEngineWordsRun :
    (let s : State := { ((going 15 r).wr (Reg.MCS_VMAPE 15 0) 0xFFFF) with cs := [(csKey 15 0 0, 0x380003)] }
     let n : Fin 16 := 15
     let e : Fin 8 := 7
     let w : Nat := 0x380003
     s.stalled n e = false ∧
     (s.eng n e).waits = 0 ∧
     s.runOn n = true ∧
     s.csWord n 0 (s.eng n e).pc = some w ∧
     (nbits w 19 4 = 7 ∧ s.engItem n e = false)) ∧
    (let s : State := { ((going 15 r).wr (Reg.MCS_VMAPE 15 0) 0xFFFF).wr (Reg.EVT_ROUTE 1016) 1 |>.sf (Reg.EVT_QCFG 0) F.EVT_QCFG_EN 1 with cs := [(csKey 15 0 0, 0x407880)] }
     let n : Fin 16 := 15
     let e : Fin 8 := 7
     let w : Nat := 0x407880
     s.stalled n e = false ∧
     (s.eng n e).waits = 0 ∧
     s.runOn n = true ∧
     s.csWord n 0 (s.eng n e).pc = some w ∧
     (nbits w 19 4 = 8 ∧ nbit w 23 = false ∧ (s.eng n e).run < 255 ∧ s.ecc = [] ∧ s.routeOf (s.engLane n e) ≠ 0)) ∧
    (let s : State := { ((going 15 r).wr (Reg.MCS_VMAPE 15 0) 0xFFFF).mapLane 1016 fun x => { x with upMbx := [2, 9, 0, 1, 2, 3, 4, 5, 6, 7, 8, 9, 10, 11, 12, 13, 14, 15, 16, 17, 18, 19, 20, 21, 22, 23, 24, 25, 26, 27, 28, 29, 30, 31] } with cs := [(csKey 15 0 0, 0x480001)] }
     let n : Fin 16 := 15
     let e : Fin 8 := 7
     let w : Nat := 0x480001
     s.stalled n e = false ∧
     (s.eng n e).waits = 0 ∧
     s.runOn n = true ∧
     s.csWord n 0 (s.eng n e).pc = some w ∧
     (nbits w 19 4 = 9 ∧ nbit w 23 = false ∧ (s.eng n e).run < 255 ∧ nbit w 0 = true ∧ (s.lane (s.engLane n e)).upMbx.length = 34 ∧ (s.lane (s.engLane n e)).upSeq ≠ some (leAt (s.lane (s.engLane n e)).upMbx 1 1))) :=
  ⟨by decide +kernel,
    by decide +kernel,
    by decide +kernel⟩

/-- States that meet the hypotheses of DmaChannelsRun, clause by clause. -/
theorem test_witness_DmaChannelsRun :
    (let s : State := r
     let c : Fin 48 := 47
     let v : Word := 0xFFFFC0
     s.dmaState c ≠ 1) ∧
    (let s : State := (((r.sf (Reg.DMA_STAT 47) F.DMA_STAT_STATE 1).wr (Reg.DMA_DBASE 47) 0x40000000).wr (Reg.DMA_DLEN 47) 0x1000).mapDma 47 fun x => { x with ready := 3 }
     let c : Fin 48 := 47
     let v : Word := 0x40
     s.dmaState c = 1) ∧
    (let s : State := (((r.sf (Reg.DMA_STAT 47) F.DMA_STAT_STATE 1).wr (Reg.DMA_DBASE 47) 0x40000000).wr (Reg.DMA_DLEN 47) 0x1000).mapDma 47 fun x => { x with reading := true, doff := 0x1000 }
     let c : Fin 48 := 47
     (s.dma c).reading = true ∧
     s.dmaState c = 1 ∧
     let a := s.dmaDesc c
     let b := s.rdBytes a 64
     let rsv := leAt b 20 4 / 256 ≠ 0 ∨ leAt b 44 4 / 512 ≠ 0 ∨ leAt b 52 12 ≠ 0
     s.dmaOffOk c = false) ∧
    (let s : State := { (((r.sf (Reg.DMA_STAT 47) F.DMA_STAT_STATE 1).wr (Reg.DMA_DBASE 47) 0x40000000).wr (Reg.DMA_DLEN 47) 0x1000).mapDma 47 fun x => { x with reading := true, doff := 0xFC0 } with mem := [(0x40000FC0 + 63, 1)] }
     let c : Fin 48 := 47
     (s.dma c).reading = true ∧
     s.dmaState c = 1 ∧
     let a := s.dmaDesc c
     let b := s.rdBytes a 64
     let rsv := leAt b 20 4 / 256 ≠ 0 ∨ leAt b 44 4 / 512 ≠ 0 ∨ leAt b 52 12 ≠ 0
     (s.dmaOffOk c = true ∧ s.ecc = [] ∧ rsv)) ∧
    (let s : State := { (((r.sf (Reg.DMA_STAT 47) F.DMA_STAT_STATE 1).wr (Reg.DMA_DBASE 47) 0x40000000).wr (Reg.DMA_DLEN 47) 0x1000).mapDma 47 fun x => { x with reading := true, doff := 0xFC0 } with mem := [(0x40000FC0 + 16, 1)] }
     let c : Fin 48 := 47
     (s.dma c).reading = true ∧
     s.dmaState c = 1 ∧
     let a := s.dmaDesc c
     let b := s.rdBytes a 64
     let rsv := leAt b 20 4 / 256 ≠ 0 ∨ leAt b 44 4 / 512 ≠ 0 ∨ leAt b 52 12 ≠ 0
     (s.dmaOffOk c = true ∧ s.ecc = [] ∧ ¬ rsv ∧ s.dmaProg c < leAt b 16 4)) ∧
    (let s : State := { (((r.sf (Reg.DMA_STAT 47) F.DMA_STAT_STATE 1).wr (Reg.DMA_DBASE 47) 0x40000000).wr (Reg.DMA_DLEN 47) 0x1000).mapDma 47 fun x => { x with desc := dmaDescr, srcTag := true, dstTag := true } with mem := [(0x40000000, 7)] }
     let e : Fin 17 := 16
     let c : Nat := 47
     c ∈ dmaChans e ∧
     s.dmaState c = 1 ∧
     (s.dma c).reading = false ∧
     ((∀ j ∈ dmaChans e, j ≠ c → s.dmaState j ≠ 1)) ∧
     let x := s.dma c
     let k := s.dmaProg c
     let a := elemAddr x.src (leAt x.desc 24 4) k
     let d := elemAddr x.dst (leAt x.desc 28 4) k
     (s.dmaChecks c = none ∧ x.fill = false ∧ inSharedMem a = true ∧ inSharedMem d = true ∧ s.ecc = [] ∧ k + 1 < x.count)) ∧
    (let s : State := (((r.sf (Reg.DMA_STAT 47) F.DMA_STAT_STATE 1).wr (Reg.DMA_DBASE 47) 0x40000000).wr (Reg.DMA_DLEN 47) 0x1000).mapDma 47 fun x => { x with desc := dmaDescr }
     let e : Fin 17 := 16
     let c : Nat := 47
     c ∈ dmaChans e ∧
     s.dmaState c = 1 ∧
     (s.dma c).reading = false ∧
     ((∀ j ∈ dmaChans e, j ≠ c → s.dmaState j ≠ 1)) ∧
     let x := s.dma c
     let k := s.dmaProg c
     let a := elemAddr x.src (leAt x.desc 24 4) k
     let d := elemAddr x.dst (leAt x.desc 28 4) k
     s.dmaChecks c ≠ none) ∧
    (let s : State := (((r.sf (Reg.DMA_STAT 47) F.DMA_STAT_STATE 1).wr (Reg.DMA_DBASE 47) 0x40000000).wr (Reg.DMA_DLEN 47) 0x1000).mapDma 47 fun x => { x with reading := true }
     let c : Fin 48 := 47
     (s.dmaState c = 1 ∧ ((s.dma c).reading = true ∨ s.dmaChecks c = none))) ∧
    (let s : State := (((r.sf (Reg.DMA_STAT 47) F.DMA_STAT_STATE 1).wr (Reg.DMA_DBASE 47) 0x40000000).wr (Reg.DMA_DLEN 47) 0x1000).mapDma 47 fun x => { x with desc := dmaDescr, srcTag := true, dstTag := true }
     let c : Fin 48 := 47
     (s.dmaState c = 1 ∧ s.dmaChecks c = none)) ∧
    (let s : State := r.sf (Reg.DMA_STAT 47) F.DMA_STAT_STATE 4
     let c : Fin 48 := 47
     (s.dmaState c = 3 ∨ s.dmaState c = 4)) ∧
    (let s : State := r
     let c : Fin 48 := 47
     s.dmaState c ≠ 3 ∧ s.dmaState c ≠ 4) :=
  ⟨by decide +kernel,
    by decide +kernel,
    by decide +kernel,
    by decide +kernel,
    by decide +kernel,
    by decide +kernel,
    by decide +kernel,
    by decide +kernel,
    by decide +kernel,
    by decide +kernel,
    by decide +kernel⟩

/-- States that meet the hypotheses of ResetAndBootStepsRun, clause by clause. -/
theorem test_witness_ResetAndBootStepsRun :
    (let s : State := r
     let len : Nat := 799
     len < 800) ∧
    (let s : State := { r with mem := [(dtcm 20 0, 7)] }
     let i : Instr := .porst 8000
     (∃ len, 8000 ≤ len ∧ i = .porst len)) ∧
    (let s : State := r
     let i : Instr := .railReset 7
     ∃ q : Fin 8, i = .railReset q) ∧
    (let s : State := r
     let len : Nat := 800
     800 ≤ len ∧
     len < 8000) ∧
    (let s : State := r
     let len : Nat := 7999
     800 ≤ len ∧
     len < 8000) ∧
    (let s : State := r.mapPwr fun x => { x with inReset := true }
     s.pwr.inReset = true) ∧
    (let s : State := r
     s.pwr.inReset = false) ∧
    (let s : State := r
     let bad : List Nat := []
     s.pwr.inReset = false ∧
     s.pwr.otpRead = false) ∧
    (let s : State := r
     let bad : List Nat := [Reg.OTP_KEYHASH 0]
     s.pwr.inReset = false ∧
     s.pwr.otpRead = false) ∧
    (let s : State := r
     let bad : List Nat := [Reg.OTP_REPAIR 1023]
     s.pwr.inReset = false ∧
     s.pwr.otpRead = false) ∧
    (let s : State := r
     let glv : Word := 0x1FFFFF
     let pairs : Word := 0x1FFFFF
     let fcs : Word := 0
     s.pwr.inReset = false ∧
     s.pwr.tested = false) ∧
    (let s : State := r
     let glv : Word := 0
     let pairs : Word := 0x1FFFFF
     let fcs : Word := 0x10000
     s.pwr.inReset = false ∧
     s.pwr.tested = false) ∧
    (let s : State := r
     let glv : Word := 0x100001
     let pairs : Word := 0x1FFFFF
     let fcs : Word := 0x10000
     s.pwr.inReset = false ∧
     s.pwr.tested = false ∧
     (nbit glv.toNat 20 = true ∧ nbit pairs.toNat 20 = true ∧ nbit fcs.toNat 16 = true)) ∧
    (let s : State := r.mapPwr fun x => { x with tested := true }
     s.pwr.inReset = false ∧
     s.pwr.tested = true ∧
     s.pwr.kpFail = false ∧
     s.pwr.copied = false) ∧
    (let s : State := r
     let p : Fin 2 := 1
     s.pwr.inReset = false ∧
     (s.port p).up = false) ∧
    (let s : State := r.mapPwr fun x => { x with copied := true }
     let dur : Half := 5
     let ok : Bool := true
     s.pwr.inReset = false ∧
     s.pwr.copied = true ∧
     s.keep.romReady = false) ∧
    (let s : State := boot.wr Reg.OTP_STAT 0
     let h : List Byte := eight
     s.dev = 0 ∧
     s.keep.romReady = true ∧
     s.pwr.inReset = false ∧
     s.pwr.kpFail = false ∧
     s.bit Reg.OTP_STAT F.OTP_STAT_KEY_FUSED = false) ∧
    (let s : State := (boot.wr Reg.OTP_STAT 0).sf Reg.OTP_STAT F.OTP_STAT_KEY_FUSED 1
     let h : List Byte := eight
     s.dev = 0 ∧
     s.keep.romReady = true ∧
     s.pwr.inReset = false ∧
     s.pwr.kpFail = false ∧
     s.bit Reg.OTP_STAT F.OTP_STAT_KEY_FUSED = true) :=
  ⟨by decide +kernel,
    ⟨8000, by decide, rfl⟩,
    ⟨7, rfl⟩,
    by decide +kernel,
    by decide +kernel,
    by decide +kernel,
    by decide +kernel,
    by decide +kernel,
    by decide +kernel,
    by decide +kernel,
    by decide +kernel,
    by decide +kernel,
    by decide +kernel,
    by decide +kernel,
    by decide +kernel,
    by decide +kernel,
    by decide +kernel,
    by decide +kernel⟩

/-- States that meet the hypotheses of SafeOutputSuppliesClockAndThermalAct, clause by clause. -/
theorem test_witness_SafeOutputSuppliesClockAndThermalAct :
    (let s : State := owned r
     let v : Word := 1
     (fget v F.GLV_SAFE_RELEASE ≠ 0 ∧ s.dev = 2 ∧ s.allStop = false)) ∧
    (let s : State := r
     let v : Word := 1
     fget v F.GLV_SAFE_RELEASE ≠ 0 ∧ s.dev ≠ 2 ∧ s.dev ≠ 3) ∧
    (let s : State := r
     let v : Word := 0
     fget v F.GLV_SAFE_RELEASE = 0) ∧
    (let s : State := r
     let rail : Fin 8 := 7
     let mv : Half := 3049
     s.pwr.inReset = false ∧
     mv.toNat < warnMv rail) ∧
    (let s : State := r
     let rail : Fin 8 := 7
     let mv : Half := 3050
     s.pwr.inReset = false ∧
     warnMv rail ≤ mv.toNat ∧
     (∀ q : Fin 8, q ≠ rail → s.bit (Reg.THM_VMON q) F.THM_VMON_WARN = false)) ∧
    (let s : State := r
     s.pwr.inReset = false ∧
     s.pwr.hold = none) ∧
    (let s : State := r.mapPwr fun x => { x with hold := some 0 }
     s.pwr.inReset = false ∧
     (s.pwr.hold ≠ none ∧ s.pwr.holdLate = false)) ∧
    (let s : State := r.mapPwr fun x => { x with hold := some 0, holdLate := true }
     s.pwr.inReset = false ∧
     (s.pwr.hold ≠ none ∧ s.pwr.holdLate = true)) ∧
    (let s : State := r.mapPwr fun x => { x with hold := some 0 }
     s.pwr.hold ≠ none) ∧
    (let s : State := r
     s.pwr.hold = none) ∧
    (let s : State := r.mapPwr fun x => { x with hold := some 7 }
     let within : Bool := true
     let u : Nat := 7
     s.pwr.hold = some u ∧
     s.pwr.holdLate = false) ∧
    (let s : State := r.mapPwr fun x => { x with hold := some 7 }
     let within : Bool := false
     let u : Nat := 7
     s.pwr.hold = some u ∧
     s.pwr.holdLate = false) ∧
    (let s : State := r.mapPwr fun x => { x with hot := 1 }
     let temps : List (Option Half) := List.replicate 23 (some 2400) ++ [some 2401]
     s.pwr.inReset = false ∧
     (s.sensorFailed 22 = false ∧ 1 ≤ s.pwr.hot)) ∧
    (let s : State := r.sf (Reg.THM_TEMP 0) F.THM_TEMP_FAILED 1
     let temps : List (Option Half) := []
     s.pwr.inReset = false ∧
     s.sensorFailed 0 = true) ∧
    (let s : State := r
     let ages : List Word := [1, 2]
     s.pwr.inReset = false) :=
  ⟨by decide +kernel,
    by decide +kernel,
    by decide +kernel,
    by decide +kernel,
    by decide +kernel,
    by decide +kernel,
    by decide +kernel,
    by decide +kernel,
    by decide +kernel,
    by decide +kernel,
    by decide +kernel,
    by decide +kernel,
    by decide +kernel,
    by decide +kernel,
    by decide +kernel⟩

/-- States that meet the hypotheses of FirmwareLoadsAuthenticatesAndStarts, clause by clause. -/
theorem test_witness_FirmwareLoadsAuthenticatesAndStarts_1 :
    (let s : State := boot
     let e : Entry := cmd 0x02 0x7FFFC0 [] 64 (some eight)
     let b : List Byte := eight
     Accepted 0x02 e s ∧
     (s.port e.port).d3 = false ∧
     s.pwr.katFail = false ∧
     eBufLen e % 64 = 0 ∧
     0 < eBufLen e ∧
     eBufLen e ≤ 65536 ∧
     eTarget e % 64 = 0 ∧
     eTarget e + eBufLen e ≤ 8388608 ∧
     zeroes e 8 48 = true ∧
     e.buf = some b) :=
  ⟨accepted_of (by decide +kernel), by decide +kernel⟩

/-- States that meet the hypotheses of FirmwareLoadsAuthenticatesAndStarts, clause by clause. -/
theorem test_witness_FirmwareLoadsAuthenticatesAndStarts_2 :
    (let s : State := boot
     let e : Entry := cmd 0x03 0 (leBytes 4 64) 0 none
     Accepted 0x03 e s ∧
     (s.port e.port).d3 = false ∧
     s.pwr.katFail = false ∧
     s.ecc = [] ∧
     ent e 8 4 % 64 = 0 ∧
     0 < ent e 8 4 ∧
     ent e 8 4 ≤ 8388608 ∧
     zeroes e 12 48 = true ∧
     let n := ent e 8 4
     let im := s.image n
     formatOk im n = false) :=
  ⟨accepted_of (by decide +kernel), by decide +kernel⟩

/-- States that meet the hypotheses of FirmwareLoadsAuthenticatesAndStarts, clause by clause. -/
theorem test_witness_FirmwareLoadsAuthenticatesAndStarts_3 :
    (let s : State := staged (pack 0x01 20 eight 0 0 0) boot
     let e : Entry := cmd 0x03 0 (leBytes 4 448) 0 none
     Accepted 0x03 e s ∧
     (s.port e.port).d3 = false ∧
     s.pwr.katFail = false ∧
     s.ecc = [] ∧
     ent e 8 4 % 64 = 0 ∧
     0 < ent e 8 4 ∧
     ent e 8 4 ≤ 8388608 ∧
     zeroes e 12 48 = true ∧
     let n := ent e 8 4
     let im := s.image n
     (formatOk im n = true ∧ s.signatureOk im n = false)) :=
  ⟨accepted_of (by decide +kernel), by decide +kernel⟩

/-- States that meet the hypotheses of FirmwareLoadsAuthenticatesAndStarts, clause by clause. -/
theorem test_witness_FirmwareLoadsAuthenticatesAndStarts_4 :
    (let s : State := staged wrongDigest boot
     let e : Entry := cmd 0x03 0 (leBytes 4 448) 0 none
     Accepted 0x03 e s ∧
     (s.port e.port).d3 = false ∧
     s.pwr.katFail = false ∧
     s.ecc = [] ∧
     ent e 8 4 % 64 = 0 ∧
     0 < ent e 8 4 ∧
     ent e 8 4 ≤ 8388608 ∧
     zeroes e 12 48 = true ∧
     let n := ent e 8 4
     let im := s.image n
     (formatOk im n = true ∧ s.signatureOk im n = true ∧ digestsOk im = false)) :=
  ⟨accepted_of (by decide +kernel), by decide +kernel⟩

/-- States that meet the hypotheses of FirmwareLoadsAuthenticatesAndStarts, clause by clause. -/
theorem test_witness_FirmwareLoadsAuthenticatesAndStarts_5 :
    (let s : State := staged goodPack boot
     let e : Entry := cmd 0x03 0 (leBytes 4 448) 0 none
     Accepted 0x03 e s ∧
     (s.port e.port).d3 = false ∧
     s.pwr.katFail = false ∧
     s.ecc = [] ∧
     ent e 8 4 % 64 = 0 ∧
     0 < ent e 8 4 ∧
     ent e 8 4 ≤ 8388608 ∧
     zeroes e 12 48 = true ∧
     let n := ent e 8 4
     let im := s.image n
     (formatOk im n = true ∧ s.signatureOk im n = true ∧ digestsOk im = true)) :=
  ⟨accepted_of (by decide +kernel), by decide +kernel⟩

/-- States that meet the hypotheses of FirmwareLoadsAuthenticatesAndStarts, clause by clause. -/
theorem test_witness_FirmwareLoadsAuthenticatesAndStarts_6 :
    (let s : State := staged goodPack (boot.sf (Reg.HIF_DEVSTATE 0) F.HIF_DEVSTATE_STATE 1)
     let e : Entry := cmd 0x04 0 [] 0 none
     let x : Sec := secAt goodPack 0
     Accepted 0x04 e s ∧
     (s.port e.port).d3 = false ∧
     s.pwr.katFail = false ∧
     zeroes e 8 48 = true ∧
     x.kind = 0x01 ∧
     let im := s.image s.keep.imgLen
     sections im = [x]) :=
  ⟨accepted_of (by decide +kernel), by decide +kernel⟩

/-- States that meet the hypotheses of FirmwareLoadsAuthenticatesAndStarts, clause by clause. -/
theorem test_witness_FirmwareLoadsAuthenticatesAndStarts_7 :
    (let s : State := loaded (pack 0x20 15 eight 0 0 0)
     s.dev = 1 ∧
     s.keep.started = true ∧
     let im := s.image s.keep.imgLen
     let ss := sections im
     let ok := (s.applyConfig.fillAll.loadStores im ss).1
     let refused := ss.any fun x => x.kind == 0x33 && (grants (x.data im)).any fun g => g.refused x.unit
     let outside := ss.any fun x => (x.kind == 0x30 || x.kind == 0x31) && decide (0x40000 < x.start + x.len)
     ok = false) :=
  by decide +kernel

/-- States that meet the hypotheses of FirmwareLoadsAuthenticatesAndStarts, clause by clause. -/
theorem test_witness_FirmwareLoadsAuthenticatesAndStarts_8 :
    (let s : State := loaded (pack 0x33 19 [31, 0, 0, 0, 0, 0, 0, 0x78, 8, 0, 0, 0, 1, 0, 0, 0] 0 0 0)
     s.dev = 1 ∧
     s.keep.started = true ∧
     let im := s.image s.keep.imgLen
     let ss := sections im
     let ok := (s.applyConfig.fillAll.loadStores im ss).1
     let refused := ss.any fun x => x.kind == 0x33 && (grants (x.data im)).any fun g => g.refused x.unit
     let outside := ss.any fun x => (x.kind == 0x30 || x.kind == 0x31) && decide (0x40000 < x.start + x.len)
     (ok = true ∧ refused = true)) :=
  by decide +kernel

/-- States that meet the hypotheses of FirmwareLoadsAuthenticatesAndStarts, clause by clause. -/
theorem test_witness_FirmwareLoadsAuthenticatesAndStarts_9 :
    (let s : State := loaded goodPack
     s.dev = 1 ∧
     s.keep.started = true ∧
     let im := s.image s.keep.imgLen
     let ss := sections im
     let ok := (s.applyConfig.fillAll.loadStores im ss).1
     let refused := ss.any fun x => x.kind == 0x33 && (grants (x.data im)).any fun g => g.refused x.unit
     let outside := ss.any fun x => (x.kind == 0x30 || x.kind == 0x31) && decide (0x40000 < x.start + x.len)
     (ok = true ∧ refused = false ∧ outside = false)) :=
  by decide +kernel

/-- States that meet the hypotheses of KeeperReportsTimeResetAndWear, clause by clause. -/
theorem test_witness_KeeperReportsTimeResetAndWear :
    (let s : State := owned (r)
     let e : Entry := cmd 0x01 0 [] 0 none
     Accepted 0x01 e s ∧
     (s.port e.port).d3 = false ∧
     zeroes e 8 48 = true) ∧
    (let s : State := owned (r)
     let e : Entry := cmd 0x05 0xFFFFFFFF [] 0 none
     Accepted 0x05 e s ∧
     (s.port e.port).d3 = false ∧
     zeroes e 8 48 = true ∧
     let fl := eTarget e
     32 ≤ fl) ∧
    (let s : State := owned (flt 15 1 3)
     let e : Entry := cmd 0x05 31 [] 0 none
     Accepted 0x05 e s ∧
     (s.port e.port).d3 = false ∧
     zeroes e 8 48 = true ∧
     let fl := eTarget e
     (fl < 32 ∧ s.slotOf fl = some (15, 1))) ∧
    (let s : State := owned (r)
     let e : Entry := cmd 0x05 31 [] 0 none
     Accepted 0x05 e s ∧
     (s.port e.port).d3 = false ∧
     zeroes e 8 48 = true ∧
     let fl := eTarget e
     (fl < 32 ∧ s.slotOf fl = none)) ∧
    (let s : State := owned (r)
     let e : Entry := cmd 0x06 0 [] 0 none
     Accepted 0x06 e s ∧
     (s.port e.port).d3 = false ∧
     zeroes e 8 48 = true) ∧
    (let s : State := owned (r)
     let e : Entry := cmd 0x07 0 (leBytes 8 0 ++ leBytes 8 (2 ^ 64 - 1)) 0 none
     Accepted 0x07 e s ∧
     (s.port e.port).d3 = false ∧
     ent e 8 1 ≤ 1 ∧
     zeroes e 9 16 = true ∧
     zeroes e 24 48 = true ∧
     (ent e 8 1 = 0 ∧ s.anyRun = false)) ∧
    (let s : State := owned (flt 15 1 3)
     let e : Entry := cmd 0x07 0 (leBytes 8 0 ++ leBytes 8 (2 ^ 64 - 1)) 0 none
     Accepted 0x07 e s ∧
     (s.port e.port).d3 = false ∧
     ent e 8 1 ≤ 1 ∧
     zeroes e 9 16 = true ∧
     zeroes e 24 48 = true ∧
     (ent e 8 1 = 0 ∧ s.anyRun = true)) ∧
    (let s : State := owned (r)
     let e : Entry := cmd 0x07 0 (leBytes 8 1 ++ leBytes 8 (2 ^ 64 - 2147483647)) 0 none
     Accepted 0x07 e s ∧
     (s.port e.port).d3 = false ∧
     ent e 8 1 ≤ 1 ∧
     zeroes e 9 16 = true ∧
     zeroes e 24 48 = true ∧
     (ent e 8 1 = 1 ∧ (sx 64 (ent e 16 8)).natAbs < 2147483648)) ∧
    (let s : State := owned (flt 15 1 3)
     let e : Entry := cmd 0x0F 0 [0xA5] 0 none
     Accepted 0x0F e s ∧
     (s.port e.port).d3 = false ∧
     ent e 8 1 = 0xA5 ∧
     zeroes e 9 48 = true ∧
     s.anyRun = true) ∧
    (let s : State := owned (r)
     let e : Entry := cmd 0x0F 0 [0xA5] 0 none
     Accepted 0x0F e s ∧
     (s.port e.port).d3 = false ∧
     ent e 8 1 = 0xA5 ∧
     zeroes e 9 48 = true ∧
     s.anyRun = false) ∧
    (let s : State := owned (r)
     let e : Entry := cmd 0x90 1022 [2] 128 (some [])
     let b : List Byte := []
     Accepted 0x90 e s ∧
     (s.port e.port).d3 = false ∧
     e.buf = some b ∧
     eBufLen e = 64 * ent e 8 2 ∧
     ent e 8 2 ≠ 0 ∧
     ent e 8 2 ≤ 1024 ∧
     eTarget e + ent e 8 2 ≤ 1024 ∧
     zeroes e 10 48 = true) ∧
    (let s : State := owned (r)
     let e : Entry := cmd 0x91 3 [] 4096 (some wearTbl)
     let b : List Byte := wearTbl
     Accepted 0x91 e s ∧
     (s.port e.port).d3 = false ∧
     e.buf = some b ∧
     eBufLen e = 4096 ∧
     zeroes e 8 48 = true ∧
     wearTblOk b = true) ∧
    (let s : State := owned (r)
     let e : Entry := cmd 0x91 3 [] 4096 (some [])
     let b : List Byte := []
     Accepted 0x91 e s ∧
     (s.port e.port).d3 = false ∧
     e.buf = some b ∧
     eBufLen e = 4096 ∧
     zeroes e 8 48 = true ∧
     wearTblOk b = false) :=
  ⟨⟨accepted_of (by decide +kernel), by decide +kernel⟩,
    ⟨accepted_of (by decide +kernel), by decide +kernel⟩,
    ⟨accepted_of (by decide +kernel), by decide +kernel⟩,
    ⟨accepted_of (by decide +kernel), by decide +kernel⟩,
    ⟨accepted_of (by decide +kernel), by decide +kernel⟩,
    ⟨accepted_of (by decide +kernel), by decide +kernel⟩,
    ⟨accepted_of (by decide +kernel), by decide +kernel⟩,
    ⟨accepted_of (by decide +kernel), by decide +kernel⟩,
    ⟨accepted_of (by decide +kernel), by decide +kernel⟩,
    ⟨accepted_of (by decide +kernel), by decide +kernel⟩,
    ⟨accepted_of (by decide +kernel), by decide +kernel⟩,
    ⟨accepted_of (by decide +kernel), by decide +kernel, rfl, by decide +kernel, by decide +kernel, wearTbl_ok⟩,
    ⟨accepted_of (by decide +kernel), by decide +kernel⟩⟩

/-- States that meet the hypotheses of TripPoliciesWindowsAndOwnershipChange, clause by clause. -/
theorem test_witness_TripPoliciesWindowsAndOwnershipChange :
    (let s : State := owned (r.sf (Reg.SLU_GSTAT 31) F.SLU_GSTAT_LATCHED 1)
     let e : Entry := cmd 0x50 31 (List.replicate 20 0xFF ++ [0, 0, 0, 0] ++ leBytes 4 0 ++ leBytes 4 7 ++ [1, 1, 31, 1]) 0 none
     Accepted 0x50 e s ∧
     (s.port e.port).d3 = false ∧
     ent e 40 1 ≤ 1 ∧
     ent e 41 1 ≤ 1 ∧
     ent e 42 1 ≤ 31 ∧
     ent e 43 1 ≤ 1 ∧
     zeroes e 30 32 = true ∧
     zeroes e 44 48 = true ∧
     ((ent e 41 1 = 1 → ent e 32 4 = 0)) ∧
     let g := eTarget e
     s.latched g = true) ∧
    (let s : State := owned ((r.sf Reg.SLU_LOCK F.SLU_LOCK_LOCK 1).wr (Reg.SLU_GFLT 31) 1)
     let e : Entry := cmd 0x50 31 (List.replicate 20 0xFF ++ [0, 0, 0, 0] ++ leBytes 4 0 ++ leBytes 4 7 ++ [1, 1, 31, 1]) 0 none
     Accepted 0x50 e s ∧
     (s.port e.port).d3 = false ∧
     ent e 40 1 ≤ 1 ∧
     ent e 41 1 ≤ 1 ∧
     ent e 42 1 ≤ 31 ∧
     ent e 43 1 ≤ 1 ∧
     zeroes e 30 32 = true ∧
     zeroes e 44 48 = true ∧
     ((ent e 41 1 = 1 → ent e 32 4 = 0)) ∧
     let g := eTarget e
     (s.latched g = false ∧ s.sluLocked = true ∧ s.tripTightens g e = false)) ∧
    (let s : State := owned (r)
     let e : Entry := cmd 0x50 31 (List.replicate 20 0xFF ++ [0, 0, 0, 0] ++ leBytes 4 3 ++ leBytes 4 7 ++ [1, 0, 31, 1]) 0 none
     Accepted 0x50 e s ∧
     (s.port e.port).d3 = false ∧
     ent e 40 1 ≤ 1 ∧
     ent e 41 1 ≤ 1 ∧
     ent e 42 1 ≤ 31 ∧
     ent e 43 1 ≤ 1 ∧
     zeroes e 30 32 = true ∧
     zeroes e 44 48 = true ∧
     ((ent e 41 1 = 1 → ent e 32 4 = 0)) ∧
     let g := eTarget e
     (s.latched g = false ∧ s.sluLocked = false)) ∧
    (let s : State := owned (r.sf (Reg.SLU_GSTAT 31) F.SLU_GSTAT_LATCHED 1)
     let e : Entry := cmd 0x51 (2 ^ 31) [] 0 none
     let g : Fin 32 := 31
     Accepted 0x51 e s ∧
     (s.port e.port).d3 = false ∧
     eTarget e = 2 ^ g.val ∧
     zeroes e 8 48 = true ∧
     s.latched g = true ∧
     s.groupMask g &&& s.activeMask = 0) ∧
    (let s : State := owned (((r.sf (Reg.SLU_GSTAT 31) F.SLU_GSTAT_LATCHED 1).wr (Reg.SLU_GSRC 31 3) 0x80000000).wr (Reg.SLU_SRC_ACT 3) 0x80000000)
     let e : Entry := cmd 0x51 (2 ^ 31) [] 0 none
     let g : Fin 32 := 31
     Accepted 0x51 e s ∧
     (s.port e.port).d3 = false ∧
     eTarget e = 2 ^ g.val ∧
     zeroes e 8 48 = true ∧
     s.latched g = true ∧
     s.groupMask g &&& s.activeMask ≠ 0) ∧
    (let s : State := owned (r.sf (Reg.GLV_STAT 20) F.GLV_STAT_STATE 1)
     let e : Entry := cmd 0x51 (2 ^ 31) [] 0 none
     eOp e = 0x51 ∧
     s.dev ≠ 0 ∧
     s.dev ≠ 4 ∧
     s.pwr.inReset = false ∧
     s.keeperOn = false) ∧
    (let s : State := owned (r)
     let e : Entry := cmd 0x52 127 [] 0 none
     Accepted 0x52 e s ∧
     (s.port e.port).d3 = false ∧
     let c := eTarget e
     windowOk e = false) ∧
    (let s : State := owned ((r.sf Reg.CMP_LOCK F.CMP_LOCK_LOCK 1).sf (Reg.CMP_CFG 127) F.CMP_CFG_HI_EN 1)
     let e : Entry := cmd 0x52 127 [0, 0, 0, 0, 0, 0, 0, 1, 1] 0 none
     Accepted 0x52 e s ∧
     (s.port e.port).d3 = false ∧
     let c := eTarget e
     (windowOk e = true ∧ s.cmpLocked c = true ∧ s.windowTightens c e = false)) ∧
    (let s : State := owned (r)
     let e : Entry := cmd 0x52 127 [0, 0xF8, 0xFF, 7, 31, 3, 2, 8, 15, 0, 0, 0, 0xFF, 0xFF, 3, 0, 1, 63] 0 none
     Accepted 0x52 e s ∧
     (s.port e.port).d3 = false ∧
     let c := eTarget e
     (windowOk e = true ∧ s.cmpLocked c = false)) ∧
    (let s : State := owned (r)
     let e : Entry := cmd 0x53 0 [] 0 none
     Accepted 0x53 e s ∧
     (s.port e.port).d3 = false ∧
     zeroes e 8 48 = true) ∧
    (let s : State := owned (r)
     let e : Entry := cmd 0xA0 0 [] 0 none
     Accepted 0xA0 e s ∧
     (s.port e.port).d3 = false ∧
     zeroes e 8 48 = true) ∧
    (let s : State := owned (r)
     let e : Entry := cmd 0xA1 0 [] 0 none
     Accepted 0xA1 e s ∧
     (s.port e.port).d3 = false ∧
     zeroes e 8 48 = true) ∧
    (let s : State := owned (r)
     let e : Entry := cmd 0xA2 0 [] 0 none
     Accepted 0xA2 e s ∧
     (s.port e.port).d3 = false ∧
     zeroes e 8 48 = true) :=
  ⟨⟨accepted_of (by decide +kernel), by decide +kernel⟩,
    ⟨accepted_of (by decide +kernel), by decide +kernel⟩,
    ⟨accepted_of (by decide +kernel), by decide +kernel⟩,
    ⟨accepted_of (by decide +kernel), by decide +kernel⟩,
    ⟨accepted_of (by decide +kernel), by decide +kernel⟩,
    by decide +kernel,
    ⟨accepted_of (by decide +kernel), by decide +kernel⟩,
    ⟨accepted_of (by decide +kernel), by decide +kernel⟩,
    ⟨accepted_of (by decide +kernel), by decide +kernel⟩,
    ⟨accepted_of (by decide +kernel), by decide +kernel⟩,
    ⟨accepted_of (by decide +kernel), by decide +kernel⟩,
    ⟨accepted_of (by decide +kernel), by decide +kernel⟩,
    ⟨accepted_of (by decide +kernel), by decide +kernel⟩⟩

/-- States that meet the hypotheses of StreamsRingsAndSheddingRun, clause by clause. -/
theorem test_witness_StreamsRingsAndSheddingRun :
    (let s : State := owned (going 15 r)
     let e : Entry := cmd 0x80 7 ([15, 11, 1, 0, 16, 63, 1, 0] ++ leBytes 8 4096 ++ leBytes 8 4) 44 (some (((List.range 11).map fun _ => leBytes 4 0x7007FFFC).flatten))
     let b : List Byte := ((List.range 11).map fun _ => leBytes 4 0x7007FFFC).flatten
     Accepted 0x80 e s ∧
     (s.port e.port).d3 = false ∧
     e.buf = some b ∧
     eBufLen e = 4 * ent e 9 1 ∧
     ent e 8 1 ≤ 15 ∧
     ent e 9 1 ≠ 0 ∧
     ent e 9 1 ≤ 11 ∧
     ent e 10 2 ≠ 0 ∧
     4 ≤ ent e 12 1 ∧
     ent e 12 1 ≤ 16 ∧
     ent e 13 1 ≤ 63 ∧
     ent e 14 1 ≤ 1 ∧
     ent e 15 1 = 0 ∧
     ent e 16 8 % 4096 = 0 ∧
     ent e 24 8 % 4 = 0 ∧
     zeroes e 32 48 = true ∧
     let ws := (List.range (ent e 9 1)).map fun k => leAt b (4 * k) 4
     ((∀ a ∈ ws, a % 4 = 0 ∧ mirrored a = true)) ∧
     (s.stream e.port (eTarget e) = none ∧ s.runOn (ent e 8 1) = true)) ∧
    (let s : State := owned (r)
     let e : Entry := cmd 0x80 7 ([15, 11, 1, 0, 16, 63, 1, 0] ++ leBytes 8 4096 ++ leBytes 8 4) 44 (some (((List.range 11).map fun _ => leBytes 4 0x7007FFFC).flatten))
     let b : List Byte := ((List.range 11).map fun _ => leBytes 4 0x7007FFFC).flatten
     Accepted 0x80 e s ∧
     (s.port e.port).d3 = false ∧
     e.buf = some b ∧
     eBufLen e = 4 * ent e 9 1 ∧
     ent e 8 1 ≤ 15 ∧
     ent e 9 1 ≠ 0 ∧
     ent e 9 1 ≤ 11 ∧
     ent e 10 2 ≠ 0 ∧
     4 ≤ ent e 12 1 ∧
     ent e 12 1 ≤ 16 ∧
     ent e 13 1 ≤ 63 ∧
     ent e 14 1 ≤ 1 ∧
     ent e 15 1 = 0 ∧
     ent e 16 8 % 4096 = 0 ∧
     ent e 24 8 % 4 = 0 ∧
     zeroes e 32 48 = true ∧
     let ws := (List.range (ent e 9 1)).map fun k => leAt b (4 * k) 4
     ((∀ a ∈ ws, a % 4 = 0 ∧ mirrored a = true)) ∧
     s.runOn (ent e 8 1) = false) ∧
    (let s : State := owned (r)
     let e : Entry := cmd 0x81 7 [] 0 none
     Accepted 0x81 e s ∧
     (s.port e.port).d3 = false ∧
     zeroes e 8 48 = true ∧
     s.stream e.port (eTarget e) = none) ∧
    (let s : State := owned (r.setStream 0 7 (some { fc := 15, words := [0x70000000], decim := 1, sizeExp := 4, vec := 63, irq := false, ring := 4096, twb := 4, left := 1, seq := 17, due := none, written := 16, skipped := 2, lastSeq := 15 }))
     let e : Entry := cmd 0x81 7 [] 0 none
     Accepted 0x81 e s ∧
     (s.port e.port).d3 = false ∧
     zeroes e 8 48 = true ∧
     s.stream e.port (eTarget e) = some { fc := 15, words := [0x70000000], decim := 1, sizeExp := 4, vec := 63, irq := false, ring := 4096, twb := 4, left := 1, seq := 17, due := none, written := 16, skipped := 2, lastSeq := 15 }) ∧
    (let s : State := asks 9
     s.fwRuns = true ∧
     (s.ringNew 19 15 = true ∧ s.rdByte (ringRec 19 15) = 9)) ∧
    (let s : State := asks 1
     let p : Fin 21 := 19
     let k : Fin 16 := 15
     let b : Fin 4 := 3
     let on : Bool := true
     s.fwRuns = true ∧
     p.val < 20 ∧
     s.ringNew p k = true ∧
     s.rdByte (ringRec p k) = 1) ∧
    (let s : State := ((asks 2).wr (Reg.EVT_ROUTE 1677) 1).sf (Reg.EVT_QCFG 0) F.EVT_QCFG_EN 1
     let p : Fin 21 := 19
     let k : Fin 16 := 15
     s.fwRuns = true ∧
     p.val < 20 ∧
     s.ringNew p k = true ∧
     s.rdByte (ringRec p k) = 2 ∧
     s.routeOf 1677 ≠ 0) ∧
    (let s : State := asks 3
     let p : Fin 21 := 19
     let k : Fin 16 := 15
     s.fwRuns = true ∧
     p.val < 20 ∧
     s.ringNew p k = true ∧
     s.rdByte (ringRec p k) = 3) ∧
    (let s : State := owned (r.sf Reg.THM_MAX F.THM_MAX_MAX 1681)
     s.fwRuns = true ∧
     1680 < s.thmMax) ∧
    (let s : State := owned ((r.sf Reg.THM_MAX F.THM_MAX_MAX 1647).sf (Reg.HIF_KSHED 0) F.HIF_KSHED_SHED 1)
     s.fwRuns = true ∧
     (s.thmMax < 1648 ∧ s.bit (Reg.HIF_KSHED 0) F.HIF_KSHED_SHED = true ∧ s.keep.cool = none)) ∧
    (let s : State := { ((owned r).sf (Reg.HIF_KSHED 0) F.HIF_KSHED_SHED 1).mapKeep fun k => { k with cool := some 0 } with tick := 800000000 }
     s.fwRuns = true ∧
     (s.thmMax < 1648 ∧ s.bit (Reg.HIF_KSHED 0) F.HIF_KSHED_SHED = true ∧ s.keep.cool = some 0 ∧ 0 + 800000000 ≤ s.tick)) ∧
    (let s : State := owned ((r.sf Reg.THM_MAX F.THM_MAX_MAX 1648).sf (Reg.HIF_KSHED 0) F.HIF_KSHED_SHED 1)
     s.fwRuns = true ∧
     (1648 ≤ s.thmMax ∧ s.thmMax ≤ 1680 ∧ s.bit (Reg.HIF_KSHED 0) F.HIF_KSHED_SHED = true)) ∧
    (let s : State := owned (r.sf Reg.THM_MAX F.THM_MAX_MAX 1680)
     s.fwRuns = true ∧
     (s.thmMax ≤ 1680 ∧ s.bit (Reg.HIF_KSHED 0) F.HIF_KSHED_SHED = false)) :=
  ⟨⟨accepted_of (by decide +kernel), by decide +kernel⟩,
    ⟨accepted_of (by decide +kernel), by decide +kernel⟩,
    ⟨accepted_of (by decide +kernel), by decide +kernel⟩,
    ⟨accepted_of (by decide +kernel), by decide +kernel⟩,
    by decide +kernel,
    by decide +kernel,
    by decide +kernel,
    by decide +kernel,
    by decide +kernel,
    by decide +kernel,
    by decide +kernel,
    by decide +kernel,
    by decide +kernel⟩

/-- States that meet the hypotheses of RegisterAccessesFollowTheirCodes, clause by clause. -/
theorem test_witness_RegisterAccessesFollowTheirCodes :
    (let s : State := r
     let who : Fin 23 := 22
     let a : Nat := 0x70060001
     let v : Word := 5
     (s.pwr.inReset = true ∨ a % 4 ≠ 0)) ∧
    (let s : State := r
     let who : Fin 23 := 20
     let a : Nat := Reg.MEM_SCRUB_OFF
     let v : Word := 0xFFFFFFFF
     s.pwr.inReset = false ∧
     a % 4 = 0 ∧
     who.val < 21 ∧
     0x70060000 ≤ a ∧
     a < 0x70080000 ∧
     a ∉ [0x70060044, 0x70060048, 0x7006005C] ∧
     (regRow a).isSome = true) ∧
    (let s : State := r
     let who : Fin 23 := 0
     let a : Nat := 0x7007FFFC
     let v : Word := 0xFFFFFFFF
     s.pwr.inReset = false ∧
     a % 4 = 0 ∧
     who.val < 21 ∧
     0x70060000 ≤ a ∧
     a < 0x70080000 ∧
     a ∉ [0x70060044, 0x70060048, 0x7006005C] ∧
     regRow a = none) ∧
    (let s : State := r.wr Reg.THM_STAT 0xFFFFFFFF
     let who : Fin 23 := 20
     let a : Nat := Reg.THM_STAT
     let v : Word := 0xFFFFFFFF
     s.pwr.inReset = false ∧
     a % 4 = 0 ∧
     who.val < 21 ∧
     0x70060000 ≤ a ∧
     a < 0x70080000 ∧
     a ∉ [0x70060044, 0x70060048, 0x7006005C] ∧
     (regRow a).isSome = true) ∧
    (let s : State := going 15 r
     let who : Fin 23 := 15
     let n : Fin 16 := 15
     let v : Word := 5
     s.pwr.inReset = false ∧
     who.val < 21 ∧
     (s.fc n).switching = false ∧
     s.bit (Reg.FC_CYC_CTRL n) F.FC_CYC_CTRL_RUN = true) ∧
    (let s : State := linked r
     let p : Fin 2 := 1
     let off : Nat := 0x1FFFFFC
     let len : Nat := 4
     s.pwr.inReset = false ∧
     (s.port p).up = true ∧
     (s.port p).d3 = false ∧
     s.ecc = [] ∧
     off + len ≤ 0x2000000) ∧
    (let s : State := linked r
     let p : Fin 2 := 1
     let o : Nat := 0x7FFFC
     s.pwr.inReset = false ∧
     (s.port p).up = true ∧
     (s.port p).d3 = false ∧
     o < 0x80000 ∧
     o % 4 = 0) ∧
    (let s : State := linked r
     let p : Fin 2 := 1
     let o : Nat := Reg.THM_STAT - 0x70000000
     s.pwr.inReset = false ∧
     (s.port p).up = true ∧
     (s.port p).d3 = false ∧
     o < 0x80000 ∧
     o % 4 = 0) ∧
    (let s : State := linked (r.setStream 1 15 (some { fc := 15, words := [0x70000000], decim := 1, sizeExp := 4, vec := 63, irq := false, ring := 4096, twb := 4, left := 1, seq := 17, due := some (9, 16, 3), written := 16, skipped := 2, lastSeq := 15 }))
     let p : Fin 2 := 1
     let k : Fin 16 := 15
     let x : Stream := { fc := 15, words := [0x70000000], decim := 1, sizeExp := 4, vec := 63, irq := false, ring := 4096, twb := 4, left := 1, seq := 17, due := some (9, 16, 3), written := 16, skipped := 2, lastSeq := 15 }
     let ts : Nat := 9
     let seq : Nat := 16
     let cnt : Nat := 3
     s.stream p k = some x ∧
     x.due = some (ts, seq, cnt) ∧
     s.portOk p = true ∧
     x.irq = false ∧
     (∀ n : Fin 16, (s.fc n).switching = false)) :=
  ⟨by decide +kernel,
    by decide +kernel,
    by decide +kernel,
    by decide +kernel,
    by decide +kernel,
    by decide +kernel,
    by decide +kernel,
    by decide +kernel,
    by decide +kernel⟩

/-- States that meet the hypotheses of MultiplyDivideAndFixedPointResults, clause by clause. -/
theorem test_witness_MultiplyDivideAndFixedPointResults :
    (let p : Fin 21 := 19
     let w : Word := opWord .quos (BitVec.ofNat 32 6361088)
     let s : State := pairAt w [0x80000000, 0xFFFFFFFF] [] []
     let s1 : State := ((s.toBoundary p).fetch p).2
     Fetches p .quos w s s1 ∧
     ((s1.gR p (fA w)).toInt = -2147483648 ∧ (s1.gR p (fB w)).toInt = -1)) ∧
    (let p : Fin 21 := 19
     let w : Word := opWord .rmdu (BitVec.ofNat 32 6361088)
     let s : State := pairAt w [7, 0] [] []
     let s1 : State := ((s.toBoundary p).fetch p).2
     Fetches p .rmdu w s s1 ∧
     s1.gR p (fB w) = 0) ∧
    (let p : Fin 21 := 19
     let w : Word := opWord .quou (BitVec.ofNat 32 6361088)
     let s : State := pairAt w [7, 2] [] []
     let s1 : State := ((s.toBoundary p).fetch p).2
     Fetches p .quou w s s1 ∧
     s1.gR p (fB w) ≠ 0) ∧
    (let p : Fin 21 := 19
     let w : Word := opWord .adds (BitVec.ofNat 32 6361088)
     let s : State := pairAt w [0x7FFFFFFF, 1] [] []
     let s1 : State := ((s.toBoundary p).fetch p).2
     Fetches p .adds w s s1 ∧
     ¬((s1.gR p (fA w)).toInt + (s1.gR p (fB w)).toInt < 2 ^ 31)) ∧
    (let p : Fin 21 := 19
     let w : Word := opWord .subs (BitVec.ofNat 32 6361088)
     let s : State := pairAt w [0x7FFFFFFF, 0] [] []
     let s1 : State := ((s.toBoundary p).fetch p).2
     Fetches p .subs w s s1 ∧
     (s1.gR p (fA w)).toInt - (s1.gR p (fB w)).toInt < 2 ^ 31) :=
  ⟨⟨fetches_of (by decide +kernel), by decide +kernel⟩,
    ⟨fetches_of (by decide +kernel), by decide +kernel⟩,
    ⟨fetches_of (by decide +kernel), by decide +kernel⟩,
    ⟨fetches_of (by decide +kernel), by decide +kernel⟩,
    ⟨fetches_of (by decide +kernel), by decide +kernel⟩⟩

/-- States that meet the hypotheses of BranchesAndJumpsReachTheirTargets, clause by clause. -/
theorem test_witness_BranchesAndJumpsReachTheirTargets :
    (let p : Fin 21 := 19
     let w : Word := opWord .bz 0x3FFFFF
     let s : State := pairAt w [0] [] []
     let s1 : State := ((s.toBoundary p).fetch p).2
     Fetches p .bz w s s1 ∧
     s1.gR p (fD w) = 0) ∧
    (let p : Fin 21 := 19
     let w : Word := opWord .bnz (BitVec.ofNat 32 2097152)
     let s : State := pairAt w [0] [] []
     let s1 : State := ((s.toBoundary p).fetch p).2
     Fetches p .bnz w s s1 ∧
     s1.gR p (fD w) = 0) ∧
    (let p : Fin 21 := 19
     let w : Word := opWord .dbnz (BitVec.ofNat 32 2097152)
     let s : State := pairAt w [1] [] []
     let s1 : State := ((s.toBoundary p).fetch p).2
     Fetches p .dbnz w s s1 ∧
     s1.gR p (fD w) = 1) ∧
    (let p : Fin 21 := 19
     let w : Word := opWord .dbnz (BitVec.ofNat 32 2097152)
     let s : State := pairAt w [0] [] []
     let s1 : State := ((s.toBoundary p).fetch p).2
     Fetches p .dbnz w s s1 ∧
     s1.gR p (fD w) ≠ 1) :=
  ⟨⟨fetches_of (by decide +kernel), by decide +kernel⟩,
    ⟨fetches_of (by decide +kernel), by decide +kernel⟩,
    ⟨fetches_of (by decide +kernel), by decide +kernel⟩,
    ⟨fetches_of (by decide +kernel), by decide +kernel⟩⟩

/-- States that meet the hypotheses of LoadsReadTheirBytesOrFault, clause by clause. -/
theorem test_witness_LoadsReadTheirBytesOrFault :
    (let p : Fin 21 := 19
     let w : Word := opWord .lb (BitVec.ofNat 32 6356992)
     let s : State := pairAt w [] [] [data 0x40] [0x80, 0xFF, 3, 0xF4, 5, 6, 7, 8]
     let s1 : State := ((s.toBoundary p).fetch p).2
     Fetches p .lb w s s1 ∧
     ((((s1.dropPend p).load p (s1.cR p (fA w)) (accOf pLoad 1) (fA w) false (s1.ea p w) 1).1 = .inr [0x80]) ∧ s1.access p (s1.cR p (fA w)) (accOf pLoad 1) (fA w) false (s1.ea p w) 1 = none ∧ memKey p (s1.ea p w) = some (dtcm 19 0x40) ∧ (s1.core p).sb = [] ∧ s1.ecc = [])) ∧
    (let p : Fin 21 := 19
     let w : Word := opWord .lw (BitVec.ofNat 32 6356992)
     let s : State := pairAt w [] [] [data 0x3FFFE]
     let s1 : State := ((s.toBoundary p).fetch p).2
     Fetches p .lw w s s1 ∧
     ((s1.dropPend p).load p (s1.cR p (fA w)) (accOf pLoad 4) (fA w) false (s1.ea p w) 4).1.isLeft = true) ∧
    (let p : Fin 21 := 19
     let w : Word := opWord .lcap (BitVec.ofNat 32 6356992)
     let s : State := pairAt w [] [] [data 0x44]
     let s1 : State := ((s.toBoundary p).fetch p).2
     Fetches p .lcap w s s1 ∧
     s1.access p (s1.cR p (fA w)) ({ need := pLoad + pLoadCap, align := 8, special := true, word := false, atomic := false }) (fA w) false (s1.ea p w) 8 ≠ none) ∧
    (let p : Fin 21 := 19
     let w : Word := opWord .lcap (BitVec.ofNat 32 6356992)
     let s : State := pairAt w [] [] [data 0x40] [0x80, 0xFF, 3, 0xF4, 5, 6, 7, 8]
     let s1 : State := ((s.toBoundary p).fetch p).2
     Fetches p .lcap w s s1 ∧
     (s1.access p (s1.cR p (fA w)) ({ need := pLoad + pLoadCap, align := 8, special := true, word := false, atomic := false }) (fA w) false (s1.ea p w) 8 = none ∧ memKey p (s1.ea p w) = some (dtcm 19 0x40) ∧ (s1.core p).sb = [] ∧ s1.ecc = [] ∧ s1.tags = [] ∧ ((s1.dropPend p).ldCap p (dtcm 19 0x40)).1.1 = none)) :=
  ⟨⟨fetches_of (by decide +kernel), by decide +kernel⟩,
    ⟨fetches_of (by decide +kernel), by decide +kernel⟩,
    ⟨fetches_of (by decide +kernel), by decide +kernel⟩,
    ⟨fetches_of (by decide +kernel), by decide +kernel⟩⟩

/-- States that meet the hypotheses of StoresAndAtomicsReachMemory, clause by clause. -/
theorem test_witness_StoresAndAtomicsReachMemory :
    (let p : Fin 21 := 19
     let w : Word := opWord .sw (BitVec.ofNat 32 6356992)
     let s : State := pairAt w [] [] [data 0x3FFFE]
     let s1 : State := ((s.toBoundary p).fetch p).2
     Fetches p .sw w s s1 ∧
     s1.access p (s1.cR p (fA w)) (accOf pStore 4) (fA w) false (s1.ea p w) 4 ≠ none) ∧
    (let p : Fin 21 := 19
     let w : Word := opWord .sh (BitVec.ofNat 32 6356992)
     let s : State := pairAt w [] [] [data 0x42]
     let s1 : State := ((s.toBoundary p).fetch p).2
     Fetches p .sh w s s1 ∧
     (s1.access p (s1.cR p (fA w)) (accOf pStore 2) (fA w) false (s1.ea p w) 2 = none ∧ s1.ea p w % 2 = 0 ∧ memKey p (s1.ea p w) = some (dtcm 19 0x42) ∧ (s1.core p).sb.length < 4)) ∧
    (let p : Fin 21 := 19
     let w : Word := opWord .scap (BitVec.ofNat 32 6356992)
     let s : State := pairAt w [] [] [(data 0x40).withPerms 3, Cap.null, data 0x80]
     let s1 : State := ((s.toBoundary p).fetch p).2
     Fetches p .scap w s s1 ∧
     (s1.access p (s1.cR p (fA w)) ({ need := pStore, align := 8, special := true, word := false, atomic := false }) (fA w) false (s1.ea p w) 8 = none ∧ memKey p (s1.ea p w) = some (dtcm 19 0x40) ∧ (s1.core p).sb.length < 4 ∧ scapBad p (s1.cR p (fA w)) (s1.cR p (fD w)) (s1.ea p w) = true)) ∧
    (let p : Fin 21 := 19
     let w : Word := opWord .scap (BitVec.ofNat 32 6356992)
     let s : State := pairAt w [] [] [data 0x40, Cap.null, data 0x80]
     let s1 : State := ((s.toBoundary p).fetch p).2
     Fetches p .scap w s s1 ∧
     (s1.access p (s1.cR p (fA w)) ({ need := pStore, align := 8, special := true, word := false, atomic := false }) (fA w) false (s1.ea p w) 8 = none ∧ memKey p (s1.ea p w) = some (dtcm 19 0x40) ∧ (s1.core p).sb.length < 4 ∧ scapBad p (s1.cR p (fA w)) (s1.cR p (fD w)) (s1.ea p w) = false)) ∧
    (let e : SbEnt := { g := dtcm 19 0x40 / 8, mask := 0xF0, bytes := [1, 2, 3, 4, 5, 6, 7, 0], tag := true, old := false }
     let s : State := r.mapCore 19 fun x => { x with sb := [e, e] }
     let s : State := r.mapCore 19 fun x => { x with sb := [e, e] }
     let p : Fin 21 := 19
     let e : SbEnt := { g := dtcm 19 0x40 / 8, mask := 0xF0, bytes := [1, 2, 3, 4, 5, 6, 7, 0], tag := true, old := false }
     let r : List SbEnt := [e]
     (s.core 19).sb = e :: [e]) ∧
    (let p : Fin 21 := 19
     let w : Word := opWord .lresW (BitVec.ofNat 32 6356992)
     let s : State := pairAt w [] [] [data 0x40] [0x80, 0xFF, 3, 0xF4, 5, 6, 7, 8]
     let s1 : State := ((s.toBoundary p).fetch p).2
     Fetches p .lresW w s s1 ∧
     (((s1.dropPend p).load p (s1.cR p (fA w)) (accAtomic pLoad 4) (fA w) false (s1.cR p (fA w)).addr 4).1 = .inr [0x80, 0xFF, 3, 0xF4] ∧ memKey p (s1.cR p (fA w)).addr = some (dtcm 19 0x40))) ∧
    (let p : Fin 21 := 19
     let w : Word := opWord .sconW (BitVec.ofNat 32 6361088)
     let s : State := { pairAt w [] [] [data 0x40] with resv := [(19, dtcm 19 0x40 / 8)] }
     let s1 : State := ((s.toBoundary p).fetch p).2
     Fetches p .sconW w s s1 ∧
     (s1.access p (s1.cR p (fA w)) (accAtomic pStore 4) (fA w) false (s1.cR p (fA w)).addr 4 = none ∧ memKey p (s1.cR p (fA w)).addr = some (dtcm 19 0x40) ∧ (s1.core p).sb = [] ∧ ((s1.resv.find? fun e => e.1 == p.val).map (·.2) == some (dtcm 19 0x40 / 8)) = true)) ∧
    (let p : Fin 21 := 19
     let w : Word := opWord .sconW (BitVec.ofNat 32 6361088)
     let s : State := { pairAt w [] [] [data 0x40] with resv := [(19, dtcm 19 0x48 / 8)] }
     let s1 : State := ((s.toBoundary p).fetch p).2
     Fetches p .sconW w s s1 ∧
     (s1.access p (s1.cR p (fA w)) (accAtomic pStore 4) (fA w) false (s1.cR p (fA w)).addr 4 = none ∧ memKey p (s1.cR p (fA w)).addr = some (dtcm 19 0x40) ∧ (s1.core p).sb = [] ∧ ((s1.resv.find? fun e => e.1 == p.val).map (·.2) == some (dtcm 19 0x40 / 8)) = false)) ∧
    (let p : Fin 21 := 19
     let w : Word := opWord .tasB (BitVec.ofNat 32 6356992)
     let s : State := pairAt w [] [] [data 0x40] [0x80, 0xFF, 3, 0xF4, 5, 6, 7, 8]
     let s1 : State := ((s.toBoundary p).fetch p).2
     Fetches p .tasB w s s1 ∧
     (s1.access p (s1.cR p (fA w)) (accAtomic (pLoad + pStore) 1) (fA w) false (s1.cR p (fA w)).addr 1 = none ∧ memKey p (s1.cR p (fA w)).addr = some (dtcm 19 0x40) ∧ (s1.core p).sb = [] ∧ s1.ecc = [] ∧ s1.rdByte (dtcm 19 0x40) ≠ 0)) ∧
    (let p : Fin 21 := 19
     let w : Word := opWord .tasB (BitVec.ofNat 32 6356992)
     let s : State := pairAt w [] [] [data 0x40]
     let s1 : State := ((s.toBoundary p).fetch p).2
     Fetches p .tasB w s s1 ∧
     (s1.access p (s1.cR p (fA w)) (accAtomic (pLoad + pStore) 1) (fA w) false (s1.cR p (fA w)).addr 1 = none ∧ memKey p (s1.cR p (fA w)).addr = some (dtcm 19 0x40) ∧ (s1.core p).sb = [] ∧ s1.ecc = [] ∧ s1.rdByte (dtcm 19 0x40) = 0)) :=
  ⟨⟨fetches_of (by decide +kernel), by decide +kernel⟩,
    ⟨fetches_of (by decide +kernel), by decide +kernel⟩,
    ⟨fetches_of (by decide +kernel), by decide +kernel⟩,
    ⟨fetches_of (by decide +kernel), by decide +kernel⟩,
    by decide +kernel,
    ⟨fetches_of (by decide +kernel), by decide +kernel⟩,
    ⟨fetches_of (by decide +kernel), by decide +kernel⟩,
    ⟨fetches_of (by decide +kernel), by decide +kernel⟩,
    ⟨fetches_of (by decide +kernel), by decide +kernel⟩,
    ⟨fetches_of (by decide +kernel), by decide +kernel⟩⟩

/-- States that meet the hypotheses of FloatingPointWritesResultsFlagsAndTraps, clause by clause. -/
theorem test_witness_FloatingPointWritesResultsFlagsAndTraps :
    (let p : Fin 21 := 19
     let w : Word := opWord .fdiv (BitVec.ofNat 32 4196352)
     let s : State := pairAt w [] [0x3F800000, 0x40400000] []
     let s1 : State := ((s.toBoundary p).fetch p).2
     Fetches p .fdiv w s s1 ∧
     (fDiv (s1.fctl p) (s1.fR p (fA w)) (s1.fR p (fB w))).2 &&& nbits (s1.crS p 0x10).toNat 7 5 = 0) ∧
    (let p : Fin 21 := 19
     let w : Word := opWord .fdiv (BitVec.ofNat 32 4196352)
     let s : State := (pairAt w [] [0x3F800000, 0x40400000] []).setCr 19 0x10 0xF80
     let s1 : State := ((s.toBoundary p).fetch p).2
     Fetches p .fdiv w s s1 ∧
     (fDiv (s1.fctl p) (s1.fR p (fA w)) (s1.fR p (fB w))).2 &&& nbits (s1.crS p 0x10).toNat 7 5 ≠ 0) :=
  ⟨⟨fetches_of (by decide +kernel), by decide +kernel⟩,
    ⟨fetches_of (by decide +kernel), by decide +kernel⟩⟩

/-- States that meet the hypotheses of CapabilityInstructionsDeriveOrFault, clause by clause. -/
theorem test_witness_CapabilityInstructionsDeriveOrFault :
    (let p : Fin 21 := 19
     let w : Word := opWord .tpoint (BitVec.ofNat 32 10559488)
     let s : State := pairAt w [0, 0, 0, 0x20] [] [data 0x10]
     let s1 : State := ((s.toBoundary p).fetch p).2
     Fetches p .tpoint w s s1 ∧
     ((s1.cR p (fA w)).otype = 0 ∧ (s1.cR p (fA w)).tag = true)) ∧
    (let p : Fin 21 := 19
     let w : Word := opWord .tmask (BitVec.ofNat 32 10559488)
     let s : State := pairAt w [0, 0, 0, 0x20] [] [(data 0x10).withType 3]
     let s1 : State := ((s.toBoundary p).fetch p).2
     Fetches p .tmask w s s1 ∧
     ((s1.cR p (fA w)).tag = true ∧ (s1.cR p (fA w)).otype ≠ 0)) ∧
    (let p : Fin 21 := 19
     let w : Word := opWord .tnarrow (BitVec.ofNat 32 10559488)
     let s : State := pairAt w [0, 0, 0, 0x20] [] [data 0x10]
     let s1 : State := ((s.toBoundary p).fetch p).2
     Fetches p .tnarrow w s s1 ∧
     ((s1.cR p (fA w)).tag = true ∧ (s1.cR p (fA w)).otype = 0 ∧ (s1.cR p (fA w)).base ≤ (narrowBounds (s1.cR p (fA w)).addr (s1.gR p (fB w)).toNat).1 ∧ (narrowBounds (s1.cR p (fA w)).addr (s1.gR p (fB w)).toNat).2 ≤ (s1.cR p (fA w)).top)) ∧
    (let p : Fin 21 := 19
     let w : Word := opWord .tnarrow (BitVec.ofNat 32 10559488)
     let s : State := pairAt w [0, 0, 0, 0x20] [] [(data 0x10).withType 3]
     let s1 : State := ((s.toBoundary p).fetch p).2
     Fetches p .tnarrow w s s1 ∧
     ((s1.cR p (fA w)).tag = true ∧ (s1.cR p (fA w)).otype ≠ 0)) ∧
    (let p : Fin 21 := 19
     let w : Word := opWord .tnarrow (BitVec.ofNat 32 10559488)
     let s : State := pairAt w [0, 0, 0, 0x40001] [] [data 0x10]
     let s1 : State := ((s.toBoundary p).fetch p).2
     Fetches p .tnarrow w s s1 ∧
     ((s1.cR p (fA w)).tag = true ∧ (s1.cR p (fA w)).otype = 0 ∧ ¬((s1.cR p (fA w)).base ≤ (narrowBounds (s1.cR p (fA w)).addr (s1.gR p (fB w)).toNat).1 ∧ (narrowBounds (s1.cR p (fA w)).addr (s1.gR p (fB w)).toNat).2 ≤ (s1.cR p (fA w)).top))) ∧
    (let p : Fin 21 := 19
     let w : Word := opWord .tnarrowx (BitVec.ofNat 32 10559488)
     let s : State := pairAt w [0, 0, 0, 0x12345] [] [data 0x10]
     let s1 : State := ((s.toBoundary p).fetch p).2
     Fetches p .tnarrowx w s s1 ∧
     ((s1.cR p (fA w)).tag = true ∧ (s1.cR p (fA w)).otype = 0 ∧ narrowBounds (s1.cR p (fA w)).addr (s1.gR p (fB w)).toNat ≠ ((s1.cR p (fA w)).addr, (s1.cR p (fA w)).addr + (s1.gR p (fB w)).toNat))) ∧
    (let p : Fin 21 := 19
     let w : Word := opWord .tnarrowx (BitVec.ofNat 32 10559488)
     let s : State := pairAt w [0, 0, 0, 0x20] [] [data 0x10]
     let s1 : State := ((s.toBoundary p).fetch p).2
     Fetches p .tnarrowx w s s1 ∧
     ((s1.cR p (fA w)).tag = true ∧ (s1.cR p (fA w)).otype = 0 ∧ (s1.cR p (fA w)).base ≤ (narrowBounds (s1.cR p (fA w)).addr (s1.gR p (fB w)).toNat).1 ∧ (narrowBounds (s1.cR p (fA w)).addr (s1.gR p (fB w)).toNat).2 ≤ (s1.cR p (fA w)).top ∧ narrowBounds (s1.cR p (fA w)).addr (s1.gR p (fB w)).toNat = ((s1.cR p (fA w)).addr, (s1.cR p (fA w)).addr + (s1.gR p (fB w)).toNat))) ∧
    (let p : Fin 21 := 19
     let w : Word := opWord .twrap (BitVec.ofNat 32 10557440)
     let s : State := pairAt w [0, 0, 0, 0x20] [] [data 0x10, Cap.null, capRoot.point 7]
     let s1 : State := ((s.toBoundary p).fetch p).2
     Fetches p .twrap w s s1 ∧
     ((s1.cR p (fA w)).tag = true ∧ (s1.cR p (fA w)).otype = 0 ∧ (s1.cR p (fB w)).tag = true ∧ (s1.cR p (fB w)).otype = 0 ∧ (s1.cR p (fB w)).has pSeal = true ∧ 1 ≤ (s1.cR p (fB w)).addr ∧ (s1.cR p (fB w)).addr ≤ 7 ∧ (s1.cR p (fB w)).covers (s1.cR p (fB w)).addr = true)) ∧
    (let p : Fin 21 := 19
     let w : Word := opWord .twrap (BitVec.ofNat 32 10557440)
     let s : State := pairAt w [0, 0, 0, 0x20] [] [data 0x10]
     let s1 : State := ((s.toBoundary p).fetch p).2
     Fetches p .twrap w s s1 ∧
     ((s1.cR p (fA w)).tag = true ∧ (s1.cR p (fB w)).tag = false)) ∧
    (let p : Fin 21 := 19
     let w : Word := opWord .tunwrap (BitVec.ofNat 32 10557440)
     let s : State := pairAt w [0, 0, 0, 0x20] [] [(data 0x10).withType 7, Cap.null, capRoot.point 7]
     let s1 : State := ((s.toBoundary p).fetch p).2
     Fetches p .tunwrap w s s1 ∧
     ((s1.cR p (fA w)).tag = true ∧ (s1.cR p (fA w)).otype ≠ 0 ∧ (s1.cR p (fB w)).tag = true ∧ (s1.cR p (fB w)).otype = 0 ∧ (s1.cR p (fB w)).has pUnseal = true ∧ (s1.cR p (fB w)).covers (s1.cR p (fB w)).addr = true ∧ (s1.cR p (fB w)).addr = (s1.cR p (fA w)).otype)) ∧
    (let p : Fin 21 := 19
     let w : Word := opWord .tunwrap (BitVec.ofNat 32 10557440)
     let s : State := pairAt w [0, 0, 0, 0x20] [] [data 0x10, Cap.null, capRoot.point 7]
     let s1 : State := ((s.toBoundary p).fetch p).2
     Fetches p .tunwrap w s s1 ∧
     ((s1.cR p (fA w)).tag = true ∧ (s1.cR p (fA w)).otype = 0 ∧ (s1.cR p (fB w)).tag = true ∧ (s1.cR p (fB w)).otype = 0 ∧ (s1.cR p (fB w)).has pUnseal = true ∧ (s1.cR p (fB w)).covers (s1.cR p (fB w)).addr = true)) ∧
    (let p : Fin 21 := 19
     let w : Word := opWord .tenter (BitVec.ofNat 32 10557440)
     let s : State := pairAt w [0, 0, 0, 0x20] [] [(capOver 0 0x40000 5 0x200).withType 7, Cap.null, (data 0).withType 7 |>.withPerms 3]
     let s1 : State := ((s.toBoundary p).fetch p).2
     Fetches p .tenter w s s1 ∧
     ((s1.cR p (fA w)).tag = true ∧ (s1.cR p (fB w)).tag = true ∧ (s1.cR p (fA w)).otype ≠ 0 ∧ (s1.cR p (fB w)).otype = (s1.cR p (fA w)).otype ∧ (s1.cR p (fA w)).has pExec = true ∧ (s1.cR p (fB w)).has pExec = false)) ∧
    (let p : Fin 21 := 19
     let w : Word := opWord .tenter (BitVec.ofNat 32 10557440)
     let s : State := pairAt w [0, 0, 0, 0x20] [] [Cap.null]
     let s1 : State := ((s.toBoundary p).fetch p).2
     Fetches p .tenter w s s1 ∧
     (s1.cR p (fA w)).tag = false) ∧
    (let p : Fin 21 := 19
     let w : Word := opWord .tsrd (BitVec.ofNat 32 10551296)
     let s : State := pairAt w [0, 0, 0, 0x20] [] [Cap.null]
     let s1 : State := ((s.toBoundary p).fetch p).2
     Fetches p .tsrd w s s1 ∧
     fB w = 0) ∧
    (let p : Fin 21 := 19
     let w : Word := opWord .tsrd (BitVec.ofNat 32 10555392)
     let s : State := pairAt w [0, 0, 0, 0x20] [] [Cap.null]
     let s1 : State := ((s.toBoundary p).fetch p).2
     Fetches p .tsrd w s s1 ∧
     (fB w ≠ 0 ∧ s1.sysreg p = true)) ∧
    (let p : Fin 21 := 19
     let w : Word := opWord .tsrd (BitVec.ofNat 32 10553344)
     let s : State := (pairAt w [] [] []).mapImg 19 fun i => { i with pcc := i.pcc.withPerms 5 }
     let s1 : State := ((s.toBoundary p).fetch p).2
     Fetches p .tsrd w s s1 ∧
     (fB w ≠ 0 ∧ s1.sysreg p = false)) ∧
    (let p : Fin 21 := 19
     let w : Word := opWord .tswr (BitVec.ofNat 32 10555392)
     let s : State := pairAt w [0, 0, 0, 0x20] [] [Cap.null]
     let s1 : State := ((s.toBoundary p).fetch p).2
     Fetches p .tswr w s s1 ∧
     s1.sysreg p = true) ∧
    (let p : Fin 21 := 19
     let w : Word := opWord .tswr (BitVec.ofNat 32 10553344)
     let s : State := (pairAt w [] [] []).mapImg 19 fun i => { i with pcc := i.pcc.withPerms 5 }
     let s1 : State := ((s.toBoundary p).fetch p).2
     Fetches p .tswr w s s1 ∧
     s1.sysreg p = false) :=
  ⟨⟨fetches_of (by decide +kernel), by decide +kernel⟩,
    ⟨fetches_of (by decide +kernel), by decide +kernel⟩,
    ⟨fetches_of (by decide +kernel), by decide +kernel⟩,
    ⟨fetches_of (by decide +kernel), by decide +kernel⟩,
    ⟨fetches_of (by decide +kernel), by decide +kernel⟩,
    ⟨fetches_of (by decide +kernel), by decide +kernel⟩,
    ⟨fetches_of (by decide +kernel), by decide +kernel⟩,
    ⟨fetches_of (by decide +kernel), by decide +kernel⟩,
    ⟨fetches_of (by decide +kernel), by decide +kernel⟩,
    ⟨fetches_of (by decide +kernel), by decide +kernel⟩,
    ⟨fetches_of (by decide +kernel), by decide +kernel⟩,
    ⟨fetches_of (by decide +kernel), by decide +kernel⟩,
    ⟨fetches_of (by decide +kernel), by decide +kernel⟩,
    ⟨fetches_of (by decide +kernel), by decide +kernel⟩,
    ⟨fetches_of (by decide +kernel), by decide +kernel⟩,
    ⟨fetches_of (by decide +kernel), by decide +kernel⟩,
    ⟨fetches_of (by decide +kernel), by decide +kernel⟩,
    ⟨fetches_of (by decide +kernel), by decide +kernel⟩⟩

/-- States that meet the hypotheses of ControlRegisterAndOrderingInstructions, clause by clause. -/
theorem test_witness_ControlRegisterAndOrderingInstructions :
    (let p : Fin 21 := 19
     let w : Word := opWord .crw (BitVec.ofNat 32 6356992)
     let s : State := (pairAt w [] [] []).mapImg 19 fun i => { i with pcc := i.pcc.withPerms 5 }
     let s1 : State := ((s.toBoundary p).fetch p).2
     Fetches p .crw w s s1 ∧
     (crSysreg (w.toNat % 4096) = true ∧ s1.sysreg p = false)) ∧
    (let p : Fin 21 := 19
     let w : Word := opWord .crs (BitVec.ofNat 32 6356992)
     let s : State := pairAt w [] [] []
     let s1 : State := ((s.toBoundary p).fetch p).2
     Fetches p .crs w s s1 ∧
     s1.sysreg p = true) ∧
    (let p : Fin 21 := 19
     let w : Word := opWord .crc (BitVec.ofNat 32 6357009)
     let s : State := (pairAt w [] [] []).mapImg 19 fun i => { i with pcc := i.pcc.withPerms 5 }
     let s1 : State := ((s.toBoundary p).fetch p).2
     Fetches p .crc w s s1 ∧
     crSysreg (w.toNat % 4096) = false) ∧
    (let p : Fin 21 := 19
     let w : Word := opWord .wfi (BitVec.ofNat 32 0)
     let s : State := { (((pairAt w [] [] []).setCr 19 4 0x80000000).setCr 19 11 0x70000000).setCr 19 0 0 with irq := [(19, 0x80000000)] }
     let s1 : State := ((s.toBoundary p).fetch p).2
     Fetches p .wfi w s s1 ∧
     (s1.topLine p (s1.il p)).isSome = true) ∧
    (let p : Fin 21 := 19
     let w : Word := opWord .wfi (BitVec.ofNat 32 0)
     let s : State := pairAt w [] [] []
     let s1 : State := ((s.toBoundary p).fetch p).2
     Fetches p .wfi w s s1 ∧
     (s1.topLine p (s1.il p)).isSome = false) :=
  ⟨⟨fetches_of (by decide +kernel), by decide +kernel⟩,
    ⟨fetches_of (by decide +kernel), by decide +kernel⟩,
    ⟨fetches_of (by decide +kernel), by decide +kernel⟩,
    ⟨fetches_of (by decide +kernel), by decide +kernel⟩,
    ⟨fetches_of (by decide +kernel), by decide +kernel⟩⟩

/-- States that meet the hypotheses of ExceptionsAndReturnsAreTaken, clause by clause. -/
theorem test_witness_ExceptionsAndReturnsAreTaken :
    (let p : Fin 21 := 19
     let w : Word := 0xFFFFFFFF
     let s : State := pairAt w [] [] []
     (s.atBoundary p = true ∧ (s.core p).wdPend = false ∧ ((s.toBoundary p).fetch p).1 = .inr w ∧ decodeWord w = none)) ∧
    (let p : Fin 21 := 19
     let w : Word := opWord .cx (BitVec.ofNat 32 6357376)
     let s : State := { (pairAt w [] [0x3F800000] [data 0x40]).wr Reg.MCS_DTVAL 0x80000 with cs := [(csDec 19 7, 450559)] }
     (s.atBoundary p = true ∧ (s.core p).wdPend = false ∧ ((s.toBoundary p).fetch p).1 = .inr w ∧ Op.cx.is w = true ∧ ((s.toBoundary p).fetch p).2.cxOk p w = false ∧ ((s.toBoundary p).fetch p).2.ecc = [])) ∧
    (let p : Fin 21 := 19
     let w : Word := 0
     let s : State := (pairAt w [] [] []).mapImg 19 fun i => { i with pcc := Cap.null }
     (s.atBoundary p = true ∧ (s.core p).wdPend = false ∧ ((s.toBoundary p).fetch p).1 = .inl (3, 0, 16))) ∧
    (let p : Fin 21 := 19
     let w : Word := opWord .add (BitVec.ofNat 32 0)
     let s : State := { (((pairAt w [] [] []).setCr 19 4 0x80000000).setCr 19 11 0x70000000).setCr 19 0 8 with irq := [(19, 0x80000000)] }
     (s.atBoundary p = true ∧ (s.core p).wdPend = false ∧ (s.toBoundary p).takenLine p = some 31 ∧ s.boundaryExc p = none ∧ (s.core p).inWfi = false)) ∧
    (let p : Fin 21 := 19
     let w : Word := 0xFFFFFFFF
     let s : State := { (((pairAt w [] [] []).setCr 19 4 0x80000000).setCr 19 11 0x70000000).setCr 19 0 8 with irq := [(19, 0x80000000)] }
     (s.atBoundary p = true ∧ (s.core p).wdPend = false ∧ (s.toBoundary p).takenLine p = some 31 ∧ (s.boundaryExc p).isSome = true ∧ (s.core p).inWfi = false)) ∧
    (let p : Fin 21 := 19
     let w : Word := opWord .wfi (BitVec.ofNat 32 0)
     let s : State := ({ (((pairAt w [] [] []).setCr 19 4 0x80000000).setCr 19 11 0x70000000).setCr 19 0 8 with irq := [(19, 0x80000000)] }).mapCore 19 fun x => { x with inWfi := true }
     (s.atBoundary p = true ∧ (s.core p).wdPend = false ∧ (s.toBoundary p).takenLine p = some 31 ∧ (s.core p).inWfi = true)) ∧
    (let p : Fin 21 := 19
     let w : Word := opWord .add (BitVec.ofNat 32 0)
     let s : State := { (((pairAt w [] [] []).setCr 19 4 0x80000000).setCr 19 11 0x70000000).setCr 19 0 8 with irq := [(19, 0x80000000)] }
     (s.atBoundary p = true ∧ (s.core p).wdPend = false ∧ ((s.toBoundary p).fetch p).1 = .inr w ∧ Op.add.is w = true ∧ s.lineNow p = some 31)) ∧
    (let p : Fin 21 := 19
     let w : Word := opWord .cx (BitVec.ofNat 32 0)
     let s : State := { (((pairAt w [] [] []).setCr 19 4 0x80000000).setCr 19 11 0x70000000).setCr 19 0 8 with irq := [(19, 0x80000000)] }
     (s.atBoundary p = true ∧ (s.core p).wdPend = false ∧ ((s.toBoundary p).fetch p).1 = .inr w ∧ Op.cx.is w = true ∧ s.lineNow p = some 31)) ∧
    (let p : Fin 21 := 19
     let w : Word := 0
     let s : State := (pairAt w [] [] []).sf (Reg.GLV_WDCFG 19) F.GLV_WDCFG_EN 1
     (s.wdRuns p = true ∧ s.bit (Reg.GLV_WDKICK p) F.GLV_WDKICK_STAGE1 = false ∧ s.atBoundary p = true ∧ s.glvState p = 0)) ∧
    (let p : Fin 21 := 19
     let w : Word := 0
     let s : State := ((pairAt w [] [] []).sf (Reg.GLV_WDCFG 19) F.GLV_WDCFG_EN 1).sf (Reg.GLV_STAT 19) F.GLV_STAT_STATE 1
     (s.wdRuns p = true ∧ s.bit (Reg.GLV_WDKICK p) F.GLV_WDKICK_STAGE1 = false ∧ s.atBoundary p = false)) ∧
    (let p : Fin 21 := 19
     let w : Word := opWord .eret (BitVec.ofNat 32 0)
     let s : State := frameAt w false
     let s1 : State := ((s.toBoundary p).fetch p).2
     Fetches p .eret w s s1 ∧
     (s1.dfActive p = false ∧ returned ((s1.dropPend p).returnFrame p (s1.cR p 2) (s1.cR p 2).addr).1 = true ∧ (s1.cR p 2).addr = 0x10000040)) ∧
    (let p : Fin 21 := 19
     let w : Word := opWord .eret (BitVec.ofNat 32 0)
     let s : State := frameAt w true
     let s1 : State := ((s.toBoundary p).fetch p).2
     Fetches p .eret w s s1 ∧
     (s1.dfActive p = true ∧ returned ((s1.dropPend p).returnFrame p (s1.img p).cfs (enc 32 (((s1.img p).cfs.addr : Int) - if s1.xframe p then 80 else 64))).1 = true)) :=
  ⟨by decide +kernel,
    by decide +kernel,
    by decide +kernel,
    by decide +kernel,
    by decide +kernel,
    by decide +kernel,
    by decide +kernel,
    by decide +kernel,
    by decide +kernel,
    by decide +kernel,
    ⟨fetches_of (by decide +kernel), by decide +kernel⟩,
    ⟨fetches_of (by decide +kernel), by decide +kernel⟩⟩

/-- States that meet the hypotheses of ExceptionEntrySavesAndVectors, clause by clause. -/
theorem test_witness_ExceptionEntrySavesAndVectors :
    (let p : Fin 21 := 19
     let s : State := vectored
     let e : Ev := { byte := 9, eaddr := 0x1234, einfo := 7, saved := capRoot, micro := none, line := none }
     let s0 : State := { s with resv := tdel s.resv p }.mapImg p fun i => { i with ctx := [], micro := none, pend := none }
     let c := s.cR p 2
     let a := enc 32 ((c.addr : Int) - e.size)
     let fr := s0.frame p e e.byte (if e.sync then e.eaddr else 0) (if e.sync then e.einfo else 0)
     (s.dfActive p = false ∧ s0.frameCheck p false c a e.size = none ∧ ((s0.pushGrans p a fr).vector p e.index).1 = .inr handler ∧ e.line = none ∧ (s.core p).sb = [])) ∧
    (let p : Fin 21 := 19
     let s : State := vectored
     let e : Ev := { byte := 9, eaddr := 0x1234, einfo := 7, saved := capRoot, micro := some (1, 2, 3, 2047, 31), line := some 63 }
     let s0 : State := { s with resv := tdel s.resv p }.mapImg p fun i => { i with ctx := [], micro := none, pend := none }
     let c := s.cR p 2
     let a := enc 32 ((c.addr : Int) - e.size)
     let fr := s0.frame p e e.byte (if e.sync then e.eaddr else 0) (if e.sync then e.einfo else 0)
     (s.dfActive p = false ∧ s0.frameCheck p false c a e.size = none ∧ ((s0.pushGrans p a fr).vector p e.index).1 = .inr handler ∧ e.line = some 63)) ∧
    (let p : Fin 21 := 19
     let s : State := vectored
     let e : Ev := { byte := 9, eaddr := 0x1234, einfo := 7, saved := capRoot, micro := none, line := some 64 }
     let s0 : State := { s with resv := tdel s.resv p }.mapImg p fun i => { i with ctx := [], micro := none, pend := none }
     let c := s.cR p 2
     let a := enc 32 ((c.addr : Int) - e.size)
     let fr := s0.frame p e e.byte (if e.sync then e.eaddr else 0) (if e.sync then e.einfo else 0)
     (s.dfActive p = false ∧ s0.frameCheck p false c a e.size = none ∧ ((s0.pushGrans p a fr).vector p e.index).1 = .inr handler ∧ e.line = some 64)) :=
  ⟨by decide +kernel,
    by decide +kernel,
    by decide +kernel⟩

/-- States that meet the hypotheses of CustomerInstructionsRunTheirMicrowords, clause by clause. -/
theorem test_witness_CustomerInstructionsRunTheirMicrowords :
    (let p : Fin 21 := 19
     let w : Word := opWord .cx (BitVec.ofNat 32 6357440)
     let s : State := { (pairAt w [] [0x3F800000] [data 0x40]).wr Reg.MCS_DTVAL 0x80000 with cs := [(csDec 19 7, 450559)] }
     let s1 : State := ((s.toBoundary p).fetch p).2
     Fetches p .cx w s s1 ∧
     (s1.ecc = [] ∧ s1.cxOk p w = true ∧ (s1.img p).pend = none ∧ nbit (s1.decEntry p (fE w)) 20 = false)) ∧
    (let p : Fin 21 := 19
     let m : Micro := { entry := 450559, word := opWord .cx (BitVec.ofNat 32 6357440), upc := 2047, regs := [(17, 0x10000040)], held := [], safe := false }
     let w : Nat := 0x5e11
     let s : State := { ((pairAt 0 [] [] [data 0x40]).wr (Reg.MCS_VMAPP 19) 0x80000000).mapImg 19 fun i => { i with micro := some m } with cs := [(csVert 19 2047, w)] }
     (s.ecc = [] ∧ s.coreGo p = true ∧ (s.img p).micro = some m ∧ s.vertWord p m.upc = some w ∧ s.microInt p = none ∧ nbits w 19 4 = 0 ∧ nbits w 10 5 = 23)) ∧
    (let p : Fin 21 := 19
     let m : Micro := { entry := 450559, word := opWord .cx (BitVec.ofNat 32 6357440), upc := 2047, regs := [(17, 0x10000040)], held := [], safe := false }
     let w : Nat := 0x807ff
     let s : State := { ((pairAt 0 [] [] [data 0x40]).wr (Reg.MCS_VMAPP 19) 0x80000000).mapImg 19 fun i => { i with micro := some m } with cs := [(csVert 19 2047, w)] }
     (s.ecc = [] ∧ s.coreGo p = true ∧ (s.img p).micro = some m ∧ s.vertWord p m.upc = some w ∧ s.microInt p = none ∧ nbits w 19 4 = 1 ∧ nbits w 10 5 = 1)) ∧
    (let p : Fin 21 := 19
     let m : Micro := { entry := 450559, word := opWord .cx (BitVec.ofNat 32 6357440), upc := 2047, regs := [(17, 0x10000040)], held := [], safe := false }
     let w : Nat := 0x10804d
     let s : State := { ((pairAt 0 [] [] [data 0x40]).wr (Reg.MCS_VMAPP 19) 0x80000000).mapImg 19 fun i => { i with micro := some m } with cs := [(csVert 19 2047, w)] }
     (s.ecc = [] ∧ s.coreGo p = true ∧ (s.img p).micro = some m ∧ s.vertWord p m.upc = some w ∧ s.microInt p = none ∧ nbits w 19 4 = 2 ∧ nbits w 16 3 = 0 ∧ s.microReg p m (nbits w 11 5) = 0)) ∧
    (let p : Fin 21 := 19
     let m : Micro := { entry := 450559, word := opWord .cx (BitVec.ofNat 32 6357440), upc := 2047, regs := [(17, 0x10000040)], held := [], safe := false }
     let w : Nat := 0x12804d
     let s : State := { ((pairAt 0 [] [] [data 0x40]).wr (Reg.MCS_VMAPP 19) 0x80000000).mapImg 19 fun i => { i with micro := some m } with cs := [(csVert 19 2047, w)] }
     (s.ecc = [] ∧ s.coreGo p = true ∧ (s.img p).micro = some m ∧ s.vertWord p m.upc = some w ∧ s.microInt p = none ∧ nbits w 19 4 = 2 ∧ nbits w 16 3 = 2 ∧ ¬((s.microReg p m (nbits w 11 5)).toInt < 0))) ∧
    (let p : Fin 21 := 19
     let m : Micro := { entry := 450559, word := opWord .cx (BitVec.ofNat 32 6357440), upc := 2047, regs := [(17, 0x10000040)], held := [], safe := false }
     let w : Nat := 0x18004d
     let s : State := { ((pairAt 0 [] [] [data 0x40]).wr (Reg.MCS_VMAPP 19) 0x80000000).mapImg 19 fun i => { i with micro := some m } with cs := [(csVert 19 2047, w)] }
     (s.ecc = [] ∧ s.coreGo p = true ∧ (s.img p).micro = some m ∧ s.vertWord p m.upc = some w ∧ s.microInt p = none ∧ nbits w 19 4 = 3)) ∧
    (let p : Fin 21 := 19
     let m : Micro := { entry := 450559, word := opWord .cx (BitVec.ofNat 32 6357440), upc := 2047, regs := [(17, 0x10000040)], held := [], safe := false }
     let w : Nat := 0x300000
     let s : State := { ((pairAt 0 [] [] [data 0x40]).wr (Reg.MCS_VMAPP 19) 0x80000000).mapImg 19 fun i => { i with micro := some m } with cs := [(csVert 19 2047, w)] }
     (s.ecc = [] ∧ s.coreGo p = true ∧ (s.img p).micro = some m ∧ s.vertWord p m.upc = some w ∧ s.microInt p = none ∧ nbits w 19 4 = 6 ∧ m.held = [])) ∧
    (let p : Fin 21 := 19
     let m : Micro := { entry := 450559, word := opWord .cx (BitVec.ofNat 32 6357440), upc := 2047, regs := [(17, 0x10000040)], held := [], safe := false }
     let w : Nat := 0x280002
     let s : State := { ((pairAt 0 [] [] [data 0x40]).wr (Reg.MCS_VMAPP 19) 0x80000000).mapImg 19 fun i => { i with micro := some m } with cs := [(csVert 19 2047, w)] }
     (s.ecc = [] ∧ s.coreGo p = true ∧ (s.img p).micro = some m ∧ s.vertWord p m.upc = some w ∧ s.microInt p = none ∧ nbits w 19 4 = 5 ∧ nbits w 0 5 = 2)) ∧
    (let p : Fin 21 := 19
     let m : Micro := { entry := 450559, word := opWord .cx (BitVec.ofNat 32 6357440), upc := 2047, regs := [(17, 0x10000040)], held := [], safe := false }
     let w : Nat := 0x221c40
     let s : State := { ((pairAt 0 [] [] [data 0x40]).wr (Reg.MCS_VMAPP 19) 0x80000000).mapImg 19 fun i => { i with micro := some m } with cs := [(csVert 19 2047, w)] }
     (s.ecc = [] ∧ s.coreGo p = true ∧ (s.img p).micro = some m ∧ s.vertWord p m.upc = some w ∧ s.microInt p = none ∧ nbits w 19 4 = 4 ∧ nbit w 18 = false ∧ nbit m.entry 18 = true ∧ (m.opnd 1).1 = 3 ∧ ((s.toBoundary p).load p (s.cR p (m.opnd 1).2) (accOf pLoad 4) (m.opnd 1).2 false (s.microReg p m (nbits w 6 5)).toNat 4).1.isRight = true)) ∧
    (let n : Fin 16 := 15
     let e : Fin 8 := 7
     let w : Nat := 0x3c43
     let s : State := { (going 15 r).wr (Reg.MCS_VMAPE 15 0) 0xFFFF with cs := [(csKey 15 0 0, w)] }
     (s.ecc = [] ∧ s.stalled n e = false ∧ (s.eng n e).waits = 0 ∧ s.runOn n = true ∧ s.csWord n 0 (s.eng n e).pc = some w ∧ nbit w 23 = false ∧ (s.eng n e).run < 255 ∧ nbits w 19 4 = 0 ∧ nbits w 10 5 = 15)) ∧
    (let n : Fin 16 := 15
     let e : Fin 8 := 7
     let w : Nat := 0x80405
     let s : State := { (going 15 r).wr (Reg.MCS_VMAPE 15 0) 0xFFFF with cs := [(csKey 15 0 0, w)] }
     (s.ecc = [] ∧ s.stalled n e = false ∧ (s.eng n e).waits = 0 ∧ s.runOn n = true ∧ s.csWord n 0 (s.eng n e).pc = some w ∧ nbit w 23 = false ∧ (s.eng n e).run < 255 ∧ nbits w 19 4 = 1 ∧ nbits w 10 5 = 1)) ∧
    (let n : Fin 16 := 15
     let e : Fin 8 := 7
     let w : Nat := 0x10004d
     let s : State := { (going 15 r).wr (Reg.MCS_VMAPE 15 0) 0xFFFF with cs := [(csKey 15 0 0, w)] }
     (s.ecc = [] ∧ s.stalled n e = false ∧ (s.eng n e).waits = 0 ∧ s.runOn n = true ∧ s.csWord n 0 (s.eng n e).pc = some w ∧ nbit w 23 = false ∧ (s.eng n e).run < 255 ∧ nbits w 19 4 = 2 ∧ nbits w 16 3 = 0)) ∧
    (let n : Fin 16 := 15
     let e : Fin 8 := 7
     let w : Nat := 0x18004d
     let s : State := { (going 15 r).wr (Reg.MCS_VMAPE 15 0) 0xFFFF with cs := [(csKey 15 0 0, w)] }
     (s.ecc = [] ∧ s.stalled n e = false ∧ (s.eng n e).waits = 0 ∧ s.runOn n = true ∧ s.csWord n 0 (s.eng n e).pc = some w ∧ nbit w 23 = false ∧ (s.eng n e).run < 255 ∧ nbits w 19 4 = 3)) ∧
    (let n : Fin 16 := 15
     let e : Fin 8 := 7
     let w : Nat := 0x300000
     let s : State := { (going 15 r).wr (Reg.MCS_VMAPE 15 0) 0xFFFF with cs := [(csKey 15 0 0, w)] }
     (s.ecc = [] ∧ s.stalled n e = false ∧ (s.eng n e).waits = 0 ∧ s.runOn n = true ∧ s.csWord n 0 (s.eng n e).pc = some w ∧ nbit w 23 = false ∧ (s.eng n e).run < 255 ∧ nbits w 19 4 = 6)) :=
  ⟨⟨fetches_of (by decide +kernel), by decide +kernel⟩,
    by decide +kernel,
    by decide +kernel,
    by decide +kernel,
    by decide +kernel,
    by decide +kernel,
    by decide +kernel,
    by decide +kernel,
    by decide +kernel,
    by decide +kernel,
    by decide +kernel,
    by decide +kernel,
    by decide +kernel,
    by decide +kernel⟩

/-- States that meet the hypotheses of LongInstructionsMoveOneElement, clause by clause. -/
theorem test_witness_LongInstructionsMoveOneElement :
    (let p : Fin 21 := 19
     let w : Word := opWord .mcpy (BitVec.ofNat 32 6357440)
     let s : State := pairAt w [] [] []
     let s1 : State := ((s.toBoundary p).fetch p).2
     Fetches p .mcpy w s s1 ∧
     s1.gR p (fE w) = 0) ∧
    (let p : Fin 21 := 19
     let w : Word := opWord .mcpy (BitVec.ofNat 32 6357440)
     let s : State := pairAt w [0, 0, 0, 0, 0, 0, 8] [] [data 0x40, Cap.null, data 0x3FFF8]
     let s1 : State := ((s.toBoundary p).fetch p).2
     Fetches p .mcpy w s s1 ∧
     (s1.gR p (fE w) ≠ 0 ∧ (if (s1.cR p (fD w)).addr % 8 = 0 ∧ (s1.cR p (fA w)).addr % 8 = 0 ∧ 8 ≤ (s1.gR p (fE w)).toNat then 8 else 1) = 8 ∧ s1.access p (s1.cR p (fA w)) (accOf pLoad 8) (fA w) false (s1.cR p (fA w)).addr 8 = none ∧ s1.access p (s1.cR p (fD w)) (accOf pStore 8) (fD w) false (s1.cR p (fD w)).addr 8 = none ∧ ((s1.dropPend p).ldParts p (accParts (s1.cR p (fA w)).addr 8)).1 = .inr (List.replicate 8 0))) ∧
    (let p : Fin 21 := 19
     let w : Word := opWord .mcpy (BitVec.ofNat 32 6357440)
     let s : State := pairAt w [0, 0, 0, 0, 0, 0, 8] [] [data 0x41, Cap.null, data 0x60]
     let s1 : State := ((s.toBoundary p).fetch p).2
     Fetches p .mcpy w s s1 ∧
     (s1.gR p (fE w) ≠ 0 ∧ (if (s1.cR p (fD w)).addr % 8 = 0 ∧ (s1.cR p (fA w)).addr % 8 = 0 ∧ 8 ≤ (s1.gR p (fE w)).toNat then 8 else 1) = 1 ∧ s1.access p (s1.cR p (fA w)) (accOf pLoad 1) (fA w) false (s1.cR p (fA w)).addr 1 = none ∧ s1.access p (s1.cR p (fD w)) (accOf pStore 1) (fD w) false (s1.cR p (fD w)).addr 1 = none ∧ ((s1.dropPend p).ldParts p (accParts (s1.cR p (fA w)).addr 1)).1 = .inr (List.replicate 1 0))) ∧
    (let p : Fin 21 := 19
     let w : Word := opWord .mfill (BitVec.ofNat 32 6357440)
     let s : State := pairAt w [0, 0, 0, 0, 0, 0, 8] [] [Cap.null, Cap.null, data 0x3FFF8]
     let s1 : State := ((s.toBoundary p).fetch p).2
     Fetches p .mfill w s s1 ∧
     (s1.gR p (fE w) ≠ 0 ∧ s1.access p (s1.cR p (fD w)) (accOf pStore 8) (fD w) false (s1.cR p (fD w)).addr 8 = none)) ∧
    (let p : Fin 21 := 19
     let w : Word := opWord .mfill (BitVec.ofNat 32 6357440)
     let s : State := pairAt w [0, 0, 0, 0, 0, 0, 8] [] []
     let s1 : State := ((s.toBoundary p).fetch p).2
     Fetches p .mfill w s s1 ∧
     s1.gR p (fE w) ≠ 0 ∧ s1.access p (s1.cR p (fD w)) (accOf pStore 1) (fD w) false (s1.cR p (fD w)).addr 1 ≠ none) ∧
    (let p : Fin 21 := 19
     let w : Word := opWord .vdot (BitVec.ofNat 32 6361536)
     let s : State := pairAt w [0, 0, 0, 0, 0, 0, 1] [] [data 0x40, data 0x48]
     let s1 : State := ((s.toBoundary p).fetch p).2
     Fetches p .vdot w s s1 ∧
     (s1.gR p (fE w) ≠ 0 ∧ s1.access p (s1.cR p (fA w)) (accOf pLoad 4) (fA w) false (s1.cR p (fA w)).addr 4 = none ∧ s1.access p (s1.cR p (fB w)) (accOf pLoad 4) (fB w) true (s1.cR p (fB w)).addr 4 = none ∧ ((s1.dropPend p).ldParts p (accParts (s1.cR p (fA w)).addr 4)).1 = .inr [0, 0, 0, 0] ∧ (((s1.dropPend p).ldParts p (accParts (s1.cR p (fA w)).addr 4)).2.ldParts p (accParts (s1.cR p (fB w)).addr 4)).1 = .inr [0, 0, 0, 0] ∧ s1.fpTrap p 0 = false)) ∧
    (let p : Fin 21 := 19
     let w : Word := opWord .vdot (BitVec.ofNat 32 6361536)
     let s : State := ((pairAt w [0, 0, 0, 0, 0, 0, 2] [] [data 0x40, data 0x48] (leBytes 4 0x3DCCCCCD ++ List.replicate 4 0 ++ leBytes 4 0x3DCCCCCD)).setCr 19 0x10 0xF80)
     let s1 : State := ((s.toBoundary p).fetch p).2
     Fetches p .vdot w s s1 ∧
     (s1.gR p (fE w) ≠ 0 ∧ s1.access p (s1.cR p (fA w)) (accOf pLoad 4) (fA w) false (s1.cR p (fA w)).addr 4 = none ∧ s1.access p (s1.cR p (fB w)) (accOf pLoad 4) (fB w) true (s1.cR p (fB w)).addr 4 = none ∧ ((s1.dropPend p).ldParts p (accParts (s1.cR p (fA w)).addr 4)).1 = .inr [0xCD, 0xCC, 0xCC, 0x3D] ∧ (((s1.dropPend p).ldParts p (accParts (s1.cR p (fA w)).addr 4)).2.ldParts p (accParts (s1.cR p (fB w)).addr 4)).1 = .inr [0xCD, 0xCC, 0xCC, 0x3D] ∧ s1.fpTrap p 1 = true)) ∧
    (let p : Fin 21 := 19
     let w : Word := opWord .crcb32 (BitVec.ofNat 32 6357440)
     let s : State := pairAt w [0, 0, 0, 0, 0, 0, 1] [] [data 0x41]
     let s1 : State := ((s.toBoundary p).fetch p).2
     Fetches p .crcb32 w s s1 ∧
     (s1.gR p (fE w) ≠ 0 ∧ ((s1.dropPend p).load p (s1.cR p (fA w)) (accOf pLoad 1) (fA w) false (s1.cR p (fA w)).addr 1).1 = .inr [0])) :=
  ⟨⟨fetches_of (by decide +kernel), by decide +kernel⟩,
    ⟨fetches_of (by decide +kernel), by decide +kernel⟩,
    ⟨fetches_of (by decide +kernel), by decide +kernel⟩,
    ⟨fetches_of (by decide +kernel), by decide +kernel⟩,
    ⟨fetches_of (by decide +kernel), by decide +kernel⟩,
    ⟨fetches_of (by decide +kernel), by decide +kernel⟩,
    ⟨fetches_of (by decide +kernel), by decide +kernel⟩,
    ⟨fetches_of (by decide +kernel), by decide +kernel⟩⟩

/-! ### Every instruction is fetched by some pair; the words of the manual; commands that are not well formed -/

/-- Operand bits under which each instruction is one. -/
def operands (o : Op) : Word :=
  match o with
  | .crr | .crw | .crs | .crc => 0x00210000
  | _ => 0x00210800

/-- Every instruction, each row of the tables in the statements among them, is fetched in some state: so no list of them hides an
empty hypothesis. -/
theorem test_every_instruction_is_fetched : ∀ o : Op, ∃ (s s1 : State) (w : Word), Fetches 19 o w s s1 := by
  have h : ∀ o : Op, let s := pairAt (opWord o (operands o)) [] [] []
      s.atBoundary 19 = true ∧ (s.core 19).wdPend = false ∧ ((s.toBoundary 19).fetch 19).1 = .inr (opWord o (operands o)) ∧
        o.is (opWord o (operands o)) = true ∧ s.lineNow 19 = none := by
    intro o
    cases o <;> decide +kernel
  exact fun o => ⟨_, _, _, fetches_of (h o)⟩

/-- The five words of the worked example of spec/12_ocosh_isa.md, and the customer instruction of spec/16_microcode.md. -/
theorem test_decode_manual_words :
    [(0xA0A40002 : Word), 0x84BFFFFF, 0xE0C501C0, 0xD0009000, 0x60040000, 0xF10548C0].map decodeWord =
      [some .tasB, some .bnz, some .mcpy, some .fence, some .sb, some .cx] := by decide +kernel

/-- The fields of those words: TAS.B g5 from c4, BNZ of g5, MCPY of c6, c5 and g7, SB through c4, CX 3 of g8, c5 and g9. -/
theorem test_decode_manual_fields :
    fD 0xA0A40002 = 5 ∧ fA 0xA0A40002 = 4 ∧ fD 0x84BFFFFF = 5 ∧ off21 0x84BFFFFF = -1 ∧ fD 0xE0C501C0 = 6 ∧ fA 0xE0C501C0 = 5 ∧
    fE 0xE0C501C0 = 7 ∧ fA 0x60040000 = 4 ∧ fD 0xF10548C0 = 8 ∧ fA 0xF10548C0 = 5 ∧ fB 0xF10548C0 = 9 ∧ fE 0xF10548C0 = 3 := by
  decide +kernel

/-- A word of each major code with a reserved bit or function set is no instruction (R215, R216). -/
theorem test_reserved_words_are_none :
    [(0x00000000 : Word), 0x04000006, 0x04008020, 0x2C010000, 0x84000000 ||| 0x7C000000].map decodeWord = [none, none, none, none, none] := by
  decide +kernel

/-- Operands that the part cannot meet are not well formed. -/
theorem test_illformed_commands_are_refused :
    [Instr.registerWrite 0 2 0, .registerWrite 21 0x10000 0, .holdingCopyRead 3, .conversionComplete 0 (List.replicate 97 0),
      .upBarge 0 0 (List.replicate 64 0), .pathTestLevel 0 [], .sliceCheckDone 0 [], .entryFetch 0 (some []), .bar2Read 0 0 0,
      .bar2Read 0 0x10000000 1, .otpRead [0x78000002], .otpRead [0x70000000], .sensorSample [], .lifeTick [], .programKeyHash []].all
      (fun i => !i.wellFormed) = true := by decide +kernel

/-- A host command whose entry has not 64 bytes is not well formed, whichever command it is. -/
theorem test_illformed_entries_are_refused :
    let e : Entry := { port := 0, sq := 0, bytes := [], buf := none }
    [Instr.identify e, .loadFwChunk e, .authFw e, .startFw e, .getState e, .getSelftest e, .setTime e, .resetDevice e, .bindFlight e,
      .unbindFlight e, .setCellMap e, .setCellParams e, .bypassCell e, .loadObserver e, .swapCoeff e, .setReference e, .startFlight e,
      .stopFlight e, .holdFlight e, .setTripPolicy e, .clearTrip e, .setWindow e, .lockLimits e, .setUserCal e, .getFactoryCal e,
      .runPathTest e, .scrubRange e, .openStream e, .closeStream e, .getWear e, .setWearModel e, .rebaseLedger e, .takeOwnership e,
      .releaseOwnership e, .heartbeat e, .badOpcode e].all (fun i => !i.wellFormed) = true := by decide +kernel

/-- An entry of 64 bytes is well formed. -/
theorem test_wellformed_entry : (Instr.identify (cmd 1 0 [] 0 none)).wellFormed = true := by decide +kernel

/-! ### Worked examples of the manual -/

/-- The next state, if there is one. -/
def nextOf (x : Host.Outcome State Fault Refusal) : Option State :=
  match x with
  | .next t => some t
  | _ => none

/-- spec/15_capabilities_faults.md, worked example: the narrowed capability's word, its bounds, and the end of its representable range. -/
theorem test_capability_bounds :
    let c := (Cap.mk (capWord 15 0 0 0 (pLoad + pStore) 0x40002F10) true).narrow 1000
    c.w = 0x2F16000340002F10 ∧ c.bounds = (0x40002F10, 0x40003300) ∧ (c.point 0x40003200).bounds = (0x40002F10, 0x40003300) ∧
    (c.point 0x40002B10).tag = true ∧ (c.point 0x40003B0F).tag = true ∧ (c.point 0x40003C00).tag = false := by decide +kernel

/-- spec/14_arithmetic.md, worked example: QUOS and RMDS of 1,000,000 by 3. -/
theorem test_quos_rmds :
    (nextOf (execQuos 19 (pairAt (opWord .quos 0x00611000) [1000000, 3] [] []))).map (·.gR 19 3) = some 333333 ∧
    (nextOf (execRmds 19 (pairAt (opWord .rmds 0x00611000) [1000000, 3] [] []))).map (·.gR 19 3) = some 1 := by decide +kernel

/-- The same example: MULLO by 200, QMUL by one half, and a divide by zero, which returns the dividend and sets DV. -/
theorem test_mullo_qmul_div0 :
    (nextOf (execMullo 19 (pairAt (opWord .mullo 0x00611000) [333333, 200] [] []))).map (·.gR 19 3) = some 66666600 ∧
    (nextOf (execQmul 19 (pairAt (opWord .qmul 0x00611000) [66666600, 0x40000000] [] []))).map (·.gR 19 3) = some 33333300 ∧
    (nextOf (execQuos 19 (pairAt (opWord .quos 0x00610000) [1000000] [] []))).map (fun t => (t.gR 19 3, t.crS 19 0x11)) =
      some (1000000, 2) := by decide +kernel

/-- spec/16_microcode.md, worked example: the first words of the byte sum branch on a zero count and load the byte; the entry's word. -/
theorem test_microcode_example :
    nbits 0x103105 19 4 = 2 ∧ nbits 0x103105 16 3 = 0 ∧ nbits 0x103105 11 5 = 6 ∧ nbits 0x103105 0 11 = 0x105 ∧
    nbits 0x208140 19 4 = 4 ∧ nbits 0x943101 19 4 = 2 ∧ nbits 0x943101 16 3 = 4 ∧ nbit 0x943101 23 = true ∧ nbits 0x300000 19 4 = 6 ∧
    nbits 0xDD201 1 11 = 0x100 ∧ nbit 0xDD201 18 = true ∧ nbit 0xDD201 19 = true := by decide +kernel

/-- spec/08_analog_inputs.md, worked example: the corrected value of slice 2, and the saturated one. -/
theorem test_adc_correction :
    correct 12345 (-37) 4194 (-10486) 25 = (12332, false) ∧ correct 32767 (-37) 4194 0 25 = (32767, true) := by decide +kernel

/-- spec/06_charge_ledger.md, worked example: the posting of a full cell and of the trim cell in cycle 1. -/
theorem test_ledger_posting : posting 4800 3200 3200 1 0 = 15360000 ∧ posting 4800 3120 3200 1 0 = 14976000 := by decide +kernel

/-- spec/02_control_cycle.md, worked example: accepted at TS 1,000,050 with phase 100 of 3,200, cycle 0 samples at 1,001,700. -/
theorem test_first_sample : sampleAfter (1000050 + 1600) 3200 100 = 1001700 := by decide +kernel

/-- spec/03_lock_link.md, worked example: half of 373 rounds to the even 186; leg A of the trim cell goes on at 0 and off at 800. -/
theorem test_delay_and_edges : rhe 373 2 = 186 ∧ legEdges false true false 800 1600 = [0, 800] := by decide +kernel

/-- A step runs the command in front of the queue and leaves the rest. -/
theorem test_step_takes_the_front :
    (nextOf (step { r with pending := [.safeRelease 0, .tapReset] })).map (·.pending) = some [.tapReset] := by decide +kernel

/-- An idle step passes one tick. -/
theorem test_idle_step : (nextOf (step r)).map (fun t => (t.tick, t.ts)) = some (r.tick + 1, 1) := by decide +kernel

/-- The comma K28.5, D0.0 and D21.5 after a negative running disparity, and after a positive one; a group that is no code group; a
symbol of the wrong disparity (R36, R38). -/
theorem test_line_code :
    [Sym.sof, .d 0, .d 0xB5].map (encodeSym false) = [0x0FA, 0x274, 0x2AA] ∧ [Sym.sof, .d 0, .d 0xB5].map (encodeSym true) = [0x305, 0x18B, 0x2AA] ∧
    decodeGroup false 0 = none ∧ decodeGroup true 0x0FA = none ∧ takeGroups true false [0x0FA, 0x18B] = ([0xBC, 0], 0, true) := by decide +kernel

/-- Slot 1 is at the serialiser input from tick 12; of 80 slots, the last that can still carry K28.7 is slot 79 until tick 1,571 (R55). -/
theorem test_next_slot : [0, 11, 12, 1571, 1572].map nextSlot = [1, 1, 2, 79, 80] := by decide +kernel

/-! ### The general statements -/

/-- A state that meets the invariant and answers a step. -/
theorem test_witness_EveryStepKeepsTheInvariant : Inv r ∧ ∃ t, step r = .next t :=
  ⟨⟨by decide +kernel, by decide +kernel⟩, _, rfl⟩

/-- A fetch that answers a word, and a pc outside ITCM under a capability that would permit it. -/
theorem test_witness_OnlyItcmServesFetches :
    ((pairAt 0x08000000 [] [] []).fetch 19).1 = .inr 0x08000000 ∧
    (let s := (pairAt 0 [] [] []).mapImg 19 fun i => { i with pcc := capRoot.point 0x40000 }
     let c := (s.img 19).pcc
     s.atBoundary 19 = true ∧ (s.core 19).wdPend = false ∧ c.tag = true ∧ c.otype = 0 ∧ c.has pExec = true ∧ c.addr % 4 = 0 ∧
     (∀ i, i < 4 → c.covers (c.addr + i) = true) ∧ 0x40000 ≤ c.addr) := ⟨by decide +kernel, by decide +kernel⟩

/-- A pair that a release starts, and one that it ignores. -/
theorem test_witness_ReleaseStartsTheNamedPairs :
    let s := (r.sf Reg.GLV_BIST F.GLV_BIST_START_PASS 0x80000).wr Reg.MEM_BIST_PAIR 0x80000
    nbit (0x80000 : Word).toNat 19 = true ∧ 19 ∉ s.rel ∧ nbit (s.fld Reg.GLV_BIST F.GLV_BIST_START_PASS) 19 = true ∧
    nbit (s.rn Reg.MEM_BIST_PAIR) 19 = true ∧ s.glvState 19 ≠ 2 ∧ s.loadOpen 19 = false ∧
    nbit (r.fld Reg.GLV_BIST F.GLV_BIST_START_PASS) 19 = false := by decide +kernel

/-- A binding for a flight that a latched group maps. -/
theorem test_witness_ABindingUnderALatchedGroupIsRefused :
    let s := owned (((((r.wr (Reg.FC_CDESC 15 56 0) 0x101).wr (Reg.MCS_VMAPE 15 0) 0xFFFF).wr Reg.MEM_BIST_FC 0x1FFFF).sf (Reg.SLU_GSTAT 31)
      F.SLU_GSTAT_LATCHED 1).wr (Reg.SLU_GFLT 31) 0x80000000)
    let e := cmd 0x10 0 (leBytes 1 31 ++ [1, 15, 56, 8, 0, 1, 0] ++ leBytes 2 8 ++ leBytes 4 1599 ++ leBytes 4 720) 0 none
    let d := fltDesc e
    Accepted 0x10 e s ∧ (s.port e.port).d3 = false ∧ d.formOk e = true ∧ s.bindBad d = false ∧ s.latched 31 = true ∧
    nbit (s.rn (Reg.SLU_GFLT 31)) d.flight = true := ⟨accepted_of (by decide +kernel), by decide +kernel⟩

end Sys2Proof.Tests
end

section
/-! The invariant of every step (O50, O51, O53, O54). The invariant speaks of two fields alone, the memories and TS. So the proof
has three layers. Frame rules: most operations leave both fields alone. Soundness rules: those that do not write memory only by
the primitive writes, which keep the canonical form, and set TS only modulo 2^64. Last the commands: each is put together from
operations of the two kinds, in the order of the model's files. -/

namespace Sys2Proof.Machine

/-! ## The two fields, and how they pass through updates, branches and loops -/

/-- The memories and TS of a state: all that the invariant speaks of. -/
def State.memTs (s : State) : List Host.Cell × Nat := (s.mem, s.ts)

/-- Two fields of one state are its `memTs`. -/
@[simp] theorem memTs_fold (s : State) : (s.mem, s.ts) = s.memTs := rfl

/-- A record update keeps `memTs` when it names neither field. -/
@[simp] theorem memTs_mk
    (pending tick ts free regs hold mem lanes fcs slots cmps tripOut staged pwms towIn towOut safePinExt safeDriven irq
    hubq banks cs adcs ports keep out evtRise wears tags ecc resv slewNext syncDue syncOut alarms dropped scrub imgFill
    rel dmas dmaHold mcs cores dmaFree pwr rings outFell latchTick towRx) :
    (State.mk pending tick ts free regs hold mem lanes fcs slots cmps tripOut staged pwms towIn towOut safePinExt safeDriven irq
      hubq banks cs adcs ports keep out evtRise wears tags ecc resv slewNext syncDue syncOut alarms dropped scrub imgFill
      rel dmas dmaHold mcs cores dmaFree pwr rings outFell latchTick towRx).memTs = (mem, ts) := rfl

@[simp] theorem memTs_ite (c : Prop) [Decidable c] (a b : State) :
    (if c then a else b).memTs = if c then a.memTs else b.memTs := apply_ite _ _ _ _

@[simp] theorem memTs_snd_ite {α : Type} (c : Prop) [Decidable c] (a b : α × State) :
    (if c then a else b).2.memTs = if c then a.2.memTs else b.2.memTs := apply_ite (fun r : α × State => r.2.memTs) _ _ _

@[simp] theorem memTs_forN (n : Nat) (f : Nat → State → State) (s : State) (h : ∀ i s, (f i s).memTs = s.memTs) :
    (forN n f s).memTs = s.memTs := forN_frame State.memTs n f s fun i _ s => h i s

/-- What every turn of a loop over a list leaves alone, the loop leaves alone. -/
theorem foldl_frame {σ τ α : Type} (g : σ → τ) (l : List α) (f : σ → α → σ) (s : σ) (h : ∀ s x, g (f s x) = g s) :
    g (l.foldl f s) = g s := by
  induction l generalizing s with
  | nil => rfl
  | cons x l ih => exact (ih _).trans (h s x)

@[simp] theorem memTs_foldl {α : Type} (l : List α) (f : State → α → State) (s : State) (h : ∀ s x, (f s x).memTs = s.memTs) :
    (l.foldl f s).memTs = s.memTs := foldl_frame State.memTs l f s h

/-! ## Frame rules: the operations that leave memories and TS alone -/

/-! ### Ops -/

@[simp] theorem State.memTs_wr (s : State) (a : Nat) (v : Word) : (s.wr a v).memTs = s.memTs := by simp [State.wr]
@[simp] theorem State.memTs_sf (s : State) (a : Nat) (f : Fld) (x : Nat) : (s.sf a f x).memTs = s.memTs := by simp [State.sf]
@[simp] theorem State.memTs_sb (s : State) (a : Nat) (f : Fld) (b : Bool) : (s.sb a f b).memTs = s.memTs := by simp [State.sb]
@[simp] theorem State.memTs_flag (s : State) (a : Nat) (f : Fld) : (s.flag a f).memTs = s.memTs := by simp [State.flag]
@[simp] theorem State.memTs_w64 (s : State) (a v : Nat) : (s.w64 a v).memTs = s.memTs := by simp [State.w64]
@[simp] theorem State.memTs_incSat (s : State) (a : Nat) (f : Fld) : (s.incSat a f).memTs = s.memTs := by simp [State.incSat]

@[simp] theorem State.memTs_mapLane (s : State) (l : Nat) (f : Lane → Lane) : (s.mapLane l f).memTs = s.memTs := by
  simp [State.mapLane]

@[simp] theorem State.memTs_mapFc (s : State) (n : Nat) (f : FcSt → FcSt) : (s.mapFc n f).memTs = s.memTs := by simp [State.mapFc]

@[simp] theorem State.memTs_mapSlot (s : State) (n f : Nat) (g : SlotSt → SlotSt) : (s.mapSlot n f g).memTs = s.memTs := by
  simp [State.mapSlot]

@[simp] theorem State.memTs_mapCmp (s : State) (c : Nat) (f : CmpSt → CmpSt) : (s.mapCmp c f).memTs = s.memTs := by
  simp [State.mapCmp]

@[simp] theorem State.memTs_mapPwm (s : State) (k : Nat) (f : PwmSt → PwmSt) : (s.mapPwm k f).memTs = s.memTs := by
  simp [State.mapPwm]

@[simp] theorem State.memTs_mapAdc (s : State) (g : Nat) (f : AdcSt → AdcSt) : (s.mapAdc g f).memTs = s.memTs := by
  simp [State.mapAdc]

@[simp] theorem State.memTs_mapPort (s : State) (p : Nat) (f : PortSt → PortSt) : (s.mapPort p f).memTs = s.memTs := by
  simp [State.mapPort]

@[simp] theorem State.memTs_mapKeep (s : State) (f : KeepSt → KeepSt) : (s.mapKeep f).memTs = s.memTs := by simp [State.mapKeep]
@[simp] theorem State.memTs_nextFree (s : State) : s.nextFree.memTs = s.memTs := by simp [State.nextFree]
@[simp] theorem State.memTs_line (s : State) (p l : Nat) : (s.line p l).memTs = s.memTs := by simp [State.line]

@[simp] theorem State.memTs_raise (s : State) (src code pay : Nat) : (s.raise src code pay).memTs = s.memTs := by
  simp [State.raise]

@[simp] theorem State.memTs_raiseIf (s : State) (c : Bool) (src code pay : Nat) : (s.raiseIf c src code pay).memTs = s.memTs := by
  simp [State.raiseIf]

@[simp] theorem State.memTs_flagOnce (s : State) (a : Nat) (f : Fld) (src code pay : Nat) :
    (s.flagOnce a f src code pay).memTs = s.memTs := by
  simp [State.flagOnce]

/-! ### Memory -/

@[simp] theorem State.memTs_noteCe (mid : Nat) (s : State) : (s.noteCe mid).memTs = s.memTs := by simp [State.noteCe]
@[simp] theorem State.memTs_noteUe (mid off b : Nat) (s : State) : (s.noteUe mid off b).memTs = s.memTs := by simp [State.noteUe]

@[simp] theorem State.memTs_eccCheck (s : State) (a n : Nat) : (s.eccCheck a n).2.memTs = s.memTs := by
  refine foldl_frame (fun r : Option Nat × State => r.2.memTs) _ _ _ fun r i => ?_
  dsimp only
  split <;> simp

@[simp] theorem State.memTs_csNote (key w mid off port src sel a : Nat) (s : State) :
    (s.csNote key w mid off port src sel a).memTs = s.memTs := by
  dsimp only [State.csNote]
  rw [memTs_ite, State.memTs_flagOnce, ite_self]
  refine memTs_forN _ _ _ fun b t => ?_
  split <;> simp

@[simp] theorem State.memTs_csNoteFc (n st a : Nat) (s : State) : (s.csNoteFc n st a).memTs = s.memTs := by simp [State.csNoteFc]
@[simp] theorem State.memTs_setTag (g : Nat) (b : Bool) (s : State) : (s.setTag g b).memTs = s.memTs := by simp [State.setTag]

@[simp] theorem State.memTs_readTag (g : Nat) (s : State) : (s.readTag g).2.memTs = s.memTs := by
  dsimp only [State.readTag]
  (repeat' split) <;> simp

/-! ### Sluice -/

@[simp] theorem State.memTs_noteTrip (g : Nat) (s : State) : (s.noteTrip g).memTs = s.memTs := by simp [State.noteTrip]

@[simp] theorem State.memTs_showLatch (g first : Nat) (s : State) : (s.showLatch g first).memTs = s.memTs := by
  simp [State.showLatch]

@[simp] theorem State.memTs_latchGroup (g : Nat) (s : State) : (s.latchGroup g).memTs = s.memTs := by simp [State.latchGroup]
@[simp] theorem State.memTs_blankFrom (k : Nat) (s : State) : (s.blankFrom k).memTs = s.memTs := by simp [State.blankFrom]
@[simp] theorem State.memTs_setOut (k : Nat) (a b : Bool) (s : State) : (s.setOut k a b).memTs = s.memTs := by simp [State.setOut]
@[simp] theorem State.memTs_pwmMakeSafe (k : Nat) (s : State) : (s.pwmMakeSafe k).memTs = s.memTs := by simp [State.pwmMakeSafe]
@[simp] theorem State.memTs_sluRefresh (s : State) : s.sluRefresh.memTs = s.memTs := by simp [State.sluRefresh]
@[simp] theorem State.memTs_sluEval (s : State) : s.sluEval.memTs = s.memTs := by simp [State.sluEval]

@[simp] theorem State.memTs_reviseFirst (g k : Nat) (s : State) : (s.reviseFirst g k).memTs = s.memTs := by
  simp [State.reviseFirst]

@[simp] theorem State.memTs_setTrip (k : Nat) (out : Bool) (s : State) : (s.setTrip k out).memTs = s.memTs := by
  simp [State.setTrip]

@[simp] theorem State.memTs_setSource (k : Nat) (act out : Bool) (s : State) : (s.setSource k act out).memTs = s.memTs := by
  simp [State.setSource]

@[simp] theorem State.memTs_setInternal (k : Nat) (on : Bool) (s : State) : (s.setInternal k on).memTs = s.memTs := by
  simp [State.setInternal]

@[simp] theorem State.memTs_setCause (n c : Nat) (on : Bool) (s : State) : (s.setCause n c on).memTs = s.memTs := by
  simp [State.setCause]

@[simp] theorem State.memTs_clearGroup (g : Nat) (s : State) : (s.clearGroup g).2.memTs = s.memTs := by
  dsimp only [State.clearGroup]
  (repeat' split) <;> simp

@[simp] theorem State.memTs_publishCmp (c : Nat) (s : State) : (s.publishCmp c).memTs = s.memTs := by simp [State.publishCmp]
@[simp] theorem State.memTs_setFo (c : Nat) (fo : Bool) (s : State) : (s.setFo c fo).memTs = s.memTs := by simp [State.setFo]

@[simp] theorem State.memTs_setRaw (c : Nat) (raw : Bool) (s : State) : (s.setRaw c raw).memTs = s.memTs := by
  dsimp only [State.setRaw]
  (repeat' split) <;> simp

@[simp] theorem State.memTs_judgeCmp (c : Nat) (cfg : Bool) (s : State) : (s.judgeCmp c cfg).memTs = s.memTs := by
  simp [State.judgeCmp]

@[simp] theorem State.memTs_boundary (tb : Nat) (s : State) : (s.boundary tb).memTs = s.memTs := by simp [State.boundary]
@[simp] theorem State.memTs_clearCmp (c : Nat) (s : State) : (s.clearCmp c).memTs = s.memTs := by simp [State.clearCmp]
@[simp] theorem State.memTs_beginSettle (c : Nat) (s : State) : (s.beginSettle c).memTs = s.memTs := by simp [State.beginSettle]
@[simp] theorem State.memTs_fwTrip (v : Nat) (s : State) : (s.fwTrip v).memTs = s.memTs := by simp [State.fwTrip]
@[simp] theorem State.memTs_driveSafe (low : Bool) (s : State) : (s.driveSafe low).memTs = s.memTs := by simp [State.driveSafe]
@[simp] theorem State.memTs_commitGroup (g : Nat) (s : State) : (s.commitGroup g).memTs = s.memTs := by simp [State.commitGroup]

@[simp] theorem State.memTs_autoClear (k : Nat) (s : State) : (s.autoClear k).memTs = s.memTs := by
  refine memTs_forN _ _ _ fun g t => ?_
  have hg := t.memTs_clearGroup g
  split
  · split <;> simp_all
  · rfl

/-! ### Link -/

@[simp] theorem State.memTs_lossEval (n f : Nat) (s : State) : (s.lossEval n f).memTs = s.memTs := by simp [State.lossEval]

@[simp] theorem State.memTs_lossOfLink (l : Nat) (s : State) : (s.lossOfLink l).memTs = s.memTs := by
  unfold State.lossOfLink
  split <;> simp

@[simp] theorem State.memTs_mapBit (s : State) (a i : Nat) (b : Bool) : (s.mapBit a i b).memTs = s.memTs := by simp [State.mapBit]
@[simp] theorem State.memTs_setLane (l st : Nat) (s : State) : (s.setLane l st).memTs = s.memTs := by simp [State.setLane]
@[simp] theorem State.memTs_trainStart (l : Nat) (s : State) : (s.trainStart l).memTs = s.memTs := by simp [State.trainStart]

@[simp] theorem State.memTs_trainFail (l step : Nat) (s : State) : (s.trainFail l step).memTs = s.memTs := by
  simp [State.trainFail]

@[simp] theorem State.memTs_laneOff (l : Nat) (s : State) : (s.laneOff l).memTs = s.memTs := by simp [State.laneOff]
@[simp] theorem State.memTs_clrCnt (l : Nat) (s : State) : (s.clrCnt l).memTs = s.memTs := by simp [State.clrCnt]

@[simp] theorem State.memTs_mapEng (n e : Nat) (g : EngSt → EngSt) (s : State) : (s.mapEng n e g).memTs = s.memTs := by
  simp [State.mapEng]

@[simp] theorem State.memTs_takeItems (l : Nat) (s : State) : (s.takeItems l).memTs = s.memTs := by simp [State.takeItems]
@[simp] theorem State.memTs_wakeEng (n e ev : Nat) (s : State) : (s.wakeEng n e ev).memTs = s.memTs := by simp [State.wakeEng]
@[simp] theorem State.memTs_wakeAll (n ev : Nat) (s : State) : (s.wakeAll n ev).memTs = s.memTs := by simp [State.wakeAll]
@[simp] theorem State.memTs_itemWritten (l : Nat) (s : State) : (s.itemWritten l).memTs = s.memTs := by simp [State.itemWritten]

@[simp] theorem State.memTs_lnkEnable (l : Nat) (on : Bool) (s : State) : (s.lnkEnable l on).memTs = s.memTs := by
  simp [State.lnkEnable]

@[simp] theorem State.memTs_retrain (l : Nat) (s : State) : (s.retrain l).memTs = s.memTs := by simp [State.retrain]
@[simp] theorem State.memTs_safePoint (n e : Nat) (s : State) : (s.safePoint n e).memTs = s.memTs := by simp [State.safePoint]
@[simp] theorem State.memTs_engStall (n e : Nat) (s : State) : (s.engStall n e).memTs = s.memTs := by simp [State.engStall]
@[simp] theorem State.memTs_engRestart (n e : Nat) (s : State) : (s.engRestart n e).memTs = s.memTs := by simp [State.engRestart]
@[simp] theorem State.memTs_alignSend (n : Nat) (s : State) : (s.alignSend n).memTs = s.memTs := by simp [State.alignSend]
@[simp] theorem State.memTs_mbxDown (l : Nat) (s : State) : (s.mbxDown l).memTs = s.memTs := by simp [State.mbxDown]

@[simp] theorem State.memTs_bypassReport (l st : Nat) (s : State) : (s.bypassReport l st).memTs = s.memTs := by
  simp [State.bypassReport]

@[simp] theorem State.memTs_trainStep (l k : Nat) (s : State) : (s.trainStep l k).memTs = s.memTs := by
  dsimp only [State.trainStep]
  (repeat' split) <;> simp

@[simp] theorem State.memTs_badBarge (l : Nat) (missing : Bool) (s : State) : (s.badBarge l missing).memTs = s.memTs := by
  simp [State.badBarge]

@[simp] theorem State.memTs_txRoll (l : Nat) (s : State) : (s.txRoll l).memTs = s.memTs := by simp [State.txRoll]
@[simp] theorem State.memTs_laneCycle (l : Nat) (s : State) : (s.laneCycle l).memTs = s.memTs := by simp [State.laneCycle]
/-! ### Cycle -/

@[simp] theorem State.memTs_cycErr (n : Nat) (s : State) : (s.cycErr n).memTs = s.memTs := by simp [State.cycErr]
@[simp] theorem State.memTs_runStart (n : Nat) (s : State) : (s.runStart n).memTs = s.memTs := by simp [State.runStart]
@[simp] theorem State.memTs_cycleEnd (n : Nat) (s : State) : (s.cycleEnd n).memTs = s.memTs := by simp [State.cycleEnd]
@[simp] theorem State.memTs_runStop (n : Nat) (s : State) : (s.runStop n).memTs = s.memTs := by simp [State.runStop]
@[simp] theorem State.memTs_ovrEval (n : Nat) (s : State) : (s.ovrEval n).memTs = s.memTs := by simp [State.ovrEval]
@[simp] theorem State.memTs_consecClear (n : Nat) (s : State) : (s.consecClear n).memTs = s.memTs := by simp [State.consecClear]
@[simp] theorem State.memTs_judgeInner (n : Nat) (s : State) : (s.judgeInner n).memTs = s.memTs := by simp [State.judgeInner]
@[simp] theorem State.memTs_innerDone (n cyc : Nat) (s : State) : (s.innerDone n cyc).memTs = s.memTs := by simp [State.innerDone]

@[simp] theorem State.memTs_ovrLimitWrite (n v : Nat) (s : State) : (s.ovrLimitWrite n v).memTs = s.memTs := by
  simp [State.ovrLimitWrite]

@[simp] theorem State.memTs_latchRegs (n : Nat) (s : State) : (s.latchRegs n).memTs = s.memTs := by simp [State.latchRegs]
@[simp] theorem State.memTs_switchEnd (n : Nat) (s : State) : (s.switchEnd n).memTs = s.memTs := by simp [State.switchEnd]
@[simp] theorem State.memTs_hubAccept (n : Nat) (s : State) : (s.hubAccept n).memTs = s.memTs := by simp [State.hubAccept]

@[simp] theorem State.memTs_ctlPut (a : Nat) (v : Word) (s : State) : (s.ctlPut a v).memTs = s.memTs := by
  unfold State.ctlPut
  split <;> simp

@[simp] theorem State.memTs_heldWrite (n a : Nat) (v : Word) (s : State) : (s.heldWrite n a v).memTs = s.memTs := by
  simp [State.heldWrite]

@[simp] theorem State.memTs_applyWrites (n : Nat) (s : State) : (s.applyWrites n).memTs = s.memTs := by simp [State.applyWrites]
/-! ### Command -/

@[simp] theorem State.memTs_outFree (p : Nat) (s : State) : (s.outFree p).memTs = s.memTs := by simp [State.outFree]

@[simp] theorem State.memTs_pushReply (p : Nat) (r : Reply) (s : State) : (s.pushReply p r).memTs = s.memTs := by
  simp [State.pushReply]

@[simp] theorem State.memTs_replyTo (e : Entry) (live devref : Bool) (status resx : Nat) (res : List Nat) (s : State) :
    (s.replyTo e live devref status resx res).memTs = s.memTs := by
  simp [State.replyTo]

@[simp] theorem State.memTs_reply (e : Entry) (status : Nat) (s : State) : (s.reply e status).memTs = s.memTs := by
  simp [State.reply]

@[simp] theorem State.memTs_replyOk (e : Entry) (resx : Nat) (res : List Nat) (s : State) :
    (s.replyOk e resx res).memTs = s.memTs := by
  simp [State.replyOk]

@[simp] theorem State.memTs_await (e : Entry) (on : WaitOn) (st : Nat) (s : State) : (s.await e on st).memTs = s.memTs := by
  simp [State.await]

@[simp] theorem State.memTs_popEntry (e : Entry) (s : State) : (s.popEntry e).memTs = s.memTs := by simp [State.popEntry]
@[simp] theorem State.memTs_dropWait (w : Wait) (s : State) : (s.dropWait w).memTs = s.memTs := by simp [State.dropWait]

@[simp] theorem State.memTs_finish (w : Wait) (status resx : Nat) (res : List Nat) (s : State) :
    (s.finish w status resx res).memTs = s.memTs := by
  simp [State.finish]

@[simp] theorem State.memTs_withBuf (e : Entry) (body : List Byte → State → State) (s : State)
    (h : ∀ b s, (body b s).memTs = s.memTs) : (s.withBuf e body).memTs = s.memTs := by
  unfold State.withBuf
  split <;> simp [h]

@[simp] theorem State.memTs_replyBuf (e : Entry) (live : Bool) (b : List Byte) (resx : Nat) (res : List Nat) (s : State) :
    (s.replyBuf e live b resx res).memTs = s.memTs := by
  unfold State.replyBuf
  split <;> simp

/-! ### Adc -/

@[simp] theorem State.memTs_dropStep (g : Nat) (s : State) : (s.dropStep g).memTs = s.memTs := by simp [State.dropStep]

@[simp] theorem State.memTs_advanceNext (g c : Nat) (s : State) : (s.advanceNext g c).memTs = s.memTs := by
  simp [State.advanceNext]

@[simp] theorem State.memTs_takeOver (g c f : Nat) (s : State) : (s.takeOver g c f).2.memTs = s.memTs := by simp [State.takeOver]

@[simp] theorem State.memTs_serve (g c : Nat) (s : State) : (s.serve g c).memTs = s.memTs := by
  unfold State.serve
  split <;> simp

@[simp] theorem State.memTs_convert (g c : Nat) (h : Hold) (x : Int) (s : State) : (s.convert g c h x).2.memTs = s.memTs := by
  dsimp only [State.convert]
  (repeat' split) <;> simp

@[simp] theorem State.memTs_noteSat (g c : Nat) (v : Conv) (s : State) : (s.noteSat g c v).memTs = s.memTs := by
  simp [State.noteSat]

@[simp] theorem State.memTs_holdCyc (g c t : Nat) (s : State) : (s.holdCyc g c t).memTs = s.memTs := by
  have hh : (State.holdCyc.hold g c t s).memTs = s.memTs := by simp [State.holdCyc.hold]
  unfold State.holdCyc
  split
  · split <;> simp [hh]
  · exact hh

@[simp] theorem State.memTs_holdChannels (n : Nat) (s : State) : (s.holdChannels n).memTs = s.memTs := by
  simp [State.holdChannels]

@[simp] theorem State.memTs_cycleSample (g c : Nat) (x : Int) (s : State) : (s.cycleSample g c x).memTs = s.memTs := by
  unfold State.cycleSample
  split <;> simp

@[simp] theorem State.memTs_publishCyc (g c : Nat) (s : State) : (s.publishCyc g c).memTs = s.memTs := by
  unfold State.publishCyc
  split <;> simp

@[simp] theorem State.memTs_publishSamples (n : Nat) (s : State) : (s.publishSamples n).memTs = s.memTs := by
  simp [State.publishSamples]

@[simp] theorem State.memTs_adcErr (g : Nat) (s : State) : (s.adcErr g).memTs = s.memTs := by simp [State.adcErr]
@[simp] theorem State.memTs_refSource (s : State) : s.refSource.memTs = s.memTs := by simp [State.refSource]

@[simp] theorem State.memTs_refEnable (g : Nat) (on : Bool) (s : State) : (s.refEnable g on).memTs = s.memTs := by
  simp [State.refEnable]

@[simp] theorem State.memTs_seqWrite (g k : Nat) (v : Word) (s : State) : (s.seqWrite g k v).memTs = s.memTs := by
  simp [State.seqWrite]

@[simp] theorem State.memTs_schedule (g k t0 : Nat) (s : State) : (s.schedule g k t0).memTs = s.memTs := by
  unfold State.schedule
  split <;> simp

@[simp] theorem State.memTs_entryConv (g c t : Nat) (x : Int) (s : State) : (s.entryConv g c t x).2.memTs = s.memTs := by
  dsimp only [State.entryConv]
  (repeat' split) <;> simp

@[simp] theorem State.memTs_resRead (g k : Nat) (s : State) : (s.resRead g k).memTs = s.memTs := by simp [State.resRead]

@[simp] theorem State.memTs_ugainWrite (g c : Nat) (v : Word) (s : State) : (s.ugainWrite g c v).memTs = s.memTs := by
  simp [State.ugainWrite]

@[simp] theorem State.memTs_uoffWrite (g c : Nat) (v : Word) (s : State) : (s.uoffWrite g c v).memTs = s.memTs := by
  simp [State.uoffWrite]

@[simp] theorem State.memTs_stepStart (g : Nat) (force : Option Nat) (s : State) : (s.stepStart g force).memTs = s.memTs := by
  simp [State.stepStart]

@[simp] theorem State.memTs_forceHandover (g c : Nat) (s : State) : (s.forceHandover g c).memTs = s.memTs := by
  simp [State.forceHandover]

@[simp] theorem State.memTs_calCtrlWrite (g : Nat) (v : Word) (s : State) : (s.calCtrlWrite g v).memTs = s.memTs := by
  simp [State.calCtrlWrite]

@[simp] theorem State.memTs_runPathTest (e : Entry) (s : State) : (s.runPathTest e).memTs = s.memTs := by simp [State.runPathTest]
@[simp] theorem State.memTs_setUserCal (e : Entry) (s : State) : (s.setUserCal e).memTs = s.memTs := by simp [State.setUserCal]

@[simp] theorem State.memTs_getFactoryCal (e : Entry) (s : State) : (s.getFactoryCal e).memTs = s.memTs := by
  simp [State.getFactoryCal]

/-! ### Ledger -/

@[simp] theorem State.memTs_post (n f : Nat) (s : State) : (s.post n f).memTs = s.memTs := by simp [State.post]

@[simp] theorem State.memTs_cellFlag (n f l b code pay : Nat) (s : State) : (s.cellFlag n f l b code pay).memTs = s.memTs := by
  simp [State.cellFlag]

@[simp] theorem State.memTs_correct (n f l : Nat) (c : Int) (s : State) : (s.correct n f l c).memTs = s.memTs := by
  simp [State.correct]

@[simp] theorem State.memTs_resync (n f l : Nat) (s : State) : (s.resync n f l).memTs = s.memTs := by simp [State.resync]

@[simp] theorem State.memTs_reconcile (n f l v : Nat) (s : State) : (s.reconcile n f l v).memTs = s.memTs := by
  simp [State.reconcile]

@[simp] theorem State.memTs_ovEval (m : Nat) (s : State) : (s.ovEval m).memTs = s.memTs := by simp [State.ovEval]
@[simp] theorem State.memTs_ovCheck (n f l v : Nat) (s : State) : (s.ovCheck n f l v).memTs = s.memTs := by simp [State.ovCheck]

@[simp] theorem State.memTs_ledGood (l v : Nat) (s : State) : (s.ledGood l v).memTs = s.memTs := by
  dsimp only [State.ledGood]
  (repeat' split) <;> simp

@[simp] theorem State.memTs_ledMiss (l : Nat) (s : State) : (s.ledMiss l).memTs = s.memTs := by
  unfold State.ledMiss
  split <;> simp

@[simp] theorem State.memTs_vestAll (n f : Nat) (s : State) : (s.vestAll n f).memTs = s.memTs := by simp [State.vestAll]
@[simp] theorem State.memTs_viewCell (l : Nat) (s : State) : (s.viewCell l).memTs = s.memTs := by simp [State.viewCell]
@[simp] theorem State.memTs_view (n f : Nat) (s : State) : (s.view n f).memTs = s.memTs := by simp [State.view]
@[simp] theorem State.memTs_checkBooks (n f : Nat) (s : State) : (s.checkBooks n f).memTs = s.memTs := by simp [State.checkBooks]
@[simp] theorem State.memTs_rebaseSeen (n f : Nat) (s : State) : (s.rebaseSeen n f).memTs = s.memTs := by simp [State.rebaseSeen]
@[simp] theorem State.memTs_seed (n f : Nat) (s : State) : (s.seed n f).memTs = s.memTs := by simp [State.seed]

@[simp] theorem State.memTs_qexpWatch (n f : Nat) (old : Tbl Word) (s : State) : (s.qexpWatch n f old).memTs = s.memTs := by
  simp [State.qexpWatch]

/-! ### Balancer -/

@[simp] theorem State.memTs_reject (n f l : Nat) (s : State) : (s.reject n f l).memTs = s.memTs := by simp [State.reject]
@[simp] theorem State.memTs_admitLane (n f l : Nat) (s : State) : (s.admitLane n f l).memTs = s.memTs := by simp [State.admitLane]

@[simp] theorem State.memTs_fixAvail (n f : Nat) (s : State) : (s.fixAvail n f).memTs = s.memTs := by
  dsimp only [State.fixAvail]
  (repeat' split) <;> simp

@[simp] theorem State.memTs_direction (n f : Nat) (s : State) : (s.direction n f).memTs = s.memTs := by simp [State.direction]
@[simp] theorem State.memTs_keys (n f : Nat) (s : State) : (s.keys n f).memTs = s.memTs := by simp [State.keys]

@[simp] theorem State.memTs_publishRank (n f : Nat) (l : List Nat) (s : State) : (s.publishRank n f l).memTs = s.memTs := by
  simp [State.publishRank]

@[simp] theorem State.memTs_modulate (n f : Nat) (s : State) : (s.modulate n f).memTs = s.memTs := by simp [State.modulate]
@[simp] theorem State.memTs_ovrdEnd (m f : Nat) (s : State) : (s.ovrdEnd m f).memTs = s.memTs := by simp [State.ovrdEnd]
@[simp] theorem State.memTs_fixNa (n f : Nat) (s : State) : (s.fixNa n f).memTs = s.memTs := by simp [State.fixNa]
@[simp] theorem State.memTs_fixTrim (n f : Nat) (s : State) : (s.fixTrim n f).memTs = s.memTs := by simp [State.fixTrim]
@[simp] theorem State.memTs_tokenStage (n f : Nat) (s : State) : (s.tokenStage n f).memTs = s.memTs := by simp [State.tokenStage]

@[simp] theorem State.memTs_dutyStage (n f : Nat) (s : State) : (s.dutyStage n f).memTs = s.memTs := by
  dsimp only [State.dutyStage]
  (repeat' split) <;> simp

@[simp] theorem State.memTs_edgesOf (n f l : Nat) (s : State) : (s.edgesOf n f l).memTs = s.memTs := by simp [State.edgesOf]
@[simp] theorem State.memTs_edgeStage (n f : Nat) (s : State) : (s.edgeStage n f).memTs = s.memTs := by simp [State.edgeStage]
@[simp] theorem State.memTs_ucDeadline (n f : Nat) (s : State) : (s.ucDeadline n f).memTs = s.memTs := by simp [State.ucDeadline]
/-! ### Observer -/

@[simp] theorem State.memTs_setBankVal (n f b : Nat) (v : Bool) (s : State) : (s.setBankVal n f b v).memTs = s.memTs := by
  simp [State.setBankVal]

@[simp] theorem State.memTs_showSet (n f : Nat) (s : State) : (s.showSet n f).memTs = s.memTs := by
  unfold State.showSet
  split <;> simp

@[simp] theorem State.memTs_setXinit (n f : Nat) (l : List Byte) (s : State) : (s.setXinit n f l).memTs = s.memTs := by
  simp [State.setXinit]

@[simp] theorem State.memTs_swapBank (n f : Nat) (init : Bool) (s : State) : (s.swapBank n f init).2.memTs = s.memTs := by
  dsimp only [State.swapBank]
  (repeat' split) <;> simp

@[simp] theorem State.memTs_recheckBanks (n : Nat) (s : State) : (s.recheckBanks n).memTs = s.memTs := by
  simp [State.recheckBanks]

@[simp] theorem State.memTs_latchZ (n : Nat) (s : State) : (s.latchZ n).memTs = s.memTs := by simp [State.latchZ]
@[simp] theorem State.memTs_rowSat (n f r : Nat) (s : State) : (s.rowSat n f r).memTs = s.memTs := by simp [State.rowSat]

@[simp] theorem State.memTs_writeback (n f : Nat) (l : List Byte) (w : Nat) (acc : Int) (s : State) :
    (s.writeback n f l w acc).memTs = s.memTs := by
  simp [State.writeback]

@[simp] theorem State.memTs_commitStates (n f : Nat) (s : State) : (s.commitStates n f).memTs = s.memTs := by
  unfold State.commitStates
  split <;> simp

@[simp] theorem State.memTs_shaperCh (n ch : Nat) (s : State) : (s.shaperCh n ch).memTs = s.memTs := by
  dsimp only [State.shaperCh]
  (repeat' split) <;> simp

@[simp] theorem State.memTs_shaper (n : Nat) (s : State) : (s.shaper n).memTs = s.memTs := by simp [State.shaper]

@[simp] theorem State.memTs_shtgtWrite (n ch who : Nat) (v : Word) (s : State) : (s.shtgtWrite n ch who v).memTs = s.memTs := by
  unfold State.shtgtWrite
  split <;> simp

@[simp] theorem State.memTs_latchLimits (n : Nat) (old : Tbl Word) (s : State) : (s.latchLimits n old).memTs = s.memTs := by
  refine memTs_forN _ _ _ fun j t => ?_
  dsimp only
  (repeat' split) <;> simp

/-! ### Time -/

@[simp] theorem State.memTs_slewRefresh (s : State) : s.slewRefresh.memTs = s.memTs := by simp [State.slewRefresh]
@[simp] theorem State.memTs_slewBegin (v : Int) (s : State) : (s.slewBegin v).memTs = s.memTs := by simp [State.slewBegin]

@[simp] theorem State.memTs_syncCfgWrite (v : Word) (s : State) : (s.syncCfgWrite v).memTs = s.memTs := by
  simp [State.syncCfgWrite]

@[simp] theorem State.memTs_ioCfgWrite (k : Nat) (v : Word) (s : State) : (s.ioCfgWrite k v).memTs = s.memTs := by
  simp [State.ioCfgWrite]

@[simp] theorem State.memTs_ridxWrite (q : Nat) (v : Word) (s : State) : (s.ridxWrite q v).memTs = s.memTs := by
  simp [State.ridxWrite]

@[simp] theorem State.memTs_qbaseWrite (q : Nat) (v : Word) (s : State) : (s.qbaseWrite q v).memTs = s.memTs := by
  simp [State.qbaseWrite]

@[simp] theorem State.memTs_qcfgWrite (q : Nat) (v : Word) (s : State) : (s.qcfgWrite q v).memTs = s.memTs := by
  simp [State.qcfgWrite]

@[simp] theorem State.memTs_alarmArm (p : Nat) (hi : Word) (s : State) : (s.alarmArm p hi).memTs = s.memTs := by
  simp [State.alarmArm]

/-! ### Flight -/

@[simp] theorem State.memTs_startEffects (n f : Nat) (s : State) : (s.startEffects n f).memTs = s.memTs := by
  simp [State.startEffects]

@[simp] theorem State.memTs_setFlt (n f new : Nat) (s : State) : (s.setFlt n f new).memTs = s.memTs := by simp [State.setFlt]

@[simp] theorem State.memTs_heldFlt (n f : Nat) (s : State) : (s.heldFlt n f).memTs = s.memTs := by
  unfold State.heldFlt
  split <;> simp

@[simp] theorem State.memTs_autoFlt (n f : Nat) (s : State) : (s.autoFlt n f).memTs = s.memTs := by
  dsimp only [State.autoFlt]
  (repeat' split) <;> simp

@[simp] theorem State.memTs_fltStateWrite (n f code : Nat) (s : State) : (s.fltStateWrite n f code).memTs = s.memTs := by
  simp [State.fltStateWrite]

@[simp] theorem State.memTs_done (w : Wait) (status : Nat) (s : State) : (s.done w status).memTs = s.memTs := by simp [State.done]

@[simp] theorem State.memTs_atSample (n : Nat) (e : Entry) (st : Nat) (body : Wait → State → State) (s : State)
    (h : ∀ w s, (body w s).memTs = s.memTs) : (s.atSample n e st body).memTs = s.memTs := by simp [State.atSample, h]

@[simp] theorem State.memTs_startAt (w : Wait) (s : State) : (s.startAt w).memTs = s.memTs := by
  dsimp only [State.startAt]
  (repeat' split) <;> simp

@[simp] theorem State.memTs_startFlight (e : Entry) (s : State) : (s.startFlight e).memTs = s.memTs := by
  dsimp only [State.startFlight]
  (repeat' split) <;> simp

@[simp] theorem State.memTs_stopAt (w : Wait) (s : State) : (s.stopAt w).memTs = s.memTs := by
  unfold State.stopAt
  split <;> simp

@[simp] theorem State.memTs_stopFlight (e : Entry) (s : State) : (s.stopFlight e).memTs = s.memTs := by
  dsimp only [State.stopFlight]
  (repeat' split) <;> simp

@[simp] theorem State.memTs_holdTargets (n f : Nat) (s : State) : (s.holdTargets n f).memTs = s.memTs := by
  simp [State.holdTargets]

@[simp] theorem State.memTs_holdAt (w : Wait) (s : State) : (s.holdAt w).memTs = s.memTs := by
  unfold State.holdAt
  split <;> simp

@[simp] theorem State.memTs_holdFlight (e : Entry) (s : State) : (s.holdFlight e).memTs = s.memTs := by
  dsimp only [State.holdFlight]
  (repeat' split) <;> simp

@[simp] theorem State.memTs_setRefAt (w : Wait) (s : State) : (s.setRefAt w).memTs = s.memTs := by
  unfold State.setRefAt
  split <;> simp

@[simp] theorem State.memTs_setReference (e : Entry) (s : State) : (s.setReference e).memTs = s.memTs := by
  dsimp only [State.setReference]
  (repeat' split) <;> simp

@[simp] theorem State.memTs_swapAt (w : Wait) (s : State) : (s.swapAt w).memTs = s.memTs := by
  unfold State.swapAt
  split <;> simp

@[simp] theorem State.memTs_swapCoeff (e : Entry) (s : State) : (s.swapCoeff e).memTs = s.memTs := by
  dsimp only [State.swapCoeff]
  (repeat' split) <;> simp

@[simp] theorem State.memTs_clearWear (l : Nat) (s : State) : (s.clearWear l).memTs = s.memTs := by simp [State.clearWear]

@[simp] theorem State.memTs_putDesc (l : Nat) (d : List Byte) (s : State) : (s.putDesc l d).memTs = s.memTs := by
  simp [State.putDesc]

@[simp] theorem State.memTs_setCellMap (e : Entry) (s : State) : (s.setCellMap e).memTs = s.memTs := by
  simp [State.setCellMap]

@[simp] theorem State.memTs_cellParamsAt (w : Wait) (s : State) : (s.cellParamsAt w).memTs = s.memTs := by
  simp [State.cellParamsAt]

@[simp] theorem State.memTs_setCellParams (e : Entry) (s : State) : (s.setCellParams e).memTs = s.memTs := by
  simp [State.setCellParams]

@[simp] theorem State.memTs_bypassCell (e : Entry) (s : State) : (s.bypassCell e).memTs = s.memTs := by
  dsimp only [State.bypassCell]
  (repeat' split) <;> simp

@[simp] theorem State.memTs_bindRegs (d : FltDesc) (s : State) : (s.bindRegs d).memTs = s.memTs := by simp [State.bindRegs]
@[simp] theorem State.memTs_splitBits (m : Nat) (s : State) : (s.splitBits m).memTs = s.memTs := by simp [State.splitBits]
@[simp] theorem State.memTs_cfgFollow (m : Nat) (s : State) : (s.cfgFollow m).memTs = s.memTs := by simp [State.cfgFollow]
@[simp] theorem State.memTs_takeWrites (m : Nat) (s : State) : (s.takeWrites m).memTs = s.memTs := by simp [State.takeWrites]
@[simp] theorem State.memTs_gangForm (d : FltDesc) (s : State) : (s.gangForm d).memTs = s.memTs := by simp [State.gangForm]
@[simp] theorem State.memTs_bindLanes (d : FltDesc) (s : State) : (s.bindLanes d).memTs = s.memTs := by simp [State.bindLanes]

@[simp] theorem State.memTs_clearCfg (n f : Nat) (ms : List Nat) (s : State) : (s.clearCfg n f ms).memTs = s.memTs := by
  simp [State.clearCfg]

@[simp] theorem State.memTs_gangEnd (ms : List Nat) (s : State) : (s.gangEnd ms).memTs = s.memTs := by simp [State.gangEnd]
@[simp] theorem State.memTs_bindState (w : Wait) (s : State) : (s.bindState w).memTs = s.memTs := by simp [State.bindState]

@[simp] theorem State.memTs_bindRest (w : Wait) (restart : Bool) (s : State) : (s.bindRest w restart).memTs = s.memTs := by
  simp [State.bindRest]

@[simp] theorem State.memTs_bindFlight (e : Entry) (s : State) : (s.bindFlight e).memTs = s.memTs := by simp [State.bindFlight]

@[simp] theorem State.memTs_unbindAt (w : Wait) (s : State) : (s.unbindAt w).memTs = s.memTs := by
  unfold State.unbindAt
  split <;> simp

@[simp] theorem State.memTs_unbindFlight (e : Entry) (s : State) : (s.unbindFlight e).memTs = s.memTs := by
  dsimp only [State.unbindFlight]
  (repeat' split) <;> simp

@[simp] theorem State.memTs_loadObserver (e : Entry) (s : State) : (s.loadObserver e).memTs = s.memTs := by
  dsimp only [State.loadObserver]
  rw [memTs_ite, State.memTs_reply, State.memTs_withBuf, ite_self]
  intro b t
  (repeat' split) <;> simp

@[simp] theorem State.memTs_rebaseLedger (e : Entry) (s : State) : (s.rebaseLedger e).memTs = s.memTs := by
  dsimp only [State.rebaseLedger]
  (repeat' split) <;> simp

/-! ### MemCtl -/

@[simp] theorem State.memTs_scrubGo (wb slice : Bool) (s : State) : (s.scrubGo wb slice).memTs = s.memTs := by
  simp [State.scrubGo]

@[simp] theorem State.memTs_scrubRegs (mid off len : Nat) (s : State) : (s.scrubRegs mid off len).memTs = s.memTs := by
  simp [State.scrubRegs]

@[simp] theorem State.memTs_scrubRange (e : Entry) (s : State) : (s.scrubRange e).memTs = s.memTs := by simp [State.scrubRange]

@[simp] theorem State.memTs_scrubByte (x : ScrubSt) (off k b : Nat) (s : State) : (s.scrubByte x off k b).2.memTs = s.memTs := by
  unfold State.scrubByte
  split <;> simp

@[simp] theorem State.memTs_scrubEnd (x : ScrubSt) (s : State) : (s.scrubEnd x).memTs = s.memTs := by simp [State.scrubEnd]
@[simp] theorem State.memTs_sliceGo (s : State) : s.sliceGo.memTs = s.memTs := by simp [State.sliceGo]
@[simp] theorem State.memTs_imageFill (v : Word) (s : State) : (s.imageFill v).memTs = s.memTs := by simp [State.imageFill]
/-! ### Pwm -/

@[simp] theorem State.memTs_followP (k : Nat) (fresh : Bool) (s : State) : (s.followP k fresh).memTs = s.memTs := by
  simp [State.followP]

@[simp] theorem State.memTs_pwmFlag (k : Nat) (f : Fld) (code pay : Nat) (s : State) :
    (s.pwmFlag k f code pay).memTs = s.memTs := by
  simp [State.pwmFlag]

@[simp] theorem State.memTs_pwmErr (k off : Nat) (s : State) : (s.pwmErr k off).memTs = s.memTs := by simp [State.pwmErr]
@[simp] theorem State.memTs_pwmApply (k m : Nat) (s : State) : (s.pwmApply k m).memTs = s.memTs := by simp [State.pwmApply]

@[simp] theorem State.memTs_pwmCommit (k : Nat) (first : Bool) (s : State) : (s.pwmCommit k first).memTs = s.memTs := by
  simp [State.pwmCommit]

@[simp] theorem State.memTs_towTo (k sync t : Nat) (s : State) : (s.towTo k sync t).memTs = s.memTs := by simp [State.towTo]
@[simp] theorem State.memTs_towArrive (s : State) : s.towArrive.memTs = s.memTs := by simp [State.towArrive]
@[simp] theorem State.memTs_periodStart (k : Nat) (s : State) : (s.periodStart k).memTs = s.memTs := by simp [State.periodStart]
@[simp] theorem State.memTs_pwmDue (k : Nat) (s : State) : (s.pwmDue k).memTs = s.memTs := by simp [State.pwmDue]

@[simp] theorem State.memTs_pwmEnable (k : Nat) (on : Bool) (s : State) : (s.pwmEnable k on).memTs = s.memTs := by
  simp [State.pwmEnable]

@[simp] theorem State.memTs_towCfgWrite (v : Word) (s : State) : (s.towCfgWrite v).memTs = s.memTs := by simp [State.towCfgWrite]

@[simp] theorem State.memTs_shadowWrite (k : Nat) (r : ShadowReg) (v : Word) (s : State) :
    (s.shadowWrite k r v).memTs = s.memTs := by
  simp [State.shadowWrite]

@[simp] theorem State.memTs_pwmArm (m : Nat) (s : State) : (s.pwmArm m).memTs = s.memTs := by simp [State.pwmArm]

@[simp] theorem State.memTs_pwmCtrlWrite (k : Nat) (v : Word) (s : State) : (s.pwmCtrlWrite k v).memTs = s.memTs := by
  simp [State.pwmCtrlWrite]

/-! ### HostIf -/

@[simp] theorem State.memTs_msiSend (p v : Nat) (s : State) : (s.msiSend p v).memTs = s.memTs := by simp [State.msiSend]
@[simp] theorem State.memTs_msiFlush (p v : Nat) (s : State) : (s.msiFlush p v).memTs = s.memTs := by simp [State.msiFlush]
@[simp] theorem State.memTs_notice (p : Nat) (f : Fld) (s : State) : (s.notice p f).memTs = s.memTs := by simp [State.notice]
@[simp] theorem State.memTs_setDev (v : Nat) (s : State) : (s.setDev v).memTs = s.memTs := by simp [State.setDev]
@[simp] theorem State.memTs_setOwner (p new : Nat) (s : State) : (s.setOwner p new).memTs = s.memTs := by simp [State.setOwner]

@[simp] theorem State.memTs_setLapsed (p : Nat) (b : Bool) (s : State) : (s.setLapsed p b).memTs = s.memTs := by
  simp [State.setLapsed]

@[simp] theorem State.memTs_cancelLoss (s : State) : s.cancelLoss.memTs = s.memTs := by simp [State.cancelLoss]
@[simp] theorem State.memTs_heartbeat (p : Nat) (s : State) : (s.heartbeat p).memTs = s.memTs := by simp [State.heartbeat]
@[simp] theorem State.memTs_hbWrite (p : Nat) (v : Word) (s : State) : (s.hbWrite p v).memTs = s.memTs := by simp [State.hbWrite]

@[simp] theorem State.memTs_ownCommand (op fl b8 : Nat) (s : State) : (s.ownCommand op fl b8).memTs = s.memTs := by
  unfold State.ownCommand
  split <;> simp

@[simp] theorem State.memTs_lossBegin (s : State) : s.lossBegin.memTs = s.memTs := by simp [State.lossBegin]
@[simp] theorem State.memTs_qErr (p q : Nat) (f : Fld) (s : State) : (s.qErr p q f).memTs = s.memTs := by simp [State.qErr]

@[simp] theorem State.memTs_sqDoorbell (p q tail : Nat) (s : State) : (s.sqDoorbell p q tail).memTs = s.memTs := by
  simp [State.sqDoorbell]

@[simp] theorem State.memTs_cqDoorbell (p q head : Nat) (s : State) : (s.cqDoorbell p q head).memTs = s.memTs := by
  simp [State.cqDoorbell]

@[simp] theorem State.memTs_replyOut (p : Nat) (r : Reply) (s : State) : (s.replyOut p r).memTs = s.memTs := by
  dsimp only [State.replyOut]
  (repeat' split) <;> simp

@[simp] theorem State.memTs_replyWrite (p : Nat) (s : State) : (s.replyWrite p).memTs = s.memTs := by
  unfold State.replyWrite
  split <;> simp

@[simp] theorem State.memTs_kinPop (p : Nat) (s : State) : (s.kinPop p).memTs = s.memTs := by simp [State.kinPop]
@[simp] theorem State.memTs_koutPush (p cq : Nat) (s : State) : (s.koutPush p cq).memTs = s.memTs := by simp [State.koutPush]
@[simp] theorem State.memTs_badAccess (p : Nat) (s : State) : (s.badAccess p).memTs = s.memTs := by simp [State.badAccess]
@[simp] theorem State.memTs_discardOut (p : Nat) (s : State) : (s.discardOut p).memTs = s.memTs := by simp [State.discardOut]

@[simp] theorem State.memTs_portReset (p : Nat) (linkDown : Bool) (s : State) : (s.portReset p linkDown).memTs = s.memTs := by
  simp [State.portReset]

@[simp] theorem State.memTs_qCfgErr (p q : Nat) (s : State) : (s.qCfgErr p q).memTs = s.memTs := by simp [State.qCfgErr]

@[simp] theorem State.memTs_queueWrite (p q o : Nat) (v : Word) (s : State) : (s.queueWrite p q o v).memTs = s.memTs := by
  unfold State.queueWrite
  split <;> simp

@[simp] theorem State.memTs_bar0Write (p o : Nat) (v : Word) (s : State) : (s.bar0Write p o v).memTs = s.memTs := by
  simp [State.bar0Write]

@[simp] theorem State.memTs_safeHalt (src cause : Nat) (s : State) : (s.safeHalt src cause).memTs = s.memTs := by
  simp [State.safeHalt]

/-! ### Glove -/

@[simp] theorem State.memTs_mapCore (p : Nat) (f : CoreSt → CoreSt) (s : State) : (s.mapCore p f).memTs = s.memTs := by
  simp [State.mapCore]

@[simp] theorem State.memTs_mapImg (p : Nat) (f : CoreImg → CoreImg) (s : State) : (s.mapImg p f).memTs = s.memTs := by
  simp [State.mapImg]

@[simp] theorem State.memTs_setGlv (p st : Nat) (s : State) : (s.setGlv p st).memTs = s.memTs := by simp [State.setGlv]
@[simp] theorem State.memTs_checkpoint (p : Nat) (s : State) : (s.checkpoint p).memTs = s.memTs := by simp [State.checkpoint]

@[simp] theorem State.memTs_pairStop (p cause path : Nat) (s : State) : (s.pairStop p cause path).memTs = s.memTs := by
  simp [State.pairStop]

@[simp] theorem State.memTs_pairFail (p cause path : Nat) (s : State) : (s.pairFail p cause path).memTs = s.memTs := by
  simp [State.pairFail]

@[simp] theorem State.memTs_mismatch (p path : Nat) (s : State) : (s.mismatch p path).memTs = s.memTs := by simp [State.mismatch]

@[simp] theorem State.memTs_startAtImg (p : Nat) (i : CoreImg) (s : State) : (s.startAtImg p i).memTs = s.memTs := by
  simp [State.startAtImg]

@[simp] theorem State.memTs_haltNow (p : Nat) (s : State) : (s.haltNow p).memTs = s.memTs := by simp [State.haltNow]

@[simp] theorem State.memTs_debugHalt (p : Nat) (on : Bool) (s : State) : (s.debugHalt p on).memTs = s.memTs := by
  simp [State.debugHalt]

@[simp] theorem State.memTs_dbgStep (p : Nat) (s : State) : (s.dbgStep p).memTs = s.memTs := by simp [State.dbgStep]
@[simp] theorem State.memTs_releaseNow (p : Nat) (s : State) : (s.releaseNow p).memTs = s.memTs := by simp [State.releaseNow]
@[simp] theorem State.memTs_release (m : Nat) (s : State) : (s.release m).memTs = s.memTs := by simp [State.release]

@[simp] theorem State.memTs_releasePending (m : Nat) (s : State) : (s.releasePending m).memTs = s.memTs := by
  simp [State.releasePending]

@[simp] theorem State.memTs_wdKick (p v : Nat) (s : State) : (s.wdKick p v).memTs = s.memTs := by simp [State.wdKick]

@[simp] theorem State.memTs_fwHalt (cause step : Nat) (s : State) : (s.fwHalt cause step).memTs = s.memTs := by
  simp [State.fwHalt]

/-! ### Boot -/

@[simp] theorem State.memTs_mapPwr (f : PowerSt → PowerSt) (s : State) : (s.mapPwr f).memTs = s.memTs := by simp [State.mapPwr]

@[simp] theorem State.memTs_retireOtp (g : Nat) (bad : List Nat) (s : State) : (s.retireOtp g bad).memTs = s.memTs := by
  simp [State.retireOtp]

@[simp] theorem State.memTs_bistFail (p : Nat) (s : State) : (s.bistFail p).memTs = s.memTs := by simp [State.bistFail]

@[simp] theorem State.memTs_bistMid (unit : Nat) (kinds : List Nat) (s : State) : (s.bistMid unit kinds).memTs = s.memTs := by
  simp [State.bistMid]

@[simp] theorem State.memTs_safeWrite (v : Word) (s : State) : (s.safeWrite v).memTs = s.memTs := by simp [State.safeWrite]
@[simp] theorem State.memTs_railMv (k mv : Nat) (s : State) : (s.railMv k mv).memTs = s.memTs := by simp [State.railMv]

@[simp] theorem State.memTs_sense (k : Nat) (t : Option Half) (s : State) : (s.sense k t).memTs = s.memTs := by
  unfold State.sense
  split <;> simp

@[simp] theorem State.memTs_critEval (s : State) : s.critEval.memTs = s.memTs := by simp [State.critEval]
@[simp] theorem State.memTs_tripEval (s : State) : s.tripEval.memTs = s.memTs := by simp [State.tripEval]
/-! ### Dma -/

@[simp] theorem State.memTs_hostRead (n : Nat) (s : State) : (s.hostRead n).2.memTs = s.memTs := by simp [State.hostRead]

@[simp] theorem State.memTs_hostWrite (p a : Nat) (b : List Byte) (s : State) : (s.hostWrite p a b).memTs = s.memTs := by
  simp [State.hostWrite]

@[simp] theorem State.memTs_mapDma (c : Nat) (f : DmaSt → DmaSt) (s : State) : (s.mapDma c f).memTs = s.memTs := by
  simp [State.mapDma]

@[simp] theorem State.memTs_dmaStart (c doff : Nat) (s : State) : (s.dmaStart c doff).memTs = s.memTs := by simp [State.dmaStart]

@[simp] theorem State.memTs_dmaFetch (c : Nat) (s : State) : (s.dmaFetch c).2.memTs = s.memTs := by
  have hr := s.memTs_hostRead (s.dma c).esize
  dsimp only [State.dmaFetch]
  (repeat' split) <;> simp_all

@[simp] theorem State.memTs_dmaResume (c : Nat) (s : State) : (s.dmaResume c).memTs = s.memTs := by simp [State.dmaResume]
/-! ### Mcs -/

@[simp] theorem State.memTs_mapMcs (m : Nat) (f : McsSt → McsSt) (s : State) : (s.mapMcs m f).memTs = s.memTs := by
  simp [State.mapMcs]

@[simp] theorem State.memTs_mcsMark (m : Nat) (x : McsSt) (v : Bool) (s : State) : (s.mcsMark m x v).memTs = s.memTs := by
  simp [State.mcsMark]

@[simp] theorem State.memTs_mcsFail (m err : Nat) (s : State) : (s.mcsFail m err).memTs = s.memTs := by simp [State.mcsFail]
@[simp] theorem State.memTs_mcsOpen (m : Nat) (s : State) : (s.mcsOpen m).memTs = s.memTs := by simp [State.mcsOpen]
@[simp] theorem State.memTs_csPut (key w v : Nat) (s : State) : (s.csPut key w v).memTs = s.memTs := by simp [State.csPut]
@[simp] theorem State.memTs_mcsData (m : Nat) (v : Word) (s : State) : (s.mcsData m v).memTs = s.memTs := by simp [State.mcsData]
@[simp] theorem State.memTs_mcsCommit (m : Nat) (s : State) : (s.mcsCommit m).memTs = s.memTs := by simp [State.mcsCommit]
@[simp] theorem State.memTs_mcsAbort (m : Nat) (s : State) : (s.mcsAbort m).memTs = s.memTs := by simp [State.mcsAbort]

@[simp] theorem State.memTs_mcsCheck (m : Nat) (s : State) : (s.mcsCheck m).memTs = s.memTs := by
  dsimp only [State.mcsCheck]
  (repeat' split) <;> simp

@[simp] theorem State.memTs_mcsCtrl (m : Nat) (v : Word) (s : State) : (s.mcsCtrl m v).memTs = s.memTs := by simp [State.mcsCtrl]

@[simp] theorem State.memTs_engSet (n e r : Nat) (v : Word) (s : State) : (s.engSet n e r v).memTs = s.memTs := by
  simp [State.engSet]

@[simp] theorem State.memTs_engStep (n e op : Nat) (body : Nat → State → State × Nat) (s : State)
    (h : ∀ w s, (body w s).1.memTs = s.memTs) : (s.engStep n e op body).memTs = s.memTs := by
  dsimp only [State.engStep]
  (repeat' split) <;> simp [h]

@[simp] theorem State.memTs_engAlu (n e w : Nat) (s : State) : (s.engAlu n e w).1.memTs = s.memTs := by simp [State.engAlu]

@[simp] theorem State.memTs_engBr (n e w : Nat) (s : State) : (s.engBr n e w).1.memTs = s.memTs := by
  unfold State.engBr
  split <;> simp

@[simp] theorem State.memTs_engEnd (n e : Nat) (s : State) : (s.engEnd n e).memTs = s.memTs := by
  simp [State.engEnd]

/-! ### Firmware -/

@[simp] theorem State.memTs_katRefuse (e : Entry) (body : State → State) (s : State) (h : ∀ s, (body s).memTs = s.memTs) :
    (s.katRefuse e body).memTs = s.memTs := by simp [State.katRefuse, h]

@[simp] theorem State.memTs_authFail (e : Entry) (code : Nat) (s : State) : (s.authFail e code).memTs = s.memTs := by
  simp [State.authFail]

@[simp] theorem State.memTs_authFw (e : Entry) (s : State) : (s.authFw e).memTs = s.memTs := by
  simp [State.authFw]

@[simp] theorem State.memTs_loadStore (m store pair : Nat) (im : List Byte) (x : Sec) (s : State) :
    (s.loadStore m store pair im x).memTs = s.memTs := by
  simp [State.loadStore]

@[simp] theorem State.memTs_freshLoad (m store pair : Nat) (im : List Byte) (x : Sec) (s : State) :
    (s.freshLoad m store pair im x).memTs = s.memTs := by
  simp [State.freshLoad]

@[simp] theorem State.memTs_loadStores (im : List Byte) (ss : List Sec) (s : State) : (s.loadStores im ss).2.memTs = s.memTs := by
  refine foldl_frame (fun r : Bool × State => r.2.memTs) _ _ _ fun r x => ?_
  dsimp only
  (repeat' split) <;> simp [forN_frame (fun r : Bool × State => r.2.memTs)]

@[simp] theorem State.memTs_wdConfig (p period grace : Nat) (s : State) : (s.wdConfig p period grace).memTs = s.memTs := by
  simp [State.wdConfig]

@[simp] theorem State.memTs_applyConfig (s : State) : s.applyConfig.memTs = s.memTs := by simp [State.applyConfig]
/-! ### Tick -/

@[simp] theorem State.memTs_correctFlight (n f : Nat) (s : State) : (s.correctFlight n f).memTs = s.memTs := by
  simp [State.correctFlight]

@[simp] theorem State.memTs_ucStart (m : Nat) (s : State) : (s.ucStart m).memTs = s.memTs := by simp [State.ucStart]
@[simp] theorem State.memTs_ucPublish (m : Nat) (s : State) : (s.ucPublish m).memTs = s.memTs := by simp [State.ucPublish]
@[simp] theorem State.memTs_ucAbort (m : Nat) (s : State) : (s.ucAbort m).memTs = s.memTs := by simp [State.ucAbort]
@[simp] theorem State.memTs_judgeHold (n : Nat) (s : State) : (s.judgeHold n).memTs = s.memTs := by simp [State.judgeHold]

@[simp] theorem State.memTs_wearCount (l c : Nat) (a b : Int) (full : Bool) (s : State) :
    (s.wearCount l c a b full).memTs = s.memTs := by
  simp [State.wearCount]

@[simp] theorem State.memTs_mapWear (s : State) (l : Nat) (f : WearSt → WearSt) : (s.mapWear l f).memTs = s.memTs := by
  simp [State.mapWear]

@[simp] theorem State.memTs_rainflow (l c k : Nat) (s : State) : (s.rainflow l c k).memTs = s.memTs := by
  induction k generalizing s with
  | zero => rfl
  | succ k ih =>
    unfold State.rainflow
    (repeat' split) <;> simp [ih]

@[simp] theorem State.memTs_wearPush (l c : Nat) (v : Int) (s : State) : (s.wearPush l c v).memTs = s.memTs := by
  simp [State.wearPush]

@[simp] theorem State.memTs_wearFollow (l c : Nat) (tj : Int) (s : State) : (s.wearFollow l c tj).memTs = s.memTs := by
  dsimp only [State.wearFollow]
  (repeat' split) <;> simp

@[simp] theorem State.memTs_wearLane (n f l : Nat) (s : State) : (s.wearLane n f l).memTs = s.memTs := by simp [State.wearLane]
@[simp] theorem State.memTs_wearUnit (n m : Nat) (s : State) : (s.wearUnit n m).memTs = s.memTs := by simp [State.wearUnit]
/-! ### Keeper -/

@[simp] theorem State.memTs_identify (e : Entry) (s : State) : (s.identify e).memTs = s.memTs := by simp [State.identify]
@[simp] theorem State.memTs_getState (e : Entry) (s : State) : (s.getState e).memTs = s.memTs := by simp [State.getState]
@[simp] theorem State.memTs_getSelftest (e : Entry) (s : State) : (s.getSelftest e).memTs = s.memTs := by simp [State.getSelftest]

@[simp] theorem State.memTs_setTripPolicy (e : Entry) (s : State) : (s.setTripPolicy e).memTs = s.memTs := by
  dsimp only [State.setTripPolicy]
  split
  · simp
  split
  · simp
  split
  · simp
  · rw [State.memTs_replyOk, State.memTs_commitGroup]
    exact memTs_foldl _ _ _ fun _ _ => rfl

@[simp] theorem State.memTs_clearTrip (e : Entry) (s : State) : (s.clearTrip e).memTs = s.memTs := by simp [State.clearTrip]
@[simp] theorem State.memTs_setWindow (e : Entry) (s : State) : (s.setWindow e).memTs = s.memTs := by simp [State.setWindow]
@[simp] theorem State.memTs_lockLimits (e : Entry) (s : State) : (s.lockLimits e).memTs = s.memTs := by simp [State.lockLimits]

@[simp] theorem State.memTs_setStream (p t : Nat) (x : Option Stream) (s : State) : (s.setStream p t x).memTs = s.memTs := by
  simp [State.setStream]

@[simp] theorem State.memTs_openStream (e : Entry) (s : State) : (s.openStream e).memTs = s.memTs := by
  simp [State.openStream]

@[simp] theorem State.memTs_closeStream (e : Entry) (s : State) : (s.closeStream e).memTs = s.memTs := by
  dsimp only [State.closeStream]
  (repeat' split) <;> simp

@[simp] theorem State.memTs_getWear (e : Entry) (s : State) : (s.getWear e).memTs = s.memTs := by simp [State.getWear]

@[simp] theorem State.memTs_setWearModel (e : Entry) (s : State) : (s.setWearModel e).memTs = s.memTs := by
  dsimp only [State.setWearModel]
  rw [memTs_ite, memTs_ite, State.memTs_withBuf]
  · simp
  · intro b t
    simp

@[simp] theorem State.memTs_takeOwnership (e : Entry) (s : State) : (s.takeOwnership e).memTs = s.memTs := by
  simp [State.takeOwnership]

@[simp] theorem State.memTs_releaseOwnership (e : Entry) (s : State) : (s.releaseOwnership e).memTs = s.memTs := by
  simp [State.releaseOwnership]

@[simp] theorem State.memTs_heartbeatCmd (e : Entry) (s : State) : (s.heartbeatCmd e).memTs = s.memTs := by
  simp [State.heartbeatCmd]

@[simp] theorem State.memTs_setShed (on : Bool) (s : State) : (s.setShed on).memTs = s.memTs := by simp [State.setShed]
/-! ### Sample -/

@[simp] theorem State.memTs_runAt (w : Wait) (s : State) : (s.runAt w).memTs = s.memTs := by
  unfold State.runAt
  split <;> simp

@[simp] theorem State.memTs_samplesDone (n : Nat) (s : State) : (s.samplesDone n).memTs = s.memTs := by simp [State.samplesDone]

@[simp] theorem State.memTs_bypassDone (n : Nat) (s : State) : (s.bypassDone n).memTs = s.memTs := by
  refine memTs_foldl _ _ _ fun t w => ?_
  split <;> simp

@[simp] theorem State.memTs_streamDue (p t : Nat) (x : Stream) (s : State) : (s.streamDue p t x).memTs = s.memTs := by
  simp [State.streamDue]

@[simp] theorem State.memTs_streamsDue (m : Nat) (s : State) : (s.streamsDue m).memTs = s.memTs := by
  refine memTs_forN _ _ _ fun p t => memTs_forN _ _ _ fun k u => ?_
  split <;> simp

@[simp] theorem State.memTs_cycleBegin (n : Nat) (s : State) : (s.cycleBegin n).memTs = s.memTs := by simp [State.cycleBegin]

@[simp] theorem State.memTs_takeXinit (n f : Nat) (s : State) : (s.takeXinit n f).memTs = s.memTs := by
  dsimp only [State.takeXinit]
  (repeat' split) <;> simp

@[simp] theorem State.memTs_flightsAt (n : Nat) (s : State) : (s.flightsAt n).memTs = s.memTs := by simp [State.flightsAt]
@[simp] theorem State.memTs_latchAll (n : Nat) (s : State) : (s.latchAll n).memTs = s.memTs := by simp [State.latchAll]
@[simp] theorem State.memTs_latchTgts (n : Nat) (s : State) : (s.latchTgts n).memTs = s.memTs := by simp [State.latchTgts]
@[simp] theorem State.memTs_cycleLatch (n : Nat) (s : State) : (s.cycleLatch n).memTs = s.memTs := by simp [State.cycleLatch]
@[simp] theorem State.memTs_stopsDone (s : State) : s.stopsDone.memTs = s.memTs := by simp [State.stopsDone]

@[simp] theorem State.memTs_rebaseAt (w : Wait) (s : State) : (s.rebaseAt w).memTs = s.memTs := by
  unfold State.rebaseAt
  split <;> simp

@[simp] theorem State.memTs_reloadStore (m store pair kind unit a : Nat) (im : List Byte) (s : State) :
    (s.reloadStore m store pair kind unit a im).memTs = s.memTs := by
  dsimp only [State.reloadStore]
  (repeat' split) <;> simp

@[simp] theorem State.memTs_scrubReply (x : ScrubSt) (s : State) : (s.scrubReply x).memTs = s.memTs := by
  unfold State.scrubReply
  split <;> simp

/-! ### Device -/

@[simp] theorem State.memTs_plainWrite (a : Nat) (v : Word) (s : State) : (s.plainWrite a v).memTs = s.memTs := by
  unfold State.plainWrite
  split <;> simp

@[simp] theorem State.memTs_heldPlain (n a : Nat) (v : Word) (s : State) : (s.heldPlain n a v).memTs = s.memTs := by
  unfold State.heldPlain
  split <;> simp

@[simp] theorem State.memTs_ctlWrite (n o : Nat) (v : Word) (s : State) : (s.ctlWrite n o v).memTs = s.memTs := by
  simp [State.ctlWrite]

@[simp] theorem State.memTs_lnkWrite (n o : Nat) (v : Word) (s : State) : (s.lnkWrite n o v).memTs = s.memTs := by
  simp [State.lnkWrite]

@[simp] theorem State.memTs_adcWrite (g o : Nat) (v : Word) (s : State) : (s.adcWrite g o v).memTs = s.memTs := by
  simp [State.adcWrite]

@[simp] theorem State.memTs_cmpWrite (c o : Nat) (v : Word) (s : State) : (s.cmpWrite c o v).memTs = s.memTs := by
  simp [State.cmpWrite]

@[simp] theorem State.memTs_portWrite (m o : Nat) (v : Word) (s : State) : (s.portWrite m o v).memTs = s.memTs := by
  simp [State.portWrite]

@[simp] theorem State.memTs_fcWrite (who n o : Nat) (v : Word) (s : State) : (s.fcWrite who n o v).memTs = s.memTs := by
  simp [State.fcWrite]

@[simp] theorem State.memTs_pwmWrite (o : Nat) (v : Word) (s : State) : (s.pwmWrite o v).memTs = s.memTs := by
  dsimp only [State.pwmWrite]
  (repeat' split) <;> simp

@[simp] theorem State.memTs_sluWrite (o : Nat) (v : Word) (s : State) : (s.sluWrite o v).memTs = s.memTs := by
  simp [State.sluWrite]

@[simp] theorem State.memTs_timeWrite (o : Nat) (v : Word) (s : State) : (s.timeWrite o v).memTs = s.memTs := by
  simp [State.timeWrite]

@[simp] theorem State.memTs_hifWrite (o : Nat) (v : Word) (s : State) : (s.hifWrite o v).memTs = s.memTs := by
  simp [State.hifWrite]

@[simp] theorem State.memTs_holdCopy (a : Nat) (s : State) : (s.holdCopy a).memTs = s.memTs := by simp [State.holdCopy]
/-! ### CpuCore -/

@[simp] theorem State.memTs_setG (p n : Nat) (v : Word) (s : State) : (s.setG p n v).memTs = s.memTs := by simp [State.setG]
@[simp] theorem State.memTs_setF (p n : Nat) (v : Word) (s : State) : (s.setF p n v).memTs = s.memTs := by simp [State.setF]
@[simp] theorem State.memTs_setC (p n : Nat) (v : Cap) (s : State) : (s.setC p n v).memTs = s.memTs := by simp [State.setC]
@[simp] theorem State.memTs_setPcc (p : Nat) (c : Cap) (s : State) : (s.setPcc p c).memTs = s.memTs := by simp [State.setPcc]
@[simp] theorem State.memTs_setCr (p k : Nat) (v : Word) (s : State) : (s.setCr p k v).memTs = s.memTs := by simp [State.setCr]
@[simp] theorem State.memTs_holdE (p cyc : Nat) (s : State) : (s.holdE p cyc).memTs = s.memTs := by simp [State.holdE]

@[simp] theorem State.memTs_retire (p : Nat) (c : Cap) (cyc : Nat) (s : State) : (s.retire p c cyc).memTs = s.memTs := by
  simp [State.retire]

@[simp] theorem State.memTs_entered (p t size : Nat) (v : Cap) (s : State) : (s.entered p t size v).memTs = s.memTs := by
  simp [State.entered]

@[simp] theorem State.memTs_setExc (p c ea ei : Nat) (s : State) : (s.setExc p c ea ei).memTs = s.memTs := by simp [State.setExc]

@[simp] theorem State.memTs_entryRegs (p : Nat) (e : Ev) (s : State) : (s.entryRegs p e).memTs = s.memTs := by
  unfold State.entryRegs
  split <;> simp

/-! ### CpuDecode -/

@[simp] theorem State.memTs_decNote (p k : Nat) (s : State) : (s.decNote p k).memTs = s.memTs := by simp [State.decNote]
@[simp] theorem State.memTs_dropPend (p : Nat) (s : State) : (s.dropPend p).memTs = s.memTs := by simp [State.dropPend]
/-! ### CpuInt -/

@[simp] theorem State.memTs_arithSet (p bit : Nat) (on : Bool) (s : State) : (s.arithSet p bit on).memTs = s.memTs := by
  simp [State.arithSet]

/-! ### CpuFp -/

@[simp] theorem State.memTs_fpFlags (p fl : Nat) (s : State) : (s.fpFlags p fl).memTs = s.memTs := by simp [State.fpFlags]
/-! ### CpuCap -/

@[simp] theorem State.memTs_capExc (s : State) (cause reg : Nat) (cb : Bool) : (s.capExc cause reg cb).2.memTs = s.memTs := by
  simp [State.capExc]

@[simp] theorem State.memTs_noSysreg (s : State) : (s.noSysreg).2.memTs = s.memTs := by simp [State.noSysreg]
/-! ### CpuSys -/

@[simp] theorem State.memTs_crTouch (p k : Nat) (s : State) : (s.crTouch p k).memTs = s.memTs := by simp [State.crTouch]
@[simp] theorem State.memTs_crPut (p k : Nat) (v : Word) (s : State) : (s.crPut p k v).memTs = s.memTs := by simp [State.crPut]

@[simp] theorem State.memTs_restore (p : Nat) (l : List Cap) (x : Bool) (s : State) : (s.restore p l x).memTs = s.memTs := by
  simp [State.restore]

@[simp] theorem State.memTs_returnTo (p : Nat) (df : Bool) (l : List Cap) (s : State) : (s.returnTo p df l).memTs = s.memTs := by
  simp [State.returnTo]

/-! ### CpuMicro -/

theorem State.memTs_opndWrite (p : Nat) (x : Nat × Nat) (v : Word) (s t : State) (h : s.opndWrite p x v = .inr t) :
    t.memTs = s.memTs := by
  unfold State.opndWrite at h
  grind [State.memTs_setG, State.memTs_setF, State.memTs_setC]

@[simp] theorem State.memTs_setMicro (p : Nat) (m : Option Micro) (s : State) : (s.setMicro p m).memTs = s.memTs := by
  simp [State.setMicro]

theorem State.memTs_microSet (p : Nat) (m : Micro) (r : Nat) (v : Word) (s : State) (x : Micro × State)
    (h : s.microSet p m r v = .inr x) : x.2.memTs = s.memTs := by
  unfold State.microSet at h
  grind [State.memTs_opndWrite]

@[simp] theorem State.memTs_vertNote (p a : Nat) (s : State) : (s.vertNote p a).memTs = s.memTs := by simp [State.vertNote]

theorem State.memTs_commitHeld (p : Nat) (m : Micro) (l : List (Nat × Word)) (s t : State)
    (h : s.commitHeld p m l = .inr t) : t.memTs = s.memTs := by
  induction l generalizing s with
  | nil => simp_all [State.commitHeld]
  | cons e l ih =>
    unfold State.commitHeld at h
    split at h
    · rename_i u hu
      exact (ih u h).trans (State.memTs_opndWrite _ _ _ _ _ hu)
    · simp at h

/-! ## Sound data, and the primitive writes that keep it -/

/-- Memories in canonical form, and a TS of 64 bits. -/
structure Sound (d : List Host.Cell × Nat) : Prop where
  mem : Memory.wf d.1 = true
  ts : d.2 < 2 ^ 64

theorem inv_iff_sound (s : State) : Inv s ↔ Sound s.memTs :=
  ⟨fun ⟨hm, ht⟩ => ⟨hm, ht⟩, fun ⟨hm, ht⟩ => ⟨hm, ht⟩⟩

@[simp] theorem sound_ite (c : Prop) [Decidable c] (a b : List Host.Cell × Nat) :
    Sound (if c then a else b) ↔ if c then Sound a else Sound b := by split <;> rfl

/-- The state of a result that a match has taken apart. -/
theorem Sound.of_snd {α : Type} {r : α × State} {a : α} {t : State} (h : Sound r.2.memTs) (e : r = (a, t)) : Sound t.memTs := by
  rwa [e] at h

/-- A change of memory alone. -/
theorem Sound.of_mem {s t : State} (h : Sound s.memTs) (ht : t.ts = s.ts) (hm : Memory.wf s.mem = true → Memory.wf t.mem = true) :
    Sound t.memTs := ⟨hm h.mem, ht.trans_lt h.ts⟩

theorem sound_forN (n : Nat) (f : Nat → State → State) (s : State) (hs : Sound s.memTs)
    (h : ∀ i s, Sound s.memTs → Sound (f i s).memTs) : Sound (forN n f s).memTs :=
  forN_induct (fun s => Sound s.memTs) n f s hs fun i _ s => h i s

theorem sound_foldl {α : Type} (l : List α) (f : State → α → State) (s : State) (hs : Sound s.memTs)
    (h : ∀ s x, Sound s.memTs → Sound (f s x).memTs) : Sound (l.foldl f s).memTs := by
  induction l generalizing s with
  | nil => exact hs
  | cons x l ih => exact ih _ (h s x hs)

theorem sound_repeat (f : State → State) (n : Nat) (s : State) (hs : Sound s.memTs)
    (h : ∀ s, Sound s.memTs → Sound (f s).memTs) : Sound (Nat.repeat f n s).memTs := by
  induction n with
  | zero => exact hs
  | succ n ih => exact h _ ih

@[simp] theorem memTs_fold_atTick (s : State) (t : Nat) : (s.mem, (s.atTick t).ts) = (s.atTick t).memTs := by
  rw [← s.mem_atTick t, memTs_fold]

@[simp] theorem memTs_fold_atTs (s : State) (t : Nat) : (s.mem, (s.atTs t).ts) = (s.atTs t).memTs := by
  rw [← s.mem_atTs t, memTs_fold]

@[simp] theorem Sound.atTick {s : State} {t : Nat} (h : Sound s.memTs) : Sound (s.atTick t).memTs :=
  ⟨(congrArg Memory.wf (s.mem_atTick t)).trans h.mem, s.ts_atTick_lt t h.ts⟩

@[simp] theorem Sound.atTs {s : State} {t : Nat} (h : Sound s.memTs) : Sound (s.atTs t).memTs :=
  ⟨(congrArg Memory.wf (s.mem_atTs t)).trans h.mem, s.ts_atTs_lt t h.ts⟩

@[simp] theorem Sound.wrByte {s : State} {a : Nat} {b : Byte} (h : Sound s.memTs) : Sound (s.wrByte a b).memTs :=
  h.of_mem rfl (s.wf_wrByte a b)

@[simp] theorem Sound.wrBytes {s : State} {a : Nat} {l : List Byte} (h : Sound s.memTs) : Sound (s.wrBytes a l).memTs := by
  induction l generalizing s a with
  | nil => exact h
  | cons b l ih => exact ih h.wrByte

@[simp] theorem Sound.wrLe {s : State} {a n v : Nat} (h : Sound s.memTs) : Sound (s.wrLe a n v).memTs :=
  h.wrBytes

@[simp] theorem Sound.wrRun {s : State} {a : Nat} {l : List Byte} (h : Sound s.memTs) : Sound (s.wrRun a l).memTs :=
  h.of_mem rfl (s.wf_wrRun a l)

@[simp] theorem Sound.zeroRange {k n : Nat} {s : State} (h : Sound s.memTs) : Sound (s.zeroRange k n).memTs :=
  h.of_mem rfl (s.wf_zeroRange k n)

/-! ## Soundness rules: the operations that write memory or let the time run -/

/-! ### Link -/

@[simp] theorem Sound.mbxUp {l : Nat} {s : State} (h : Sound s.memTs) : Sound (s.mbxUp l).memTs := by simp [State.mbxUp, h]

@[simp] theorem Sound.goodBarge {l : Nat} {b : List Byte} {s : State} (h : Sound s.memTs) : Sound (s.goodBarge l b).memTs := by
  simp [State.goodBarge, h]

/-! ### Cycle -/

@[simp] theorem Sound.stepAt {n t : Nat} {s : State} (h : Sound s.memTs) : Sound (s.stepAt n t).memTs := by
  simp [State.stepAt, h]

@[simp] theorem Sound.switchWait {n : Nat} {s : State} (h : Sound s.memTs) : Sound (s.switchWait n).memTs := by
  simp [State.switchWait, h]

@[simp] theorem Sound.accWait {a : Nat} {s : State} (h : Sound s.memTs) : Sound (s.accWait a).memTs := by simp [State.accWait, h]
/-! ### Command -/

theorem Sound.take {op : Nat} {e : Entry} {body : Entry → State → State} {s : State} (h : Sound s.memTs)
    (hb : ∀ e t, Sound t.memTs → Sound (body e t).memTs) : Sound (s.take op e body).memTs := by
  have hp : Sound (body e (s.popEntry e)).memTs := hb e _ (by simpa using h)
  dsimp only [State.take]
  (repeat' split) <;> simp [h, hp]

theorem Sound.withBuf {e : Entry} {body : List Byte → State → State} {s : State} (h : Sound s.memTs)
    (hb : ∀ b t, Sound t.memTs → Sound (body b t).memTs) : Sound (s.withBuf e body).memTs := by
  unfold State.withBuf
  split
  · simp [h]
  · exact hb _ s h

/-! ### Adc -/

@[simp] theorem Sound.pathDone {g : Nat} {s : State} (h : Sound s.memTs) : Sound (s.pathDone g).memTs := by
  dsimp only [State.pathDone]
  (repeat' split) <;> simp [h]

/-! ### Time -/

@[simp] theorem Sound.stepTs {v : Nat} {s : State} (h : Sound s.memTs) : Sound (s.stepTs v).memTs := by
  have ht : Sound (s.mem, v % 18446744073709551616) := ⟨h.mem, Nat.mod_lt _ (by decide)⟩
  dsimp only [State.stepTs]
  exact sound_forN _ _ _ (by simpa using ht) fun n t ht => by simp [ht]

@[simp] theorem Sound.deliverTo {r : EvRec} {q : Nat} {s : State} (h : Sound s.memTs) : Sound (s.deliverTo r q).memTs := by
  simp [State.deliverTo, h]

/-! ### MemCtl -/

@[simp] theorem Sound.capCopy {v : Word} {s : State} (h : Sound s.memTs) : Sound (s.capCopy v).memTs := by
  simp [State.capCopy, h]

/-! ### Pwm -/

@[simp] theorem Sound.towDue {k : Nat} {s : State} (h : Sound s.memTs) : Sound (s.towDue k).memTs := by
  dsimp only [State.towDue]
  (repeat' split) <;> simp [h]

/-! ### Glove -/

@[simp] theorem Sound.putGran {p g mask : Nat} {b : List Byte} {tag : Bool} {s : State} (h : Sound s.memTs) :
    Sound (s.putGran p g mask b tag).memTs := by
  have hw : Sound (forN 8 (fun i s => if nbit mask i then s.wrByte (8 * g + i) (b.getD i 0) else s) s).memTs :=
    sound_forN _ _ _ h fun i t ht => by simp [ht]
  dsimp only [State.putGran]
  split <;> simpa using hw

@[simp] theorem Sound.putStore {p : Nat} {e : SbEnt} {s : State} (h : Sound s.memTs) : Sound (s.putStore p e).memTs := by
  simp [State.putStore, h]

@[simp] theorem Sound.drainOne {p : Nat} {s : State} (h : Sound s.memTs) : Sound (s.drainOne p).memTs := by
  dsimp only [State.drainOne]
  (repeat' split) <;> simp [h]

@[simp] theorem Sound.drainAll {p : Nat} {s : State} (h : Sound s.memTs) : Sound (s.drainAll p).memTs :=
  sound_repeat _ _ _ h fun _ => Sound.drainOne

@[simp] theorem Sound.sbPush {p : Nat} {e : SbEnt} {s : State} (h : Sound s.memTs) : Sound (s.sbPush p e).memTs := by
  simp [State.sbPush, h]

@[simp] theorem Sound.storeDrain {p : Nat} {s : State} (h : Sound s.memTs) : Sound (s.storeDrain p).memTs := by
  dsimp only [State.storeDrain]
  (repeat' split) <;> simp [h]

@[simp] theorem Sound.pairReset {p cause : Nat} {s : State} (h : Sound s.memTs) : Sound (s.pairReset p cause).memTs := by
  simp [State.pairReset, h]

@[simp] theorem Sound.restartDone {p t : Nat} {s : State} (h : Sound s.memTs) : Sound (s.restartDone p t).memTs := by
  have ht : Sound (s.atTick (t + (304 + s.freeWord.toNat % 17))).nextFree.memTs := by simp [h]
  have hu := fun l => sound_foldl l (fun u (x : Undo) => u.putGran p x.g x.mask x.bytes x.tag) _ ht fun _ _ hu => hu.putGran
  unfold State.restartDone
  split
  · simp [h]
  · dsimp only
    split <;> simp [hu]

@[simp] theorem Sound.glvForce {p : Nat} {s : State} (h : Sound s.memTs) : Sound (s.glvForce p).memTs := by
  simp [State.glvForce, h]

@[simp] theorem Sound.recall {m : Nat} {s : State} (h : Sound s.memTs) : Sound (s.recall m).memTs :=
  sound_forN _ _ _ h fun i t ht => by simp [ht]

/-! ### Boot -/

@[simp] theorem State.sound_deviceReset {flr : Bool} {s : State} : Sound (s.deviceReset flr).memTs := by
  have hr : Sound State.reset.memTs := ⟨Memory.wf_reset, by decide⟩
  simpa [State.deviceReset] using hr

/-! ### Dma -/

@[simp] theorem Sound.dmaBack {c st cause : Nat} {desc : Bool} {faddr : Option Nat} {s : State} (h : Sound s.memTs) :
    Sound (s.dmaBack c st cause desc faddr).memTs := by
  dsimp only [State.dmaBack]
  split
  · exact h
  split
  · exact h.wrLe.wrLe.wrLe
  · exact h.wrLe.wrLe

@[simp] theorem Sound.dmaFault {c cause faddr : Nat} {desc : Bool} {s : State} (h : Sound s.memTs) :
    Sound (s.dmaFault c cause faddr desc).memTs := by simp [State.dmaFault, h]

@[simp] theorem Sound.dmaDone {c : Nat} {s : State} (h : Sound s.memTs) : Sound (s.dmaDone c).memTs := by simp [State.dmaDone, h]

@[simp] theorem Sound.dmaElement {c : Nat} {s : State} (h : Sound s.memTs) : Sound (s.dmaElement c).memTs := by
  have hf : Sound (s.dmaFetch c).2.memTs := by simpa using h
  unfold State.dmaElement
  split
  · exact h.dmaFault
  split
  next f t e => exact (hf.of_snd e).dmaFault
  next b t e =>
    have ht : Sound t.memTs := hf.of_snd e
    dsimp only
    (repeat' split) <;> simp [ht]

@[simp] theorem Sound.dmaAbort {c : Nat} {s : State} (h : Sound s.memTs) : Sound (s.dmaAbort c).memTs := by
  dsimp only [State.dmaAbort]
  (repeat' split) <;> simp [h]

/-! ### Firmware -/

theorem Sound.katRefuse {e : Entry} {body : State → State} {s : State} (h : Sound s.memTs)
    (hb : ∀ t, Sound t.memTs → Sound (body t).memTs) : Sound (s.katRefuse e body).memTs := by
  unfold State.katRefuse
  split
  · simp [h]
  · exact hb s h

@[simp] theorem Sound.loadFwChunk {e : Entry} {s : State} (h : Sound s.memTs) : Sound (s.loadFwChunk e).memTs := by
  refine h.katRefuse fun t ht => ?_
  dsimp only
  split
  · simp [ht]
  split
  · simp [ht]
  · exact ht.withBuf fun b u hu => by simp [hu]

@[simp] theorem Sound.startFw {e : Entry} {s : State} (h : Sound s.memTs) : Sound (s.startFw e).memTs := by
  refine h.katRefuse fun t ht => ?_
  dsimp only
  split
  · simp [ht]
  · simp only [State.memTs_replyOk, State.memTs_checkpoint, State.memTs_mapCore, State.memTs_mapImg, State.memTs_setOwner,
      State.memTs_mapKeep]
    refine sound_foldl _ _ _ ht fun u x hu => ?_
    (repeat' split) <;> simp [hu]

@[simp] theorem Sound.placePair {p : Nat} {im : List Byte} {ss : List Sec} {s : State} (h : Sound s.memTs) :
    Sound (s.placePair p im ss).memTs := by
  refine sound_foldl _ _ _ h fun t x ht => ?_
  have hg : Sound ((grants (x.data im)).foldl (fun s g =>
      let k := dtcm p (0x3FF00 + 8 * g.slot)
      (s.wrLe k 8 g.cap.w.toNat).setTag (k / 8) g.cap.tag) t).memTs :=
    sound_foldl _ _ _ ht fun u g hu => by simp [hu]
  (repeat' split) <;> simp [ht, hg]

@[simp] theorem Sound.fillAll {s : State} (h : Sound s.memTs) : Sound s.fillAll.memTs := by
  have hp := sound_forN 20 (fun p s => s.zeroRange (itcm p 0) 0x80400) s h fun p t ht => ht.zeroRange
  have hn := sound_forN 16 (fun n s => s.zeroRange (scratch n 0) 0x200000) _ hp fun n t ht => ht.zeroRange
  exact hn.zeroRange.zeroRange

/-! ### Tick -/

@[simp] theorem Sound.ucWord {m w : Nat} {s : State} (h : Sound s.memTs) : Sound (s.ucWord m w).memTs := by
  simp [State.ucWord, h]

@[simp] theorem Sound.listenLane {l : Nat} {k : Word} {s : State} (h : Sound s.memTs) : Sound (s.listenLane l k).memTs := by
  dsimp only [State.listenLane]
  (repeat' split) <;> simp [h]

/-! ### Keeper -/

@[simp] theorem Sound.setTime {e : Entry} {s : State} (h : Sound s.memTs) : Sound (s.setTime e).memTs := by
  simp [State.setTime, h]

@[simp] theorem Sound.resetDevice {e : Entry} {s : State} (h : Sound s.memTs) : Sound (s.resetDevice e).memTs := by
  simp [State.resetDevice, h]

@[simp] theorem Sound.ringReply {p k : Nat} {b : List Byte} {s : State} (h : Sound s.memTs) : Sound (s.ringReply p k b).memTs :=
  (h.wrBytes.wrByte : Sound (State.memTs _))

/-! ### Sample -/

@[simp] theorem Sound.runBody {e : Entry} {s : State} (h : Sound s.memTs) : Sound (s.runBody e).memTs := by
  dsimp only [State.runBody]
  (repeat' split) <;> simp [h]

@[simp] theorem Sound.runTurn {w : Wait} {s : State} (h : Sound s.memTs) : Sound (s.runTurn w).memTs := by
  simp [State.runTurn, h]

@[simp] theorem Sound.pump1 {s : State} (h : Sound s.memTs) : Sound s.pump1.memTs := by
  dsimp only [State.pump1]
  (repeat' split) <;> simp [h]

@[simp] theorem Sound.pump {s : State} (h : Sound s.memTs) : Sound s.pump.memTs :=
  sound_repeat _ _ _ h fun _ => Sound.pump1

@[simp] theorem Sound.keeperBack {s : State} (h : Sound s.memTs) : Sound s.keeperBack.memTs := by
  unfold State.keeperBack
  split
  · exact h
  · exact sound_foldl _ _ _ h fun t w ht => Sound.take (by simpa using ht) fun e u => Sound.runBody

@[simp] theorem Sound.reloadPair {p : Nat} {im : List Byte}
    {s : State} (h : Sound s.memTs) : Sound (s.reloadPair p im).memTs := by
  have hp := h.recall (m := 2 ^ p) |>.zeroRange (k := itcm p 0) (n := 0x80400)
    |>.placePair (p := p) (im := im) (ss := sections im)
  dsimp only [State.reloadPair]
  split
  · exact h
  · split <;> simp [hp]

@[simp] theorem Sound.scrubReact {x : ScrubSt} {key : Nat}
    {s : State} (h : Sound s.memTs) : Sound (s.scrubReact x key).memTs := by
  dsimp only [State.scrubReact]
  (repeat' split) <;> simp [h]

/-! ### Device -/

@[simp] theorem Sound.dmaWrite {o : Nat} {v : Word} {s : State} (h : Sound s.memTs) : Sound (s.dmaWrite o v).memTs := by
  simp [State.dmaWrite, h]

@[simp] theorem Sound.memWrite {o : Nat} {v : Word} {s : State} (h : Sound s.memTs) : Sound (s.memWrite o v).memTs := by
  simp [State.memWrite, h]

@[simp] theorem Sound.glvWrite {o : Nat} {v : Word} {s : State} (h : Sound s.memTs) : Sound (s.glvWrite o v).memTs := by
  simp [State.glvWrite, h]

@[simp] theorem Sound.ownTick {s : State} (h : Sound s.memTs) : Sound s.ownTick.memTs := by simp [State.ownTick, h]

@[simp] theorem Sound.w1cTick {a : Nat} {v : Word} {s : State} (h : Sound s.memTs) : Sound (s.w1cTick a v).memTs := by
  dsimp only [State.w1cTick]
  (repeat' split) <;> simp [h]

@[simp] theorem Sound.devWrite {who a : Nat} {v : Word} {s : State} (h : Sound s.memTs) : Sound (s.devWrite who a v).memTs := by
  simp [State.devWrite, h]

@[simp] theorem Sound.devRead {a : Nat} {s : State} (h : Sound s.memTs) : Sound (s.devRead a).2.memTs := by
  dsimp only [State.devRead]
  (repeat' split) <;> simp [h]

@[simp] theorem Sound.bar2Word {o : Nat} {s : State} (h : Sound s.memTs) : Sound (s.bar2Word o).2.memTs := by
  simp [State.bar2Word, h]

@[simp] theorem Sound.bar2Words {o n : Nat} {s : State} (h : Sound s.memTs) : Sound (s.bar2Words o n).2.memTs := by
  induction n generalizing s o with
  | zero => exact h
  | succ n ih =>
    have hb : Sound (s.bar2Word o).2.memTs := h.bar2Word
    generalize hr : s.bar2Word o = r at hb
    rw [State.bar2Words, hr]
    exact ih hb

@[simp] theorem Sound.streamWord {a : Nat} {s : State} (h : Sound s.memTs) : Sound (s.streamWord a).2.memTs := by
  unfold State.streamWord
  split
  · split
    next v b t e => exact h.bar2Word.of_snd e
  · split <;> simp [h]

@[simp] theorem Sound.streamWords {l : List Nat} {s : State} (h : Sound s.memTs) : Sound (s.streamWords l).2.memTs := by
  induction l generalizing s with
  | nil => exact h
  | cons a l ih =>
    have ha : Sound (s.streamWord a).2.memTs := h.streamWord
    generalize hr : s.streamWord a = r at ha
    rw [State.streamWords, hr]
    exact ih ha

/-! ### CpuCore -/

@[simp] theorem Sound.pushGrans {p a : Nat} {l : List (DWord × Bool)} {s : State} (h : Sound s.memTs) :
    Sound (s.pushGrans p a l).memTs := by
  induction l generalizing s a with
  | nil => exact h
  | cons x l ih =>
    refine ih ?_
    split <;> simp [h]

@[simp] theorem Sound.drainHits {p k n : Nat} {s : State} (h : Sound s.memTs) : Sound (s.drainHits p k n).memTs :=
  sound_repeat _ _ _ h fun t ht => by simp [ht]

@[simp] theorem Sound.ldMem {p k n : Nat} {s : State} (h : Sound s.memTs) : Sound (s.ldMem p k n).2.memTs := by
  dsimp only [State.ldMem]
  (repeat' split) <;> simp [h]

@[simp] theorem Sound.ldCap {p k : Nat} {s : State} (h : Sound s.memTs) : Sound (s.ldCap p k).2.memTs := by simp [State.ldCap, h]

@[simp] theorem Sound.vector {p idx : Nat} {s : State} (h : Sound s.memTs) : Sound (s.vector p idx).2.memTs := by
  cases hk : memKey p (((s.img p).cvt.addr + 8 * idx) % 4294967296) <;> simp [State.vector, hk, h]

@[simp] theorem Sound.scribble {p a n : Nat} {s : State} (h : Sound s.memTs) : Sound (s.scribble p a n).memTs := by
  induction n generalizing s a with
  | zero => exact h
  | succ n ih => exact ih (Sound.pushGrans (by simpa using h))

@[simp] theorem Sound.doubleFault {p : Nat} {e : Ev} {vf : Bool} {fc fa : Nat} {s : State} (h : Sound s.memTs) :
    Sound (s.doubleFault p e vf fc fa).memTs := by
  dsimp only [State.doubleFault]
  split
  · simp [h]
  · split
    next k a t e => exact (Sound.of_snd (Sound.vector (by simp [h])) e).pairReset
    next v t e => simpa using Sound.of_snd (Sound.vector (by simp [h])) e

@[simp] theorem Sound.enter {p : Nat} {e : Ev} {s : State} (h : Sound s.memTs) : Sound (s.enter p e).memTs := by
  dsimp only [State.enter]
  split
  · simp [h]
  split
  · simp [h]
  split
  next k a t e =>
    have ht : Sound t.memTs := Sound.of_snd (Sound.vector (by simp [h])) e
    exact ht.scribble.doubleFault
  next v t e =>
    have ht : Sound t.memTs := Sound.of_snd (Sound.vector (by simp [h])) e
    simp [ht]

@[simp] theorem Sound.exc {p cause ea ei : Nat} {s : State} (h : Sound s.memTs) : Sound (s.exc p cause ea ei).memTs := by
  simp [State.exc, h]

@[simp] theorem Sound.wdExc {p : Nat} {s : State} (h : Sound s.memTs) : Sound (s.wdExc p).memTs := by simp [State.wdExc, h]
/-! ### CpuDecode -/

@[simp] theorem Sound.fetch {p : Nat} {s : State} (h : Sound s.memTs) : Sound (s.fetch p).2.memTs := by
  dsimp only [State.fetch]
  (repeat' split) <;> simp [h]

@[simp] theorem Sound.toBoundary {p : Nat} {s : State} (h : Sound s.memTs) : Sound (s.toBoundary p).memTs := by
  simp [State.toBoundary, h]

@[simp] theorem Sound.finishInsn {p : Nat} {e : Ends} {s : State} (h : Sound s.memTs) : Sound (s.finishInsn p e).memTs := by
  cases e <;> simp [State.finishInsn, h]

@[simp] theorem Sound.takeLine {p l : Nat} {s : State} (h : Sound s.memTs) : Sound (s.takeLine p l).memTs := by
  simp [State.takeLine, h]

theorem Sound.boundaryExc {p : Nat} {s t : State} (h : Sound s.memTs) (e : s.boundaryExc p = some t) : Sound t.memTs := by
  unfold State.boundaryExc at e
  split at e
  · simp at e
  split at e
  · cases e
    exact h.toBoundary.wdExc
  split at e
  next c ea ei u hu =>
    cases e
    exact (h.toBoundary.fetch.of_snd hu).exc
  next w u hu =>
    have hs : Sound u.memTs := h.toBoundary.fetch.of_snd hu
    split at e
    · cases e
      split <;> simp [hs]
    · simp at e

@[simp] theorem Sound.insn {p : Nat} {o : Op} {body : Word → State → Ends × State} {s : State} (h : Sound s.memTs)
    (hb : ∀ w t, Sound t.memTs → Sound (body w t).2.memTs) : Sound (s.insn p o body).memTs := by
  have hf : Sound ((s.toBoundary p).fetch p).2.memTs := h.toBoundary.fetch
  unfold State.insn
  split
  · exact h
  split
  · exact h.toBoundary.wdExc
  split
  · exact h
  next w s1 e =>
    rw [e] at hf
    split
    · split
      · exact h.takeLine
      · exact Sound.finishInsn (hb _ _ (by split <;> simpa using hf))
    · exact h

/-! ### CpuInt -/

@[simp] theorem Sound.aluR {p : Nat} {o : Op} {f : Word → Word → Word} {s : State} (h : Sound s.memTs) :
    Sound (s.aluR p o f).memTs := by
  simp [State.aluR, h]

@[simp] theorem Sound.aluI {p : Nat} {o : Op} {f : Word → Word → Word} {s : State} (h : Sound s.memTs) :
    Sound (s.aluI p o f).memTs := by
  simp [State.aluI, h]

@[simp] theorem Sound.aluS {p : Nat} {o : Op} {f : Word → Word → Word} {s : State} (h : Sound s.memTs) :
    Sound (s.aluS p o f).memTs := by
  simp [State.aluS, h]

@[simp] theorem Sound.mulR {p : Nat} {o : Op} {signed : Bool} {f : Word → Word → Int} {s : State} (h : Sound s.memTs) :
    Sound (s.mulR p o signed f).memTs := by
  simp [State.mulR, h]

@[simp] theorem Sound.divR {p : Nat} {o : Op} {signed : Bool} {q : Word → Word → Word} {r0 : Word → Word}
    {s : State} (h : Sound s.memTs) :
    Sound (s.divR p o signed q r0).memTs := by
  simp [State.divR, h]

@[simp] theorem Sound.fixR {p : Nat} {o : Op} {n : Nat} {cyc : State → Word → Nat} {f : Word → Word → Int}
    {s : State} (h : Sound s.memTs) :
    Sound (s.fixR p o n cyc f).memTs := by
  simp [State.fixR, h]

/-! ### CpuMem -/

@[simp] theorem Sound.devLoad {a : Nat} {s : State} (h : Sound s.memTs) : Sound (s.devLoad a).2.memTs := by
  dsimp only [State.devLoad]
  (repeat' split) <;> simp [h]

@[simp] theorem Sound.devStore {who a : Nat} {v : Word} {s : State} (h : Sound s.memTs) : Sound (s.devStore who a v).memTs := by
  dsimp only [State.devStore]
  (repeat' split) <;> simp [h]

@[simp] theorem Sound.ldPart {p a n : Nat} {s : State} (h : Sound s.memTs) : Sound (s.ldPart p a n).2.memTs := by
  unfold State.ldPart
  split
  · dsimp only
    split <;> simp [h]
  · split
    next f t e => exact h.drainAll.devLoad.of_snd e
    next v t e => exact h.drainAll.devLoad.of_snd e
  · have hr : Sound (s.hostRead n).2.memTs := by simpa using h
    split
    next b t e => exact hr.of_snd e
    next t e => exact hr.of_snd e
  · exact h

@[simp] theorem Sound.ldParts {p : Nat} {l : List (Nat × Nat)} {s : State} (h : Sound s.memTs) :
    Sound (s.ldParts p l).2.memTs := by
  induction l generalizing s with
  | nil => exact h
  | cons x l ih =>
    unfold State.ldParts
    split
    next f t e => exact h.ldPart.of_snd e
    next b t e =>
      have ht : Sound t.memTs := h.ldPart.of_snd e
      split
      next f u e => exact (ih ht).of_snd e
      next r u e => exact (ih ht).of_snd e

@[simp] theorem Sound.load {p : Nat} {c : Cap} {x : Acc} {reg : Nat} {cb : Bool} {a n : Nat} {s : State} (h : Sound s.memTs) :
    Sound (s.load p c x reg cb a n).2.memTs := by
  unfold State.load
  split
  · exact h
  · exact h.ldParts

@[simp] theorem Sound.stPart {p a : Nat} {b : List Byte} {half : Bool} {s : State} (h : Sound s.memTs) :
    Sound (s.stPart p a b half).memTs := by
  dsimp only [State.stPart]
  (repeat' split) <;> simp [h]

@[simp] theorem Sound.stParts {p : Nat} {l : List (Nat × Nat)} {b : List Byte} {s : State} (h : Sound s.memTs) :
    Sound (s.stParts p l b).memTs := by
  induction l generalizing s b with
  | nil => exact h
  | cons x l ih => exact ih h.stPart

@[simp] theorem Sound.loadR {p : Nat} {o : Op} {n : Nat} {put : Nat → Nat → State → State} {s : State} (h : Sound s.memTs)
    (hp : ∀ d v t, (put d v t).memTs = t.memTs) : Sound (s.loadR p o n put).memTs := by
  refine h.insn fun w t ht => ?_
  dsimp only
  split
  next c e i u eq => exact ht.load.of_snd eq
  next b u eq => simpa [hp] using ht.load.of_snd eq

@[simp] theorem Sound.storeR {p : Nat} {o : Op} {n : Nat} {val : State → Nat → Word} {s : State} (h : Sound s.memTs) :
    Sound (s.storeR p o n val).memTs := by
  refine h.insn fun w t ht => ?_
  dsimp only
  (repeat' split) <;> simp [ht]

@[simp] theorem Sound.storeNow {p k : Nat} {b : List Byte}
    {s : State} (h : Sound s.memTs) : Sound (s.storeNow p k b).2.memTs := by
  simp [State.storeNow, h]

/-! ### CpuFp -/

@[simp] theorem Sound.fpR {p : Nat} {o : Op} {cyc : Nat} {put : Nat → Word → State → State} {f : State → Word → Word × Nat}
    {s : State} (h : Sound s.memTs)
    (hp : ∀ d v t, (put d v t).memTs = t.memTs) : Sound (s.fpR p o cyc put f).memTs := by
  refine h.insn fun w t ht => ?_
  simp [hp, ht]

/-! ### CpuCap -/

@[simp] theorem Sound.derive {p : Nat} {o : Op} {cyc : Nat} {f : State → Word → Cap → Nat ⊕ Cap} {s : State} (h : Sound s.memTs) :
    Sound (s.derive p o cyc f).memTs := by
  refine h.insn fun w t ht => ?_
  dsimp only
  (repeat' split) <;> simp [ht]

/-! ### CpuSys -/

@[simp] theorem Sound.crOp {p : Nat} {o : Op} {f : Option (Word → Word → Word)} {s : State} (h : Sound s.memTs) :
    Sound (s.crOp p o f).memTs := by
  refine h.insn fun w t ht => ?_
  dsimp only
  (repeat' split) <;> simp [ht]

@[simp] theorem Sound.ldFrame {p a n : Nat} {s : State} (h : Sound s.memTs) : Sound (s.ldFrame p a n).2.memTs := by
  induction n generalizing s a with
  | zero => exact h
  | succ n ih =>
    unfold State.ldFrame
    split
    · exact h
    · split
      next u c t e => exact h.ldCap.of_snd e
      next v t e =>
        have ht : Sound t.memTs := h.ldCap.of_snd e
        split
        next f u e => exact (ih ht).of_snd e
        next l u e => exact (ih ht).of_snd e

@[simp] theorem Sound.tailChain {p l : Nat} {st : Word} {s : State} (h : Sound s.memTs) : Sound (s.tailChain p l st).memTs := by
  unfold State.tailChain
  dsimp only
  split
  next k a t e => exact (Sound.of_snd (Sound.vector (by simpa using h)) e).doubleFault
  next v t e =>
    have ht : Sound t.memTs := Sound.of_snd (Sound.vector (by simpa using h)) e
    simp [ht]

@[simp] theorem Sound.returnFrame {p : Nat} {c : Cap} {a : Nat} {s : State} (h : Sound s.memTs) :
    Sound (s.returnFrame p c a).2.memTs := by
  unfold State.returnFrame
  split
  · exact h
  split
  next f t e => exact h.ldFrame.of_snd e
  next l t e =>
    have ht : Sound t.memTs := h.ldFrame.of_snd e
    split
    · split
      · exact ht
      · split
        next f u e => exact ht.ldFrame.of_snd e
        next m u e => exact ht.ldFrame.of_snd e
    · exact ht

theorem Sound.microInt {p : Nat} {s t : State} (h : Sound s.memTs) (e : s.microInt p = some t) : Sound t.memTs := by
  unfold State.microInt at e
  split at e
  · split at e
    · cases e
      simp [h]
    · simp at e
  · simp at e

/-! ### CpuLong -/

@[simp] theorem Sound.crcb {p : Nat} {o : Op} {f : Word → Byte → Word} {s : State} (h : Sound s.memTs) :
    Sound (s.crcb p o f).memTs := by
  refine h.insn fun w t ht => ?_
  dsimp only
  split
  · exact ht
  split
  next c e i u eq => exact ht.load.of_snd eq
  next b u eq => simpa using ht.load.of_snd eq

/-! ### CpuMicro -/

@[simp] theorem Sound.microTrap {p : Nat} {m : Micro} {cause ea ei : Nat} {s : State} (h : Sound s.memTs) :
    Sound (s.microTrap p m cause ea ei).memTs := by simp [State.microTrap, h]

@[simp] theorem Sound.sealedTrap {p : Nat} {m : Micro} {reg : Nat} {s : State} (h : Sound s.memTs) :
    Sound (s.sealedTrap p m reg).memTs := by simp [State.sealedTrap, h]

theorem Sound.microStep {p op : Nat} {body : Micro → Nat → State → Sum Nat (Micro × Nat × State)} {s : State}
    (h : Sound s.memTs)
    (hb : ∀ m w t r, Sound t.memTs → body m w t = .inr r → Sound r.2.2.memTs) : Sound (s.microStep p op body).memTs := by
  unfold State.microStep
  split
  · exact h
  next t e => exact h.microInt e
  next m w _ _ =>
    dsimp only
    split
    · simp [h]
    · rename_i m' u t hr
      have hv : Sound ((s.toBoundary p).vertNote p m.upc).memTs := by simp [h]
      simpa using hb m w _ (m', u, t) hv hr

@[simp] theorem Sound.microAluStep {p : Nat} {imm : Bool}
    {s : State} (h : Sound s.memTs) : Sound (s.microAluStep p imm).memTs := by
  refine h.microStep fun m w t r ht e => ?_
  dsimp only at e
  split at e
  · simp at e
  · rename_i x hx
    cases e
    simpa [State.memTs_microSet _ _ _ _ _ _ hx] using ht

@[simp] theorem Sound.microBrStep {p : Nat} {s : State} (h : Sound s.memTs) : Sound (s.microBrStep p).memTs := by
  refine h.microStep fun m w t r ht e => ?_
  dsimp only at e
  split at e
  · split at e
    · simp at e
    · rename_i x hx
      cases e
      simpa [State.memTs_microSet _ _ _ _ _ _ hx] using ht
  · cases e
    exact ht

@[simp] theorem Sound.microEnd {p : Nat} {s : State} (h : Sound s.memTs) : Sound (s.microEnd p).memTs := by
  unfold State.microEnd
  split
  · exact h
  next t e => exact h.microInt e
  next m w _ _ =>
    dsimp only
    split
    · simp [h]
    · rename_i t ht
      simp [State.memTs_commitHeld _ _ _ _ _ ht, h]

/-! ### Step -/

@[simp] theorem Sound.idle {s : State} (h : Sound s.memTs) : Sound s.idle.memTs := by simp [State.idle, h]

/-! ## The commands -/

/-- A command answers a next state, and the memories and TS stay sound. -/
def Steps (s : State) (r : Res) : Prop := ∃ t, r = .next t ∧ (Sound s.memTs → Sound t.memTs)

theorem Steps.next {s t : State} (h : Sound s.memTs → Sound t.memTs) : Steps s (.next t) := ⟨t, rfl, h⟩
theorem Steps.keep {s t : State} (h : t.memTs = s.memTs) : Steps s (.next t) := .next fun hs => h ▸ hs

@[simp] theorem steps_next {s t : State} : Steps s (.next t) ↔ (Sound s.memTs → Sound t.memTs) :=
  ⟨fun ⟨_, e, h⟩ => by cases e; exact h, Steps.next⟩

@[simp] theorem steps_ite {s : State} {c : Prop} [Decidable c] {a b : Res} :
    Steps s (if c then a else b) ↔ if c then Steps s a else Steps s b := by split <;> rfl

theorem enc_lt (w : Nat) (i : Int) : enc w i < 2 ^ w := by
  have h := Int.emod_lt_of_pos i (show (0 : Int) < 2 ^ w by positivity)
  have := Int.toNat_lt_toNat (by positivity : (0 : Int) < 2 ^ w) |>.2 h
  exact this

theorem Sound.ringServe {svc p k : Nat} {body : State → State} {s : State} (h : Sound s.memTs)
    (hb : Sound (body s).memTs) : Sound (s.ringServe svc p k body).memTs := by
  unfold State.ringServe
  split
  · exact hb
  · exact h

/-- The state of an entry that may not take place. -/
theorem Sound.getD_boundaryExc {p : Nat} {s t : State} (h : Sound s.memTs) (ht : Sound t.memTs) :
    Sound ((s.boundaryExc p).getD t).memTs := by
  cases e : s.boundaryExc p with
  | none => exact ht
  | some u => exact h.boundaryExc e

theorem Sound.engStep {n e op : Nat} {body : Nat → State → State × Nat} {s : State} (h : Sound s.memTs)
    (hb : ∀ w t, Sound t.memTs → Sound (body w t).1.memTs) : Sound (s.engStep n e op body).memTs := by
  have hn : ∀ w x, Sound (body w (s.csNoteFc n 0 x)).1.memTs := fun w x => hb w _ (by simpa using h)
  dsimp only [State.engStep]
  (repeat' split) <;> simp [h, hn]

/-- A command of the protocol whose work leaves memory and TS alone. -/
theorem steps_take {op : Nat} {e : Entry} {body : Entry → State → State} {s : State}
    (hb : ∀ e t, (body e t).memTs = t.memTs) : Steps s (.next (s.take op e body)) :=
  .next fun h => h.take fun e t ht => (hb e t).symm ▸ ht

/-! ### Sluice -/

theorem steps_execWindowSettle (c : Fin 128) (s : State) : Steps s (execWindowSettle c s) := by
  dsimp only [execWindowSettle]
  (repeat' split) <;> simp +contextual

theorem steps_execCmpCross (c : Fin 128) (x : Half) (s : State) : Steps s (execCmpCross c x s) := by
  dsimp only [execCmpCross]
  (repeat' split) <;> simp +contextual

theorem steps_execBlankEnd (c : Fin 128) (s : State) : Steps s (execBlankEnd c s) := by
  simp +contextual [execBlankEnd]

theorem steps_execFilterSample (c : Fin 144) (s : State) : Steps s (execFilterSample c s) := by
  simp +contextual [execFilterSample]

/-! ### Link -/

theorem steps_execCheck (lk : Fin 1024) (s : State) : Steps s (execCheck lk s) := by
  simp +contextual [execCheck]

theorem steps_execTrainLimit (lk : Fin 1024) (s : State) : Steps s (execTrainLimit lk s) := by
  dsimp only [execTrainLimit]
  (repeat' split) <;> simp +contextual

theorem steps_execProbeSend (lk : Fin 1024) (s : State) : Steps s (execProbeSend lk s) := by
  simp +contextual [execProbeSend]

theorem steps_execProbeReply (lk : Fin 1024) (rtt : Nat) (s : State) : Steps s (execProbeReply lk rtt s) := by
  simp +contextual [execProbeReply]

theorem steps_execAlignSend (fc : Fin 16) (s : State) : Steps s (execAlignSend fc s) := by
  simp +contextual [execAlignSend]

theorem steps_execMailboxRead (fc : Fin 16) (s : State) : Steps s (execMailboxRead fc s) := by
  simp +contextual [execMailboxRead]

theorem steps_execUpBarge (lk : Fin 1024) (sof : BitVec 10) (groups : List (BitVec 10)) (s : State) :
    Steps s (execUpBarge lk sof groups s) := by
  simp +contextual [execUpBarge]

theorem steps_execBypassTimeout (lk : Fin 1024) (s : State) : Steps s (execBypassTimeout lk s) := by
  simp +contextual [execBypassTimeout]

/-! ### Command -/

theorem steps_execBadOpcode (e : Entry) (s : State) : Steps s (execBadOpcode e s) := by
  refine .next fun h => ?_
  split
  · exact h.take fun _ _ ht => ht
  · exact h

/-! ### Adc -/

theorem steps_execConversionComplete (fc : Fin 16) (raw : List Int) (s : State) : Steps s (execConversionComplete fc raw s) := by
  simp +contextual [execConversionComplete]

theorem steps_execRefSettled (g : Fin 20) (s : State) : Steps s (execRefSettled g s) := by
  simp +contextual [execRefSettled]

theorem steps_execRefTimeout (g : Fin 20) (s : State) : Steps s (execRefTimeout g s) := by
  simp +contextual [execRefTimeout]

theorem steps_execRefFall (g : Fin 20) (s : State) : Steps s (execRefFall g s) := by
  simp +contextual [execRefFall]

theorem steps_execSeqTrigger (g : Fin 20) (k : Fin 16) (s : State) : Steps s (execSeqTrigger g k s) := by
  simp +contextual [execSeqTrigger]

theorem steps_execSeqStart (g : Fin 20) (k : Fin 16) (raw : Int) (s : State) : Steps s (execSeqStart g k raw s) := by
  dsimp only [execSeqStart]
  (repeat' split) <;> simp +contextual

theorem steps_execSeqResult (g : Fin 20) (k : Fin 16) (s : State) : Steps s (execSeqResult g k s) := by
  dsimp only [execSeqResult]
  (repeat' split) <;> simp +contextual

theorem steps_execSliceCheckDone (g : Fin 20) (raw : List Int) (s : State) : Steps s (execSliceCheckDone g raw s) := by
  dsimp only [execSliceCheckDone]
  (repeat' split) <;> simp +contextual

theorem steps_execHandoverCompare (g : Fin 20) (raw : Int) (s : State) : Steps s (execHandoverCompare g raw s) := by
  dsimp only [execHandoverCompare]
  (repeat' split) <;> simp +contextual

theorem steps_execHandoverConversion (g : Fin 20) (raw : Int) (s : State) : Steps s (execHandoverConversion g raw s) := by
  simp +contextual [execHandoverConversion]

theorem steps_execForceHandoverDone (g : Fin 20) (s : State) : Steps s (execForceHandoverDone g s) := by
  dsimp only [execForceHandoverDone]
  (repeat' split) <;> simp +contextual

theorem steps_execPathTestLevel (grp : Fin 20) (codes : List Int) (s : State) : Steps s (execPathTestLevel grp codes s) := by
  unfold execPathTestLevel
  dsimp only
  split
  · exact .next id
  split
  · exact .next id
  · refine .next fun h => ?_
    split <;> simp [h, foldl_frame (fun r : Int × State => r.2.memTs)]

/-! ### Ledger -/

theorem steps_execLedgerCheck (fc : Fin 16) (s : State) : Steps s (execLedgerCheck fc s) := by
  simp +contextual [execLedgerCheck]

/-! ### Balancer -/

theorem steps_execBalancerDeadline (fc : Fin 16) (s : State) : Steps s (execBalancerDeadline fc s) := by
  simp +contextual [execBalancerDeadline]

theorem steps_execEdgeSchedule (fc : Fin 16) (s : State) : Steps s (execEdgeSchedule fc s) := by
  simp +contextual [execEdgeSchedule]

theorem steps_execCmdSent (fc : Fin 16) (s : State) : Steps s (execCmdSent fc s) := by
  simp +contextual [execCmdSent]

theorem steps_execUcDeadline (fc : Fin 16) (s : State) : Steps s (execUcDeadline fc s) := by
  simp +contextual [execUcDeadline]

/-! ### Observer -/

theorem steps_execObsMicroword (fc : Fin 16) (s : State) : Steps s (execObsMicroword fc s) := by
  dsimp only [execObsMicroword]
  (repeat' split) <;> simp +contextual

theorem steps_execObserverComplete (fc : Fin 16) (s : State) : Steps s (execObserverComplete fc s) := by
  simp +contextual [execObserverComplete]

/-! ### Time -/

theorem steps_execSlewStep (s : State) : Steps s (execSlewStep s) := by
  dsimp only [execSlewStep]
  split
  · exact .next id
  split
  · exact .next fun h => by simp [h]
  · refine .next fun h => ?_
    have ht : ∀ i, Sound (s.mem, enc 64 i) := fun i => ⟨h.mem, enc_lt 64 i⟩
    simp [ht]

theorem steps_execSyncEdge (pps : Bool) (s : State) : Steps s (execSyncEdge pps s) := by
  simp +contextual [execSyncEdge]

theorem steps_execSyncMiss (s : State) : Steps s (execSyncMiss s) := by
  unfold execSyncMiss
  split
  · exact .next id
  · exact .next fun h => by simp [h]

theorem steps_execSyncPulse (s : State) : Steps s (execSyncPulse s) := by
  unfold execSyncPulse
  split
  · exact .next fun h => by simp [h]
  · exact .next id

theorem steps_execEvtIoEdge (k : Fin 32) (level : Bool) (s : State) : Steps s (execEvtIoEdge k level s) := by
  simp +contextual [execEvtIoEdge]

theorem steps_execRecordDeliver (s : State) : Steps s (execRecordDeliver s) := by
  unfold execRecordDeliver
  split
  · exact .next id
  · exact .next fun h => sound_forN _ _ _ h fun q t ht => by simp [ht]

theorem steps_execTsAlarm (p : Fin 21) (s : State) : Steps s (execTsAlarm p s) := by
  dsimp only [execTsAlarm]
  split
  · exact .next fun h => by simp [h]
  · exact .next id

/-! ### MemCtl -/

theorem steps_execScrubGranule (s : State) : Steps s (execScrubGranule s) := by
  unfold execScrubGranule
  split
  · exact .next id
  split
  · exact .next id
  split
  · exact .next id
  · exact .next fun h => by simp [h, foldl_frame (fun r : ScrubSt × State => r.2.memTs)]

theorem steps_execScrubSlice (s : State) : Steps s (execScrubSlice s) := by
  simp +contextual [execScrubSlice]

theorem steps_execImageFillDone (s : State) : Steps s (execImageFillDone s) := by
  unfold execImageFillDone
  split
  · exact .next id
  · exact .next fun h => (h.atTick.zeroRange : Sound (State.memTs _))

/-! ### Pwm -/

theorem steps_execPeriodStart (k : Fin 32) (s : State) : Steps s (execPeriodStart k s) := by
  dsimp only [execPeriodStart]
  (repeat' split) <;> simp +contextual

theorem steps_execCompareMatch (k : Fin 32) (s : State) : Steps s (execCompareMatch k s) := by
  simp +contextual [execCompareMatch]

theorem steps_execDeadTimeEnd (k : Fin 32) (s : State) : Steps s (execDeadTimeEnd k s) := by
  simp +contextual [execDeadTimeEnd]

theorem steps_execTowPulse (k : Fin 32) (s : State) : Steps s (execTowPulse k s) := by
  dsimp only [execTowPulse]
  split
  · refine .next fun h => ?_
    split
    · simp [h]
    split
    · simp [h]
    · simp [h]
  · exact .next id

theorem steps_execTowRestart (k : Fin 32) (s : State) : Steps s (execTowRestart k s) := by
  dsimp only [execTowRestart]
  (repeat' split) <;> simp +contextual

/-! ### HostIf -/

theorem steps_execHbLapse (p : Fin 2) (s : State) : Steps s (execHbLapse p s) := by
  dsimp only [execHbLapse]
  (repeat' split) <;> simp +contextual

theorem steps_execHostLossStop (s : State) : Steps s (execHostLossStop s) := by
  dsimp only [execHostLossStop]
  (repeat' split) <;> simp +contextual

theorem steps_execEntryFetch (p : Fin 2) (bytes : Option (List Byte)) (s : State) : Steps s (execEntryFetch p bytes s) := by
  dsimp only [execEntryFetch]
  (repeat' split) <;> simp +contextual

theorem steps_execLinkUp (p : Fin 2) (rate : Fin 8) (width : Fin 8) (bme : Bool) (s : State) :
    Steps s (execLinkUp p rate width bme s) := by
  simp +contextual [execLinkUp]

/-! ### Glove -/

theorem steps_execPairResetDone (p : Fin 21) (s : State) : Steps s (execPairResetDone p s) := by
  dsimp only [execPairResetDone]
  (repeat' split) <;> simp +contextual

theorem steps_execCuffFault (p : Fin 21) (s : State) : Steps s (execCuffFault p s) := by
  simp +contextual [execCuffFault]

theorem steps_execWatchdogStage2 (p : Fin 21) (s : State) : Steps s (execWatchdogStage2 p s) := by
  simp +contextual [execWatchdogStage2]

/-! ### Boot -/

theorem steps_execPorst (len : Nat) (s : State) : Steps s (execPorst len s) := by
  simp +contextual [execPorst]

theorem steps_execResetRelease (s : State) : Steps s (execResetRelease s) := by
  unfold execResetRelease
  split
  · refine .next fun h => ?_
    have hz : Sound (s.mem, 0) := ⟨h.mem, Nat.two_pow_pos 64⟩
    simpa using hz
  · exact .next id

theorem steps_execOtpRead (bad : List Nat) (s : State) : Steps s (execOtpRead bad s) := by
  unfold execOtpRead
  split
  · exact .next id
  · cases bad with
    | nil => exact .keep (by simp)
    | cons a bad => exact .keep (by simp)

theorem steps_execSelftestDone (glv : Word) (memPair : Word) (memFc : Word) (s : State) :
    Steps s (execSelftestDone glv memPair memFc s) := by
  simp +contextual [execSelftestDone]

theorem steps_execBootRomCopy (s : State) : Steps s (execBootRomCopy s) := by
  unfold execBootRomCopy
  split
  · exact .next id
  · refine .next fun h => ?_
    have hw : Sound ((s.mapPwr fun x => { x with copied := true }).wrRun (itcm 20 0x3C000)
        ((List.range 0x4000).map Config.bootRom)).memTs := Sound.wrRun (by simp [h])
    rw [State.memTs_startAtImg]
    exact hw

theorem steps_execLinkTrainingStart (p : Fin 2) (s : State) : Steps s (execLinkTrainingStart p s) := by
  simp +contextual [execLinkTrainingStart]

theorem steps_execBootRomReady (dur : Half) (katOk : Bool) (s : State) : Steps s (execBootRomReady dur katOk s) := by
  simp +contextual [execBootRomReady]

theorem steps_execProgramKeyHash (hash : List Byte) (s : State) : Steps s (execProgramKeyHash hash s) := by
  simp +contextual [execProgramKeyHash]

theorem steps_execSupplyWarn (rail : Fin 8) (mv : Half) (s : State) : Steps s (execSupplyWarn rail mv s) := by
  simp +contextual [execSupplyWarn]

theorem steps_execSupplyRestored (rail : Fin 8) (mv : Half) (s : State) : Steps s (execSupplyRestored rail mv s) := by
  simp +contextual [execSupplyRestored]

theorem steps_execClkFault (s : State) : Steps s (execClkFault s) := by
  dsimp only [execClkFault]
  (repeat' split) <;> simp +contextual

theorem steps_execHoldoverEnd (s : State) : Steps s (execHoldoverEnd s) := by
  simp +contextual [execHoldoverEnd]

theorem steps_execHoldoverExpiry (within : Bool) (s : State) : Steps s (execHoldoverExpiry within s) := by
  dsimp only [execHoldoverExpiry]
  (repeat' split) <;> simp +contextual

theorem steps_execSensorSample (temps : List (Option Half)) (s : State) : Steps s (execSensorSample temps s) := by
  dsimp only [execSensorSample]
  (repeat' split) <;> simp +contextual

theorem steps_execLifeTick (ages : List Word) (s : State) : Steps s (execLifeTick ages s) := by
  dsimp only [execLifeTick]
  (repeat' split) <;> simp +contextual

/-! ### Dma -/

theorem steps_execDescriptorRead (c : Fin 48) (s : State) : Steps s (execDescriptorRead c s) := by
  dsimp only [execDescriptorRead]
  (repeat' split) <;> simp +contextual

theorem steps_execDmaElement (e : Fin 17) (s : State) : Steps s (execDmaElement e s) := by
  unfold execDmaElement
  dsimp only
  split
  · exact .next id
  split
  · exact .next fun h => h.atTick
  · exact .next fun h => Sound.dmaElement (by simp [h])

/-! ### Mcs -/

theorem steps_execDigestCheck (m : Fin 17) (s : State) : Steps s (execDigestCheck m s) := by
  dsimp only [execDigestCheck]
  (repeat' split) <;> simp +contextual

/-! ### Firmware -/

theorem steps_execFwStarted (s : State) : Steps s (execFwStarted s) := by
  unfold execFwStarted
  split
  · exact .next id
  · dsimp only
    split
    · exact .next fun h => by simp [h]
    split
    · exact .next fun h => by simp [h]
    split
    · exact .next fun h => by simp [h]
    · refine .next fun h => ?_
      have hl : Sound (s.applyConfig.fillAll.loadStores (s.image s.keep.imgLen) (sections (s.image s.keep.imgLen))).2.memTs := by
        simp [h]
      have hp := sound_forN 20 _ _ hl fun p t ht =>
        ht.placePair (p := p) (im := s.image s.keep.imgLen) (ss := sections (s.image s.keep.imgLen))
      simp [hp]

/-! ### Tick -/

theorem steps_execCorrectionComplete (fc : Fin 16) (s : State) : Steps s (execCorrectionComplete fc s) := by
  simp +contextual [execCorrectionComplete]

theorem steps_execBalMicroword (fc : Fin 16) (s : State) : Steps s (execBalMicroword fc s) := by
  dsimp only [execBalMicroword]
  (repeat' split) <;> simp +contextual

theorem steps_execNReady (fc : Fin 16) (s : State) : Steps s (execNReady fc s) := by
  simp +contextual [execNReady]

theorem steps_execListenDeadline (fc : Fin 16) (s : State) : Steps s (execListenDeadline fc s) := by
  dsimp only [execListenDeadline]
  split
  · refine .next fun h => sound_foldl _ _ _ (by simp [h]) fun t m ht => ?_
    rw [State.memTs_wakeAll]
    exact sound_forN _ _ _ ht fun i u hu => hu.listenLane
  · exact .next id

theorem steps_execWearPass (fc : Fin 16) (s : State) : Steps s (execWearPass fc s) := by
  simp +contextual [execWearPass]

/-! ### Keeper -/

theorem steps_execRingPoll (s : State) : Steps s (execRingPoll s) := by
  unfold execRingPoll
  split
  · exact .next fun h => sound_forN _ _ _ h fun p t ht => sound_forN _ _ _ ht fun k u hu => by simp [hu]
  · exact .next id

theorem steps_execThermalRead (s : State) : Steps s (execThermalRead s) := by
  dsimp only [execThermalRead]
  (repeat' split) <;> simp +contextual

/-! ### Sample -/

theorem steps_execRestartDone (p : Fin 21) (s : State) : Steps s (execRestartDone p s) := by
  dsimp only [execRestartDone]
  (repeat' split) <;> simp +contextual

theorem steps_execSampleInstant (fc : Fin 16) (s : State) : Steps s (execSampleInstant fc s) := by
  dsimp only [execSampleInstant]
  split
  · exact .next id
  · refine .next fun h => Sound.pump ?_
    simp [h]

theorem steps_execCycleEnd (fc : Fin 16) (s : State) : Steps s (execCycleEnd fc s) := by
  simp +contextual [execCycleEnd]

theorem steps_execRebaseApply (fc : Fin 16) (s : State) : Steps s (execRebaseApply fc s) := by
  simp +contextual [execRebaseApply]

theorem steps_execScrubDone (s : State) : Steps s (execScrubDone s) := by
  unfold execScrubDone
  split
  · exact .next id
  split
  · exact .next id
  next x _ _ =>
    have hr : Sound s.memTs → Sound (x.ueKeys.foldl (fun s k => s.scrubReact x k) ((s.atTick x.next).scrubEnd x)).memTs :=
      fun h => sound_foldl _ _ _ (by simp [h]) fun t k ht => ht.scrubReact
    refine .next fun h => Sound.pump ?_
    split <;> split <;> simp [h, hr]

/-! ### Device -/

theorem steps_execRegisterWrite (who : Fin 23) (addr : Nat) (val : Word) (s : State) :
    Steps s (execRegisterWrite who addr val s) := by
  simp +contextual [execRegisterWrite]

theorem steps_execBar2Read (p : Fin 2) (off : Nat) (len : Nat) (s : State) : Steps s (execBar2Read p off len s) := by
  simp +contextual [execBar2Read]

theorem steps_execStreamRecord (p : Fin 2) (st : Fin 16) (s : State) : Steps s (execStreamRecord p st s) := by
  dsimp only [execStreamRecord]
  (repeat' split) <;> simp +contextual

/-! ### CpuDecode -/

theorem steps_execIllegal (p : Fin 21) (s : State) : Steps s (execIllegal p s) := by
  unfold execIllegal
  split
  · exact .next id
  · exact .next fun h => h.getD_boundaryExc h

theorem steps_execFetchFault (p : Fin 21) (s : State) : Steps s (execFetchFault p s) := by
  unfold execFetchFault
  split
  · exact .next fun h => h.getD_boundaryExc h
  · exact .next id

/-! ### CpuMem -/

theorem steps_execLcap (p : Fin 21) (s : State) : Steps s (execLcap p s) := by
  refine .next fun h => h.insn fun w t ht => ?_
  dsimp only
  split
  · exact ht
  split
  · exact ht
  split
  next u c r e => exact ht.ldCap.of_snd e
  next v r e => simpa using ht.ldCap.of_snd e

theorem steps_execScap (p : Fin 21) (s : State) : Steps s (execScap p s) := by
  refine .next fun h => h.insn fun w t ht => ?_
  dsimp only
  (repeat' split) <;> simp [ht]

theorem steps_execLresW (p : Fin 21) (s : State) : Steps s (execLresW p s) := by
  refine .next fun h => h.insn fun w t ht => ?_
  dsimp only
  split
  next k e i u hu => exact ht.load.of_snd hu
  next b u k hu _ => simpa using ht.load.of_snd hu
  next b u hu _ => exact ht.load.of_snd hu

theorem steps_execSconW (p : Fin 21) (s : State) : Steps s (execSconW p s) := by
  refine .next fun h => h.insn fun w t ht => ?_
  dsimp only
  split
  · exact ht
  · exact ht
  · split <;> simp [ht]

theorem steps_execTasB (p : Fin 21) (s : State) : Steps s (execTasB p s) := by
  refine .next fun h => h.insn fun w t ht => ?_
  dsimp only
  (repeat' split) <;> simp [ht]

/-! ### CpuSys -/

theorem steps_execFence (p : Fin 21) (s : State) : Steps s (execFence p s) := by
  simp +contextual [execFence]

theorem steps_execEret (p : Fin 21) (s : State) : Steps s (execEret p s) := by
  refine .next fun h => h.insn fun w t ht => ?_
  dsimp only
  split
  next k e i u hu => exact ht.returnFrame.of_snd hu
  next l u hu =>
    have hr : Sound u.memTs := ht.returnFrame.of_snd hu
    split <;> simp [hr]

theorem steps_execInterrupt (p : Fin 21) (s : State) : Steps s (execInterrupt p s) := by
  unfold execInterrupt
  split
  · exact .next id
  split
  · refine .next fun h => ?_
    cases e : s.microInt p with
    | none => exact h
    | some t => exact h.microInt e
  split
  · split
    · exact .next fun h => h.getD_boundaryExc h
    · exact .next id
  · split
    · exact .next fun h => by simp [h]
    · exact .next fun h => h.getD_boundaryExc h.takeLine

theorem steps_execWatchdog (p : Fin 21) (s : State) : Steps s (execWatchdog p s) := by
  dsimp only [execWatchdog]
  split
  · refine .next fun h => ?_
    split
    · exact Sound.wdExc (Sound.toBoundary (by simp [h]))
    · simp [h]
  · exact .next id

/-! ### CpuLong -/

theorem steps_execMcpy (p : Fin 21) (s : State) : Steps s (execMcpy p s) := by
  refine .next fun h => h.insn fun w t ht => ?_
  dsimp only
  split
  · exact ht
  split
  · exact ht
  · exact ht
  · split
    next c e i u hu => exact ht.ldParts.of_snd hu
    next b u hu => simpa using (ht.ldParts.of_snd hu).stParts

theorem steps_execMfill (p : Fin 21) (s : State) : Steps s (execMfill p s) := by
  refine .next fun h => h.insn fun w t ht => ?_
  dsimp only
  (repeat' split) <;> simp [ht]

theorem steps_execVdot (p : Fin 21) (s : State) : Steps s (execVdot p s) := by
  refine .next fun h => h.insn fun w t ht => ?_
  dsimp only
  split
  · exact ht
  split
  · exact ht
  · exact ht
  · split
    next c e i u hu => exact ht.ldParts.of_snd hu
    next x u hu =>
      have hx : Sound u.memTs := ht.ldParts.of_snd hu
      split
      next c e i u hu => exact hx.ldParts.of_snd hu
      next y u hu => simpa using hx.ldParts.of_snd hu

/-! ### CpuMicro -/

theorem steps_execCx (p : Fin 21) (s : State) : Steps s (execCx p s) := by
  simp +contextual [execCx]

theorem steps_execAlu (u : MicroUnit) (s : State) : Steps s (execAlu u s) := by
  dsimp only [execAlu]
  (repeat' split) <;> simp +contextual

theorem steps_execAlui (u : MicroUnit) (s : State) : Steps s (execAlui u s) := by
  dsimp only [execAlui]
  (repeat' split) <;> simp +contextual

theorem steps_execBr (u : MicroUnit) (s : State) : Steps s (execBr u s) := by
  dsimp only [execBr]
  (repeat' split) <;> simp +contextual

theorem steps_execJmp (u : MicroUnit) (s : State) : Steps s (execJmp u s) := by
  cases u with
  | pair p =>
    refine .next fun h => h.microStep fun m w t r ht e => ?_
    cases e
    exact ht
  | engine n e => exact .keep (by simp)

theorem steps_execEnd (u : MicroUnit) (s : State) : Steps s (execEnd u s) := by
  dsimp only [execEnd]
  (repeat' split) <;> simp +contextual

theorem steps_execMem (p : Fin 21) (s : State) : Steps s (execMem p s) := by
  unfold execMem
  split
  · exact .next id
  next t e => exact .next fun h => h.microInt e
  · dsimp only
    split
    · exact .next fun h => by simp [h]
    split
    · split
      · exact .next fun h => by simp [h]
      · exact .next fun h => by simp [h]
    · split
      next k e i u hu => exact .next fun h => (Sound.of_snd (Sound.load (by simp [h])) hu).microTrap
      next b u hu =>
        have hs : Sound s.memTs → Sound u.memTs := fun h => Sound.of_snd (Sound.load (by simp [h])) hu
        split
        · exact .next fun h => (hs h).sealedTrap
        next m r e =>
          have hr := State.memTs_microSet _ _ _ _ _ _ e
          exact .next fun h => by simp [hr, hs h]

theorem steps_execFault (p : Fin 21) (s : State) : Steps s (execFault p s) := by
  unfold execFault
  dsimp only
  split
  · exact .next id
  split
  · exact .next id
  next t e => exact .next fun h => h.microInt e
  · (repeat' split) <;> exact .next fun h => by simp [h]

/-! ### Every command -/

/-- Every command answers a next state, in which the memories and TS are sound if they were. -/
theorem exec_steps (i : Instr) (s : State) : Steps s (exec i s) := by
  cases i with
  | registerWrite who addr val => exact steps_execRegisterWrite _ _ _ _
  | holdingCopyRead addr => exact .keep (by simp)
  | adcResRead g k => exact .keep (by simp)
  | crossingAccept n => exact .keep (by simp)
  | runStart fc => exact .keep (by simp)
  | runStop fc => exact .keep (by simp)
  | cycleEnd fc => exact steps_execCycleEnd _ _
  | sampleInstant fc => exact steps_execSampleInstant _ _
  | conversionComplete fc raw => exact steps_execConversionComplete _ _ _
  | correctionComplete fc => exact steps_execCorrectionComplete _ _
  | balMicroword fc => exact steps_execBalMicroword _ _
  | ucDeadline fc => exact steps_execUcDeadline _ _
  | obsMicroword fc => exact steps_execObsMicroword _ _
  | observerComplete fc => exact steps_execObserverComplete _ _
  | nReady fc => exact steps_execNReady _ _
  | balancerDeadline fc => exact steps_execBalancerDeadline _ _
  | edgeSchedule fc => exact steps_execEdgeSchedule _ _
  | cmdSent fc => exact steps_execCmdSent _ _
  | ledgerCheck fc => exact steps_execLedgerCheck _ _
  | rebaseApply fc => exact steps_execRebaseApply _ _
  | wearPass fc => exact steps_execWearPass _ _
  | mailboxRead fc => exact steps_execMailboxRead _ _
  | alignSend fc => exact steps_execAlignSend _ _
  | probeSend lk => exact steps_execProbeSend _ _
  | probeReply lk rtt => exact steps_execProbeReply _ _ _
  | upBarge lk sof groups => exact steps_execUpBarge _ _ _ _
  | listenDeadline fc => exact steps_execListenDeadline _ _
  | trainLimit lk => exact steps_execTrainLimit _ _
  | check lk => exact steps_execCheck _ _
  | lnkEnable lk on => exact .keep (by simp)
  | retrain lk => exact .keep (by simp)
  | forceBlock lk on => exact .keep (by simp)
  | alignNow lk => exact .keep (by simp)
  | clrCnt lk => exact .keep (by simp)
  | blockInject grp => exact .keep (by simp)
  | safePoint fc eng => exact .keep (by simp)
  | engStall fc eng => exact .keep (by simp)
  | engineRestart fc eng => exact .keep (by simp)
  | fltStateWrite fc f code => exact .keep (by simp)
  | bypassTimeout lk => exact steps_execBypassTimeout _ _
  | gangClockSwitch fc => exact .keep (by simp)
  | shtgtWrite fc ch who val => exact .keep (by simp)
  | ovrLimitWrite fc val => exact .keep (by simp)
  | innerDone fc cyc => exact .keep (by simp)
  | identify e => exact steps_take State.memTs_identify
  | loadFwChunk e => exact .next fun h => h.take fun _ _ => Sound.loadFwChunk
  | authFw e => exact steps_take State.memTs_authFw
  | startFw e => exact .next fun h => h.take fun _ _ => Sound.startFw
  | fwStarted => exact steps_execFwStarted _
  | getState e => exact steps_take State.memTs_getState
  | getSelftest e => exact steps_take State.memTs_getSelftest
  | setTime e => exact .next fun h => h.take fun _ _ => Sound.setTime
  | resetDevice e => exact .next fun h => h.take fun _ _ => Sound.resetDevice
  | bindFlight e => exact steps_take State.memTs_bindFlight
  | unbindFlight e => exact steps_take State.memTs_unbindFlight
  | setCellMap e => exact steps_take State.memTs_setCellMap
  | setCellParams e => exact steps_take State.memTs_setCellParams
  | bypassCell e => exact steps_take State.memTs_bypassCell
  | loadObserver e => exact steps_take State.memTs_loadObserver
  | swapCoeff e => exact steps_take State.memTs_swapCoeff
  | setReference e => exact steps_take State.memTs_setReference
  | startFlight e => exact steps_take State.memTs_startFlight
  | stopFlight e => exact steps_take State.memTs_stopFlight
  | holdFlight e => exact steps_take State.memTs_holdFlight
  | setTripPolicy e => exact steps_take State.memTs_setTripPolicy
  | clearTrip e => exact steps_take State.memTs_clearTrip
  | setWindow e => exact steps_take State.memTs_setWindow
  | windowSettle c => exact steps_execWindowSettle _ _
  | lockLimits e => exact steps_take State.memTs_lockLimits
  | setUserCal e => exact steps_take State.memTs_setUserCal
  | getFactoryCal e => exact steps_take State.memTs_getFactoryCal
  | runPathTest e => exact steps_take State.memTs_runPathTest
  | pathTestLevel grp codes => exact steps_execPathTestLevel _ _ _
  | pathTestDone grp => exact .next fun h => by simp [h]
  | scrubRange e => exact steps_take State.memTs_scrubRange
  | openStream e => exact steps_take State.memTs_openStream
  | closeStream e => exact steps_take State.memTs_closeStream
  | streamRecord p st => exact steps_execStreamRecord _ _ _
  | getWear e => exact steps_take State.memTs_getWear
  | setWearModel e => exact steps_take State.memTs_setWearModel
  | rebaseLedger e => exact steps_take State.memTs_rebaseLedger
  | takeOwnership e => exact steps_take State.memTs_takeOwnership
  | releaseOwnership e => exact steps_take State.memTs_releaseOwnership
  | heartbeat e => exact steps_take State.memTs_heartbeatCmd
  | hbWrite p val => exact .keep (by simp)
  | hbLapse p => exact steps_execHbLapse _ _
  | hostLossStop => exact steps_execHostLossStop _
  | sqDoorbell p q tail => exact .keep (by simp)
  | entryFetch p bytes => exact steps_execEntryFetch _ _ _
  | cqDoorbell p q head => exact .keep (by simp)
  | replyWrite p => exact .keep (by simp)
  | msixUnmask p vec => exact .keep (by simp)
  | kinpop p => exact .keep (by simp)
  | koutpush p cq => exact .keep (by simp)
  | bar2Read p off len => exact steps_execBar2Read _ _ _ _
  | bar2Write p => exact .keep (by simp)
  | bar0BadAccess p write => exact .keep (by simp)
  | portReset p kind => exact .keep (by simp)
  | d3hotEntry p => exact .keep (by simp)
  | linkUp p rate width bme => exact steps_execLinkUp _ _ _ _ _
  | cmpCross c x => exact steps_execCmpCross _ _ _
  | blankEnd c => exact steps_execBlankEnd _ _
  | cycleBoundary tb => exact .keep (by simp)
  | cmpClr c => exact .keep (by simp)
  | tripPin p level => exact .keep (by simp)
  | pinClr mask => exact .keep (by simp)
  | fwtripWrite val => exact .keep (by simp)
  | safeLow => exact .keep (by simp)
  | groupCommit g => exact .keep (by simp)
  | pwmEnable k on => exact .keep (by simp)
  | periodStart k => exact steps_execPeriodStart _ _
  | compareMatch k => exact steps_execCompareMatch _ _
  | deadTimeEnd k => exact steps_execDeadTimeEnd _ _
  | towPulse k => exact steps_execTowPulse _ _
  | towRestart k => exact steps_execTowRestart _ _
  | towInEdge => exact .keep (by simp)
  | shadowWrite k r val => exact .keep (by simp)
  | pwmCommit groups => exact .keep (by simp)
  | mismatch p path => exact .keep (by simp)
  | restartDone p => exact steps_execRestartDone _ _
  | cuffFault p => exact steps_execCuffFault _ _
  | cuffTest bad => exact .next fun h => by simp [h]
  | glvForce p => exact .next Sound.glvForce
  | debugHalt p on => exact .next fun h => by simp [h]
  | dbgHalt fc on => exact .keep (by simp)
  | dbgStep fc => exact .keep (by simp)
  | add p => exact .next Sound.aluR
  | sub p => exact .next Sound.aluR
  | and p => exact .next Sound.aluR
  | or p => exact .next Sound.aluR
  | xor p => exact .next Sound.aluR
  | andn p => exact .next Sound.aluR
  | sll p => exact .next Sound.aluR
  | srl p => exact .next Sound.aluR
  | sra p => exact .next Sound.aluR
  | ror p => exact .next Sound.aluR
  | seq p => exact .next Sound.aluR
  | sne p => exact .next Sound.aluR
  | slt p => exact .next Sound.aluR
  | sltu p => exact .next Sound.aluR
  | min p => exact .next Sound.aluR
  | max p => exact .next Sound.aluR
  | minu p => exact .next Sound.aluR
  | maxu p => exact .next Sound.aluR
  | clz p => exact .next Sound.aluR
  | popc p => exact .next Sound.aluR
  | bswap p => exact .next Sound.aluR
  | addi p => exact .next Sound.aluS
  | andi p => exact .next Sound.aluI
  | ori p => exact .next Sound.aluI
  | xori p => exact .next Sound.aluI
  | seqi p => exact .next Sound.aluS
  | snei p => exact .next Sound.aluS
  | slti p => exact .next Sound.aluS
  | sltiu p => exact .next Sound.aluS
  | shi p => exact .next Sound.aluI
  | lui p => exact .next Sound.aluI
  | bz p => exact .next fun h => by simp [h]
  | bnz p => exact .next fun h => by simp [h]
  | dbnz p => exact .next fun h => by simp [h]
  | j p => exact .next fun h => by simp [h]
  | jal p => exact .next fun h => by simp [h]
  | tjump p => exact .next fun h => by simp [h]
  | mullo p => exact .next Sound.mulR
  | mulhiSs p => exact .next Sound.mulR
  | mulhiUu p => exact .next Sound.mulR
  | mulhiSu p => exact .next Sound.mulR
  | quos p => exact .next Sound.divR
  | quou p => exact .next Sound.divR
  | rmds p => exact .next Sound.divR
  | rmdu p => exact .next Sound.divR
  | qmul p => exact .next Sound.fixR
  | adds p => exact .next Sound.fixR
  | subs p => exact .next Sound.fixR
  | shrr p => exact .next Sound.fixR
  | shls p => exact .next Sound.fixR
  | sath p => exact .next Sound.fixR
  | lb p => exact .next fun h => by simp [h]
  | lbu p => exact .next fun h => by simp [h]
  | lh p => exact .next fun h => by simp [h]
  | lhu p => exact .next fun h => by simp [h]
  | lw p => exact .next fun h => by simp [h]
  | flw p => exact .next fun h => by simp [h]
  | lcap p => exact steps_execLcap _ _
  | sb p => exact .next Sound.storeR
  | sh p => exact .next Sound.storeR
  | sw p => exact .next Sound.storeR
  | fsw p => exact .next Sound.storeR
  | scap p => exact steps_execScap _ _
  | storeDrain p => exact .next Sound.storeDrain
  | fadd p => exact .next fun h => by simp [h]
  | fsub p => exact .next fun h => by simp [h]
  | fmul p => exact .next fun h => by simp [h]
  | fdiv p => exact .next fun h => by simp [h]
  | fsqrt p => exact .next fun h => by simp [h]
  | fmadd p => exact .next fun h => by simp [h]
  | fmin p => exact .next fun h => by simp [h]
  | fmax p => exact .next fun h => by simp [h]
  | fabs p => exact .next fun h => by simp [h]
  | fneg p => exact .next fun h => by simp [h]
  | fcmpEq p => exact .next fun h => by simp [h]
  | fcmpLt p => exact .next fun h => by simp [h]
  | fcmpLe p => exact .next fun h => by simp [h]
  | fcmpUn p => exact .next fun h => by simp [h]
  | ftoi p => exact .next fun h => by simp [h]
  | ftou p => exact .next fun h => by simp [h]
  | itof p => exact .next fun h => by simp [h]
  | utof p => exact .next fun h => by simp [h]
  | movfg p => exact .next fun h => by simp [h]
  | movgf p => exact .next fun h => by simp [h]
  | fkind p => exact .next fun h => by simp [h]
  | lresW p => exact steps_execLresW _ _
  | sconW p => exact steps_execSconW _ _
  | tasB p => exact steps_execTasB _ _
  | tcopy p => exact .next fun h => by simp [h]
  | tread p => exact .next fun h => by simp [h]
  | tpoint p => exact .next Sound.derive
  | tstep p => exact .next Sound.derive
  | tstepi p => exact .next Sound.derive
  | tnarrow p => exact .next Sound.derive
  | tnarrowx p => exact .next Sound.derive
  | tmask p => exact .next Sound.derive
  | tvoid p => exact .next fun h => by simp [h]
  | twrap p => exact .next fun h => by simp [h]
  | tunwrap p => exact .next fun h => by simp [h]
  | tenter p => exact .next fun h => by simp [h]
  | tsrd p => exact .next fun h => by simp [h]
  | tswr p => exact .next fun h => by simp [h]
  | crr p => exact .next Sound.crOp
  | crw p => exact .next Sound.crOp
  | crs p => exact .next Sound.crOp
  | crc p => exact .next Sound.crOp
  | csync p => exact .next fun h => by simp [h]
  | fence p => exact steps_execFence _ _
  | wfi p => exact .next fun h => by simp [h]
  | eret p => exact steps_execEret _ _
  | kcall p => exact .next fun h => by simp [h]
  | breakW p => exact .next fun h => by simp [h]
  | mcpy p => exact steps_execMcpy _ _
  | mfill p => exact steps_execMfill _ _
  | vdot p => exact steps_execVdot _ _
  | crcb16 p => exact .next Sound.crcb
  | crcb32 p => exact .next Sound.crcb
  | cx p => exact steps_execCx _ _
  | interrupt p => exact steps_execInterrupt _ _
  | alu u => exact steps_execAlu _ _
  | alui u => exact steps_execAlui _ _
  | br u => exact steps_execBr _ _
  | jmp u => exact steps_execJmp _ _
  | mem p => exact steps_execMem _ _
  | faultW p => exact steps_execFault _ _
  | endW u => exact steps_execEnd _ _
  | wait fc eng => exact .keep (State.memTs_engStep _ _ _ _ _ fun _ _ => by dsimp only; split <;> simp)
  | evt fc eng => exact .keep (by simp)
  | mbx fc eng => exact .next fun h => h.engStep fun _ _ ht => by simp [ht]
  | mcsOpen m => exact .keep (by simp)
  | mcsData m val => exact .keep (by simp)
  | mcsCommit m => exact .keep (by simp)
  | mcsAbort m => exact .keep (by simp)
  | digestCheck m => exact steps_execDigestCheck _ _
  | capCopy val => exact .next Sound.capCopy
  | imageFill val => exact .keep (by simp)
  | imageFillDone => exact steps_execImageFillDone _
  | scrubGo wb => exact .keep (by simp)
  | scrubDone => exact steps_execScrubDone _
  | scrubSlice => exact steps_execScrubSlice _
  | dmaStart c doff => exact .keep (by simp)
  | descriptorRead c => exact steps_execDescriptorRead _ _
  | dmaElement e => exact steps_execDmaElement _ _
  | dmaAbort c => exact .next Sound.dmaAbort
  | dmaResume c => exact .keep (by simp)
  | slewStep => exact steps_execSlewStep _
  | syncEdge pps => exact steps_execSyncEdge _ _
  | syncMiss => exact steps_execSyncMiss _
  | syncPulse => exact steps_execSyncPulse _
  | evtIoEdge k level => exact steps_execEvtIoEdge _ _ _
  | recordDeliver => exact steps_execRecordDeliver _
  | ridxWrite q val => exact .keep (by simp)
  | alarmArm p hi => exact .keep (by simp)
  | tsAlarm p => exact steps_execTsAlarm _ _
  | refEnable g on => exact .keep (by simp)
  | refSettled g => exact steps_execRefSettled _ _
  | refTimeout g => exact steps_execRefTimeout _ _
  | refFall g => exact steps_execRefFall _ _
  | seqTrigger g k => exact steps_execSeqTrigger _ _ _
  | swtrig g => exact .keep (by simp)
  | seqStart g k raw => exact steps_execSeqStart _ _ _ _
  | seqResult g k => exact steps_execSeqResult _ _ _
  | ugainStage g c val => exact .keep (by simp)
  | uoffCommit g c val => exact .keep (by simp)
  | calStep g => exact .next fun h => by simp [h]
  | checkNow g => exact .keep (by simp)
  | sliceCheckDone g raw => exact steps_execSliceCheckDone _ _ _
  | handoverCompare g raw => exact steps_execHandoverCompare _ _ _
  | handoverConversion g raw => exact steps_execHandoverConversion _ _ _
  | forceHandover g c => exact .keep (by simp)
  | forceHandoverDone g => exact steps_execForceHandoverDone _ _
  | ringPoll => exact steps_execRingPoll _
  | fwTrip p k bit on => exact .next fun h => h.ringServe (Sound.ringReply (by simp [h]))
  | logEv p k => exact .next fun h => h.ringServe (Sound.ringReply (by simp [h]))
  | timeSvc p k => exact .next fun h => h.ringServe (Sound.ringReply (by simp [h]))
  | thermalRead => exact steps_execThermalRead _
  | wdkick p val => exact .keep (by simp)
  | watchdog p => exact steps_execWatchdog _ _
  | watchdogStage2 p => exact steps_execWatchdogStage2 _ _
  | release val => exact .keep (by simp)
  | fwHalt cause step => exact .keep (by simp)
  | safeRelease val => exact .keep (by simp)
  | porst len => exact steps_execPorst _ _
  | railReset rail => exact .next fun h => by simp
  | supplyWarn rail mv => exact steps_execSupplyWarn _ _ _
  | tapReset => exact .keep (by simp)
  | resetRelease => exact steps_execResetRelease _
  | otpRead bad => exact steps_execOtpRead _ _
  | selftestDone glv memPair memFc => exact steps_execSelftestDone _ _ _ _
  | bootRomCopy => exact steps_execBootRomCopy _
  | linkTrainingStart p => exact steps_execLinkTrainingStart _ _
  | bootRomReady dur katOk => exact steps_execBootRomReady _ _ _
  | clkFault => exact steps_execClkFault _
  | holdoverEnd => exact steps_execHoldoverEnd _
  | holdoverExpiry within => exact steps_execHoldoverExpiry _ _
  | sensorSample temps => exact steps_execSensorSample _ _
  | lifeTick ages => exact steps_execLifeTick _ _
  | safeLowEnd => exact .keep (by simp)
  | supplyRestored rail mv => exact steps_execSupplyRestored _ _ _
  | filterSample c => exact steps_execFilterSample _ _
  | scrubGranule => exact steps_execScrubGranule _
  | pairResetDone p => exact steps_execPairResetDone _ _
  | badOpcode e => exact steps_execBadOpcode _ _
  | illegal p => exact steps_execIllegal _ _
  | fetchFault p => exact steps_execFetchFault _ _
  | programKeyHash hash => exact steps_execProgramKeyHash _ _
  -- RECALL, whose constructor's name is a keyword of Mathlib
  | _ => exact .next Sound.recall

/-- Whatever the machine answers to a step, with a command in front or none, is a next state that stays sound. -/
theorem step_steps (s : State) : Steps s (step s) := by
  unfold step
  split
  · exact .next Sound.idle
  next c r _ => exact exec_steps c { s with pending := r }

end Sys2Proof.Machine

open Sys2Proof.Machine

/-- Settles O50: the definition of `step`, and that of an idle tick. -/
theorem aStepRunsTheCommandInFront : Obligations.AStepRunsTheCommandInFront := by
  refine ⟨fun s c r => rfl, fun s hs => ?_⟩
  simp [step, hs, State.idle, State.atTick]

/-- Settles O51, by the case of each command. -/
theorem everyCommandAnswersANextState : Obligations.EveryCommandAnswersANextState :=
  fun i s => (exec_steps i s).imp fun _ ht => ht.1

/-- Settles O53: memory lists nothing, and TS is 0. -/
theorem theInvariantHoldsAtReset : Obligations.TheInvariantHoldsAtReset :=
  ⟨Memory.wf_reset, Nat.two_pow_pos 64⟩

/-- Settles O54: each command writes memory only through writes that keep its form, and TS only modulo 2^64. -/
theorem everyStepKeepsTheInvariant : Obligations.EveryStepKeepsTheInvariant := by
  intro s t hs ht
  obtain ⟨u, hu, h⟩ := step_steps s
  cases ht.symm.trans hu
  exact (inv_iff_sound t).2 (h ((inv_iff_sound s).1 hs))

end

section
/-! How software reaches registers and memory (O36): writes by the access codes, the copying reads, BAR2, and the records of a
stream. -/

namespace Sys2Proof.Machine

/-! ### A write by a pair -/

theorem exec_registerWrite_ignored {s : State} (who : Fin 23) {a : Nat} (v : Word) (h : s.pwr.inReset = true ∨ a % 4 ≠ 0) :
    exec (.registerWrite who a v) s = .next s := if_pos (by simpa using h)

theorem exec_registerWrite_pair {s : State} {who : Fin 23} {a : Nat} (v : Word) (hr : s.pwr.inReset = false) (ha : a % 4 = 0)
    (hw : who.val < 21) (hlo : 0x60000000 ≤ a) (hd : devWindow a = true) :
    exec (.registerWrite who a v) s = .next (s.devWrite who a v) := by
  have hw : ¬ 21 ≤ who.val := by omega
  show execRegisterWrite who a v s = _
  simp [execRegisterWrite, hr, ha, hw, hlo, hd]

theorem State.accWait_of_le {s : State} {a : Nat} (h : 0x61000000 ≤ a) : s.accWait a = s := by
  simp [State.accWait, show ¬ a < 0x61000000 by omega]

theorem State.switchWait_of_not_switching {s : State} {n : Nat} (h : (s.fc n).switching = false) : s.switchWait n = s := by
  simp [State.switchWait, h]

theorem State.accWait_of_not_switching {s : State} (h : ∀ n : Fin 16, (s.fc n).switching = false) (a : Nat) :
    s.accWait a = s := by
  unfold State.accWait
  split
  next ha =>
    simp only [Bool.and_eq_true, decide_eq_true_eq] at ha
    exact State.switchWait_of_not_switching (h ⟨(a - 0x60000000) / 0x100000, by omega⟩)
  · rfl

theorem State.ownTick_eq (s : State) : s.ownTick = { s with tick := s.tick + 1, ts := (s.ts + 1) % 2 ^ 64 } := by
  simp [State.ownTick, State.atTick]

/-- What a write's bits do by the access codes, where no field is lockable (R2, R3). -/
theorem RegRow.getLsbD_next (r : RegRow) (lock : Bool) (old v : Word) (h : r.rwl = []) (i : Fin 32) :
    (r.next lock old v).getLsbD i = (((if r.rw.getLsbD i then v.getLsbD i else old.getLsbD i) &&
      !(v.getLsbD i && r.w1c.getLsbD i)) || (v.getLsbD i && r.w1s.getLsbD i)) := by
  simp only [RegRow.next, h, List.foldl_nil, BitVec.getLsbD_or, BitVec.getLsbD_and, BitVec.getLsbD_not, i.isLt, decide_true,
    Bool.true_and]
  cases r.rw.getLsbD i <;> simp

/-- A write in the memory controller or the thermal block to a register without an effect of its own. -/
theorem State.devWrite_eq_plainWrite (s : State) (who : Nat) {a : Nat} (v : Word) (hlo : 0x70060000 ≤ a) (hhi : a < 0x70080000)
    (hn : a ∉ [0x70060044, 0x70060048, 0x7006005C]) : s.devWrite who a v = (s.w1cTick a v).plainWrite a v := by
  simp only [List.mem_cons, List.not_mem_nil, or_false, not_or] at hn
  obtain ⟨h44, h48, h5c⟩ := hn
  have e : 0x70060000 + (a - 0x70060000) = a := by omega
  unfold State.devWrite
  rw [State.accWait_of_le (by omega)]
  dsimp only
  rw [if_neg (by omega), if_neg (by omega), if_neg (by omega), if_neg (by omega), if_neg (by omega), if_neg (by omega),
    if_neg (by omega), if_neg (by omega)]
  split
  · unfold State.memWrite
    rw [if_neg (by omega), if_neg (by omega), if_neg (by omega), e]
  · rw [if_pos (by omega)]

/-- Such a write to an address without a register. -/
theorem State.w1cPlain_of_none {s : State} {a : Nat} (v : Word) (h : regRow a = none) : (s.w1cTick a v).plainWrite a v = s := by
  simp [State.w1cTick, State.plainWrite, h]

/-- Such a write to a register: the word goes by its codes, in a tick of its own where it clears flags. -/
theorem State.w1cPlain_of_some {s : State} {a : Nat} (v : Word) {r : RegRow} (h : regRow a = some r) :
    (s.w1cTick a v).plainWrite a v = { s.wr a (r.next (s.lockAt a) (s.rg a) v) with
      tick := s.tick + (if v &&& r.w1c = 0 then 0 else 1)
      ts := if v &&& r.w1c = 0 then s.ts else (s.ts + 1) % 2 ^ 64 } := by
  unfold State.w1cTick State.plainWrite
  rw [h]
  dsimp only
  split
  · rfl
  · rw [State.ownTick_eq]
    rfl

theorem registerWrite_follows_codes (s : State) (who : Fin 23) (a : Nat) (v : Word) (hr : s.pwr.inReset = false) (ha : a % 4 = 0)
    (hw : who.val < 21) (hlo : 0x70060000 ≤ a) (hhi : a < 0x70080000) (hn : a ∉ [0x70060044, 0x70060048, 0x7006005C]) :
    Answers (.registerWrite who a v) s fun t =>
      t = { s with regs := t.regs, tick := t.tick, ts := t.ts } ∧ SameRegs [a] s t ∧
      (regRow a = none → t = s) ∧
      ∀ r, regRow a = some r → t.tick = s.tick + (if v &&& r.w1c = 0 then 0 else 1) ∧
        (r.rwl = [] → ∀ i : Fin 32, (t.rg a).getLsbD i =
        (((if r.rw.getLsbD i then v.getLsbD i else (s.rg a).getLsbD i) && !(v.getLsbD i && r.w1c.getLsbD i)) ||
          (v.getLsbD i && r.w1s.getLsbD i))) := by
  have hd : devWindow a = true := by
    unfold devWindow
    rw [if_neg (by omega)]
    simp [show 0x70000000 ≤ a by omega, hhi]
  refine ⟨_, exec_registerWrite_pair v hr ha hw (by omega) hd, ?_⟩
  rw [s.devWrite_eq_plainWrite who v hlo hhi hn]
  cases h : regRow a with
  | none => simp [State.w1cPlain_of_none v h, SameRegs]
  | some r =>
    rw [State.w1cPlain_of_some v h]
    refine ⟨rfl, fun b hb => ?_, by simp, fun r' hr' => ?_⟩
    · exact s.rg_wr_ne _ (by simpa using hb)
    · cases hr'
      refine ⟨rfl, fun hl i => ?_⟩
      rw [← r.getLsbD_next (s.lockAt a) _ v hl i]
      exact congrArg (BitVec.getLsbD · i) (s.rg_wr_self a _)

/-! ### A write of the cycle length -/

/-- The row of FC_CYC_LEN holds no flag that a write clears. -/
theorem w1c_cycLen : ∀ n : Fin 16, ((regRow (Reg.FC_CYC_LEN n)).all fun r => r.w1c == 0) = true := by
  decide

theorem State.w1cTick_cycLen (s : State) (n : Fin 16) (v : Word) : s.w1cTick (Reg.FC_CYC_LEN n) v = s := by
  have hn := w1c_cycLen n
  unfold State.w1cTick
  split
  next r h =>
    rw [h] at hn
    simp [show r.w1c = 0 by simpa using hn]
  · rfl

/-- While RUN is 1 such a write sets CFG_ERR, and nothing else (R34). -/
theorem State.devWrite_cycLen {s : State} (who : Nat) {n : Fin 16} (v : Word) (hs : (s.fc n).switching = false)
    (hrun : s.bit (Reg.FC_CYC_CTRL n) F.FC_CYC_CTRL_RUN = true) : s.devWrite who (Reg.FC_CYC_LEN n) v = s.cycErr n := by
  have hn := n.isLt
  have hlen : Reg.FC_CYC_LEN n = 0x60000004 + 0x100000 * n.val := rfl
  have hfc : (Reg.FC_CYC_LEN n - 0x60000000) / 0x100000 = n.val := by omega
  have ho : Reg.FC_CYC_LEN n % 0x100000 = 4 := by omega
  have hw : s.accWait (Reg.FC_CYC_LEN n) = s := by
    rw [State.accWait, hfc, State.switchWait_of_not_switching hs, ite_self]
  unfold State.devWrite
  rw [hw, s.w1cTick_cycLen, hfc, ho]
  dsimp only
  rw [if_pos (by omega)]
  simp [State.fcWrite, State.ctlWrite, hrun]

theorem registerWrite_cycLen_running (s : State) (who : Fin 23) (n : Fin 16) (v : Word) (hr : s.pwr.inReset = false)
    (hw : who.val < 21) (hs : (s.fc n).switching = false) (hrun : s.bit (Reg.FC_CYC_CTRL n) F.FC_CYC_CTRL_RUN = true) :
    Answers (.registerWrite who (Reg.FC_CYC_LEN n) v) s fun t =>
      t = { s with regs := t.regs } ∧ SameRegs [Reg.FC_CYC_STAT n] s t ∧
      t.bit (Reg.FC_CYC_STAT n) F.FC_CYC_STAT_CFG_ERR = true := by
  have hn := n.isLt
  have hlen : Reg.FC_CYC_LEN n = 0x60000004 + 0x100000 * n.val := rfl
  have hd : devWindow (Reg.FC_CYC_LEN n) = true := by
    unfold devWindow
    rw [if_pos (by omega)]
    simp only [Bool.and_eq_true, decide_eq_true_eq]
    omega
  refine ⟨_, exec_registerWrite_pair v hr (by omega) hw (by omega) hd, ?_⟩
  rw [State.devWrite_cycLen who v hs hrun]
  refine ⟨rfl, fun b hb => s.rg_sf_ne _ _ (by simpa using hb), ?_⟩
  simp [State.bit, State.cycErr, State.flag, s.fld_sf_self _ F.FC_CYC_STAT_CFG_ERR 1 (by decide),
    show F.FC_CYC_STAT_CFG_ERR.w = 1 from rfl]

/-! ### Holding registers -/

/-- What a table holds after the entries of a list are written one by one. -/
theorem tget_foldl_tput {α : Type} (d : α) (f : Nat → α) (l : List Nat) (h : Tbl α) (x : Nat) :
    tget d (l.foldl (fun h x => tput h x (f x)) h) x = if x ∈ l then f x else tget d h x := by
  induction l generalizing h with
  | nil => simp
  | cons y l ih =>
    rw [List.foldl_cons, ih, tget_tput]
    rcases eq_or_ne x y with rfl | hy
    · simp
    · simp [hy]

theorem holdingCopyRead_fills (s : State) (a : Nat) : Answers (.holdingCopyRead a) s fun t =>
    t = { s with hold := t.hold } ∧ (∀ x ∈ heldBy a, tget 0 t.hold x = s.regPeek x) ∧
    ∀ x, x ∉ heldBy a → tget 0 t.hold x = tget 0 s.hold x := by
  have hg : ∀ x, tget 0 (s.holdCopy a).hold x = if x ∈ heldBy a then s.regPeek x else tget 0 s.hold x :=
    tget_foldl_tput 0 s.regPeek (heldBy a) s.hold
  exact ⟨s.holdCopy a, rfl, rfl, fun x hx => (hg x).trans (if_pos hx), fun x hx => (hg x).trans (if_neg hx)⟩

/-! ### Bytes of memory, as numbers and as lists -/

theorem leNat_lt (l : List Byte) : leNat l < 256 ^ l.length := by
  induction l with
  | nil => simp [leNat]
  | cons b l ih =>
    have hb : b.toNat < 256 := b.isLt
    rw [leNat, List.length_cons, Nat.pow_succ]
    omega

theorem leBytes_leNat (l : List Byte) : leBytes l.length (leNat l) = l := by
  induction l with
  | nil => rfl
  | cons b l ih =>
    have hb : b.toNat < 256 := b.isLt
    have hd : (b.toNat + 256 * leNat l) / 256 = leNat l := by omega
    rw [leNat, List.length_cons, leBytes, hd, ih]
    congr 1
    exact BitVec.eq_of_toNat_eq (by simp [BitVec.toNat_ofNat]; omega)

theorem State.length_rdBytes (s : State) (a n : Nat) : (s.rdBytes a n).length = n := by simp [State.rdBytes]

theorem State.rdBytes_add (s : State) (a m n : Nat) : s.rdBytes a (m + n) = s.rdBytes a m ++ s.rdBytes (a + m) n := by
  simp [State.rdBytes, List.range_add, Nat.add_assoc, Function.comp_def]

/-- The bytes of a word that a read of memory returns are those that stand there. -/
theorem State.leBytes_rdLe (s : State) (a : Nat) : leBytes 4 (BitVec.ofNat 32 (s.rdLe a 4)).toNat = s.rdBytes a 4 := by
  have hl := s.length_rdBytes a 4
  have hlt := leNat_lt (s.rdBytes a 4)
  have hb := leBytes_leNat (s.rdBytes a 4)
  rw [hl] at hlt hb
  rw [BitVec.toNat_ofNat, State.rdLe, Nat.mod_eq_of_lt (by omega), hb]

/-! ### BAR2 -/

theorem State.eccCheck_of_nil {s : State} (h : s.ecc = []) (a n : Nat) : s.eccCheck a n = (none, s) := by
  simp [State.eccCheck, h, tget]

theorem State.bar2Word_sram {s : State} (h : s.ecc = []) {o : Nat} (ho : o < 0x2000000) :
    s.bar2Word o = ((BitVec.ofNat 32 (s.rdLe (sram o) 4), false), s) := by
  unfold State.bar2Word
  rw [if_pos ho, State.eccCheck_of_nil h]
  rfl

theorem State.bar2Words_sram {s : State} (h : s.ecc = []) (o n : Nat) (ho : o + 4 * n < 0x2000004) :
    s.bar2Words o n = ((s.rdBytes (sram o) (4 * n), false), s) := by
  induction n generalizing o with
  | zero => rfl
  | succ n ih =>
    have ha : sram (o + 4) = sram o + 4 := by simp [sram, Nat.add_assoc]
    rw [State.bar2Words, State.bar2Word_sram h (by omega)]
    dsimp only
    rw [ih (o + 4) (by omega), s.leBytes_rdLe, ha, Nat.mul_succ, Nat.add_comm (4 * n), s.rdBytes_add]
    rfl

/-- Bytes inside a run that is read as a whole. -/
theorem State.take_drop_rdBytes (s : State) (a k len n : Nat) (h : k + len ≤ n) :
    ((s.rdBytes a n).drop k).take len = s.rdBytes (a + k) len := by
  obtain ⟨m, rfl⟩ := Nat.exists_eq_add_of_le h
  rw [Nat.add_assoc, s.rdBytes_add, s.rdBytes_add, List.drop_left' (s.length_rdBytes _ _), List.take_left' (s.length_rdBytes _ _)]

theorem bar2Read_sram (s : State) (p : Fin 2) (off len : Nat) (hr : s.pwr.inReset = false) (hu : (s.port p).up = true)
    (hd : (s.port p).d3 = false) (he : s.ecc = []) (hl : off + len ≤ 0x2000000) : Answers (.bar2Read p off len) s fun t =>
      t = { s with out := .cpl p (s.rdBytes (sram off) len) false :: s.out } := by
  have hw := State.bar2Words_sram he (off / 4 * 4) ((off % 4 + len + 3) / 4) (by omega)
  have ho : sram (off / 4 * 4) + off % 4 = sram off := by simp only [sram]; omega
  have hb := s.take_drop_rdBytes (sram (off / 4 * 4)) (off % 4) len (4 * ((off % 4 + len + 3) / 4)) (by omega)
  rw [ho] at hb
  refine ⟨_, ?_, rfl⟩
  show execBar2Read p off len s = _
  simp [execBar2Read, hr, hu, hd, hw, hb]

theorem bar2Read_mirror (s : State) (p : Fin 2) (o : Nat) (hr : s.pwr.inReset = false) (hu : (s.port p).up = true)
    (hd : (s.port p).d3 = false) (ho : o < 0x80000) (h4 : o % 4 = 0) : Answers (.bar2Read p (0x9000000 + o) 4) s fun t =>
      t = { s with out := .cpl p (leBytes 4 (s.devPeek (0x70000000 + o)).toNat) false :: s.out } := by
  have hm : (0x9000000 + o) % 4 = 0 := by omega
  have ha : (0x9000000 + o) / 4 * 4 = 0x9000000 + o := by omega
  have hw : s.bar2Word (0x9000000 + o) = ((s.devPeek (0x70000000 + o), false), s) := by
    have hs : 0x70000000 + (0x9000000 + o - 0x9000000) = 0x70000000 + o := by omega
    unfold State.bar2Word
    rw [if_neg (by omega), if_neg (by simp only [Bool.and_eq_true, decide_eq_true_eq]; omega),
      if_pos (by simp only [Bool.and_eq_true, decide_eq_true_eq]; omega), hs]
  refine ⟨_, ?_, rfl⟩
  show execBar2Read p (0x9000000 + o) 4 s = _
  simp [execBar2Read, hr, hu, hd, hm, ha, State.bar2Words, hw, leBytes]

/-! ### Stream records -/

theorem State.noteCe_frame (s : State) (mid : Nat) : ∃ r h, s.noteCe mid = { s with regs := r, hubq := h } :=
  State.flagOnce_frame _ _ _ _ _ _

theorem State.noteUe_frame (s : State) (mid off b : Nat) : ∃ r h, s.noteUe mid off b = { s with regs := r, hubq := h } :=
  State.flagOnce_frame _ _ _ _ _ _

/-- What a read of memory may change: it counts the errors that it meets, in registers and with events. -/
theorem State.eccCheck_frame (s : State) (a n : Nat) : ∃ r h, (s.eccCheck a n).2 = { s with regs := r, hubq := h } := by
  unfold State.eccCheck
  refine List.foldlRecOn (motive := fun x : Option Nat × State => ∃ r h, x.2 = { s with regs := r, hubq := h })
    (List.range n) _ ⟨_, _, rfl⟩ ?_
  rintro ⟨o, _⟩ ⟨r, h, rfl⟩ i -
  dsimp only
  split
  · exact ⟨_, _, rfl⟩
  · exact (State.noteCe_frame _ _).imp fun _ ⟨h, e⟩ => ⟨h, e⟩
  · exact (State.noteUe_frame _ _ _ _).imp fun _ ⟨h, e⟩ => ⟨h, e⟩

theorem State.bar2Word_frame {s : State} (hs : ∀ n : Fin 16, (s.fc n).switching = false) (o : Nat) :
    ∃ r h, (s.bar2Word o).2 = { s with regs := r, hubq := h } := by
  unfold State.bar2Word
  split
  · exact s.eccCheck_frame _ _
  split
  · rw [State.accWait_of_not_switching hs]
    exact ⟨_, _, rfl⟩
  split <;> exact ⟨_, _, rfl⟩

theorem State.streamWord_frame {s : State} (hs : ∀ n : Fin 16, (s.fc n).switching = false) (a : Nat) :
    ∃ r h, (s.streamWord a).2 = { s with regs := r, hubq := h } := by
  unfold State.streamWord
  split
  · obtain ⟨r, h, e⟩ := State.bar2Word_frame hs (a - 0x40000000)
    split
    next v b t eq =>
      rw [eq] at e
      exact ⟨r, h, e⟩
  split
  · exact ⟨_, _, rfl⟩
  · rw [State.accWait_of_not_switching hs]
    exact ⟨_, _, rfl⟩

theorem State.streamWords_frame {s : State} (hs : ∀ n : Fin 16, (s.fc n).switching = false) (l : List Nat) :
    ∃ r h, (s.streamWords l).2 = { s with regs := r, hubq := h } := by
  induction l generalizing s with
  | nil => exact ⟨_, _, rfl⟩
  | cons a l ih =>
    obtain ⟨r, h, e⟩ := State.streamWord_frame hs a
    generalize hw : s.streamWord a = x at e
    rw [State.streamWords, hw]
    obtain ⟨v, t⟩ := x
    dsimp only at e ⊢
    subst e
    exact ih (s := { s with regs := r, hubq := h }) hs

@[simp] theorem length_leBytes (n v : Nat) : (leBytes n v).length = n := by
  induction n generalizing v with
  | zero => rfl
  | succ n ih => simp [leBytes, ih]

theorem State.ts_atTs (s : State) (t : Nat) : (s.atTs t).ts = if s.ts < t then t % 2 ^ 64 else s.ts := by
  unfold State.atTs
  split <;> rfl

/-- The record of a stream: time stamp, sequence number, cycle, the words read, sequence number (R375). -/
def streamRec (ts seq cnt : Nat) (l : List Byte) : List Byte :=
  leBytes 8 ts ++ leBytes 4 seq ++ leBytes 4 cnt ++ (l ++ List.replicate 44 0).take 44 ++ leBytes 4 seq

theorem length_streamRec (ts seq cnt : Nat) (l : List Byte) : (streamRec ts seq cnt l).length = 64 := by
  simp [streamRec]

theorem take_streamRec (ts seq cnt : Nat) (l : List Byte) :
    (streamRec ts seq cnt l).take 16 = leBytes 8 ts ++ leBytes 4 seq ++ leBytes 4 cnt := by
  unfold streamRec
  rw [List.append_assoc (_ ++ _ ++ _)]
  exact List.take_left' (by simp)

theorem drop_streamRec (ts seq cnt : Nat) (l : List Byte) : (streamRec ts seq cnt l).drop 60 = leBytes 4 seq :=
  List.drop_left' (by simp)

/-- A due record, where the stream asks for no message: the words are read at tick 720, the record and its write-back go out. -/
theorem execStreamRecord_of_due {s u : State} {p : Fin 2} {k : Fin 16} {x : Stream} {ts seq cnt : Nat} {l : List Byte}
    (hx : s.stream p k = some x) (hd : x.due = some (ts, seq, cnt)) (hp : s.portOk p = true) (hi : x.irq = false)
    (hw : (s.atTs ((ts + 720) % 2 ^ 64)).streamWords x.words = (l, u)) :
    execStreamRecord p k s = .next (((u.hostWrite p (x.ring + 64 * (seq % 2 ^ x.sizeExp)) (streamRec ts seq cnt l)).hostWrite p
      x.twb (leBytes 4 (seq + 1))).setStream p k (some { x with due := none, written := x.written + 1, lastSeq := seq })) := by
  simp only [execStreamRecord, hx, hd, hp, hi, hw]
  rfl

theorem streamRecord_delivers (s : State) (p : Fin 2) (k : Fin 16) (x : Stream) (ts seq cnt : Nat) (hx : s.stream p k = some x)
    (hd : x.due = some (ts, seq, cnt)) (hp : s.portOk p = true) (hi : x.irq = false)
    (hs : ∀ n : Fin 16, (s.fc n).switching = false) : Answers (.streamRecord p k) s fun t =>
      t.mem = s.mem ∧ t.ts = (if s.ts < (ts + 720) % 2 ^ 64 then (ts + 720) % 2 ^ 64 else s.ts) ∧
      t.stream p k = some { x with due := none, written := x.written + 1, lastSeq := seq } ∧
      ∃ b, t.out = .wr p x.twb (leBytes 4 (seq + 1)) :: .wr p (x.ring + 64 * (seq % 2 ^ x.sizeExp)) b :: s.out ∧
        b.length = 64 ∧ b.take 16 = leBytes 8 ts ++ leBytes 4 seq ++ leBytes 4 cnt ∧ b.drop 60 = leBytes 4 seq := by
  have hf : ∀ n : Fin 16, ((s.atTs ((ts + 720) % 2 ^ 64)).fc n).switching = false := by simpa [State.fc] using hs
  obtain ⟨r, h, e⟩ := State.streamWords_frame hf x.words
  generalize hw : (s.atTs ((ts + 720) % 2 ^ 64)).streamWords x.words = y at e
  obtain ⟨l, u⟩ := y
  have hmem : u.mem = s.mem := (congrArg State.mem e).trans (by simp)
  have hout : u.out = s.out := (congrArg State.out e).trans (by simp)
  have hts : u.ts = if s.ts < (ts + 720) % 2 ^ 64 then (ts + 720) % 2 ^ 64 else s.ts := by
    simpa [State.ts_atTs] using congrArg State.ts e
  refine ⟨_, execStreamRecord_of_due hx hd hp hi hw, hmem, hts, ?_, streamRec ts seq cnt l, ?_, length_streamRec _ _ _ _,
    take_streamRec _ _ _ _, drop_streamRec _ _ _ _⟩
  · simp [State.stream, State.setStream]
  · simp [State.setStream, State.hostWrite, hout]

end Sys2Proof.Machine

open Sys2Proof.Machine

/-- Settles O36, clause by clause. -/
theorem registerAccessesFollowTheirCodes : Obligations.RegisterAccessesFollowTheirCodes :=
  ⟨fun s who _ v h => ⟨s, exec_registerWrite_ignored who v h, rfl⟩, registerWrite_follows_codes, registerWrite_cycLen_running,
    holdingCopyRead_fills, bar2Read_sram, bar2Read_mirror, streamRecord_delivers⟩

end
section
/-! The control cycle (O11, O16). Two layers stand under both. First, what operations leave alone besides memories and TS: the time,
the Keeper, the interrupt lines and what a projection keeps of the FCs' hidden state. Second, which registers they leave alone: the
registers of the FC windows stand below 0x7000_0000, window by window of 0x10_0000 bytes, and the offset in the window says which
unit a register belongs to (R430). -/

namespace Sys2Proof.Machine

/-! ### What operations keep of the hidden state -/

/-- The time, the Keeper, the interrupt lines, and what `π` shows of the hidden state of each FC. -/
def State.still {τ : Type} (π : FcSt → τ) (s : State) : Nat × KeepSt × Tbl DWord × (Nat → τ) :=
  (s.tick, s.keep, s.irq, fun n => π (s.fc n))

/-- The hidden state of an FC without what the units behind its cycle keep there: latched words, observer states, shaper, engines. -/
def FcSt.clock (x : FcSt) : FcSt :=
  { x with lat := [], obsX := [], shPos := [], shRate := [], shTgt := [], shSgn := [], eng := [] }

section still

variable {τ : Type} {π : FcSt → τ}

theorem State.tick_of_still {s t : State} (h : t.still π = s.still π) : t.tick = s.tick := congrArg Prod.fst h
theorem State.keep_of_still {s t : State} (h : t.still π = s.still π) : t.keep = s.keep := congrArg (·.2.1) h
theorem State.irq_of_still {s t : State} (h : t.still π = s.still π) : t.irq = s.irq := congrArg (·.2.2.1) h
theorem State.fc_of_still {s t : State} (h : t.still π = s.still π) (n : Nat) : π (t.fc n) = π (s.fc n) :=
  congrFun (congrArg (·.2.2.2) h) n

/-- A record update keeps `still` when it names none of its fields. -/
@[simp] theorem still_mk
    (pending tick ts free regs hold mem lanes fcs slots cmps tripOut staged pwms towIn towOut safePinExt safeDriven irq
    hubq banks cs adcs ports keep out evtRise wears tags ecc resv slewNext syncDue syncOut alarms dropped scrub imgFill
    rel dmas dmaHold mcs cores dmaFree pwr rings outFell latchTick towRx) :
    (State.mk pending tick ts free regs hold mem lanes fcs slots cmps tripOut staged pwms towIn towOut safePinExt safeDriven irq
      hubq banks cs adcs ports keep out evtRise wears tags ecc resv slewNext syncDue syncOut alarms dropped scrub imgFill
      rel dmas dmaHold mcs cores dmaFree pwr rings outFell latchTick towRx).still π =
        (tick, keep, irq, fun n => π (tget FcSt.init fcs n)) := rfl

/-- The four parts of one state are its `still`. -/
@[simp] theorem still_fold (s : State) : (s.tick, s.keep, s.irq, fun n => π (tget FcSt.init s.fcs n)) = s.still π := rfl

@[simp] theorem still_ite (c : Prop) [Decidable c] (a b : State) :
    (if c then a else b).still π = if c then a.still π else b.still π := apply_ite _ _ _ _

@[simp] theorem still_forN (n : Nat) (f : Nat → State → State) (s : State) (h : ∀ i s, (f i s).still π = s.still π) :
    (forN n f s).still π = s.still π := forN_frame (State.still π) n f s fun i _ s => h i s

@[simp] theorem still_foldl {α : Type} (l : List α) (f : State → α → State) (s : State)
    (h : ∀ s x, (f s x).still π = s.still π) : (l.foldl f s).still π = s.still π := foldl_frame (State.still π) l f s h

@[simp] theorem State.still_wr (s : State) (a : Nat) (v : Word) : (s.wr a v).still π = s.still π := by simp [State.wr]
@[simp] theorem State.still_sf (s : State) (a : Nat) (f : Fld) (x : Nat) : (s.sf a f x).still π = s.still π := by simp [State.sf]
@[simp] theorem State.still_sb (s : State) (a : Nat) (f : Fld) (b : Bool) : (s.sb a f b).still π = s.still π := by simp [State.sb]
@[simp] theorem State.still_flag (s : State) (a : Nat) (f : Fld) : (s.flag a f).still π = s.still π := by simp [State.flag]
@[simp] theorem State.still_w64 (s : State) (a v : Nat) : (s.w64 a v).still π = s.still π := by simp [State.w64]
@[simp] theorem State.still_incSat (s : State) (a : Nat) (f : Fld) : (s.incSat a f).still π = s.still π := by simp [State.incSat]
@[simp] theorem State.still_mapLane (s : State) (l : Nat) (f : Lane → Lane) : (s.mapLane l f).still π = s.still π := by
  simp [State.mapLane]

@[simp] theorem State.still_mapSlot (s : State) (n f : Nat) (g : SlotSt → SlotSt) : (s.mapSlot n f g).still π = s.still π := by
  simp [State.mapSlot]

@[simp] theorem State.still_mapCmp (s : State) (c : Nat) (f : CmpSt → CmpSt) : (s.mapCmp c f).still π = s.still π := by
  simp [State.mapCmp]
@[simp] theorem State.still_mapPwm (s : State) (k : Nat) (f : PwmSt → PwmSt) : (s.mapPwm k f).still π = s.still π := by
  simp [State.mapPwm]
@[simp] theorem State.still_mapAdc (s : State) (g : Nat) (f : AdcSt → AdcSt) : (s.mapAdc g f).still π = s.still π := by
  simp [State.mapAdc]
@[simp] theorem State.still_mapPort (s : State) (p : Nat) (f : PortSt → PortSt) : (s.mapPort p f).still π = s.still π := by
  simp [State.mapPort]

/-- A change of the hidden state of an FC that `π` does not show there. -/
theorem State.still_mapFc_at (s : State) (n : Nat) (f : FcSt → FcSt) (h : π (f (s.fc n)) = π (s.fc n)) :
    (s.mapFc n f).still π = s.still π := by
  have hf : (fun k => π ((s.mapFc n f).fc k)) = fun k => π (s.fc k) := funext fun k => by
    by_cases hk : k = n
    · rw [hk, State.fc_mapFc_self, h]
    · rw [State.fc_mapFc_ne _ _ hk]
  exact congrArg (fun g => (s.tick, s.keep, s.irq, g)) hf

@[simp] theorem State.still_mapFc (s : State) (n : Nat) (f : FcSt → FcSt) (h : ∀ x, π (f x) = π x) :
    (s.mapFc n f).still π = s.still π := s.still_mapFc_at n f (h _)

@[simp] theorem State.still_raise (s : State) (src code pay : Nat) : (s.raise src code pay).still π = s.still π := by
  obtain ⟨r, h, e⟩ := s.raise_frame src code pay
  rw [e]
  rfl

@[simp] theorem State.still_raiseIf (s : State) (c : Bool) (src code pay : Nat) :
    (s.raiseIf c src code pay).still π = s.still π := by
  simp [State.raiseIf]

@[simp] theorem State.still_flagOnce (s : State) (a : Nat) (f : Fld) (src code pay : Nat) :
    (s.flagOnce a f src code pay).still π = s.still π := by
  simp [State.flagOnce]

/-! #### Sluice -/

@[simp] theorem State.still_sluRefresh (s : State) : s.sluRefresh.still π = s.still π := by
  obtain ⟨r, c, p, e⟩ := s.sluRefresh_frame
  rw [e]
  rfl

@[simp] theorem State.still_setSource (k : Nat) (act out : Bool) (s : State) : (s.setSource k act out).still π = s.still π := by
  obtain ⟨r, h, y, l, c, p, t, o, e⟩ := s.setSource_frame k act out
  rw [e]
  rfl

@[simp] theorem State.still_setCause (n c : Nat) (on : Bool) (s : State) : (s.setCause n c on).still π = s.still π := by
  simp [State.setCause, State.setInternal]

@[simp] theorem State.still_boundary (tb : Nat) (s : State) : (s.boundary tb).still π = s.still π := by
  simp [State.boundary, State.publishCmp]

/-! #### Links and the cycle -/

@[simp] theorem State.still_lossEval (n f : Nat) (s : State) : (s.lossEval n f).still π = s.still π := by simp [State.lossEval]

@[simp] theorem State.still_lossOfLink (l : Nat) (s : State) : (s.lossOfLink l).still π = s.still π := by
  unfold State.lossOfLink
  split <;> simp

@[simp] theorem State.still_setLane (l st : Nat) (s : State) : (s.setLane l st).still π = s.still π := by
  simp [State.setLane, State.mapBit]

@[simp] theorem State.still_trainStart (l : Nat) (s : State) : (s.trainStart l).still π = s.still π := by simp [State.trainStart]

@[simp] theorem State.still_trainFail (l step : Nat) (s : State) : (s.trainFail l step).still π = s.still π := by
  simp [State.trainFail]

@[simp] theorem State.still_laneOff (l : Nat) (s : State) : (s.laneOff l).still π = s.still π := by simp [State.laneOff]

@[simp] theorem State.still_bypassReport (l st : Nat) (s : State) : (s.bypassReport l st).still π = s.still π := by
  simp [State.bypassReport]

@[simp] theorem State.still_trainStep (l k : Nat) (s : State) : (s.trainStep l k).still π = s.still π := by
  dsimp only [State.trainStep]
  (repeat' split) <;> simp

@[simp] theorem State.still_badBarge (l : Nat) (missing : Bool) (s : State) : (s.badBarge l missing).still π = s.still π := by
  simp [State.badBarge]

@[simp] theorem State.still_wrBytes (s : State) (a : Nat) (b : List Byte) : (s.wrBytes a b).still π = s.still π := by
  induction b generalizing s a with
  | nil => rfl
  | cons x b ih => exact ih _ _

@[simp] theorem State.still_mbxUp (l : Nat) (s : State) : (s.mbxUp l).still π = s.still π := by simp [State.mbxUp]

@[simp] theorem State.still_goodBarge (l : Nat) (b : List Byte) (s : State) : (s.goodBarge l b).still π = s.still π := by
  simp [State.goodBarge]

@[simp] theorem State.still_txRoll (l : Nat) (s : State) : (s.txRoll l).still π = s.still π := by simp [State.txRoll]
@[simp] theorem State.still_laneCycle (l : Nat) (s : State) : (s.laneCycle l).still π = s.still π := by simp [State.laneCycle]

@[simp] theorem State.still_mapEng (n e : Nat) (g : EngSt → EngSt) (s : State) :
    (s.mapEng n e g).still FcSt.clock = s.still FcSt.clock :=
  s.still_mapFc _ _ fun _ => rfl

@[simp] theorem State.still_wakeAll (n ev : Nat) (s : State) : (s.wakeAll n ev).still FcSt.clock = s.still FcSt.clock := by
  simp [State.wakeAll, State.wakeEng]

@[simp] theorem State.still_ovrEval (n : Nat) (s : State) : (s.ovrEval n).still π = s.still π := by simp [State.ovrEval]
@[simp] theorem State.still_consecClear (n : Nat) (s : State) : (s.consecClear n).still π = s.still π := by
  simp [State.consecClear]

@[simp] theorem State.still_judgeInner (n : Nat) (s : State) : (s.judgeInner n).still π = s.still π := by
  simp [State.judgeInner]

@[simp] theorem State.still_latchRegs (n : Nat) (s : State) : (s.latchRegs n).still FcSt.clock = s.still FcSt.clock := by
  unfold State.latchRegs
  generalize List.foldl _ _ _ = t
  exact s.still_mapFc _ _ fun _ => rfl

@[simp] theorem State.still_ctlPut (a : Nat) (v : Word) (s : State) : (s.ctlPut a v).still π = s.still π := by
  dsimp only [State.ctlPut]
  split <;> simp

/-! #### Analog inputs and the ledger -/

@[simp] theorem State.still_dropStep (g : Nat) (s : State) : (s.dropStep g).still π = s.still π := by simp [State.dropStep]

@[simp] theorem State.still_serve (g c : Nat) (s : State) : (s.serve g c).still π = s.still π := by
  unfold State.serve
  split <;> simp [State.takeOver, State.advanceNext]

@[simp] theorem State.still_holdCyc (g c t : Nat) (s : State) : (s.holdCyc g c t).still π = s.still π := by
  have hh : (State.holdCyc.hold g c t s).still π = s.still π := by simp [State.holdCyc.hold]
  unfold State.holdCyc
  split
  · split <;> simp [hh]
  · exact hh

@[simp] theorem State.still_holdChannels (n : Nat) (s : State) : (s.holdChannels n).still π = s.still π := by
  simp [State.holdChannels]

@[simp] theorem State.still_publishCyc (g c : Nat) (s : State) : (s.publishCyc g c).still π = s.still π := by
  unfold State.publishCyc
  split <;> simp [State.noteSat]

@[simp] theorem State.still_correct (n f l : Nat) (c : Int) (s : State) : (s.correct n f l c).still π = s.still π := by
  simp [State.correct]

@[simp] theorem State.still_resync (n f l : Nat) (s : State) : (s.resync n f l).still π = s.still π := by
  simp [State.resync, State.cellFlag]

@[simp] theorem State.still_reconcile (n f l v : Nat) (s : State) : (s.reconcile n f l v).still π = s.still π := by
  simp [State.reconcile, State.cellFlag]

@[simp] theorem State.still_ovCheck (n f l v : Nat) (s : State) : (s.ovCheck n f l v).still π = s.still π := by
  simp [State.ovCheck, State.ovEval, State.cellFlag]

@[simp] theorem State.still_ledGood (l v : Nat) (s : State) : (s.ledGood l v).still π = s.still π := by
  dsimp only [State.ledGood]
  split <;> simp

@[simp] theorem State.still_ledMiss (l : Nat) (s : State) : (s.ledMiss l).still π = s.still π := by
  unfold State.ledMiss
  split <;> simp

@[simp] theorem State.still_listenLane (l : Nat) (k : Word) (s : State) : (s.listenLane l k).still π = s.still π := by
  dsimp only [State.listenLane]
  (repeat' split) <;> simp

@[simp] theorem State.still_vestAll (n f : Nat) (s : State) : (s.vestAll n f).still π = s.still π := by simp [State.vestAll]
@[simp] theorem State.still_viewCell (l : Nat) (s : State) : (s.viewCell l).still π = s.still π := by simp [State.viewCell]
@[simp] theorem State.still_view (n f : Nat) (s : State) : (s.view n f).still π = s.still π := by simp [State.view]
@[simp] theorem State.still_seed (n f : Nat) (s : State) : (s.seed n f).still π = s.still π := by simp [State.seed]

@[simp] theorem State.still_qexpWatch (n f : Nat) (old : Tbl Word) (s : State) : (s.qexpWatch n f old).still π = s.still π := by
  simp [State.qexpWatch]

/-! #### Balancer, observer and flights -/

@[simp] theorem State.still_admitLane (n f l : Nat) (s : State) : (s.admitLane n f l).still π = s.still π := by
  simp [State.admitLane, State.reject]

@[simp] theorem State.still_fixAvail (n f : Nat) (s : State) : (s.fixAvail n f).still π = s.still π := by
  dsimp only [State.fixAvail]
  (repeat' split) <;> simp

@[simp] theorem State.still_direction (n f : Nat) (s : State) : (s.direction n f).still π = s.still π := by
  simp [State.direction]

@[simp] theorem State.still_keys (n f : Nat) (s : State) : (s.keys n f).still π = s.still π := by simp [State.keys]

@[simp] theorem State.still_correctFlight (n f : Nat) (s : State) : (s.correctFlight n f).still π = s.still π := by
  simp [State.correctFlight]

@[simp] theorem State.still_setXinit (n f : Nat) (l : List Byte) (s : State) :
    (s.setXinit n f l).still FcSt.clock = s.still FcSt.clock :=
  s.still_mapFc _ _ fun _ => rfl

@[simp] theorem State.still_takeXinit (n f : Nat) (s : State) : (s.takeXinit n f).still FcSt.clock = s.still FcSt.clock := by
  dsimp only [State.takeXinit]
  (repeat' split) <;> simp

@[simp] theorem State.still_shaperCh (n ch : Nat) (s : State) : (s.shaperCh n ch).still FcSt.clock = s.still FcSt.clock := by
  dsimp only [State.shaperCh]
  (repeat' split) <;> simp <;> exact s.still_mapFc _ _ fun _ => rfl

@[simp] theorem State.still_latchLimits (n : Nat) (old : Tbl Word) (s : State) :
    (s.latchLimits n old).still FcSt.clock = s.still FcSt.clock := by
  refine still_forN _ _ _ fun j t => ?_
  dsimp only
  (repeat' split) <;> simp <;> exact t.still_mapFc _ _ fun _ => rfl

@[simp] theorem State.still_startEffects (n f : Nat) (s : State) : (s.startEffects n f).still π = s.still π := by
  simp [State.startEffects]

@[simp] theorem State.still_setFlt (n f new : Nat) (s : State) : (s.setFlt n f new).still π = s.still π := by
  simp [State.setFlt, State.slewRefresh]

@[simp] theorem State.still_heldFlt (n f : Nat) (s : State) : (s.heldFlt n f).still π = s.still π := by
  unfold State.heldFlt
  split <;> simp

@[simp] theorem State.still_autoFlt (n f : Nat) (s : State) : (s.autoFlt n f).still π = s.still π := by
  dsimp only [State.autoFlt]
  (repeat' split) <;> simp

/-! #### The sample instant -/

@[simp] theorem State.still_latchAll (n : Nat) (s : State) : (s.latchAll n).still FcSt.clock = s.still FcSt.clock := by
  simp [State.latchAll]

@[simp] theorem State.still_latchTgts (n : Nat) (s : State) : (s.latchTgts n).still FcSt.clock = s.still FcSt.clock := by
  exact still_forN _ _ _ fun _ t => t.still_mapFc _ _ fun _ => rfl

@[simp] theorem State.still_streamsDue (m : Nat) (s : State) : (s.streamsDue m).still π = s.still π := by
  refine still_forN _ _ _ fun p t => still_forN _ _ _ fun k u => ?_
  split <;> simp [State.streamDue, State.setStream]

@[simp] theorem State.still_towTo (k sync t : Nat) (s : State) : (s.towTo k sync t).still π = s.still π := by simp [State.towTo]

end still

end Sys2Proof.Machine
end
section
/-! Which registers the units around the control cycle leave alone. -/

namespace Sys2Proof.Machine

/-! ### Registers: the primitive updates -/

theorem foldl_frame_mem {σ τ α : Type} (g : σ → τ) (l : List α) (f : σ → α → σ) (s : σ)
    (h : ∀ x ∈ l, ∀ s, g (f s x) = g s) : g (l.foldl f s) = g s :=
  List.foldlRecOn (motive := fun t => g t = g s) l f rfl fun t ht x hx => (h x hx t).trans ht

section regs

variable {a : Nat}

theorem State.rg_flag_ne (s : State) {b : Nat} (f : Fld) (h : a ≠ b) : (s.flag b f).rg a = s.rg a := s.rg_sf_ne f 1 h
theorem State.rg_sb_ne (s : State) {b : Nat} (f : Fld) (c : Bool) (h : a ≠ b) : (s.sb b f c).rg a = s.rg a := s.rg_sf_ne f _ h
theorem State.rg_incSat_ne (s : State) {b : Nat} (f : Fld) (h : a ≠ b) : (s.incSat b f).rg a = s.rg a := s.rg_sf_ne f _ h

theorem State.rg_w64_ne (s : State) {b : Nat} (v : Nat) (h : a ≠ b) (h4 : a ≠ b + 4) : (s.w64 b v).rg a = s.rg a :=
  (State.rg_wr_ne _ _ h4).trans (s.rg_wr_ne _ h)

@[simp] theorem State.rg_mapLane (s : State) (l : Nat) (f : Lane → Lane) : (s.mapLane l f).rg a = s.rg a := rfl
@[simp] theorem State.rg_mapFc (s : State) (n : Nat) (f : FcSt → FcSt) : (s.mapFc n f).rg a = s.rg a := rfl
@[simp] theorem State.rg_mapSlot (s : State) (n f : Nat) (g : SlotSt → SlotSt) : (s.mapSlot n f g).rg a = s.rg a := rfl
@[simp] theorem State.rg_mapCmp (s : State) (c : Nat) (f : CmpSt → CmpSt) : (s.mapCmp c f).rg a = s.rg a := rfl
@[simp] theorem State.rg_mapPwm (s : State) (k : Nat) (f : PwmSt → PwmSt) : (s.mapPwm k f).rg a = s.rg a := rfl
@[simp] theorem State.rg_mapAdc (s : State) (g : Nat) (f : AdcSt → AdcSt) : (s.mapAdc g f).rg a = s.rg a := rfl
@[simp] theorem State.rg_mapPort (s : State) (p : Nat) (f : PortSt → PortSt) : (s.mapPort p f).rg a = s.rg a := rfl
@[simp] theorem State.rg_line (s : State) (p l : Nat) : (s.line p l).rg a = s.rg a := rfl

@[simp] theorem State.rg_ite (c : Prop) [Decidable c] (s t : State) :
    (if c then s else t).rg a = if c then s.rg a else t.rg a := apply_ite (State.rg · a) _ _ _

/-- Raising an event writes in the event hub alone. -/
theorem State.rg_raise_below (s : State) (src code pay : Nat) (ha : a < 0x70040000) : (s.raise src code pay).rg a = s.rg a :=
  s.rg_raise src code pay a fun q _ => by
    unfold Reg.EVT_QGEN
    omega

theorem State.rg_raiseIf_below (s : State) (c : Bool) (src code pay : Nat) (ha : a < 0x70040000) :
    (s.raiseIf c src code pay).rg a = s.rg a := by
  simp [State.raiseIf, State.rg_raise_below, ha]

theorem State.rg_flagOnce_ne (s : State) {b : Nat} (f : Fld) (src code pay : Nat) (ha : a < 0x70040000) (h : a ≠ b) :
    (s.flagOnce b f src code pay).rg a = s.rg a := by
  simp [State.flagOnce, State.rg_raiseIf_below, State.rg_flag_ne, ha, h]

/-! ### Sluice -/

/-- A register that no latch, source, comparator output or safe level shows in: one of an FC window, or the causes of an FC. -/
abbrev OffSluice (a : Nat) : Prop := a < 0x70000000 ∨ 0x700300C0 ≤ a ∧ a < 0x70030100

theorem State.rg_latchGroup (s : State) (g : Nat) (ha : OffSluice a) : (s.latchGroup g).rg a = s.rg a := by
  obtain ⟨y, e⟩ := State.noteTrip_frame { s with latchTick := tput s.latchTick g s.tick } g
  unfold State.latchGroup
  rw [e]
  simp (disch := omega) only [State.showLatch, State.rg_raise_below, State.rg_w64_ne, State.rg_incSat_ne, State.rg_sf_ne,
    Reg.SLU_GSTAT, Reg.SLU_GTS_LO]
  rfl

theorem State.rg_pwmMakeSafe (s : State) {k : Nat} (hk : k < 32) (ha : OffSluice a) : (s.pwmMakeSafe k).rg a = s.rg a := by
  obtain ⟨c, p, e⟩ := s.setOut_frame k (s.bit (Reg.PWM_CTRL k) F.PWM_CTRL_SAFE_A) (s.bit (Reg.PWM_CTRL k) F.PWM_CTRL_SAFE_B)
  unfold State.pwmMakeSafe
  rw [e]
  simp (disch := omega) only [State.rg_flag_ne, State.rg_mapPwm, Reg.PWM_STAT]
  rfl

theorem State.rg_sluRefresh (s : State) (ha : OffSluice a) : s.sluRefresh.rg a = s.rg a := by
  unfold State.sluRefresh
  refine (forN_frame (fun t : State => t.rg a) 32 _ _ fun k hk t => ?_).trans ?_
  · simp [State.rg_pwmMakeSafe _ hk ha]
  simp (disch := omega) only [State.rg_wr_ne, Reg.SLU_LATCHED, Reg.SLU_FLT_BLOCK, Reg.SLU_FLT_FREEZE, Reg.SLU_PWM_SAFE]
  refine forN_frame (fun t : State => t.rg a) 32 _ _ fun g _ t => ?_
  simp (disch := omega) only [State.rg_sb_ne, Reg.SLU_GSTAT]

theorem State.rg_sluEval (s : State) (ha : OffSluice a) : s.sluEval.rg a = s.rg a := by
  unfold State.sluEval
  refine (State.rg_sluRefresh _ ha).trans (forN_frame (fun t : State => t.rg a) 32 _ _ fun g _ t => ?_)
  simp [State.rg_latchGroup _ _ ha]

theorem State.rg_setTrip (s : State) (k : Nat) (out : Bool) (ha : OffSluice a) : (s.setTrip k out).rg a = s.rg a := by
  unfold State.setTrip
  split
  · rfl
  split
  · refine forN_frame (fun t : State => t.rg a) 32 _ _ fun g _ t => ?_
    unfold State.reviseFirst
    dsimp only
    split
    · simp (disch := omega) only [State.rg_sf_ne, Reg.SLU_GSTAT]
      rfl
    · rfl
  · rfl

theorem State.rg_setSource (s : State) (k : Nat) (act out : Bool) (ha : OffSluice a) (hk : a ≠ Reg.SLU_SRC_ACT (k / 32)) :
    (s.setSource k act out).rg a = s.rg a := by
  simp only [State.setSource, State.rg_sluEval _ ha, State.rg_setTrip _ _ _ ha, State.rg_wr_ne _ _ hk]

/-- A cause that changes shows in SLU_FCSRC, and behind it in the Sluice alone (R168). -/
theorem State.rg_setCause_src (s : State) (n c : Nat) (on : Bool) (ha : OffSluice a) (hk : a ≠ Reg.SLU_SRC_ACT ((144 + n) / 32)) :
    (s.setCause n c on).rg a = (s.wr (Reg.SLU_FCSRC n) (BitVec.ofNat 32 (setBit (s.rn (Reg.SLU_FCSRC n)) c on))).rg a := by
  unfold State.setCause State.setInternal
  dsimp only
  split
  · rfl
  · exact State.rg_setSource _ _ _ _ ha hk

theorem State.rg_setCause (s : State) (n c : Nat) (on : Bool) (ha : a < 0x70000000) : (s.setCause n c on).rg a = s.rg a :=
  (s.rg_setCause_src n c on (.inl ha) (by unfold Reg.SLU_SRC_ACT; omega)).trans
    (s.rg_wr_ne _ (by unfold Reg.SLU_FCSRC; omega))

/-! ### Links -/

theorem State.rg_lossEval (s : State) (n f : Nat) (ha : a < 0x70000000) (h : a % 0x100000 ≠ 0x2008) :
    (s.lossEval n f).rg a = s.rg a := by
  simp (disch := omega) [State.lossEval, State.rg_setCause _ _ _ _ ha, State.rg_flag_ne, State.rg_sf_ne, Reg.LNK_LOSS_STAT]

theorem State.rg_lossOfLink (s : State) (l : Nat) (ha : a < 0x70000000) (h : a % 0x100000 ≠ 0x2008) :
    (s.lossOfLink l).rg a = s.rg a := by
  unfold State.lossOfLink
  split
  · exact State.rg_lossEval _ _ _ ha h
  · rfl

/-- A lane that takes a state writes its own LNK_STAT and the maps and counts of the link block, which stand from offset 0x2008 to
0x201F. -/
theorem State.rg_setLane (s : State) {l : Nat} (st : Nat) (ha : a < 0x70000000)
    (h : a % 0x100000 < 0x2000 ∨ 0x2020 ≤ a % 0x100000) (hl : a ≠ lnkStat l) : (s.setLane l st).rg a = s.rg a := by
  simp (disch := omega) [State.setLane, State.mapBit, State.rg_lossOfLink _ _ ha, State.rg_wr_ne, State.rg_sf_ne _ _ _ hl,
    Reg.LNK_READY_LO, Reg.LNK_LOST_LO]

theorem State.rg_trainStart (s : State) {l : Nat} (ha : a < 0x70000000)
    (h : a % 0x100000 < 0x2000 ∨ 0x2020 ≤ a % 0x100000) (hl : a ≠ lnkStat l) : (s.trainStart l).rg a = s.rg a :=
  State.rg_setLane _ 1 ha h hl

theorem State.rg_laneOff (s : State) {l : Nat} (ha : a < 0x70000000)
    (h : a % 0x100000 < 0x2000 ∨ 0x2020 ≤ a % 0x100000) (hl : a ≠ lnkStat l) : (s.laneOff l).rg a = s.rg a :=
  State.rg_setLane _ 0 ha h hl

end regs

end Sys2Proof.Machine
end
section
/-! RUN, the Inner pair's obligation and its overrun limit (O11). -/

namespace Sys2Proof.Machine

/-! ### Fields of registers -/

theorem State.fld_of_rg {s t : State} {a : Nat} (h : t.rg a = s.rg a) (f : Fld) : t.fld a f = s.fld a f :=
  congrArg (fget · f) h

theorem State.bit_of_rg {s t : State} {a : Nat} (h : t.rg a = s.rg a) (f : Fld) : t.bit a f = s.bit a f :=
  congrArg (fun v => fget v f != 0) h

theorem State.bit_sf_self (s : State) (a : Nat) (f : Fld) (x : Nat) (h : f.lo + f.w ≤ 32) :
    (s.sf a f x).bit a f = (x % 2 ^ f.w != 0) := by
  rw [State.bit, State.fld_sf_self _ _ _ _ h]

theorem State.laneState_of_rg {s t : State} {l : Nat} (h : t.rg (lnkStat l) = s.rg (lnkStat l)) : t.laneState l = s.laneState l :=
  State.fld_of_rg h _

theorem State.mem_of_memTs {s t : State} (h : t.memTs = s.memTs) : t.mem = s.mem := congrArg Prod.fst h

/-! ### RUN = 1 -/

/-- The first sample instant at or after `t` (R21). -/
theorem sampleAfter_spec (t : Nat) {cyc ph : Nat} (h : ph < cyc) :
    t ≤ sampleAfter t cyc ph ∧ sampleAfter t cyc ph < t + cyc ∧ sampleAfter t cyc ph % cyc = ph := by
  have hc : 0 < cyc := by omega
  have hr := Nat.mod_lt t hc
  have hlt := Nat.mod_lt (cyc + ph - t % cyc) hc
  refine ⟨Nat.le_add_right _ _, Nat.add_lt_add_left hlt _, ?_⟩
  have e : t + (cyc + ph - t % cyc) = ph + cyc * (t / cyc + 1) := by
    have := Nat.div_add_mod t cyc
    rw [Nat.mul_add]
    omega
  rw [sampleAfter, Nat.add_mod_mod, e, Nat.add_mul_mod_self_left, Nat.mod_eq_of_lt h]

/-- What an accepted RUN = 1 starts on one FC: its Lock engines at word 0, training on its enabled lanes (R48, R299). -/
def State.startFc (s : State) (m : Nat) : State :=
  let s := forN 8 (fun e s => s.mapEng m e fun x => { x with pc := 0, run := 0, waits := 0 }) s
  forN 64 (fun i s =>
    if s.bit (Reg.LNK_CTRL m i) F.LNK_CTRL_ENABLE && s.laneState (64 * m + i) == 0 then s.trainStart (64 * m + i) else s) s

@[simp] theorem State.still_startFc (s : State) (m : Nat) : (s.startFc m).still FcSt.clock = s.still FcSt.clock := by
  simp [State.startFc]

theorem lnkStat_lane (m : Nat) {i : Nat} (hi : i < 64) : lnkStat (64 * m + i) = 0x60001008 + 0x100000 * m + 0x40 * i := by
  unfold lnkStat Reg.LNK_STAT
  omega

theorem State.rg_startFc (s : State) (m : Nat) {n : Nat} (hn : n < 16) :
    (s.startFc m).rg (Reg.FC_CYC_CTRL n) = s.rg (Reg.FC_CYC_CTRL n) := by
  unfold State.startFc
  refine (forN_frame (fun t : State => t.rg (Reg.FC_CYC_CTRL n)) 64 _ _ fun i hi t => ?_).trans
    (forN_frame (fun t : State => t.rg (Reg.FC_CYC_CTRL n)) 8 _ _ fun e _ t => rfl)
  have hl := lnkStat_lane m hi
  split
  · refine t.rg_trainStart ?_ ?_ ?_ <;> unfold Reg.FC_CYC_CTRL <;> omega
  · rfl

/-- RUN = 1 where it is accepted (R22). -/
theorem State.runStart_of_ok {s : State} {n : Nat} (hf : s.follower n = false)
    (hr : s.bit (Reg.FC_CYC_CTRL n) F.FC_CYC_CTRL_RUN = false) (hR : s.bit (Reg.FC_CYC_STAT n) F.FC_CYC_STAT_RUNNING = false)
    (hok : (cycleOk (s.fld (Reg.FC_CYC_LEN n) F.FC_CYC_LEN_LEN) (s.fld (Reg.FC_CYC_PHASE n) F.FC_CYC_PHASE_PHASE)
      (s.fld (Reg.FC_APPLY_LAT n) F.FC_APPLY_LAT_LAT) && s.fcCan n) = true) :
    s.runStart n =
      let u := (s.flag (Reg.FC_CYC_CTRL n) F.FC_CYC_CTRL_RUN).mapFc n fun x =>
        { x with next := sampleAfter (s.ts + 1600) (200 * s.fld (Reg.FC_CYC_LEN n) F.FC_CYC_LEN_LEN)
                   (s.fld (Reg.FC_CYC_PHASE n) F.FC_CYC_PHASE_PHASE), started := false, done := [] }
      (u.cycleFcs n).foldl State.startFc u := by
  have hc : (!cycleOk (s.fld (Reg.FC_CYC_LEN n) F.FC_CYC_LEN_LEN) (s.fld (Reg.FC_CYC_PHASE n) F.FC_CYC_PHASE_PHASE)
      (s.fld (Reg.FC_APPLY_LAT n) F.FC_APPLY_LAT_LAT) || !s.fcCan n) = false := by
    rw [← Bool.not_and, hok]
    rfl
  unfold State.runStart
  simp only [hf, hr, hR, hc, Bool.false_eq_true, if_false]
  rfl

/-- RUN = 1 where its registers or stores do not allow it (R22, R285). -/
theorem State.runStart_of_not_ok {s : State} {n : Nat} (hf : s.follower n = false)
    (hr : s.bit (Reg.FC_CYC_CTRL n) F.FC_CYC_CTRL_RUN = false) (hR : s.bit (Reg.FC_CYC_STAT n) F.FC_CYC_STAT_RUNNING = false)
    (hok : (cycleOk (s.fld (Reg.FC_CYC_LEN n) F.FC_CYC_LEN_LEN) (s.fld (Reg.FC_CYC_PHASE n) F.FC_CYC_PHASE_PHASE)
      (s.fld (Reg.FC_APPLY_LAT n) F.FC_APPLY_LAT_LAT) && s.fcCan n) = false) : s.runStart n = s.cycErr n := by
  have hc : (!cycleOk (s.fld (Reg.FC_CYC_LEN n) F.FC_CYC_LEN_LEN) (s.fld (Reg.FC_CYC_PHASE n) F.FC_CYC_PHASE_PHASE)
      (s.fld (Reg.FC_APPLY_LAT n) F.FC_APPLY_LAT_LAT) || !s.fcCan n) = true := by
    rw [← Bool.not_and, hok]
    rfl
  unfold State.runStart
  simp only [hf, hr, hR, hc, Bool.false_eq_true, if_false, if_true]

theorem phase_lt_of_cycleOk {len ph lat : Nat} (h : cycleOk len ph lat = true) : ph < 200 * len := by
  simp only [cycleOk, Bool.and_eq_true, decide_eq_true_eq] at h
  exact h.1.1.2

theorem runStart_takes_effect (s : State) (n : Fin 16) (hf : s.follower n = false)
    (hr : s.bit (Reg.FC_CYC_CTRL n) F.FC_CYC_CTRL_RUN = false) (hR : s.bit (Reg.FC_CYC_STAT n) F.FC_CYC_STAT_RUNNING = false) :
    let len := s.fld (Reg.FC_CYC_LEN n) F.FC_CYC_LEN_LEN
    let ph := s.fld (Reg.FC_CYC_PHASE n) F.FC_CYC_PHASE_PHASE
    let ok := cycleOk len ph (s.fld (Reg.FC_APPLY_LAT n) F.FC_APPLY_LAT_LAT) && s.fcCan n
    Answers (.runStart n) s fun t =>
      t.mem = s.mem ∧
      (ok = true → t.bit (Reg.FC_CYC_CTRL n) F.FC_CYC_CTRL_RUN = true ∧ s.ts + 1600 ≤ (t.fc n).next ∧
        (t.fc n).next < s.ts + 1600 + 200 * len ∧ (t.fc n).next % (200 * len) = ph) ∧
      (ok = false → t = { s with regs := t.regs } ∧ t.bit (Reg.FC_CYC_STAT n) F.FC_CYC_STAT_CFG_ERR = true ∧
        t.bit (Reg.FC_CYC_CTRL n) F.FC_CYC_CTRL_RUN = false) := by
  intro len ph ok
  refine ⟨_, rfl, State.mem_of_memTs (s.memTs_runStart n), fun hok => ?_, fun hok => ?_⟩
  · obtain ⟨hlegal, -⟩ := Bool.and_eq_true_iff.1 hok
    obtain ⟨hle, hlt, hmod⟩ := sampleAfter_spec (s.ts + 1600) (phase_lt_of_cycleOk hlegal)
    rw [State.runStart_of_ok hf hr hR hok]
    extract_lets u
    have hs : ((u.cycleFcs n).foldl State.startFc u).still FcSt.clock = u.still FcSt.clock := by simp
    have hnext : (((u.cycleFcs n).foldl State.startFc u).fc n).next = sampleAfter (s.ts + 1600) (200 * len) ph :=
      (congrArg FcSt.next (State.fc_of_still hs n)).trans
        (congrArg FcSt.next (State.fc_mapFc_self (s.flag (Reg.FC_CYC_CTRL n) F.FC_CYC_CTRL_RUN) n _))
    have hrun : ((u.cycleFcs n).foldl State.startFc u).rg (Reg.FC_CYC_CTRL n) = u.rg (Reg.FC_CYC_CTRL n) :=
      foldl_frame (State.rg · (Reg.FC_CYC_CTRL n)) _ _ _ fun t m => t.rg_startFc m n.isLt
    rw [hnext]
    refine ⟨?_, hle, hlt, hmod⟩
    rw [State.bit_of_rg hrun]
    exact State.bit_sf_self s _ _ 1 (by decide)
  · rw [State.runStart_of_not_ok hf hr hR hok]
    refine ⟨rfl, State.bit_sf_self s _ _ 1 (by decide), ?_⟩
    rw [← hr]
    exact State.bit_of_rg (s.rg_sf_ne _ _ (by unfold Reg.FC_CYC_CTRL Reg.FC_CYC_STAT; omega)) _

/-! ### RUN = 0 -/

/-- The end of cycling on one FC: every lane that is not OFF goes there (R24). -/
def State.lanesOff (s : State) (m : Nat) : State :=
  forN 64 (fun i s => if s.laneState (64 * m + i) = 0 then s else s.laneOff (64 * m + i)) s

/-- A lane that goes to OFF leaves the other lanes in the states they have. -/
theorem State.laneState_laneOff_ne (s : State) {l k : Nat} (hk : k < 1024) (h : k ≠ l) :
    (s.laneOff l).laneState k = s.laneState k := by
  refine State.laneState_of_rg (s.rg_laneOff ?_ ?_ ?_) <;> unfold lnkStat Reg.LNK_STAT <;> omega

theorem State.laneState_setLane_self (s : State) {l : Nat} (hl : l < 1024) {st : Nat} (hst : st < 16) :
    (s.setLane l st).laneState l = st := by
  have hr : (s.setLane l st).rg (lnkStat l) = (s.sf (lnkStat l) F.LNK_STAT_STATE st).rg (lnkStat l) := by
    unfold State.setLane
    dsimp only
    rw [State.rg_lossOfLink _ _ (by unfold lnkStat Reg.LNK_STAT; omega) (by unfold lnkStat Reg.LNK_STAT; omega), State.rg_ite,
      State.rg_mapLane, ite_self]
    unfold State.mapBit
    dsimp only
    rw [State.rg_wr_ne _ _ (by unfold lnkStat Reg.LNK_STAT Reg.LNK_LOST_LO; omega),
      State.rg_wr_ne _ _ (by unfold lnkStat Reg.LNK_STAT Reg.LNK_READY_LO; omega)]
  rw [State.laneState, State.fld_of_rg hr, State.fld_sf_self _ _ _ _ (by decide)]
  exact Nat.mod_eq_of_lt hst

theorem State.laneState_lanesOff_ne (s : State) {m k : Nat} (hk : k < 1024) (h : k / 64 ≠ m) :
    (s.lanesOff m).laneState k = s.laneState k :=
  forN_frame (State.laneState · k) 64 _ s fun i hi t => by
    split
    · rfl
    · exact t.laneState_laneOff_ne hk (by omega)

/-- After the first `j` lanes of FC `m` have been taken to OFF, each of them stands there. -/
theorem State.laneState_forN_off (s : State) {m : Nat} (hm : m < 16) : ∀ j ≤ 64, ∀ i < j,
    (forN j (fun i s => if s.laneState (64 * m + i) = 0 then s else s.laneOff (64 * m + i)) s).laneState (64 * m + i) = 0 := by
  intro j hj
  induction j with
  | zero => intro i hi; omega
  | succ j ih =>
    intro i hi
    rw [forN_succ]
    have hs := ih (by omega)
    generalize forN j _ s = u at hs ⊢
    by_cases hij : i = j
    · subst hij
      split
      · assumption
      · exact State.laneState_setLane_self _ (by omega) (by decide)
    · split
      · exact hs i (by omega)
      · exact (u.laneState_laneOff_ne (by omega) (by omega)).trans (hs i (by omega))

theorem State.laneState_lanesOff (s : State) {m i : Nat} (hm : m < 16) (hi : i < 64) :
    (s.lanesOff m).laneState (64 * m + i) = 0 := s.laneState_forN_off hm 64 le_rfl i hi

theorem State.cycleEnd_eq (s : State) (n : Nat) : s.cycleEnd n =
    ((((s.cycleFcs n).foldl State.lanesOff s).mapFc n fun x => { x with started := false, done := [] }).sf
      (Reg.FC_CYC_STAT n) F.FC_CYC_STAT_RUNNING 0) := rfl

theorem State.ne_of_mem_followers {s : State} {n m : Nat}
    (h : m ∈ ((List.range 3).map (n + 1 + ·)).filter fun m => decide (m < 16) && s.follower m && s.leader m == n) : m ≠ n := by
  obtain ⟨h, -⟩ := List.mem_filter.1 h
  obtain ⟨i, -, rfl⟩ := List.mem_map.1 h
  omega

/-- Once cycling has ended, every lane of the FC is OFF. -/
theorem State.laneState_cycleEnd (s : State) {n i : Nat} (hn : n < 16) (hi : i < 64) :
    (s.cycleEnd n).laneState (64 * n + i) = 0 := by
  have hne : (s.cycleEnd n).rg (lnkStat (64 * n + i)) = ((s.cycleFcs n).foldl State.lanesOff s).rg (lnkStat (64 * n + i)) := by
    rw [State.cycleEnd_eq, State.rg_sf_ne _ _ _ (by unfold lnkStat Reg.LNK_STAT Reg.FC_CYC_STAT; omega), State.rg_mapFc]
  rw [State.laneState_of_rg hne]
  unfold State.cycleFcs
  rw [List.foldl_cons]
  refine (foldl_frame_mem (State.laneState · (64 * n + i)) _ _ _ fun m hm t => ?_).trans (s.laneState_lanesOff hn hi)
  exact t.laneState_lanesOff_ne (by omega) (by have := State.ne_of_mem_followers hm; omega)

theorem State.runStop_of_idle {s : State} {n : Nat} (hf : s.follower n = false)
    (hb : ∀ f, f < 2 → s.bound n f = true → s.fltState n f ≤ 1) :
    s.runStop n =
      let u := s.sf (Reg.FC_CYC_CTRL n) F.FC_CYC_CTRL_RUN 0
      if u.bit (Reg.FC_CYC_STAT n) F.FC_CYC_STAT_RUNNING then u else u.cycleEnd n := by
  have hany : ((List.range 2).any fun f => s.bound n f && decide (1 < s.fltState n f)) = false := by
    rw [List.any_eq_false]
    intro f hf
    have := hb f (List.mem_range.1 hf)
    cases hx : s.bound n f <;> simp_all
  unfold State.runStop
  simp only [hf, hany, Bool.false_eq_true, if_false]

theorem State.rg_lanesOff (s : State) {m n : Nat} (hn : n < 16) :
    (s.lanesOff m).rg (Reg.FC_CYC_CTRL n) = s.rg (Reg.FC_CYC_CTRL n) :=
  forN_frame (State.rg · (Reg.FC_CYC_CTRL n)) 64 _ s fun i hi t => by
    have hl := lnkStat_lane m hi
    split
    · rfl
    · refine t.rg_laneOff ?_ ?_ ?_ <;> unfold Reg.FC_CYC_CTRL <;> omega

theorem State.rg_cycleEnd_ctrl (s : State) {n : Nat} (hn : n < 16) :
    (s.cycleEnd n).rg (Reg.FC_CYC_CTRL n) = s.rg (Reg.FC_CYC_CTRL n) := by
  rw [State.cycleEnd_eq, State.rg_sf_ne _ _ _ (by unfold Reg.FC_CYC_CTRL Reg.FC_CYC_STAT; omega), State.rg_mapFc]
  exact foldl_frame (State.rg · (Reg.FC_CYC_CTRL n)) _ _ _ fun t m => t.rg_lanesOff hn

theorem runStop_takes_effect (s : State) (n : Fin 16) (hf : s.follower n = false)
    (hb : ∀ f, f < 2 → s.bound n f = true → s.fltState n f ≤ 1) : Answers (.runStop n) s fun t =>
      t.mem = s.mem ∧ t.bit (Reg.FC_CYC_CTRL n) F.FC_CYC_CTRL_RUN = false ∧
      (s.bit (Reg.FC_CYC_STAT n) F.FC_CYC_STAT_RUNNING = true →
        t = { s with regs := t.regs } ∧ SameRegs [Reg.FC_CYC_CTRL n] s t) ∧
      (s.bit (Reg.FC_CYC_STAT n) F.FC_CYC_STAT_RUNNING = false → ∀ i : Fin 64, t.laneState (64 * n + i) = 0) := by
  have hR : (s.sf (Reg.FC_CYC_CTRL n) F.FC_CYC_CTRL_RUN 0).bit (Reg.FC_CYC_STAT n) F.FC_CYC_STAT_RUNNING =
      s.bit (Reg.FC_CYC_STAT n) F.FC_CYC_STAT_RUNNING :=
    State.bit_of_rg (s.rg_sf_ne _ _ (by unfold Reg.FC_CYC_CTRL Reg.FC_CYC_STAT; omega)) _
  have hrun : (s.sf (Reg.FC_CYC_CTRL n) F.FC_CYC_CTRL_RUN 0).bit (Reg.FC_CYC_CTRL n) F.FC_CYC_CTRL_RUN = false :=
    State.bit_sf_self s _ _ 0 (by decide)
  refine ⟨_, rfl, State.mem_of_memTs (s.memTs_runStop n), ?_⟩
  rw [State.runStop_of_idle hf hb]
  dsimp only
  rw [hR]
  cases s.bit (Reg.FC_CYC_STAT n) F.FC_CYC_STAT_RUNNING with
  | true => exact ⟨hrun, fun _ => ⟨rfl, fun a ha => s.rg_sf_ne _ _ (by simpa using ha)⟩, by simp⟩
  | false =>
    exact ⟨(State.bit_of_rg (State.rg_cycleEnd_ctrl _ n.isLt) _).trans hrun, by simp,
      fun _ i => State.laneState_cycleEnd _ n.isLt i.isLt⟩

/-! ### The Inner pair's obligation and the overrun limit -/

/-- The overrun cause follows CONSEC ≥ LIMIT, and the counter itself stays (R33). -/
theorem State.rg_ovrEval_ne (s : State) {n a : Nat} (ha : a < 0x70000000) (h : a ≠ Reg.FC_CYC_STAT n) :
    (s.ovrEval n).rg a = s.rg a := by
  unfold State.ovrEval
  rw [State.rg_setCause _ _ _ _ ha, State.rg_ite, State.rg_flag_ne _ _ h, ite_self]

theorem State.consec_consecClear (s : State) {n : Nat} (hn : n < 16) :
    (s.consecClear n).fld (Reg.FC_OVR_COUNT n) F.FC_OVR_COUNT_CONSEC = 0 := by
  rw [State.consecClear, State.fld_of_rg (State.rg_ovrEval_ne _ (by unfold Reg.FC_OVR_COUNT; omega)
    (by unfold Reg.FC_OVR_COUNT Reg.FC_CYC_STAT; omega)), State.fld_sf_self _ _ _ _ (by decide), Nat.zero_mod]

/-- The first matching write of a cycle (R32): the obligation ends; what CONSEC sees of it is decided here, or at tick 200. -/
theorem State.innerDone_of_match {s : State} {n c : Nat} (hf : s.follower n = false) (hc : s.cycling n = true)
    (hd : (s.fc n).innerDone = false) (hm : c = s.rn (Reg.FC_CYC_COUNT n) % 256) :
    s.innerDone n c =
      let u := s.mapFc n fun x => { x with innerDone := true }
      if !s.bit (Reg.FC_CYC_CTRL n) F.FC_CYC_CTRL_INNER_CHK then u
      else if (s.fc n).done.contains 200 then (if (s.fc n).holdCyc then u else u.consecClear n)
      else u.mapFc n fun x => { x with consecDue := true } := by
  have hu : (s.mapFc n fun x => { x with innerDone := true }).fc n = { s.fc n with innerDone := true } := s.fc_mapFc_self n _
  unfold State.innerDone
  rw [if_pos (by simp [hf, hc, hd, hm])]
  dsimp only
  rw [hu]
  rfl

theorem innerDone_takes_effect (s : State) (n : Fin 16) (c : Byte) (hf : s.follower n = false) (hc : s.cycling n = true)
    (hd : (s.fc n).innerDone = false) (hm : c.toNat = s.rn (Reg.FC_CYC_COUNT n) % 256) :
    let chk := s.bit (Reg.FC_CYC_CTRL n) F.FC_CYC_CTRL_INNER_CHK
    let late := (s.fc n).done.contains 200
    Answers (.innerDone n c) s fun t =>
      t.mem = s.mem ∧ t.fc n = { s.fc n with innerDone := true, consecDue := (s.fc n).consecDue || chk && !late } ∧
      (chk = true → late = true → (s.fc n).holdCyc = false → t.fld (Reg.FC_OVR_COUNT n) F.FC_OVR_COUNT_CONSEC = 0) ∧
      (chk = false ∨ late = false ∨ (s.fc n).holdCyc = true → t = { s with fcs := t.fcs }) := by
  refine ⟨_, rfl, State.mem_of_memTs (s.memTs_innerDone n c.toNat), ?_⟩
  rw [State.innerDone_of_match hf hc hd hm]
  dsimp only
  generalize s.bit (Reg.FC_CYC_CTRL n) F.FC_CYC_CTRL_INNER_CHK = chk
  generalize (s.fc n).done.contains 200 = late
  generalize hu : (s.mapFc n fun x => { x with innerDone := true }) = u
  have hfc : u.fc n = { s.fc n with innerDone := true } := by rw [← hu, State.fc_mapFc_self]
  have hfr : u = { s with fcs := u.fcs } := by rw [← hu]; rfl
  match chk, late with
  | false, late =>
    simp only [Bool.not_false, if_true, Bool.false_and, Bool.or_false]
    exact ⟨hfc, by simp, fun _ => hfr⟩
  | true, false =>
    simp only [Bool.not_true, Bool.not_false, Bool.false_eq_true, if_false, Bool.and_true, Bool.or_true]
    exact ⟨(u.fc_mapFc_self n _).trans (by rw [hfc]), by simp, fun _ => by rw [← hu]; rfl⟩
  | true, true =>
    simp only [Bool.not_true, Bool.false_eq_true, if_false, if_true, Bool.and_false, Bool.or_false]
    by_cases hh : (s.fc n).holdCyc = true
    · rw [if_pos hh]
      exact ⟨hfc, by simp [hh], fun _ => hfr⟩
    · rw [if_neg hh]
      exact ⟨(State.fc_of_still (π := id) (u.still_consecClear n) n).trans hfc, fun _ _ _ => u.consec_consecClear n.isLt,
        by simp [hh]⟩

/-- Bit 0 of a word written with bit 0 replaced. -/
theorem nbit_ofNat_setBit_zero (v : Nat) (b : Bool) : nbit (BitVec.ofNat 32 (setBit v 0 b)).toNat 0 = b := by
  rw [BitVec.toNat_ofNat]
  unfold setBit nbit b2n
  cases b <;> simp only [pow_zero, Nat.div_one, decide_eq_true_eq, decide_eq_false_iff_not] <;> split <;> simp <;> omega

/-- The overrun cause says whether CONSEC stands at LIMIT or above (R33). -/
theorem State.cause_ovrEval (s : State) {n : Nat} (hn : n < 16) : nbit ((s.ovrEval n).rn (Reg.SLU_FCSRC n)) 0 =
    decide (s.fld (Reg.FC_OVR_CFG n) F.FC_OVR_CFG_LIMIT ≤ s.fld (Reg.FC_OVR_COUNT n) F.FC_OVR_COUNT_CONSEC) := by
  unfold State.ovrEval State.rn
  dsimp only
  rw [State.rg_setCause_src _ _ _ _ (by unfold Reg.SLU_FCSRC; omega) (by unfold Reg.SLU_FCSRC Reg.SLU_SRC_ACT; omega),
    State.rg_wr_self]
  exact nbit_ofNat_setBit_zero _ _

theorem State.ovrLimitWrite_zero (s : State) (n : Nat) : s.ovrLimitWrite n 0 = s := by
  unfold State.ovrLimitWrite
  exact if_pos (by simp)

/-- A LIMIT other than 0 that no lock stands against (R33). -/
theorem State.ovrLimitWrite_of_unlocked {s : State} {n v : Nat} (hv : v ≠ 0) (hl : s.bit (Reg.FC_LOCK n) F.FC_LOCK_LOCK = false) :
    s.ovrLimitWrite n v =
      let u := s.sf (Reg.FC_OVR_CFG n) F.FC_OVR_CFG_LIMIT v
      (if v ≤ u.fld (Reg.FC_OVR_COUNT n) F.FC_OVR_COUNT_CONSEC then u.sf (Reg.FC_OVR_COUNT n) F.FC_OVR_COUNT_CONSEC v
        else u).ovrEval n :=
  if_neg (by simp [hv, hl])

/-- A LIMIT limits CONSEC (R33). -/
theorem State.consec_limited {u w : State} {n v : Nat} (hv : v < 256)
    (hw : w = if v ≤ u.fld (Reg.FC_OVR_COUNT n) F.FC_OVR_COUNT_CONSEC then u.sf (Reg.FC_OVR_COUNT n) F.FC_OVR_COUNT_CONSEC v
      else u) :
    w.fld (Reg.FC_OVR_COUNT n) F.FC_OVR_COUNT_CONSEC = min (u.fld (Reg.FC_OVR_COUNT n) F.FC_OVR_COUNT_CONSEC) v ∧
      ∀ a, a ≠ Reg.FC_OVR_COUNT n → w.rg a = u.rg a := by
  subst hw
  split
  · refine ⟨?_, fun a ha => u.rg_sf_ne _ _ ha⟩
    rw [State.fld_sf_self _ _ _ _ (by decide), min_eq_right ‹_›]
    exact Nat.mod_eq_of_lt (Nat.lt_trans hv (by decide))
  · exact ⟨(min_eq_left (by omega)).symm, fun a _ => rfl⟩

theorem ovrLimitWrite_takes_effect (s : State) (n : Fin 16) (v : Word) : Answers (.ovrLimitWrite n v) s fun t =>
    t.mem = s.mem ∧ (v.toNat % 256 = 0 → t = s) ∧
    (v.toNat % 256 ≠ 0 → s.bit (Reg.FC_LOCK n) F.FC_LOCK_LOCK = false →
      t.fld (Reg.FC_OVR_CFG n) F.FC_OVR_CFG_LIMIT = v.toNat % 256 ∧
      t.fld (Reg.FC_OVR_COUNT n) F.FC_OVR_COUNT_CONSEC = min (s.fld (Reg.FC_OVR_COUNT n) F.FC_OVR_COUNT_CONSEC) (v.toNat % 256) ∧
      nbit (t.rn (Reg.SLU_FCSRC n)) 0 = decide (v.toNat % 256 ≤ s.fld (Reg.FC_OVR_COUNT n) F.FC_OVR_COUNT_CONSEC)) := by
  have hlt : v.toNat % 256 < 256 := Nat.mod_lt _ (by decide)
  refine ⟨_, rfl, State.mem_of_memTs (s.memTs_ovrLimitWrite n _), ?_⟩
  generalize v.toNat % 256 = x at hlt
  refine ⟨fun h => h ▸ s.ovrLimitWrite_zero n, fun hx hl => ?_⟩
  rw [State.ovrLimitWrite_of_unlocked hx hl]
  extract_lets u
  obtain ⟨hcon, hrg⟩ := State.consec_limited (u := u) (n := n) hlt rfl
  generalize (if x ≤ u.fld (Reg.FC_OVR_COUNT n) F.FC_OVR_COUNT_CONSEC then u.sf (Reg.FC_OVR_COUNT n) F.FC_OVR_COUNT_CONSEC x
    else u) = w at hcon hrg
  have hu : u.fld (Reg.FC_OVR_COUNT n) F.FC_OVR_COUNT_CONSEC = s.fld (Reg.FC_OVR_COUNT n) F.FC_OVR_COUNT_CONSEC :=
    s.fld_sf_ne _ _ _ (by unfold Reg.FC_OVR_COUNT Reg.FC_OVR_CFG; omega)
  have hlim : w.fld (Reg.FC_OVR_CFG n) F.FC_OVR_CFG_LIMIT = x := by
    rw [State.fld_of_rg (hrg _ (by unfold Reg.FC_OVR_COUNT Reg.FC_OVR_CFG; omega)), State.fld_sf_self _ _ _ _ (by decide)]
    exact Nat.mod_eq_of_lt hlt
  refine ⟨?_, ?_, ?_⟩
  · rw [State.fld_of_rg (w.rg_ovrEval_ne (by unfold Reg.FC_OVR_CFG; omega) (by unfold Reg.FC_OVR_CFG Reg.FC_CYC_STAT; omega)), hlim]
  · rw [State.fld_of_rg (w.rg_ovrEval_ne (by unfold Reg.FC_OVR_COUNT; omega) (by unfold Reg.FC_OVR_COUNT Reg.FC_CYC_STAT; omega)),
      hcon, hu]
  · rw [w.cause_ovrEval n.isLt, hlim, hcon, hu]
    simp

/-! ### Clock switches and hub crossings -/

theorem gangClockSwitch_takes_effect (s : State) (n : Fin 16) : Answers (.gangClockSwitch n) s fun t =>
    t = { s with fcs := t.fcs } ∧ t.fc n = { s.fc n with switching := false } ∧ ∀ m, m ≠ n.val → t.fc m = s.fc m :=
  ⟨_, rfl, rfl, s.fc_mapFc_self n _, fun _ hm => s.fc_mapFc_ne _ hm⟩

theorem tget_of_not_mem {α : Type} (d : α) (l : Tbl α) {h : Nat} (hk : h ∉ l.map (·.1)) : tget d l h = d := by
  induction l with
  | nil => rfl
  | cons e l ih =>
    obtain ⟨hne, hl⟩ := not_or.1 fun hor => hk (List.mem_cons.2 hor)
    rw [tget, if_neg (Ne.symm hne), ih hl]

/-- A table that takes the entries of another, whose keys are distinct, reads them first. -/
theorem tget_foldl_entries {α : Type} (d : α) (l : Tbl α) (hl : (l.map (·.1)).Nodup) (t : Tbl α) (h : Nat) :
    tget d (l.foldl (fun t e => tput t e.1 e.2) t) h = tget (tget d t h) l h := by
  induction l generalizing t with
  | nil => rfl
  | cons e l ih =>
    obtain ⟨k, v⟩ := e
    obtain ⟨hk, hl⟩ := List.nodup_cons.1 hl
    rw [List.foldl_cons, ih hl, tget_tput, tget]
    by_cases hkh : h = k
    · subst hkh
      rw [if_pos rfl, if_pos rfl, tget_of_not_mem _ _ hk]
    · rw [if_neg hkh, if_neg (Ne.symm hkh)]

theorem crossingAccept_takes_effect (s : State) (n : Fin 16) (hs : (s.fc n).switching = false)
    (hd : ((s.fc n).hubSent.map (·.1)).Nodup) : Answers (.crossingAccept n) s fun t =>
      t = { s with fcs := t.fcs } ∧ (t.fc n).hubSent = [] ∧
      ∀ h, tget 0 (t.fc n).hubNext h = tget (tget 0 (s.fc n).hubNext h) (s.fc n).hubSent h := by
  have he : exec (.crossingAccept n) s = .next (s.hubAccept n) := congrArg Host.Outcome.next (if_neg (by simp [hs]))
  refine ⟨_, he, rfl, ?_⟩
  unfold State.hubAccept
  rw [State.fc_mapFc_self]
  exact ⟨rfl, fun h => tget_foldl_entries 0 _ hd _ h⟩

end Sys2Proof.Machine

open Sys2Proof.Machine

/-- Settles O11, clause by clause. -/
theorem runAndObligationCommandsTakeEffect : Obligations.RunAndObligationCommandsTakeEffect :=
  ⟨runStart_takes_effect, runStop_takes_effect, innerDone_takes_effect, ovrLimitWrite_takes_effect, gangClockSwitch_takes_effect,
    crossingAccept_takes_effect⟩

end
section
/-! Which registers the units that the sample instant drives leave alone. -/

namespace Sys2Proof.Machine

theorem State.fld_lt (s : State) (a : Nat) (f : Fld) : s.fld a f < 2 ^ f.w := Nat.mod_lt _ (Nat.two_pow_pos _)

theorem State.lt_of_freeSlice {s : State} {g f : Nat} (h : s.freeSlice g = some f) : f < 16 := by
  unfold State.freeSlice at h
  dsimp only at h
  split at h
  · cases h
  · cases h
    exact s.fld_lt _ _

section regs

variable {a : Nat}

@[simp] theorem State.rg_foldl_mapLane {α : Type} (l : List α) (k : α → Nat) (g : State → α → Lane → Lane) (s : State) :
    (l.foldl (fun s x => s.mapLane (k x) (g s x)) s).rg a = s.rg a :=
  foldl_frame (State.rg · a) l _ s fun _ _ => rfl

/-! ### Analog inputs -/

/-- No register below offset 0xA000 of an FC window belongs to an analog group. -/
theorem ne_of_adcBase (ha : a < 0x70000000) (ho : a % 0x100000 < 0xA000) {g b : Nat} (h : adcBase g ≤ b ∧ b < adcBase g + 0x1000) :
    a ≠ b := by
  obtain ⟨hlo, hhi⟩ := h
  unfold adcBase at hlo hhi
  split at hlo <;> simp_all only [if_true, if_false] <;> omega

section adc

variable (ha : a < 0x70000000) (ho : a % 0x100000 < 0xA000)
include ha ho

theorem ne_adcMap (g : Nat) {c : Nat} (hc : c < 8) : a ≠ Reg.ADC_MAP g c :=
  ne_of_adcBase ha ho (g := g) (by unfold Reg.ADC_MAP; omega)

theorem ne_adcSlchk (g : Nat) {f : Nat} (hf : f < 16) : a ≠ Reg.ADC_SLCHK g f :=
  ne_of_adcBase ha ho (g := g) (by unfold Reg.ADC_SLCHK; omega)

theorem ne_adcCalStat (g : Nat) : a ≠ Reg.ADC_CAL_STAT g :=
  ne_of_adcBase ha ho (g := g) (by unfold Reg.ADC_CAL_STAT; omega)

theorem State.rg_dropStep (s : State) (g : Nat) : (s.dropStep g).rg a = s.rg a :=
  State.rg_sf_ne _ _ _ (ne_of_adcBase ha ho (g := g) (by unfold Reg.ADC_STAT; omega))

theorem State.rg_takeOver (s : State) (g : Nat) {c f : Nat} (hc : c < 8) (hf : f < 16) : (s.takeOver g c f).2.rg a = s.rg a := by
  have hold : s.sliceOf g c < 16 := s.fld_lt _ _
  unfold State.takeOver
  simp [State.rg_sf_ne _ _ _ (ne_adcCalStat ha ho g), State.rg_sf_ne _ _ _ (ne_adcSlchk ha ho g hold),
    State.rg_sf_ne _ _ _ (ne_adcSlchk ha ho g hf), State.rg_sf_ne _ _ _ (ne_adcMap ha ho g hc)]

theorem State.rg_serve (s : State) (g : Nat) {c : Nat} (hc : c < 8) : (s.serve g c).rg a = s.rg a := by
  unfold State.serve
  split
  · rfl
  · rename_i f hf
    have hlt : f < 16 := State.lt_of_freeSlice hf
    simp [State.rg_dropStep ha ho, State.rg_raise_below _ _ _ _ (show a < 0x70040000 by omega), State.advanceNext,
      State.rg_flag_ne _ _ (ne_adcCalStat ha ho g), State.rg_sf_ne _ _ _ (ne_adcCalStat ha ho g),
      State.rg_sf_ne _ _ _ (ne_adcMap ha ho g hc), State.rg_takeOver ha ho s g hc hlt]

theorem State.rg_holdCyc (s : State) (g t : Nat) {c : Nat} (hc : c < 8) : (s.holdCyc g c t).rg a = s.rg a := by
  have hh : (State.holdCyc.hold g c t s).rg a = s.rg a := by
    simp [State.holdCyc.hold, State.rg_serve ha ho s g hc]
  unfold State.holdCyc
  split
  · rw [State.rg_ite, hh, ite_self]
  · exact hh

theorem State.rg_holdChannels (s : State) (n : Nat) : (s.holdChannels n).rg a = s.rg a := by
  unfold State.holdChannels
  refine (foldl_frame (State.rg · a) _ _ _ fun t h => t.rg_holdCyc ha ho _ _ (Nat.mod_lt _ (by decide))).trans ?_
  refine foldl_frame (State.rg · a) _ _ _ fun t m => ?_
  exact forN_frame (State.rg · a) 4 _ _ fun c hc u => u.rg_holdCyc ha ho _ _ (by omega)

theorem State.rg_publishCyc (s : State) (g : Nat) {c : Nat} (hc : c < 8) : (s.publishCyc g c).rg a = s.rg a := by
  have hcyc : a ≠ Reg.ADC_CYC g c := ne_of_adcBase ha ho (g := g) (by unfold Reg.ADC_CYC; omega)
  unfold State.publishCyc
  split
  · simp [State.noteSat, State.rg_flagOnce_ne _ _ _ _ _ (show a < 0x70040000 by omega) (ne_adcMap ha ho g hc),
      State.rg_wr_ne _ _ hcyc]
  · rfl

theorem State.rg_publishSamples (s : State) (n : Nat) : (s.publishSamples n).rg a = s.rg a := by
  unfold State.publishSamples
  extract_lets val t
  refine (foldl_frame (State.rg · a) _ _ _ fun u h => ?_).trans (foldl_frame (State.rg · a) _ _ _ fun u m => ?_)
  · exact u.rg_publishCyc ha ho _ (Nat.mod_lt _ (by decide))
  · simp only [State.rg_mapFc]
    exact forN_frame (State.rg · a) 4 _ _ fun c hc w => w.rg_publishCyc ha ho _ (by omega)

end adc

/-! ### Comparators -/

theorem State.rg_publishCmp (s : State) (c : Nat) (ha : a < 0x70000000) (ho : a % 0x100000 < 0xA000) :
    (s.publishCmp c).rg a = s.rg a := by
  have hst : a ≠ Reg.CMP_STAT c := by
    unfold Reg.CMP_STAT cmpBase
    split <;> omega
  have hpin : a ≠ Reg.SLU_PINSTAT := by unfold Reg.SLU_PINSTAT; omega
  unfold State.publishCmp
  dsimp only
  rw [State.rg_setSource _ _ _ _ (.inl ha) (by unfold Reg.SLU_SRC_ACT; omega)]
  simp [State.rg_sb_ne _ _ _ hst, State.rg_wr_ne _ _ hpin]

theorem State.rg_boundary (s : State) (tb : Nat) (ha : a < 0x70000000) (ho : a % 0x100000 < 0xA000) :
    (s.boundary tb).rg a = s.rg a :=
  forN_frame (State.rg · a) 144 _ s fun c _ t => by
    simp [State.rg_publishCmp _ _ ha ho]

/-! ### Flights, shaper and streams -/

theorem State.lt_of_mem_led {s : State} {n f : Nat} (h : f ∈ s.led n) : f < 2 :=
  List.mem_range.1 (List.mem_filter.1 h).1

/-- A register of an FC window that says how the FC cycles, or the target of a shaper channel: what a sample instant does not change
by its flights, its samples and its shaper. -/
abbrev CycleReg (a : Nat) : Prop :=
  a < 0x70000000 ∧ (a % 0x100000 < 0x28 ∨ 0x4800 ≤ a % 0x100000 ∧ a % 0x100000 < 0x4900 ∧ a % 0x20 = 0)

theorem State.rg_startEffects (s : State) (n f : Nat) (ha : CycleReg a) : (s.startEffects n f).rg a = s.rg a := by
  unfold State.startEffects State.seed
  simp [State.rg_flag_ne _ _ (show a ≠ Reg.LED_STAT n f by unfold Reg.LED_STAT; omega),
    State.rg_wr_ne _ _ (show a ≠ Reg.BAL_SWAPTOT n f by unfold Reg.BAL_SWAPTOT; omega),
    State.rg_sf_ne _ _ _ (show a ≠ Reg.BAL_STAT n f by unfold Reg.BAL_STAT; omega)]

theorem State.rg_setFlt (s : State) (n new : Nat) {f : Nat} (hf : f < 2) (ha : CycleReg a) : (s.setFlt n f new).rg a = s.rg a := by
  have hmem : ∀ (l : List Nat) (t : State),
      (l.foldl (fun s m => s.sf (Reg.FC_FLT_STAT m f) F.FC_FLT_STAT_STATE new) t).rg a = t.rg a :=
    fun l t => foldl_frame (State.rg · a) l _ t fun u m => u.rg_sf_ne _ _ (by unfold Reg.FC_FLT_STAT; omega)
  have hst : a ≠ Reg.TS_STAT := by unfold Reg.TS_STAT; omega
  simp [State.setFlt, State.slewRefresh, State.rg_raise_below _ _ _ _ (show a < 0x70040000 by omega), State.rg_sb_ne _ _ _ hst, hmem,
    State.rg_startEffects _ _ _ ha]

theorem State.rg_autoFlt (s : State) (n : Nat) {f : Nat} (hf : f < 2) (ha : CycleReg a) : (s.autoFlt n f).rg a = s.rg a := by
  dsimp only [State.autoFlt]
  (repeat' split) <;> simp [State.rg_setFlt _ _ _ hf ha]

theorem State.rg_takeXinit (s : State) (n f : Nat) : (s.takeXinit n f).rg a = s.rg a := by
  dsimp only [State.takeXinit]
  (repeat' split) <;> rfl

theorem State.rg_latchLimits (s : State) (n : Nat) (old : Tbl Word) (ha : CycleReg a) : (s.latchLimits n old).rg a = s.rg a := by
  refine forN_frame (State.rg · a) 8 _ s fun j _ t => ?_
  dsimp only
  split
  · split
    · rename_i f hf
      have hlt := List.mem_range.1 (List.mem_of_find?_eq_some hf)
      exact State.rg_flag_ne _ _ (by unfold Reg.OBS_STAT; omega)
    · rfl
  · rfl

theorem State.rg_qexpWatch (s : State) (n f : Nat) (old : Tbl Word) : (s.qexpWatch n f old).rg a = s.rg a := by
  simp [State.qexpWatch]

theorem State.rg_latchRegs (s : State) (n : Nat) : (s.latchRegs n).rg a = s.rg a := rfl

theorem State.rg_latchAll (s : State) (n : Nat) (ha : CycleReg a) : (s.latchAll n).rg a = s.rg a := by
  unfold State.latchAll
  refine (foldl_frame (State.rg · a) _ _ _ fun t f => t.rg_qexpWatch n f _).trans ((State.rg_latchLimits _ _ _ ha).trans ?_)
  exact foldl_frame (State.rg · a) _ _ _ fun t m => t.rg_latchRegs m

theorem State.rg_latchTgts (s : State) (n : Nat) : (s.latchTgts n).rg a = s.rg a :=
  forN_frame (State.rg · a) 8 _ s fun _ _ _ => rfl

theorem State.lt_of_shOwner {s : State} {n ch f : Nat} (h : s.shOwner n ch = some f) : f < 2 :=
  List.mem_range.1 (List.mem_of_find?_eq_some h)

theorem State.rg_shaperCh (s : State) (n : Nat) {ch : Nat} (hch : ch < 8) (ha : CycleReg a) : (s.shaperCh n ch).rg a = s.rg a := by
  have hst : a ≠ Reg.OBS_SHSTAT n ch := by unfold Reg.OBS_SHSTAT; omega
  have hown : ∀ f, s.shOwner n ch = some f → a ≠ Reg.OBS_STAT n f := fun f hf => by
    have := State.lt_of_shOwner hf
    unfold Reg.OBS_STAT
    omega
  unfold State.shaperCh
  dsimp only
  rw [State.rg_wr_ne _ _ (show a ≠ Reg.OBS_SHOUT n ch by unfold Reg.OBS_SHOUT; omega),
    State.rg_wr_ne _ _ (show a ≠ Reg.OBS_SHRATE n ch by unfold Reg.OBS_SHRATE; omega),
    State.rg_wr_ne _ _ (show a ≠ Reg.OBS_SHPOS_HI n ch by unfold Reg.OBS_SHPOS_HI; omega),
    State.rg_wr_ne _ _ (show a ≠ Reg.OBS_SHPOS_LO n ch by unfold Reg.OBS_SHPOS_LO; omega)]
  generalize s.shOwner n ch = own at hown
  split
  · simp only [State.rg_flagOnce_ne _ _ _ _ _ (show a < 0x70040000 by omega) hst, State.rg_flag_ne _ _ (hown _ rfl), State.rg_ite,
      State.rg_flag_ne _ _ hst, State.rg_sb_ne _ _ _ hst, State.rg_mapFc, ite_self]
  · simp only [State.rg_ite, State.rg_flag_ne _ _ hst, State.rg_sb_ne _ _ _ hst, State.rg_mapFc, ite_self]

theorem State.rg_shaper (s : State) (n : Nat) (ha : CycleReg a) : (s.shaper n).rg a = s.rg a :=
  forN_frame (State.rg · a) 8 _ s fun _ hch t => t.rg_shaperCh n hch ha

theorem State.rg_towTo (s : State) (k sync t : Nat) : (s.towTo k sync t).rg a = s.rg a := by simp [State.towTo]

theorem State.rg_streamsDue (s : State) (m : Nat) : (s.streamsDue m).rg a = s.rg a :=
  forN_frame (State.rg · a) 2 _ s fun p _ t => forN_frame (State.rg · a) 8 _ t fun k _ u => by
    split <;> simp [State.streamDue, State.setStream]

theorem State.rg_wakeAll (s : State) (n ev : Nat) : (s.wakeAll n ev).rg a = s.rg a :=
  forN_frame (State.rg · a) 8 _ s fun _ _ _ => rfl

end regs

end Sys2Proof.Machine
end
section
/-! The sample instant (O16): what each of its parts leaves of the cycle, then the parts in order. -/

namespace Sys2Proof.Machine

/-! ### Waiting commands -/

theorem State.samplesDone_of_none {s : State} {n : Nat} (h : ∀ w ∈ s.keep.waits, w.on ≠ .sample n) : s.samplesDone n = s := by
  have hnil : (s.keep.waits.filter fun w => w.on == .sample n) = [] :=
    List.filter_eq_nil_iff.2 fun w hw => by simpa using h w hw
  rw [State.samplesDone, hnil, List.foldl_nil]

theorem State.bypassDone_of_none {s : State} {n : Nat} (h : ∀ w ∈ s.keep.waits, ∀ l, w.on ≠ .bypass l) : s.bypassDone n = s :=
  foldl_frame_mem id _ _ _ fun w hw t => by
    split
    · exact absurd ‹_› (h w hw _)
    · rfl

theorem State.stopsDone_of_none {s : State} (h : ∀ w ∈ s.keep.waits, w.on ≠ .stop) : s.stopsDone = s :=
  foldl_frame_mem id _ _ _ fun w hw t => by simp [h w hw]

theorem State.nextTurn_of_none (s : State) (l before : List Wait) (h : ∀ w ∈ l, w.on ≠ .turn) : s.nextTurn before l = none := by
  induction l generalizing before with
  | nil => rfl
  | cons w l ih =>
    obtain ⟨hw, hl⟩ := List.forall_mem_cons.1 h
    simp [State.nextTurn, hw, ih _ hl]

theorem State.pump_of_none {s : State} (h : ∀ w ∈ s.keep.waits, w.on ≠ .turn) : s.pump = s := by
  have h1 : s.pump1 = s := by rw [State.pump1, s.nextTurn_of_none _ _ h]
  unfold State.pump
  induction s.keep.waits.length with
  | zero => rfl
  | succ k ih => rw [Nat.repeat, ih, h1]

/-! ### Which FCs cycle together -/

/-- What FC_CYC_STAT says of the gangs (R34). -/
def State.gang (s : State) (m : Fin 16) : Nat × Nat :=
  (s.fld (Reg.FC_CYC_STAT m) F.FC_CYC_STAT_FOLLOWER, s.fld (Reg.FC_CYC_STAT m) F.FC_CYC_STAT_LEADER)

theorem State.gang_of_rg {s t : State} (h : ∀ m : Fin 16, t.rg (Reg.FC_CYC_STAT m) = s.rg (Reg.FC_CYC_STAT m)) : t.gang = s.gang :=
  funext fun m => by rw [State.gang, State.fld_of_rg (h m), State.fld_of_rg (h m), State.gang]

theorem State.follower_of_gang {s t : State} (h : t.gang = s.gang) {m : Nat} (hm : m < 16) : t.follower m = s.follower m :=
  congrArg (fun x : Nat × Nat => x.1 != 0) (congrFun h ⟨m, hm⟩)

theorem State.leader_of_gang {s t : State} (h : t.gang = s.gang) {m : Nat} (hm : m < 16) : t.leader m = s.leader m :=
  congrArg (fun x : Nat × Nat => if (x.1 != 0) = true then x.2 else m) (congrFun h ⟨m, hm⟩)

theorem State.cycleFcs_of_gang {s t : State} (h : t.gang = s.gang) (n : Nat) : t.cycleFcs n = s.cycleFcs n := by
  refine congrArg (n :: ·) (List.filter_congr fun m _ => ?_)
  by_cases hm : m < 16
  · rw [State.follower_of_gang h hm, State.leader_of_gang h hm]
  · simp [hm]

theorem State.leader_of_not_follower {s : State} {n : Nat} (h : s.follower n = false) : s.leader n = n := by
  unfold State.follower at h
  simp [State.leader, h]

/-- The length of a cycle that no gang leads is the FC's own (R20). -/
theorem State.tcyc_of_gang {s t : State} {n : Nat} (hn : n < 16) (hf : s.follower n = false) (hg : t.gang = s.gang)
    (hr : t.rg (Reg.FC_CYC_LEN n) = s.rg (Reg.FC_CYC_LEN n)) : t.tcyc n = s.tcyc n := by
  unfold State.tcyc
  rw [State.leader_of_gang hg hn, State.leader_of_not_follower hf, State.fld_of_rg hr]

/-! ### The overrun judgement -/

theorem State.rg_judgeInner_ne (s : State) {n a : Nat} (ha : a < 0x70000000) (hs : a ≠ Reg.FC_CYC_STAT n)
    (ho : a ≠ Reg.FC_OVR_COUNT n) : (s.judgeInner n).rg a = s.rg a := by
  simp [State.judgeInner, State.consecClear, State.rg_ovrEval_ne _ ha hs, State.rg_incSat_ne _ _ ho, State.rg_sf_ne _ _ _ ho,
    State.rg_flag_ne _ _ hs]

/-- The overrun cause leaves every field of FC_CYC_STAT but OVR_TRIP. -/
theorem State.fld_ovrEval (s : State) {n : Nat} (hn : n < 16) {f : Fld} (h : f.lo + f.w ≤ F.FC_CYC_STAT_OVR_TRIP.lo) :
    (s.ovrEval n).fld (Reg.FC_CYC_STAT n) f = s.fld (Reg.FC_CYC_STAT n) f := by
  unfold State.ovrEval
  dsimp only
  rw [State.fld_of_rg (State.rg_setCause _ _ _ _ (by unfold Reg.FC_CYC_STAT; omega))]
  split
  · exact s.fld_sf_disjoint _ _ _ _ (.inr h)
  · rfl

/-- The judgement leaves every field of FC_CYC_STAT but INNER_LATE and OVR_TRIP. -/
theorem State.fld_judgeInner (s : State) {n : Nat} (hn : n < 16) {f : Fld} (h : f.lo + f.w ≤ F.FC_CYC_STAT_OVR_TRIP.lo)
    (h' : f.lo + f.w ≤ F.FC_CYC_STAT_INNER_LATE.lo) :
    (s.judgeInner n).fld (Reg.FC_CYC_STAT n) f = s.fld (Reg.FC_CYC_STAT n) f := by
  have hne : Reg.FC_CYC_STAT n ≠ Reg.FC_OVR_COUNT n := by unfold Reg.FC_CYC_STAT Reg.FC_OVR_COUNT; omega
  unfold State.judgeInner
  dsimp only
  split
  · rw [State.fld_ovrEval _ hn h, State.incSat, State.fld_sf_ne _ _ _ _ hne, State.fld_sf_ne _ _ _ _ hne]
    exact s.fld_sf_disjoint _ _ _ _ (.inr h')
  · split
    · rw [State.consecClear, State.fld_ovrEval _ hn h, State.fld_sf_ne _ _ _ _ hne]
    · rfl

theorem State.gang_judgeInner (s : State) {n : Nat} (hn : n < 16) : (s.judgeInner n).gang = s.gang := by
  funext m
  unfold State.gang
  by_cases hm : m = n
  · rw [hm, State.fld_judgeInner s hn (by decide) (by decide), State.fld_judgeInner s hn (by decide) (by decide)]
  · have hr : (s.judgeInner n).rg (Reg.FC_CYC_STAT m) = s.rg (Reg.FC_CYC_STAT m) :=
      s.rg_judgeInner_ne (by unfold Reg.FC_CYC_STAT; omega) (by unfold Reg.FC_CYC_STAT; omega)
        (by unfold Reg.FC_CYC_STAT Reg.FC_OVR_COUNT; omega)
    rw [State.fld_of_rg hr, State.fld_of_rg hr]

/-! ### What the parts of a sample instant keep -/

/-- `t` stands in the cycle `s` stands in: the same time, Keeper, lines, cycle registers, shaper targets and hidden state of the
cycles, whatever the units behind the cycle did. -/
structure SameCycle (s t : State) : Prop where
  still : t.still FcSt.clock = s.still FcSt.clock
  rg : ∀ a, CycleReg a → t.rg a = s.rg a

theorem SameCycle.refl {s : State} : SameCycle s s := ⟨rfl, fun _ _ => rfl⟩

theorem SameCycle.trans {s t u : State} (h : SameCycle s t) (h' : SameCycle t u) : SameCycle s u :=
  ⟨h'.still.trans h.still, fun a ha => (h'.rg a ha).trans (h.rg a ha)⟩

theorem SameCycle.foldl {α : Type} (l : List α) {f : State → α → State} (s : State)
    (h : ∀ x ∈ l, ∀ t, SameCycle t (f t x)) : SameCycle s (l.foldl f s) :=
  List.foldlRecOn (motive := SameCycle s) l f .refl fun t ht x hx => ht.trans (h x hx t)

theorem SameCycle.waits {s t : State} (h : SameCycle s t) : t.keep.waits = s.keep.waits :=
  congrArg KeepSt.waits (State.keep_of_still h.still)

theorem SameCycle.gang {s t : State} (h : SameCycle s t) : t.gang = s.gang :=
  State.gang_of_rg fun m => h.rg _ (by unfold CycleReg Reg.FC_CYC_STAT; omega)

theorem sameCycle_latchAll (s : State) (n : Nat) : SameCycle s (s.latchAll n) := ⟨by simp, fun _ ha => s.rg_latchAll n ha⟩

theorem sameCycle_holdChannels (s : State) (n : Nat) : SameCycle s (s.holdChannels n) :=
  ⟨by simp, fun _ ha => State.rg_holdChannels (by omega) (by omega) s n⟩

theorem sameCycle_flightsAt (s : State) (n : Nat) (hs : ∀ w ∈ s.keep.waits, w.on ≠ .sample n)
    (hb : ∀ w ∈ s.keep.waits, ∀ l, w.on ≠ .bypass l) : SameCycle s (s.flightsAt n) := by
  have h : SameCycle s ((s.led n).foldl (fun s f => (s.takeXinit n f).autoFlt n f) s) := SameCycle.foldl _ _ fun f hf t =>
    ⟨by simp, fun a ha => (State.rg_autoFlt _ n (State.lt_of_mem_led hf) ha).trans (t.rg_takeXinit n f)⟩
  unfold State.flightsAt
  dsimp only
  rw [State.samplesDone_of_none (h.waits ▸ hs), State.bypassDone_of_none (h.waits ▸ hb)]
  exact h

theorem sameCycle_latchTgts (s : State) (n : Nat) : SameCycle s (s.latchTgts n) := ⟨by simp, fun _ _ => s.rg_latchTgts n⟩

theorem sameCycle_shaper (s : State) (n : Nat) : SameCycle s (s.shaper n) := ⟨by simp [State.shaper], fun _ ha => s.rg_shaper n ha⟩

theorem sameCycle_laneCycles (s : State) (m : Nat) : SameCycle s (forN 64 (fun i s => s.laneCycle (64 * m + i)) s) :=
  ⟨by simp, fun a _ => forN_frame (State.rg · a) 64 _ s fun _ _ _ => rfl⟩

theorem sameCycle_towTo (s : State) (k sync t : Nat) : SameCycle s (s.towTo k sync t) := ⟨by simp, fun _ _ => s.rg_towTo k sync t⟩

theorem sameCycle_boundary (s : State) (m : Nat) : SameCycle s (s.boundary m) :=
  ⟨by simp, fun _ ha => s.rg_boundary m (by omega) (by omega)⟩

theorem sameCycle_streamsDue (s : State) (m : Nat) : SameCycle s (s.streamsDue m) := ⟨by simp, fun _ _ => s.rg_streamsDue m⟩

theorem sameCycle_wakeAll (s : State) (m ev : Nat) : SameCycle s (s.wakeAll m ev) := ⟨by simp, fun _ _ => s.rg_wakeAll m ev⟩

/-! ### The interrupt lines -/

theorem State.irq_line_self (s : State) (p : Nat) {l : Nat} (hl : l < 64) : (tget 0 (s.line p l).irq p).getLsbD l = true := by
  unfold State.line
  dsimp only
  rw [tget_tput_self, BitVec.getLsbD_or, BitVec.getLsbD_ofNat, Nat.testBit_two_pow_self, decide_eq_true hl, Bool.and_self,
    Bool.or_true]

theorem State.irq_line_of_set (s : State) (p l : Nat) {i q : Nat} (h : (tget 0 s.irq q).getLsbD i = true) :
    (tget 0 (s.line p l).irq q).getLsbD i = true := by
  unfold State.line
  dsimp only
  rw [tget_tput]
  split
  · rw [BitVec.getLsbD_or, ← ‹q = p›, h, Bool.true_or]
  · exact h

/-- Line `l` of each of the pairs named becomes pending, and nothing else changes. -/
theorem State.foldl_line (ms : List Nat) {l : Nat} (hl : l < 64) (s : State) :
    ∃ q, ms.foldl (fun s m => s.line m l) s = { s with irq := q } ∧
      (∀ p, (tget 0 s.irq p).getLsbD l = true → (tget 0 q p).getLsbD l = true) ∧
      ∀ m ∈ ms, (tget 0 q m).getLsbD l = true := by
  induction ms generalizing s with
  | nil => exact ⟨s.irq, rfl, fun _ h => h, by simp⟩
  | cons m ms ih =>
    obtain ⟨q, hq, hkeep, hset⟩ := ih (s.line m l)
    exact ⟨q, hq, fun p hp => hkeep p (s.irq_line_of_set m l hp),
      List.forall_mem_cons.2 ⟨hkeep m (s.irq_line_self m hl), hset⟩⟩

end Sys2Proof.Machine
end
section
/-! The sample instant (O16): its parts in order. -/

namespace Sys2Proof.Machine

/-! ### Up to the counter: the cycle before is judged, queues and held writes are taken -/

/-- What the sample instant does before held writes are taken, to every FC of the cycle (R24, R44). -/
def State.sampleStart (n : Nat) (s : State) : State :=
  let s := (s.atTs (s.fc n).next).judgeInner n
  (s.cycleFcs n).foldl (fun s m => forN 64 (fun i s => s.txRoll (64 * m + i)) s) s

/-- What the sample instant does once held writes are taken (R21-R25). -/
def State.sampleTail (n : Nat) (s : State) : State :=
  (((s.cycleBegin n).latchAll n).holdChannels n |>.flightsAt n).cycleLatch n

theorem State.rg_forN_txRoll (s : State) (m a : Nat) : (forN 64 (fun i s => s.txRoll (64 * m + i)) s).rg a = s.rg a :=
  forN_frame (State.rg · a) 64 _ s fun i _ t => by simp [State.txRoll]

theorem State.gang_atTs (s : State) (t : Nat) : (s.atTs t).gang = s.gang := State.gang_of_rg fun _ => s.rg_atTs _ _

theorem State.gang_sampleStart (s : State) {n : Nat} (hn : n < 16) : (s.sampleStart n).gang = s.gang := by
  have h : (s.sampleStart n).gang = ((s.atTs (s.fc n).next).judgeInner n).gang :=
    State.gang_of_rg fun m => foldl_frame (State.rg · (Reg.FC_CYC_STAT m)) _ _ _ fun t k => t.rg_forN_txRoll k _
  exact h.trans ((State.gang_judgeInner _ hn).trans (s.gang_atTs _))

/-- The sample instant, in its three stretches. -/
theorem exec_sampleInstant {s : State} {n : Fin 16} (hf : s.follower n = false)
    (hR : s.bit (Reg.FC_CYC_CTRL n) F.FC_CYC_CTRL_RUN = true) :
    exec (.sampleInstant n) s =
      .next (((s.cycleFcs n).foldl (fun s m => (s.hubAccept m).takeWrites m) (s.sampleStart n)).sampleTail n).pump := by
  have hms : ((s.atTs (s.fc n).next).judgeInner n).cycleFcs n = s.cycleFcs n :=
    State.cycleFcs_of_gang ((State.gang_judgeInner _ n.isLt).trans (s.gang_atTs _)) n
  have h : exec (.sampleInstant n) s = .next (((((s.atTs (s.fc n).next).judgeInner n).cycleFcs n).foldl
      (fun s m => (s.hubAccept m).takeWrites m) (s.sampleStart n)).sampleTail n).pump :=
    if_neg (by simp [hf, hR])
  rw [h, hms]

theorem State.keep_sampleStart (s : State) (n : Nat) : (s.sampleStart n).keep = s.keep := by
  have h : (s.sampleStart n).still id = (s.atTs (s.fc n).next).still id := by simp [State.sampleStart]
  exact (State.keep_of_still h).trans (s.keep_atTs _)

theorem State.fc_sampleStart (s : State) (n k : Nat) : (s.sampleStart n).fc k = s.fc k := by
  have h : (s.sampleStart n).still id = (s.atTs (s.fc n).next).still id := by simp [State.sampleStart]
  exact (State.fc_of_still h k).trans (congrArg (tget FcSt.init · k) (s.fcs_atTs _))

theorem State.memTs_sampleStart (s : State) (n : Nat) : (s.sampleStart n).memTs = (s.atTs (s.fc n).next).memTs := by
  simp [State.sampleStart]

theorem State.rg_sampleStart (s : State) {n a : Nat} (ha : a < 0x70000000) (hs : a ≠ Reg.FC_CYC_STAT n)
    (ho : a ≠ Reg.FC_OVR_COUNT n) : (s.sampleStart n).rg a = s.rg a :=
  (foldl_frame (State.rg · a) _ _ _ fun t m => t.rg_forN_txRoll m a).trans
    ((State.rg_judgeInner_ne _ ha hs ho).trans (s.rg_atTs _ a))

/-! ### Held writes -/

/-- Without a held write, taking them changes the list alone, which is empty already. -/
theorem State.takeWrites_of_nil {s : State} {m : Nat} (h : (s.fc m).writes = []) :
    s.takeWrites m = s.mapFc m fun x => { x with writes := [] } := by
  simp [State.takeWrites, State.applyWrites, h]

/-- What a sample instant counts from. -/
def FcSt.timing (x : FcSt) : Nat × Bool × List (Nat × Word) := (x.next, x.started, x.writes)

theorem State.keep_hubAccept (s : State) (m : Nat) : (s.hubAccept m).keep = s.keep := rfl
theorem State.rg_hubAccept (s : State) (m a : Nat) : (s.hubAccept m).rg a = s.rg a := rfl

theorem State.still_hubAccept (s : State) (m : Nat) : (s.hubAccept m).still FcSt.timing = s.still FcSt.timing :=
  s.still_mapFc _ _ fun _ => rfl

/-- Where no write is held, the hubs and the held writes leave the registers, and what the instant counts from. -/
theorem State.foldl_takeWrites_of_nil (ms : List Nat) {s : State} (h : ∀ m, (s.fc m).writes = []) :
    (ms.foldl (fun s m => (s.hubAccept m).takeWrites m) s).still FcSt.timing = s.still FcSt.timing ∧
      ∀ a, (ms.foldl (fun s m => (s.hubAccept m).takeWrites m) s).rg a = s.rg a := by
  refine List.foldlRecOn (motive := fun t : State => t.still FcSt.timing = s.still FcSt.timing ∧ ∀ a, t.rg a = s.rg a) ms _
    ⟨rfl, fun _ => rfl⟩ fun t ht m _ => ?_
  obtain ⟨hst, hrg⟩ := ht
  have hub : (t.hubAccept m).still FcSt.timing = s.still FcSt.timing := (t.still_hubAccept m).trans hst
  have hw : ((t.hubAccept m).fc m).writes = [] :=
    (congrArg (fun x : Nat × Bool × List (Nat × Word) => x.2.2) (State.fc_of_still hub m)).trans (h m)
  rw [State.takeWrites_of_nil hw]
  exact ⟨(State.still_mapFc_at _ _ _ (by simp [FcSt.timing, hw])).trans hub, hrg⟩

/-- The one write that is held, to a target of the shaper, goes into its register. -/
theorem State.takeWrites_shtgt {s : State} {n ch : Nat} {v : Word} (hch : ch < 8) (h : (s.fc n).writes = [(Reg.OBS_SHTGT n ch, v)]) :
    (s.takeWrites n).keep = s.keep ∧ ((s.takeWrites n).fc n).writes = [] ∧ (s.takeWrites n).rg (Reg.OBS_SHTGT n ch) = v ∧
      ∀ a, a ≠ Reg.OBS_SHTGT n ch → (s.takeWrites n).rg a = s.rg a := by
  have hcap : capQLink (Reg.OBS_SHTGT n ch) = none := by
    unfold capQLink
    dsimp only
    split
    · rename_i hc
      simp only [Bool.and_eq_true, decide_eq_true_eq] at hc
      unfold Reg.OBS_SHTGT at hc
      omega
    · rfl
  have hcfg : ¬ Reg.OBS_SHTGT n ch % 1048576 < 96 := by
    unfold Reg.OBS_SHTGT
    omega
  have ht : s.takeWrites n = (s.mapFc n fun x => { x with writes := [] }).wr (Reg.OBS_SHTGT n ch) v := by
    simp [State.takeWrites, State.applyWrites, h, State.ctlPut, hcap, hcfg]
  rw [ht]
  exact ⟨rfl, congrArg FcSt.writes (s.fc_mapFc_self n fun x => { x with writes := [] }), State.rg_wr_self _ _ _,
    fun a ha => State.rg_wr_ne _ _ ha⟩

/-! ### The counter -/

theorem State.r64_w64 (s : State) (a v : Nat) : (s.w64 a v).r64 a = v % 2 ^ 64 := by
  unfold State.r64 State.w64 State.rn
  rw [State.rg_wr_self, State.rg_wr_ne _ _ (by omega), State.rg_wr_self, BitVec.toNat_ofNat, BitVec.toNat_ofNat]
  omega

theorem State.r64_of_rg {s t : State} {a : Nat} (h : t.rg a = s.rg a) (h4 : t.rg (a + 4) = s.rg (a + 4)) : t.r64 a = s.r64 a := by
  unfold State.r64 State.rn
  rw [h, h4]

/-- The registers of a cycle that begins: its count, its time stamp, and RUNNING (R23). -/
def State.counted (n : Nat) (s : State) : State :=
  ((s.wr (Reg.FC_CYC_COUNT n) (if !(s.fc n).started then 0 else s.rg (Reg.FC_CYC_COUNT n) + 1)).w64 (Reg.FC_CYC_TS_LO n) s.ts).flag
    (Reg.FC_CYC_STAT n) F.FC_CYC_STAT_RUNNING

theorem State.cycleBegin_eq (s : State) (n : Nat) : s.cycleBegin n = (s.counted n).mapFc n fun y =>
    { y with next := y.next + (s.counted n).tcyc n, cycTick := s.tick, started := true, fresh := !(s.fc n).started, done := [],
             innerDone := false, holdCyc := false, hub := y.hubNext } := rfl

theorem State.rg_counted_ne (s : State) {n a : Nat} (hc : a ≠ Reg.FC_CYC_COUNT n) (hl : a ≠ Reg.FC_CYC_TS_LO n)
    (hh : a ≠ Reg.FC_CYC_TS_LO n + 4) (hs : a ≠ Reg.FC_CYC_STAT n) : (s.counted n).rg a = s.rg a := by
  unfold State.counted
  rw [State.rg_flag_ne _ _ hs, State.rg_w64_ne _ _ hl hh, State.rg_wr_ne _ _ hc]

theorem State.count_counted (s : State) (n : Nat) :
    (s.counted n).rg (Reg.FC_CYC_COUNT n) = if (s.fc n).started then s.rg (Reg.FC_CYC_COUNT n) + 1 else 0 := by
  have hl : Reg.FC_CYC_COUNT n ≠ Reg.FC_CYC_TS_LO n := by unfold Reg.FC_CYC_COUNT Reg.FC_CYC_TS_LO; omega
  have hh : Reg.FC_CYC_COUNT n ≠ Reg.FC_CYC_TS_LO n + 4 := by unfold Reg.FC_CYC_COUNT Reg.FC_CYC_TS_LO; omega
  have hs : Reg.FC_CYC_COUNT n ≠ Reg.FC_CYC_STAT n := by unfold Reg.FC_CYC_COUNT Reg.FC_CYC_STAT; omega
  unfold State.counted
  rw [State.rg_flag_ne _ _ hs, State.rg_w64_ne _ _ hl hh, State.rg_wr_self]
  cases (s.fc n).started <;> rfl

theorem State.stamp_counted (s : State) (n : Nat) : (s.counted n).r64 (Reg.FC_CYC_TS_LO n) = s.ts % 2 ^ 64 := by
  have hl : Reg.FC_CYC_TS_LO n ≠ Reg.FC_CYC_STAT n := by unfold Reg.FC_CYC_TS_LO Reg.FC_CYC_STAT; omega
  have hh : Reg.FC_CYC_TS_LO n + 4 ≠ Reg.FC_CYC_STAT n := by unfold Reg.FC_CYC_TS_LO Reg.FC_CYC_STAT; omega
  unfold State.counted
  rw [State.r64_of_rg (State.rg_flag_ne _ _ hl) (State.rg_flag_ne _ _ hh), State.r64_w64]

theorem State.running_counted (s : State) (n : Nat) : (s.counted n).bit (Reg.FC_CYC_STAT n) F.FC_CYC_STAT_RUNNING = true :=
  State.bit_sf_self _ _ _ 1 (by decide)

/-- RUNNING is set, and the gangs stay. -/
theorem State.gang_counted (s : State) (n : Nat) : (s.counted n).gang = s.gang := by
  funext m
  have hr : ∀ v : Word, ((s.wr (Reg.FC_CYC_COUNT n) v).w64 (Reg.FC_CYC_TS_LO n) s.ts).rg (Reg.FC_CYC_STAT m) =
      s.rg (Reg.FC_CYC_STAT m) := fun v =>
    (State.rg_w64_ne _ _ (by unfold Reg.FC_CYC_STAT Reg.FC_CYC_TS_LO; omega)
      (by unfold Reg.FC_CYC_STAT Reg.FC_CYC_TS_LO; omega)).trans
        (s.rg_wr_ne _ (by unfold Reg.FC_CYC_STAT Reg.FC_CYC_COUNT; omega))
  unfold State.gang State.counted State.flag
  by_cases hm : m = n
  · rw [hm] at hr ⊢
    rw [State.fld_sf_disjoint _ _ _ _ _ (by decide), State.fld_sf_disjoint _ _ _ _ _ (by decide), State.fld_of_rg (hr _),
      State.fld_of_rg (hr _)]
  · have hne : Reg.FC_CYC_STAT m ≠ Reg.FC_CYC_STAT n := by unfold Reg.FC_CYC_STAT; omega
    rw [State.fld_sf_ne _ _ _ _ hne, State.fld_sf_ne _ _ _ _ hne, State.fld_of_rg (hr _), State.fld_of_rg (hr _)]

theorem State.fc_cycleBegin (s : State) {n : Nat} (hn : n < 16) (hf : s.follower n = false) :
    ((s.cycleBegin n).fc n).next = (s.fc n).next + s.tcyc n ∧ ((s.cycleBegin n).fc n).cycTick = s.tick ∧
      ((s.cycleBegin n).fc n).started = true ∧ ((s.cycleBegin n).fc n).writes = (s.fc n).writes := by
  have hlen : (s.counted n).rg (Reg.FC_CYC_LEN n) = s.rg (Reg.FC_CYC_LEN n) := by
    refine s.rg_counted_ne ?_ ?_ ?_ ?_ <;>
      simp only [ne_eq, Reg.FC_CYC_LEN, Reg.FC_CYC_COUNT, Reg.FC_CYC_TS_LO, Reg.FC_CYC_STAT] <;> omega
  rw [State.cycleBegin_eq, State.fc_mapFc_self, State.tcyc_of_gang hn hf (s.gang_counted n) hlen]
  exact ⟨rfl, rfl, rfl, rfl⟩

theorem State.cycleFcs_cycleBegin (s : State) (n : Nat) : (s.cycleBegin n).cycleFcs n = s.cycleFcs n :=
  State.cycleFcs_of_gang (s.gang_counted n) n

/-! ### After the counter -/

/-- What the instant starts leaves the cycle it has begun, and makes line 0 of its pairs pending (R25). -/
theorem State.cycleLatch_keeps (s : State) (n : Nat) :
    (s.cycleLatch n).tick = s.tick ∧ (s.cycleLatch n).keep = s.keep ∧
      (∀ k, ((s.cycleLatch n).fc k).clock = (s.fc k).clock) ∧ (∀ a, CycleReg a → (s.cycleLatch n).rg a = s.rg a) ∧
      ∀ m ∈ s.cycleFcs n, (tget 0 (s.cycleLatch n).irq m).getLsbD 0 = true := by
  have hu : SameCycle s ((s.latchTgts n).shaper n) := (sameCycle_latchTgts s n).trans (sameCycle_shaper _ n)
  unfold State.cycleLatch
  dsimp only
  rw [State.cycleFcs_of_gang hu.gang]
  have hv := hu.trans (SameCycle.foldl (s.cycleFcs n) _ fun m _ t => sameCycle_laneCycles t m)
  generalize List.foldl _ ((s.latchTgts n).shaper n) _ = v at hv
  obtain ⟨q, hq, -, hset⟩ := v.foldl_line (s.cycleFcs n) (l := 0) (by decide)
  rw [hq]
  have hw : SameCycle { v with irq := q } (if n = 0 then State.towTo 0 2 v.tick { v with irq := q } else { v with irq := q }) := by
    split
    · exact sameCycle_towTo _ _ _ _
    · exact .refl
  have hx := ((hw.trans (SameCycle.foldl (s.cycleFcs n) _ fun m _ t => sameCycle_boundary t m)).trans
    (SameCycle.foldl (s.cycleFcs n) _ fun m _ t => sameCycle_streamsDue t m)).trans
    (SameCycle.foldl (s.cycleFcs n) _ fun m _ t => sameCycle_wakeAll t m 0)
  have htick := State.tick_of_still hv.still
  have hkeep := State.keep_of_still hv.still
  have hfc := State.fc_of_still hv.still
  refine ⟨(State.tick_of_still hx.still).trans htick, (State.keep_of_still hx.still).trans hkeep,
    fun k => (State.fc_of_still hx.still k).trans (hfc k), fun a ha => (hx.rg a ha).trans (hv.rg a ha), fun m hm => ?_⟩
  exact (congrArg (fun i => (tget 0 i m).getLsbD 0) (State.irq_of_still hx.still)).trans (hset m hm)

/-! ### The two clauses -/

/-- The stretch from the counter on, where no command waits for it. -/
theorem State.sampleTail_keeps (u : State) {n : Nat}
    (hw : ∀ w ∈ u.keep.waits, w.on ≠ .sample n ∧ w.on ≠ .turn ∧ ∀ l, w.on ≠ .bypass l) :
    (u.sampleTail n).pump = u.sampleTail n ∧ (u.sampleTail n).tick = u.tick ∧
      ((u.sampleTail n).fc n).clock = ((u.cycleBegin n).fc n).clock ∧
      (∀ a, CycleReg a → (u.sampleTail n).rg a = (u.counted n).rg a) ∧
      ∀ m ∈ u.cycleFcs n, (tget 0 (u.sampleTail n).irq m).getLsbD 0 = true := by
  have hk : (u.cycleBegin n).keep = u.keep := rfl
  have hh := (sameCycle_latchAll (u.cycleBegin n) n).trans (sameCycle_holdChannels _ n)
  have hwaits := hh.waits.trans (congrArg KeepSt.waits hk)
  have hf := hh.trans (sameCycle_flightsAt _ n (fun w h => (hw w (hwaits ▸ h)).1) (fun w h => (hw w (hwaits ▸ h)).2.2))
  obtain ⟨htick, hkeep, hfc, hrg, hirq⟩ := State.cycleLatch_keeps (((u.cycleBegin n).latchAll n).holdChannels n |>.flightsAt n) n
  have htf := State.tick_of_still hf.still
  refine ⟨State.pump_of_none fun w h => ?_, htick.trans htf, (hfc n).trans (State.fc_of_still hf.still n),
    fun a ha => (hrg a ha).trans (hf.rg a ha), fun m hm => hirq m ?_⟩
  · have hsame : (u.sampleTail n).keep.waits = u.keep.waits :=
      (congrArg KeepSt.waits hkeep).trans (hf.waits.trans (congrArg KeepSt.waits hk))
    exact (hw w (hsame ▸ h)).2.1
  · rwa [State.cycleFcs_of_gang hf.gang, State.cycleFcs_cycleBegin]

theorem sampleInstant_begins_cycle (s : State) (n : Fin 16) (hf : s.follower n = false)
    (hR : s.bit (Reg.FC_CYC_CTRL n) F.FC_CYC_CTRL_RUN = true)
    (hw : ∀ w ∈ s.keep.waits, w.on ≠ .sample n ∧ w.on ≠ .turn ∧ ∀ l, w.on ≠ .bypass l)
    (hnil : ∀ m, (s.fc m).writes = []) :
    Answers (.sampleInstant n) s fun t =>
      t.mem = s.mem ∧
      t.rg (Reg.FC_CYC_COUNT n) = (if (s.fc n).started then s.rg (Reg.FC_CYC_COUNT n) + 1 else 0) ∧
      t.r64 (Reg.FC_CYC_TS_LO n) = t.ts % 2 ^ 64 ∧ t.bit (Reg.FC_CYC_STAT n) F.FC_CYC_STAT_RUNNING = true ∧
      (s.ts < (s.fc n).next → t.ts = (s.fc n).next % 2 ^ 64) ∧ (t.fc n).cycTick = t.tick ∧ (t.fc n).started = true ∧
      (t.fc n).next = (s.fc n).next + s.tcyc n ∧ ∀ m ∈ s.cycleFcs n, (tget 0 t.irq m).getLsbD 0 = true := by
  have hn := n.isLt
  have hnone : ∀ m, ((s.sampleStart n).fc m).writes = [] := fun m => by rw [State.fc_sampleStart, hnil m]
  obtain ⟨hst, hrgu⟩ := State.foldl_takeWrites_of_nil (s.cycleFcs n) hnone
  have hmemu : ((s.cycleFcs n).foldl (fun s m => (s.hubAccept m).takeWrites m) (s.sampleStart n)).memTs =
      (s.atTs (s.fc n).next).memTs := by
    simp [State.memTs_sampleStart]
  refine ⟨_, exec_sampleInstant hf hR, ?_⟩
  generalize (s.cycleFcs n).foldl (fun s m => (s.hubAccept m).takeWrites m) (s.sampleStart n) = u at hst hrgu hmemu
  have hku : u.keep = s.keep := (State.keep_of_still hst).trans (s.keep_sampleStart n)
  have hgu : u.gang = s.gang := (State.gang_of_rg fun m => hrgu _).trans (s.gang_sampleStart hn)
  obtain ⟨hpump, htick, hfc, hrg, hirq⟩ := u.sampleTail_keeps (n := n) (by rwa [hku])
  rw [hpump]
  have hmem : (u.sampleTail n).memTs = (s.atTs (s.fc n).next).memTs := by
    rw [← hmemu]
    simp [State.sampleTail]
  have hmem' : (u.sampleTail n).mem = s.mem := (State.mem_of_memTs hmem).trans (s.mem_atTs _)
  have hts : (u.sampleTail n).ts = (s.atTs (s.fc n).next).ts := congrArg Prod.snd hmem
  have htsu : (u.sampleTail n).ts = u.ts := hts.trans (congrArg Prod.snd hmemu).symm
  have htim := (State.fc_of_still hst n).trans (congrArg FcSt.timing (s.fc_sampleStart n n))
  have hnext : (u.fc n).next = (s.fc n).next := congrArg Prod.fst htim
  have hstarted : (u.fc n).started = (s.fc n).started := congrArg (·.2.1) htim
  have hcount : u.rg (Reg.FC_CYC_COUNT n) = s.rg (Reg.FC_CYC_COUNT n) :=
    (hrgu _).trans (s.rg_sampleStart (by unfold Reg.FC_CYC_COUNT; omega) (by unfold Reg.FC_CYC_COUNT Reg.FC_CYC_STAT; omega)
      (by unfold Reg.FC_CYC_COUNT Reg.FC_OVR_COUNT; omega))
  have hlen : u.rg (Reg.FC_CYC_LEN n) = s.rg (Reg.FC_CYC_LEN n) :=
    (hrgu _).trans (s.rg_sampleStart (by unfold Reg.FC_CYC_LEN; omega) (by unfold Reg.FC_CYC_LEN Reg.FC_CYC_STAT; omega)
      (by unfold Reg.FC_CYC_LEN Reg.FC_OVR_COUNT; omega))
  have htcyc : u.tcyc n = s.tcyc n := State.tcyc_of_gang hn hf hgu hlen
  obtain ⟨bnext, bcyc, bstarted, -⟩ := u.fc_cycleBegin hn ((State.follower_of_gang hgu hn).trans hf)
  refine ⟨hmem', ?_, ?_, ?_, fun h => ?_, ?_, ?_, ?_, fun m hm => hirq m ?_⟩
  · rw [hrg _ (by unfold CycleReg Reg.FC_CYC_COUNT; omega), State.count_counted, hstarted, hcount]
  · rw [State.r64_of_rg (hrg _ (by unfold CycleReg Reg.FC_CYC_TS_LO; omega)) (hrg _ (by unfold CycleReg Reg.FC_CYC_TS_LO; omega)),
      State.stamp_counted, htsu]
  · rw [State.bit_of_rg (hrg _ (by unfold CycleReg Reg.FC_CYC_STAT; omega)), State.running_counted]
  · rw [hts, State.ts_atTs, if_pos h]
  · exact (congrArg FcSt.cycTick hfc).trans (bcyc.trans htick.symm)
  · exact (congrArg FcSt.started hfc).trans bstarted
  · rw [← hnext, ← htcyc]
    exact (congrArg FcSt.next hfc).trans bnext
  · rwa [State.cycleFcs_of_gang hgu]

theorem sampleInstant_takes_held_target (s : State) (n : Fin 16) (ch : Fin 8) (v : Word) (hf : s.follower n = false)
    (hR : s.bit (Reg.FC_CYC_CTRL n) F.FC_CYC_CTRL_RUN = true)
    (hw : ∀ w ∈ s.keep.waits, w.on ≠ .sample n ∧ w.on ≠ .turn ∧ ∀ l, w.on ≠ .bypass l) (hms : s.cycleFcs n = [n.val])
    (hwr : (s.fc n).writes = [(Reg.OBS_SHTGT n ch, v)]) : Answers (.sampleInstant n) s fun t =>
      t.rg (Reg.OBS_SHTGT n ch) = v ∧ (t.fc n).writes = [] := by
  have hn := n.isLt
  have hch := ch.isLt
  refine ⟨_, exec_sampleInstant hf hR, ?_⟩
  rw [hms, List.foldl_cons, List.foldl_nil]
  have htim := (State.fc_of_still ((s.sampleStart n).still_hubAccept n) n).trans (congrArg FcSt.timing (s.fc_sampleStart n n))
  have hheld : (((s.sampleStart n).hubAccept n).fc n).writes = [(Reg.OBS_SHTGT n ch, v)] := (congrArg (·.2.2) htim).trans hwr
  obtain ⟨hkeep, hnone, hput, hrest⟩ := State.takeWrites_shtgt hch hheld
  generalize ((s.sampleStart n).hubAccept n).takeWrites n = u at hkeep hnone hput hrest
  have hku : u.keep = s.keep := hkeep.trans ((State.keep_hubAccept _ _).trans (s.keep_sampleStart n))
  have hgu : u.gang = s.gang :=
    (State.gang_of_rg fun m => (hrest _ (by unfold Reg.OBS_SHTGT Reg.FC_CYC_STAT; omega)).trans (State.rg_hubAccept _ _ _)).trans
      (s.gang_sampleStart hn)
  obtain ⟨hpump, -, hfc, hrg, -⟩ := u.sampleTail_keeps (n := n) (by rwa [hku])
  obtain ⟨-, -, -, bwrites⟩ := u.fc_cycleBegin hn ((State.follower_of_gang hgu hn).trans hf)
  rw [hpump]
  refine ⟨?_, (congrArg FcSt.writes hfc).trans (bwrites.trans hnone)⟩
  rw [hrg _ (by unfold CycleReg Reg.OBS_SHTGT; omega), State.rg_counted_ne, hput] <;>
    simp only [ne_eq, Reg.OBS_SHTGT, Reg.FC_CYC_COUNT, Reg.FC_CYC_TS_LO, Reg.FC_CYC_STAT] <;> omega

end Sys2Proof.Machine
end
section
/-! The end of cycling (O16). -/

namespace Sys2Proof.Machine

theorem State.keep_takeWrites (s : State) (m : Nat) : (s.takeWrites m).keep = s.keep :=
  State.keep_of_still (π := fun _ => ()) (by
    simp [State.takeWrites, State.applyWrites, State.cfgFollow, State.splitBits])

theorem State.keep_flightsHeld (s : State) (n f : Nat) : ((s.takeXinit n f).heldFlt n f).keep = s.keep :=
  State.keep_of_still (π := FcSt.clock) (by simp)

theorem State.keep_cycleEnd (s : State) (n : Nat) : (s.cycleEnd n).keep = s.keep :=
  State.keep_of_still (π := fun _ => ()) (by simp [State.cycleEnd_eq, State.lanesOff])

theorem State.started_cycleEnd (s : State) (n : Nat) : ((s.cycleEnd n).fc n).started = false := by
  rw [State.cycleEnd_eq]
  exact congrArg FcSt.started (State.fc_mapFc_self _ n fun x => { x with started := false, done := [] })

theorem State.running_cycleEnd (s : State) (n : Nat) : (s.cycleEnd n).bit (Reg.FC_CYC_STAT n) F.FC_CYC_STAT_RUNNING = false := by
  rw [State.cycleEnd_eq]
  exact State.bit_sf_self _ _ _ 0 (by decide)

/-- What the end of cycling does before the lanes go to OFF (R24): the last cycle is judged, held writes and states take effect. -/
def State.endStart (n : Nat) (s : State) : State :=
  let s := (s.atTs (s.fc n).next).judgeInner n
  let s := (s.cycleFcs n).foldl (fun s m => s.takeWrites m) s
  (s.led n).foldl (fun s f => (s.takeXinit n f).heldFlt n f) s

theorem State.keep_endStart (s : State) (n : Nat) : (s.endStart n).keep = s.keep := by
  unfold State.endStart
  extract_lets u v
  have hu : u.keep = s.keep := (State.keep_of_still (π := id) (by simp [u])).trans (s.keep_atTs (s.fc n).next)
  have hv : v.keep = u.keep := foldl_frame State.keep _ _ _ fun t m => t.keep_takeWrites m
  exact (foldl_frame State.keep _ _ _ fun t f => t.keep_flightsHeld n f).trans (hv.trans hu)

/-- Where no command waits for it, the end of cycling is that of the FCs' cycle alone. -/
theorem exec_cycleEnd {s : State} {n : Fin 16} (hf : s.follower n = false) (hR : s.bit (Reg.FC_CYC_CTRL n) F.FC_CYC_CTRL_RUN = false)
    (hr : s.bit (Reg.FC_CYC_STAT n) F.FC_CYC_STAT_RUNNING = true)
    (hw : ∀ w ∈ s.keep.waits, w.on ≠ .sample n ∧ w.on ≠ .turn ∧ w.on ≠ .stop ∧ ∀ l, w.on ≠ .bypass l) :
    exec (.cycleEnd n) s = .next ((s.endStart n).cycleEnd n) := by
  have h : exec (.cycleEnd n) s = .next (((((s.endStart n).samplesDone n).bypassDone n).cycleEnd n).stopsDone).pump :=
    if_neg (by simp [hf, hR, hr])
  have hk := s.keep_endStart n
  have hke : ((s.endStart n).cycleEnd n).keep = s.keep := (State.keep_cycleEnd _ _).trans hk
  rw [h, State.samplesDone_of_none fun w hm => (hw w (hk ▸ hm)).1, State.bypassDone_of_none fun w hm => (hw w (hk ▸ hm)).2.2.2,
    State.stopsDone_of_none fun w hm => (hw w (hke ▸ hm)).2.2.1, State.pump_of_none fun w hm => (hw w (hke ▸ hm)).2.1]

theorem cycleEnd_ends_cycling (s : State) (n : Fin 16) (hf : s.follower n = false)
    (hR : s.bit (Reg.FC_CYC_CTRL n) F.FC_CYC_CTRL_RUN = false) (hr : s.bit (Reg.FC_CYC_STAT n) F.FC_CYC_STAT_RUNNING = true)
    (hw : ∀ w ∈ s.keep.waits, w.on ≠ .sample n ∧ w.on ≠ .turn ∧ w.on ≠ .stop ∧ ∀ l, w.on ≠ .bypass l) :
    Answers (.cycleEnd n) s fun t =>
      t.mem = s.mem ∧ t.bit (Reg.FC_CYC_STAT n) F.FC_CYC_STAT_RUNNING = false ∧ (t.fc n).started = false ∧
      ∀ i : Fin 64, t.laneState (64 * n + i) = 0 := by
  have hm : ((s.endStart n).cycleEnd n).memTs = (s.atTs (s.fc n).next).memTs := by simp [State.endStart]
  exact ⟨_, exec_cycleEnd hf hR hr hw, (State.mem_of_memTs hm).trans (s.mem_atTs _), State.running_cycleEnd _ _,
    State.started_cycleEnd _ _, fun i => State.laneState_cycleEnd _ n.isLt i.isLt⟩

end Sys2Proof.Machine
end
section
/-! What the listen deadline (R28) leaves of the lanes it has not come to, and of what it has judged. -/

namespace Sys2Proof.Machine

/-! ### Replies and judging counts of the lanes -/

/-- What stands at each lane of the reply of this cycle and of the cycle it is judged from. -/
def State.rxs (s : State) (l : Nat) : Option Rx × Word := ((s.lane l).rx, (s.lane l).judgeFrom)

theorem State.rxs_of_lanes {s t : State} (h : t.lanes = s.lanes) : t.rxs = s.rxs := by
  funext l
  unfold State.rxs State.lane
  rw [h]

theorem State.rxs_mapLane_ne (s : State) {l k : Nat} (f : Lane → Lane) (h : k ≠ l) : (s.mapLane l f).rxs k = s.rxs k := by
  unfold State.rxs
  rw [State.lane_mapLane_ne s f h]

/-- A change of a lane that leaves its reply. -/
@[simp] theorem State.rxs_mapLane (s : State) (l : Nat) (f : Lane → Lane)
    (h : ∀ x, ((f x).rx, (f x).judgeFrom) = (x.rx, x.judgeFrom)) :
    (s.mapLane l f).rxs = s.rxs := by
  funext k
  by_cases hk : k = l
  · rw [hk, State.rxs, State.lane_mapLane_self, h, State.rxs]
  · exact s.rxs_mapLane_ne f hk

@[simp] theorem State.rxs_ite (c : Prop) [Decidable c] (s t : State) : (if c then s else t).rxs = if c then s.rxs else t.rxs :=
  apply_ite _ _ _ _

@[simp] theorem State.rxs_wr (s : State) (a : Nat) (v : Word) : (s.wr a v).rxs = s.rxs := State.rxs_of_lanes (by simp)
@[simp] theorem State.rxs_sf (s : State) (a : Nat) (f : Fld) (x : Nat) : (s.sf a f x).rxs = s.rxs := State.rxs_of_lanes (by simp)
@[simp] theorem State.rxs_flag (s : State) (a : Nat) (f : Fld) : (s.flag a f).rxs = s.rxs := State.rxs_of_lanes (by simp)
@[simp] theorem State.rxs_incSat (s : State) (a : Nat) (f : Fld) : (s.incSat a f).rxs = s.rxs := State.rxs_of_lanes (by simp)
@[simp] theorem State.rxs_mapSlot (s : State) (n f : Nat) (g : SlotSt → SlotSt) : (s.mapSlot n f g).rxs = s.rxs :=
  State.rxs_of_lanes (by simp)
@[simp] theorem State.rxs_raise (s : State) (src code pay : Nat) : (s.raise src code pay).rxs = s.rxs := State.rxs_of_lanes (by simp)
@[simp] theorem State.rxs_raiseIf (s : State) (c : Bool) (src code pay : Nat) : (s.raiseIf c src code pay).rxs = s.rxs :=
  State.rxs_of_lanes (by simp)
@[simp] theorem State.rxs_flagOnce (s : State) (a : Nat) (f : Fld) (src code pay : Nat) : (s.flagOnce a f src code pay).rxs = s.rxs :=
  State.rxs_of_lanes (by simp)

@[simp] theorem State.rxs_setSource (s : State) (k : Nat) (act out : Bool) : (s.setSource k act out).rxs = s.rxs := by
  obtain ⟨r, h, y, l, c, p, t, o, e⟩ := s.setSource_frame k act out
  rw [e]
  rfl

@[simp] theorem State.rxs_setCause (n c : Nat) (on : Bool) (s : State) : (s.setCause n c on).rxs = s.rxs := by
  simp [State.setCause, State.setInternal]

@[simp] theorem State.rxs_lossOfLink (l : Nat) (s : State) : (s.lossOfLink l).rxs = s.rxs := by
  unfold State.lossOfLink
  split <;> simp [State.lossEval]

@[simp] theorem State.rxs_setLane (l st : Nat) (s : State) : (s.setLane l st).rxs = s.rxs := by
  simp [State.setLane, State.mapBit]

@[simp] theorem State.rxs_trainFail (l step : Nat) (s : State) : (s.trainFail l step).rxs = s.rxs := by simp [State.trainFail]
@[simp] theorem State.rxs_bypassReport (l st : Nat) (s : State) : (s.bypassReport l st).rxs = s.rxs := by simp [State.bypassReport]

@[simp] theorem State.rxs_wrBytes (s : State) (a : Nat) (b : List Byte) : (s.wrBytes a b).rxs = s.rxs := by
  induction b generalizing s a with
  | nil => rfl
  | cons x b ih => exact (ih _ _).trans (State.rxs_of_lanes rfl)

@[simp] theorem State.rxs_mbxUp (l : Nat) (s : State) : (s.mbxUp l).rxs = s.rxs := by simp [State.mbxUp]
@[simp] theorem State.rxs_badBarge (l : Nat) (missing : Bool) (s : State) : (s.badBarge l missing).rxs = s.rxs := by
  simp [State.badBarge]
@[simp] theorem State.rxs_goodBarge (l : Nat) (b : List Byte) (s : State) : (s.goodBarge l b).rxs = s.rxs := by
  simp [State.goodBarge]

@[simp] theorem State.rxs_ovCheck (n f l v : Nat) (s : State) : (s.ovCheck n f l v).rxs = s.rxs := by
  simp [State.ovCheck, State.ovEval, State.cellFlag]

@[simp] theorem State.rxs_reconcile (n f l v : Nat) (s : State) : (s.reconcile n f l v).rxs = s.rxs := by
  simp [State.reconcile, State.cellFlag, State.correct, State.resync]

@[simp] theorem State.rxs_ledGood (l v : Nat) (s : State) : (s.ledGood l v).rxs = s.rxs := by
  dsimp only [State.ledGood]
  split <;> simp

@[simp] theorem State.rxs_ledMiss (l : Nat) (s : State) : (s.ledMiss l).rxs = s.rxs := by
  unfold State.ledMiss
  split <;> simp

/-- The eight words of a record go into registers. -/
theorem State.rxs_decl (s : State) (a : Nat → Nat) (v : Nat → Word) : (forN 8 (fun w s => s.wr (a w) (v w)) s).rxs = s.rxs :=
  forN_frame State.rxs 8 _ s fun _ _ t => t.rxs_wr _ _

theorem State.rxs_trainStep_ne (s : State) {l k : Nat} (h : k ≠ l) (c : Nat) : (s.trainStep l c).rxs k = s.rxs k := by
  dsimp only [State.trainStep]
  (repeat' split) <;> simp [State.rxs_mapLane_ne _ _ h, State.rxs_decl]

theorem State.rxs_listenLane_ne (s : State) {l j : Nat} (h : j ≠ l) (k : Word) : (s.listenLane l k).rxs j = s.rxs j := by
  dsimp only [State.listenLane]
  (repeat' split) <;> simp [State.rxs_mapLane_ne _ _ h, State.rxs_trainStep_ne _ h]

/-! ### Registers of the lanes -/

theorem State.lt_of_linkFlight {s : State} {l n f : Nat} (h : s.linkFlight l = some (n, f)) : f < 2 := by
  obtain ⟨g, hg, he⟩ := Option.map_eq_some_iff.1 h
  have := List.mem_of_find?_eq_some hg
  simp at this he
  omega

/-- What a barge that is bad or missing does behind its counts: the lane goes to DEGRADED or to LOST (R57). -/
def State.badRest (l : Nat) (s : State) : State :=
  let c := s.fld (Reg.LNK_MISS (l / 64) (l % 64)) F.LNK_MISS_CONSEC
  if s.laneState l = 5 && c = 2 then
    ((s.flag (lnkStat l) F.LNK_STAT_DEGRADED_SEEN).setLane l 6).raise l 0x02 (s.lanePay l 0)
  else if s.laneState l = 6 && c = 3 then
    ((s.flag (lnkStat l) F.LNK_STAT_LOST_SEEN).setLane l 7).raise l 0x03 (s.lanePay l 0)
  else s

theorem State.badBarge_eq (s : State) (l : Nat) (missing : Bool) : s.badBarge l missing =
    ((if missing then s.incSat (Reg.LNK_MISS (l / 64) (l % 64)) F.LNK_MISS_MISS else s).incSat
      (Reg.LNK_MISS (l / 64) (l % 64)) F.LNK_MISS_CONSEC).badRest l := rfl

/-- What a good barge does behind LNK_MISS and LNK_LAST: the lane's state, its reports and its mailbox (R57, R61, R63, R65). -/
def State.goodRest (l : Nat) (b : List Byte) (s : State) : State :=
  let st := leAt b 6 2
  let x := s.lane l
  let s := if s.laneState l = 6 then (s.setLane l 5).raise l 0x09 (s.lanePay l st) else s
  let ts := nbit st 4
  let blk := nbit st 0 && !nbit st 1
  let s := if ts then (s.flag (lnkStat l) F.LNK_STAT_TS_FAULT).raiseIf (!x.repTs) l 0x06 (s.lanePay l st) else s
  let s := if blk then (s.flag (lnkStat l) F.LNK_STAT_CELL_BLOCK).raiseIf (!x.repBlk) l 0x07 (s.lanePay l st) else s
  let s := if nbit st 7 then (s.flag (lnkStat l) F.LNK_STAT_PULSE_VIOL).raise l 0x08 (s.lanePay l st) else s
  let s := s.mapLane l fun x => { x with repTs := ts, repBlk := blk }
  let s := if nbit st 9 then s.bypassReport l st else s
  (s.mapLane l fun x => { x with upMbx := (b.drop 16).take 34 }).mbxUp l

theorem State.goodBarge_eq (s : State) (l : Nat) (b : List Byte) : s.goodBarge l b =
    ((((s.sf (Reg.LNK_MISS (l / 64) (l % 64)) F.LNK_MISS_CONSEC 0).sf (Reg.LNK_MISS (l / 64) (l % 64)) F.LNK_MISS_CELL_BAD
      (leAt b 15 1)).wr (Reg.LNK_LAST (l / 64) (l % 64)) (BitVec.ofNat 32 (leAt b 6 2 + 65536 * leAt b 2 2)))).goodRest l b := rfl

section regs

variable {a : Nat}

/-- A register of a link block. -/
abbrev LinkReg (a : Nat) : Prop := a < 0x70000000 ∧ 0x1000 ≤ a % 0x100000 ∧ a % 0x100000 < 0x2000

theorem State.rg_wrBytes (s : State) (b : Nat) (l : List Byte) : (s.wrBytes b l).rg a = s.rg a := by
  induction l generalizing s b with
  | nil => rfl
  | cons x l ih => exact ih _ _

theorem State.rg_mbxUp (s : State) (l : Nat) : (s.mbxUp l).rg a = s.rg a := by simp [State.mbxUp, State.rg_wrBytes]

theorem State.rg_ledMiss (s : State) (l : Nat) : (s.ledMiss l).rg a = s.rg a := by
  unfold State.ledMiss
  split <;> simp

section link

variable (ha : LinkReg a)
include ha

theorem State.rg_raise_link (s : State) (src code pay : Nat) : (s.raise src code pay).rg a = s.rg a :=
  s.rg_raise_below src code pay (by omega)

theorem State.rg_bypassReport (s : State) (l st : Nat) : (s.bypassReport l st).rg a = s.rg a := by
  have hd : a ≠ Reg.FC_CDESC (l / 64) (l % 64) 0 := by unfold Reg.FC_CDESC; omega
  simp [State.bypassReport, State.rg_raise_link ha, State.rg_wr_ne _ _ hd]

theorem State.rg_setLane_link (s : State) {l : Nat} (st : Nat) (hl : a ≠ lnkStat l) : (s.setLane l st).rg a = s.rg a :=
  s.rg_setLane st ha.1 (by omega) hl

theorem State.rg_trainFail (s : State) {l : Nat} (step : Nat) (hl : a ≠ lnkStat l) : (s.trainFail l step).rg a = s.rg a := by
  simp [State.trainFail, State.rg_raise_link ha, State.rg_setLane_link ha _ _ hl, State.rg_flag_ne _ _ hl, State.rg_sf_ne _ _ _ hl]

theorem State.rg_cellFlag (s : State) (n f l b code pay : Nat) : (s.cellFlag n f l b code pay).rg a = s.rg a :=
  State.rg_flagOnce_ne _ _ _ _ _ (by omega) (by unfold ledFlags Reg.LED_CELL; omega)

theorem State.rg_ledStat (s : State) (n : Nat) {f : Nat} (hf : f < 2) (g : Fld) : (s.flag (Reg.LED_STAT n f) g).rg a = s.rg a :=
  State.rg_flag_ne _ _ (by unfold Reg.LED_STAT; omega)

theorem State.rg_ovCheck (s : State) (n l v : Nat) {f : Nat} (hf : f < 2) : (s.ovCheck n f l v).rg a = s.rg a := by
  simp [State.ovCheck, State.ovEval, State.rg_setCause _ _ _ _ ha.1, State.rg_cellFlag ha, State.rg_ledStat ha _ _ hf]

theorem State.rg_reconcile (s : State) (n l v : Nat) {f : Nat} (hf : f < 2) : (s.reconcile n f l v).rg a = s.rg a := by
  simp [State.reconcile, State.correct, State.resync, State.rg_cellFlag ha, State.rg_ledStat ha _ _ hf]

theorem State.rg_ledGood (s : State) (l v : Nat) : (s.ledGood l v).rg a = s.rg a := by
  dsimp only [State.ledGood]
  split
  · rename_i n f hl
    have hf := State.lt_of_linkFlight hl
    simp [State.rg_ovCheck ha _ _ _ _ hf, State.rg_reconcile ha _ _ _ _ hf]
  · rfl

theorem State.rg_badRest (s : State) {l : Nat} (hl : a ≠ lnkStat l) : (s.badRest l).rg a = s.rg a := by
  simp [State.badRest, State.rg_raise_link ha, State.rg_setLane_link ha _ _ hl, State.rg_flag_ne _ _ hl]

theorem State.rg_goodRest (s : State) {l : Nat} (b : List Byte) (hl : a ≠ lnkStat l) : (s.goodRest l b).rg a = s.rg a := by
  simp [State.goodRest, State.rg_mbxUp, State.rg_bypassReport ha, State.raiseIf, State.rg_raise_link ha,
    State.rg_setLane_link ha _ _ hl, State.rg_flag_ne _ _ hl]

theorem State.rg_trainStep (s : State) {l : Nat} (k : Nat) (hl : a ≠ lnkStat l)
    (hd : ∀ w < 8, a ≠ Reg.LNK_DECL (l / 64) (l % 64) w) :
    (s.trainStep l k).rg a = s.rg a := by
  have hdecl : ∀ (t : State) (v : Nat → Word),
      (forN 8 (fun w s => s.wr (Reg.LNK_DECL (l / 64) (l % 64) w) (v w)) t).rg a = t.rg a :=
    fun t v => forN_frame (State.rg · a) 8 _ t fun w hw u => u.rg_wr_ne _ (hd w hw)
  dsimp only [State.trainStep]
  (repeat' split) <;> simp [State.rg_bypassReport ha, State.rg_setLane_link ha _ _ hl, State.rg_trainFail ha _ _ hl, hdecl]

end link

end regs

/-! ### One lane among the others -/

/-- What the listen deadline shows of lane `l`: its reply, the cycle it is judged from, LNK_STAT, LNK_MISS and LNK_LAST. -/
def State.linkView (l : Nat) (s : State) : (Option Rx × Word) × Word × Word × Word :=
  (s.rxs l, s.rg (lnkStat l), s.rg (Reg.LNK_MISS (l / 64) (l % 64)), s.rg (Reg.LNK_LAST (l / 64) (l % 64)))

/-- The judging of one lane leaves the registers of the others. -/
theorem State.rg_listenLane_ne (s : State) {a j : Nat} (ha : LinkReg a)
    (h : a < Reg.LNK_CTRL (j / 64) (j % 64) ∨ Reg.LNK_CTRL (j / 64) (j % 64) + 0x40 ≤ a) (k : Word) :
    (s.listenLane j k).rg a = s.rg a := by
  unfold Reg.LNK_CTRL at h
  have hstat : a ≠ lnkStat j := by unfold lnkStat Reg.LNK_STAT; omega
  have hmiss : a ≠ Reg.LNK_MISS (j / 64) (j % 64) := by unfold Reg.LNK_MISS; omega
  have hlast : a ≠ Reg.LNK_LAST (j / 64) (j % 64) := by unfold Reg.LNK_LAST; omega
  have hdecl : ∀ w < 8, a ≠ Reg.LNK_DECL (j / 64) (j % 64) w := by unfold Reg.LNK_DECL; omega
  dsimp only [State.listenLane]
  (repeat' split) <;> simp [State.rg_ledMiss, State.rg_ledGood ha, State.rg_trainStep ha _ _ hstat hdecl, State.badBarge_eq,
    State.goodBarge_eq, State.rg_badRest ha _ hstat, State.rg_goodRest ha _ _ hstat, State.rg_wr_ne _ _ hlast,
    State.rg_sf_ne _ _ _ hmiss, State.rg_incSat_ne _ _ hmiss]

theorem State.linkView_listenLane_ne (s : State) {l j : Nat} (hl : l < 1024) (h : l ≠ j) (k : Word) :
    (s.listenLane j k).linkView l = s.linkView l := by
  have hrg : ∀ a, LinkReg a → Reg.LNK_CTRL (l / 64) (l % 64) ≤ a → a < Reg.LNK_CTRL (l / 64) (l % 64) + 0x40 →
      (s.listenLane j k).rg a = s.rg a := fun a ha hlo hhi => s.rg_listenLane_ne ha (by unfold Reg.LNK_CTRL at *; omega) k
  have hstat := hrg (lnkStat l)
  have hmiss := hrg (Reg.LNK_MISS (l / 64) (l % 64))
  have hlast := hrg (Reg.LNK_LAST (l / 64) (l % 64))
  unfold State.linkView
  unfold lnkStat Reg.LNK_STAT Reg.LNK_MISS Reg.LNK_LAST Reg.LNK_CTRL at *
  rw [s.rxs_listenLane_ne h, hstat (by omega) (by omega) (by omega), hmiss (by omega) (by omega) (by omega),
    hlast (by omega) (by omega) (by omega)]

/-- A loop whose other steps leave `g` shows, at its end, what the step in question made of it. -/
theorem forN_view {σ τ : Type} (g : σ → τ) {i n : Nat} (f : Nat → σ → σ) (s : σ) (hi : i < n)
    (h : ∀ j < n, j ≠ i → ∀ s, g (f j s) = g s) : ∃ u, g u = g s ∧ g (forN n f s) = g (f i u) := by
  induction n with
  | zero => omega
  | succ n ih =>
    rw [forN_succ]
    by_cases hin : i = n
    · subst hin
      exact ⟨_, forN_frame g i f s fun j hj => h j (by omega) (by omega), rfl⟩
    · obtain ⟨u, hu, he⟩ := ih (by omega) fun j hj => h j (by omega)
      exact ⟨u, hu, (h n (by omega) (Ne.symm hin) _).trans he⟩

/-! ### The lane itself -/

theorem State.judged_of_linkView {s t : State} {l : Nat} (h : t.linkView l = s.linkView l) (k : Word) :
    t.judged l k = s.judged l k := by
  unfold State.linkView State.rxs at h
  simp only [Prod.mk.injEq] at h
  obtain ⟨⟨-, hj⟩, hs, -⟩ := h
  unfold State.judged State.laneUp
  rw [State.laneState_of_rg hs, hj]

/-- A lane that is up is in none of the states of training. -/
theorem State.training_of_laneUp {s : State} {l : Nat} (h : s.laneUp l = true) :
    (decide (s.laneState l = 1) || decide (s.laneState l = 2) || decide (s.laneState l = 3)) = false := by
  simp only [State.laneUp, Bool.or_eq_true, beq_iff_eq] at h
  simp only [Bool.or_eq_false_iff, decide_eq_false_iff_not]
  omega

section judged

variable {s : State} {l : Nat} {k : Word} (h : s.judged l k = true)
include h

theorem State.listenLane_of_missing (hr : (s.lane l).rx = none) :
    s.listenLane l k = ((s.mapLane l fun x => { x with rx := none }).badBarge l true).ledMiss l := by
  obtain ⟨hup, -⟩ := Bool.and_eq_true_iff.1 h
  simp [State.listenLane, State.training_of_laneUp hup, hup, h, hr]

theorem State.listenLane_of_good {r : Rx} (hr : (s.lane l).rx = some r) (hg : r.goodCtrl l k.toNat = true) :
    s.listenLane l k = ((((s.mapLane l fun x => { x with rx := none }).mapLane l fun x =>
      { x with temp := sx 16 (leAt r.bytes 12 2) }).goodBarge l r.bytes).ledGood l (leAt r.bytes 8 2)) := by
  obtain ⟨hup, -⟩ := Bool.and_eq_true_iff.1 h
  simp [State.listenLane, State.training_of_laneUp hup, hup, h, hr, hg]

theorem State.listenLane_of_bad {r : Rx} (hr : (s.lane l).rx = some r) (hg : r.goodCtrl l k.toNat = false) :
    s.listenLane l k = ((s.mapLane l fun x => { x with rx := none }).badBarge l false).ledMiss l := by
  obtain ⟨hup, -⟩ := Bool.and_eq_true_iff.1 h
  simp [State.listenLane, State.training_of_laneUp hup, hup, h, hr, hg]

end judged

theorem satInc_sixteen {x : Nat} (h : x < 2 ^ 16) : satInc 16 x % 2 ^ 16 = min 65535 (x + 1) := by
  unfold satInc
  split <;> omega

/-- What the listen deadline makes of a lane that it judges. -/
def State.listened (l : Nat) (k : Word) (s t : State) : Prop :=
  (t.lane l).rx = none ∧
  ((s.lane l).rx = none → t.fld (Reg.LNK_MISS (l / 64) (l % 64)) F.LNK_MISS_MISS =
    min 65535 (s.fld (Reg.LNK_MISS (l / 64) (l % 64)) F.LNK_MISS_MISS + 1)) ∧
  (∀ r, (s.lane l).rx = some r → r.goodCtrl l k.toNat = true →
    t.fld (Reg.LNK_MISS (l / 64) (l % 64)) F.LNK_MISS_CONSEC = 0 ∧
    t.rg (Reg.LNK_LAST (l / 64) (l % 64)) = BitVec.ofNat 32 (leAt r.bytes 6 2 + 65536 * leAt r.bytes 2 2))

/-- It is the view of the lane alone. -/
theorem State.listened_of_linkView {s s' t t' : State} {l : Nat} (hs : s'.linkView l = s.linkView l)
    (ht : t'.linkView l = t.linkView l)
    {k : Word} (h : s'.listened l k t) : s.listened l k t' := by
  unfold State.linkView State.rxs at hs ht
  simp only [Prod.mk.injEq] at hs ht
  obtain ⟨⟨hsx, -⟩, -, hsm, -⟩ := hs
  obtain ⟨⟨htx, -⟩, -, htm, htl⟩ := ht
  unfold State.listened at h ⊢
  rw [htx, htl, State.fld_of_rg htm, State.fld_of_rg htm, ← hsx, ← State.fld_of_rg hsm]
  exact h

theorem State.listened_listenLane {s : State} {l : Nat} (hl : l < 1024) {k : Word} (h : s.judged l k = true) :
    s.listened l k (s.listenLane l k) := by
  have hmiss : LinkReg (Reg.LNK_MISS (l / 64) (l % 64)) ∧ Reg.LNK_MISS (l / 64) (l % 64) ≠ lnkStat l ∧
      Reg.LNK_MISS (l / 64) (l % 64) ≠ Reg.LNK_LAST (l / 64) (l % 64) := by
    unfold LinkReg lnkStat Reg.LNK_STAT Reg.LNK_MISS Reg.LNK_LAST; omega
  have hlast : LinkReg (Reg.LNK_LAST (l / 64) (l % 64)) ∧ Reg.LNK_LAST (l / 64) (l % 64) ≠ lnkStat l := by
    unfold LinkReg lnkStat Reg.LNK_STAT Reg.LNK_LAST; omega
  obtain ⟨hm, hms, hml⟩ := hmiss
  obtain ⟨hla, hlas⟩ := hlast
  have hrx : ∀ t : State, t.rxs = (s.mapLane l fun x => { x with rx := none }).rxs → (t.lane l).rx = none := fun t ht => by
    have := congrArg Prod.fst (congrFun ht l)
    rw [State.rxs, State.rxs, State.lane_mapLane_self] at this
    exact this
  cases hr : (s.lane l).rx with
  | none =>
    rw [State.listenLane_of_missing h hr]
    refine ⟨hrx _ (by simp), fun _ => ?_, by simp [hr]⟩
    rw [State.badBarge_eq, if_pos rfl, State.fld_of_rg ((State.rg_ledMiss _ _).trans (State.rg_badRest hm _ hms)), State.incSat,
      State.fld_sf_disjoint _ _ _ _ _ (by decide), State.incSat, State.fld_sf_self _ _ _ _ (by decide)]
    exact satInc_sixteen (State.fld_lt _ _ _)
  | some r =>
    cases hg : r.goodCtrl l k.toNat with
    | false =>
      rw [State.listenLane_of_bad h hr hg]
      exact ⟨hrx _ (by simp), by simp [hr], fun r' he => by simp_all⟩
    | true =>
      rw [State.listenLane_of_good h hr hg]
      refine ⟨hrx _ (by simp), by simp [hr], fun r' he _ => ?_⟩
      obtain rfl := Option.some.inj (hr.symm.trans he)
      rw [State.goodBarge_eq, State.fld_of_rg ((State.rg_ledGood hm _ _ _).trans (State.rg_goodRest hm _ _ hms)),
        State.rg_ledGood hla, State.rg_goodRest hla _ _ hlas, State.fld_wr_ne _ _ _ hml, State.fld_sf_disjoint _ _ _ _ _ (by decide),
        State.fld_sf_self _ _ _ _ (by decide), State.rg_wr_self]
      exact ⟨rfl, rfl⟩

end Sys2Proof.Machine
end
section
/-! The steps at ticks 64 and 88 of a cycle, and the shaper targets (O16). -/

namespace Sys2Proof.Machine

/-! ### A step of the cycle -/

theorem State.tick_stepAt (s : State) (n t : Nat) : (s.stepAt n t).tick = max s.tick ((s.fc n).cycTick + t) := s.tick_atTick _

theorem State.regs_stepAt (s : State) (n t : Nat) : (s.stepAt n t).regs = s.regs := s.regs_atTick _
theorem State.lanes_stepAt (s : State) (n t : Nat) : (s.stepAt n t).lanes = s.lanes := s.lanes_atTick _
theorem State.adcs_stepAt (s : State) (n t : Nat) : (s.stepAt n t).adcs = s.adcs := s.adcs_atTick _

theorem State.done_stepAt (s : State) (n t : Nat) : t ∈ ((s.stepAt n t).fc n).done := by
  unfold State.stepAt
  rw [State.fc_mapFc_self]
  exact List.mem_cons_self

theorem State.mem_stepAt (s : State) (n t : Nat) : (s.stepAt n t).mem = s.mem := s.mem_atTick _

theorem State.lat_stepAt (s : State) (n t : Nat) : ((s.stepAt n t).fc n).lat = (s.fc n).lat := by
  unfold State.stepAt
  rw [State.fc_mapFc_self]
  exact congrArg (fun l => (tget FcSt.init l n).lat) (s.fcs_atTick _)

theorem State.gang_stepAt (s : State) (n t : Nat) : (s.stepAt n t).gang = s.gang :=
  State.gang_of_rg fun _ => State.rg_congr (s.regs_stepAt n t) _

theorem State.count_of_regs {s t : State} (h : t.regs = s.regs) (n : Nat) : t.count n = s.count n := by
  unfold State.count State.leader State.bit State.fld State.rg
  rw [h]

theorem State.linkView_of_regs_lanes {s t : State} (hr : t.regs = s.regs) (hl : t.lanes = s.lanes) (l : Nat) :
    t.linkView l = s.linkView l := by
  unfold State.linkView
  rw [State.rxs_of_lanes hl, State.rg_congr hr, State.rg_congr hr, State.rg_congr hr]

/-! ### Tick 64 -/

/-- The judging of the lanes of one FC. -/
def State.listenFc (k : Word) (s : State) (m : Nat) : State :=
  (forN 64 (fun i s => s.listenLane (64 * m + i) k) s).wakeAll m 1

theorem exec_listenDeadline {s : State} {n : Fin 16} (hd : s.stepDue n 64 = true) (hf : (s.fc n).fresh = false) :
    exec (.listenDeadline n) s = .next ((s.cycleFcs n).foldl (State.listenFc (s.count n - 1)) (s.stepAt n 64)) := by
  have h : exec (.listenDeadline n) s = .next (((s.stepAt n 64).cycleFcs n).foldl (State.listenFc ((s.stepAt n 64).count n - 1))
      (s.stepAt n 64)) := if_pos (by simp [hd, hf])
  rw [h, State.cycleFcs_of_gang (s.gang_stepAt n 64), State.count_of_regs (s.regs_stepAt n 64)]

theorem State.still_listenFc (k : Word) (s : State) (m : Nat) : (s.listenFc k m).still FcSt.clock = s.still FcSt.clock := by
  simp [State.listenFc]

theorem State.linkView_wakeAll (s : State) (m ev l : Nat) : (s.wakeAll m ev).linkView l = s.linkView l :=
  forN_frame (State.linkView l) 8 _ s fun _ _ _ => rfl

/-- The lanes of one FC are judged without a look at those of another. -/
theorem State.linkView_listenFc_ne (s : State) (k : Word) {l m : Nat} (hl : l < 1024) (h : l / 64 ≠ m) :
    (s.listenFc k m).linkView l = s.linkView l :=
  (State.linkView_wakeAll _ m 1 l).trans (forN_frame (State.linkView l) 64 _ s fun i hi t =>
    t.linkView_listenLane_ne hl (by omega) k)

theorem State.listened_listenFc (s : State) {k : Word} {m i : Nat} (hm : m < 16) (hi : i < 64) (h : s.judged (64 * m + i) k = true) :
    s.listened (64 * m + i) k (s.listenFc k m) := by
  obtain ⟨u, hu, he⟩ := forN_view (State.linkView (64 * m + i)) (fun i s => s.listenLane (64 * m + i) k) s hi fun j hj hne t =>
    t.linkView_listenLane_ne (by omega) (by omega) k
  exact State.listened_of_linkView hu ((State.linkView_wakeAll _ m 1 _).trans he)
    (State.listened_listenLane (by omega) ((State.judged_of_linkView hu k).trans h))

theorem listenDeadline_judges_barges (s : State) (n : Fin 16) (hd : s.stepDue n 64 = true) (hf : (s.fc n).fresh = false) :
    Answers (.listenDeadline n) s fun t =>
    t.tick = max s.tick ((s.fc n).cycTick + 64) ∧ 64 ∈ (t.fc n).done ∧ ∀ i : Fin 64,
      let l := 64 * n.val + i.val
      let k := s.count n - 1
      s.judged l k = true →
        (t.lane l).rx = none ∧
        ((s.lane l).rx = none → t.fld (Reg.LNK_MISS n i) F.LNK_MISS_MISS = min 65535 (s.fld (Reg.LNK_MISS n i) F.LNK_MISS_MISS + 1)) ∧
        (∀ r, (s.lane l).rx = some r → r.goodCtrl l k.toNat = true →
          t.fld (Reg.LNK_MISS n i) F.LNK_MISS_CONSEC = 0 ∧
          t.rg (Reg.LNK_LAST n i) = BitVec.ofNat 32 (leAt r.bytes 6 2 + 65536 * leAt r.bytes 2 2)) := by
  have hst : ((s.cycleFcs n).foldl (State.listenFc (s.count n - 1)) (s.stepAt n 64)).still FcSt.clock =
      (s.stepAt n 64).still FcSt.clock := foldl_frame (State.still FcSt.clock) _ _ _ fun t m => t.still_listenFc _ m
  refine ⟨_, exec_listenDeadline hd hf, (State.tick_of_still hst).trans (s.tick_stepAt n 64), ?_, fun i => ?_⟩
  · exact (congrArg (64 ∈ FcSt.done ·) (State.fc_of_still hst n)).mpr (s.done_stepAt n 64)
  · intro l k hj
    have hn := n.isLt
    have hi := i.isLt
    have hview := State.linkView_of_regs_lanes (s.regs_stepAt n 64) (s.lanes_stepAt n 64) l
    have hown := State.listened_listenFc (s.stepAt n 64) hn hi ((State.judged_of_linkView hview k).trans hj)
    have hrest : ((s.cycleFcs n).foldl (State.listenFc k) (s.stepAt n 64)).linkView l = ((s.stepAt n 64).listenFc k n).linkView l := by
      rw [State.cycleFcs, List.foldl_cons]
      exact foldl_frame_mem (State.linkView l) _ _ _ fun m hm t =>
        t.linkView_listenFc_ne k (by omega) (by have := State.ne_of_mem_followers hm; omega)
    have hall := State.listened_of_linkView hview hrest hown
    unfold State.listened at hall
    rwa [show l / 64 = n.val by omega, show l % 64 = i.val by omega] at hall

/-! ### Tick 88 -/

theorem State.adcs_publishCyc (s : State) (g c : Nat) : (s.publishCyc g c).adcs = s.adcs := by
  unfold State.publishCyc
  split
  · unfold State.noteSat
    split <;> simp
  · rfl

/-- The value of a cycle sample: 0 where the cycle has none. -/
def State.sampleOf (s : State) (g c : Nat) : Int :=
  match tget none (s.adc g).cyc c with
  | some v => v.val
  | none => 0

theorem State.sampleOf_eq (s : State) (g c : Nat) : s.sampleOf g c = ((tget none (s.adc g).cyc c).map Conv.val).getD 0 := by
  unfold State.sampleOf
  cases tget none (s.adc g).cyc c <;> rfl

theorem State.sampleOf_of_adcs {s t : State} (h : t.adcs = s.adcs) : t.sampleOf = s.sampleOf := by
  funext g c
  rw [State.sampleOf_eq, State.sampleOf_eq, State.adc, h, State.adc]

theorem State.fc_publishCyc (s : State) (g c k : Nat) : (s.publishCyc g c).fc k = s.fc k :=
  State.fc_of_still (π := id) (s.still_publishCyc g c) k

theorem State.fc_publishCycs (s : State) (g k : Nat) : (forN 4 (fun c s => s.publishCyc g c) s).fc k = s.fc k :=
  forN_frame (fun t : State => t.fc k) 4 _ s fun c _ t => t.fc_publishCyc g c k

/-- The channels of one FC are published (R28). -/
def State.publishFc (s : State) (m : Nat) : State :=
  let s := forN 4 (fun c s => s.publishCyc m c) s
  s.mapFc m fun x => { x with cor := (List.range 4).map (s.sampleOf m) }

/-- A channel of the hub is published, and sent to FC `n`. -/
def State.publishHub (n : Nat) (s : State) (h : Nat) : State :=
  let s := s.publishCyc (16 + h / 8) (h % 8)
  s.mapFc n fun x => { x with hubSent := tput x.hubSent h (s.sampleOf (16 + h / 8) (h % 8)) }

theorem State.publishSamples_eq (s : State) (n : Nat) : s.publishSamples n =
    let t := (s.cycleFcs n).foldl State.publishFc s
    (t.hubChans n).foldl (State.publishHub n) t := by
  unfold State.publishSamples
  extract_lets val
  have hval : val = State.sampleOf := rfl
  clear_value val
  subst hval
  rfl

/-- The hidden state of an FC without what is published of samples. -/
def FcSt.unsampled (x : FcSt) : FcSt := { x with cor := [], hubSent := [] }

theorem State.still_publishFc (s : State) (m : Nat) : (s.publishFc m).still FcSt.unsampled = s.still FcSt.unsampled := by
  unfold State.publishFc
  dsimp only
  refine (State.still_mapFc _ _ _ fun x => ?_).trans ?_
  · rfl
  · simp

theorem State.still_publishHub (s : State) (n h : Nat) : (s.publishHub n h).still FcSt.unsampled = s.still FcSt.unsampled := by
  unfold State.publishHub
  dsimp only
  refine (State.still_mapFc _ _ _ fun x => ?_).trans ?_
  · rfl
  · simp

theorem State.still_publishSamples (s : State) (n : Nat) : (s.publishSamples n).still FcSt.unsampled = s.still FcSt.unsampled := by
  rw [State.publishSamples_eq]
  exact (still_foldl _ _ _ fun t h => t.still_publishHub n h).trans (still_foldl _ _ _ fun t m => t.still_publishFc m)

theorem State.cor_publishFc_self (s : State) (n : Nat) : ((s.publishFc n).fc n).cor = (List.range 4).map (s.sampleOf n) := by
  have hadcs : (forN 4 (fun c s => s.publishCyc n c) s).adcs = s.adcs := forN_frame State.adcs 4 _ s fun c _ t => t.adcs_publishCyc n c
  unfold State.publishFc
  dsimp only
  rw [State.fc_mapFc_self, State.sampleOf_of_adcs hadcs]

theorem State.cor_publishFc_ne (s : State) {n m : Nat} (h : n ≠ m) : ((s.publishFc m).fc n).cor = (s.fc n).cor := by
  unfold State.publishFc
  dsimp only
  rw [State.fc_mapFc_ne _ _ h, State.fc_publishCycs]

theorem State.cor_publishHub (s : State) (n h : Nat) : ((s.publishHub n h).fc n).cor = (s.fc n).cor := by
  unfold State.publishHub
  dsimp only
  rw [State.fc_mapFc_self, State.fc_publishCyc]

/-- The FC's own channels are published first, and what follows leaves what it has of them. -/
theorem State.cor_publishSamples (s : State) (n : Nat) : ((s.publishSamples n).fc n).cor = (List.range 4).map (s.sampleOf n) := by
  rw [State.publishSamples_eq]
  refine (foldl_frame (fun t : State => (t.fc n).cor) _ _ _ fun t h => t.cor_publishHub n h).trans ?_
  rw [State.cycleFcs, List.foldl_cons]
  refine (foldl_frame_mem (fun t : State => (t.fc n).cor) _ _ _ fun m hm t => ?_).trans (s.cor_publishFc_self n)
  exact t.cor_publishFc_ne (Ne.symm (State.ne_of_mem_followers hm))

/-- What the flights do with the corrected samples leaves the hidden state of the FCs. -/
theorem State.fc_correctFlights (s : State) (n k : Nat) :
    (((s.led n).foldl (fun s f => s.correctFlight n f) s).fc k) = s.fc k :=
  State.fc_of_still (π := id) (by simp) k

/-- A register that says how an FC cycles, or where its balancer program starts. -/
abbrev StartReg (a : Nat) : Prop := a < 0x70000000 ∧ (a % 0x100000 < 0x28 ∨ a % 0x100000 = 0x6100)

section regs

variable {a : Nat} (ha : StartReg a)
include ha

theorem State.rg_viewCell (s : State) (l : Nat) : (s.viewCell l).rg a = s.rg a := by
  simp (disch := (unfold Reg.LED_CELL; omega)) [State.viewCell, State.rg_wr_ne, State.rg_sf_ne, State.rg_w64_ne]

theorem State.rg_view (s : State) (n : Nat) {f : Nat} (hf : f < 2) : (s.view n f).rg a = s.rg a := by
  have hcells : ∀ (l : List Nat) (t : State), (l.foldl (fun s l => s.viewCell l) t).rg a = t.rg a :=
    fun l t => foldl_frame (State.rg · a) l _ t fun u c => u.rg_viewCell ha c
  simp (disch := omega) [State.view, hcells, State.rg_w64_ne, Reg.LED_RES, Reg.LED_FPOST, Reg.LED_RACC, Reg.LED_FACC]

theorem State.rg_fltStat (s : State) (n : Nat) {f : Nat} (hf : f < 2) (g : Fld) (x : Nat) :
    (s.sf (Reg.FC_FLT_STAT n f) g x).rg a = s.rg a :=
  State.rg_sf_ne _ _ _ (by unfold Reg.FC_FLT_STAT; omega)

theorem State.rg_admitLane (s : State) (n l : Nat) {f : Nat} (hf : f < 2) : (s.admitLane n f l).rg a = s.rg a := by
  simp [State.admitLane, State.reject, State.flag, State.rg_raise_below _ _ _ _ (show a < 0x70040000 by omega),
    State.rg_fltStat ha _ _ hf]

theorem State.rg_fixAvail (s : State) (n : Nat) {f : Nat} (hf : f < 2) : (s.fixAvail n f).rg a = s.rg a := by
  have hadm : ∀ (l : List Nat) (t : State), (l.foldl (fun s l => s.admitLane n f l) t).rg a = t.rg a :=
    fun l t => foldl_frame (State.rg · a) l _ t fun u c => u.rg_admitLane ha n c hf
  have hvs : a ≠ Reg.BAL_VSCALE n f := by unfold Reg.BAL_VSCALE; omega
  dsimp only [State.fixAvail]
  (repeat' split) <;>
    simp [State.flag, State.rg_raise_below _ _ _ _ (show a < 0x70040000 by omega), State.rg_fltStat ha _ _ hf, hadm,
      State.rg_wr_ne _ _ hvs]

theorem State.rg_correctFlight (s : State) (n : Nat) {f : Nat} (hf : f < 2) : (s.correctFlight n f).rg a = s.rg a := by
  have hbs : a ≠ Reg.BAL_STAT n f := by unfold Reg.BAL_STAT; omega
  simp [State.correctFlight, State.rg_view ha _ _ hf, State.keys, State.direction, State.rg_sb_ne _ _ _ hbs, State.vestAll,
    State.rg_fixAvail ha _ _ hf]

theorem State.rg_correctFlights (s : State) (n : Nat) : ((s.led n).foldl (fun s f => s.correctFlight n f) s).rg a = s.rg a :=
  foldl_frame_mem (State.rg · a) _ _ _ fun _ hf t => t.rg_correctFlight ha n (State.lt_of_mem_led hf)

end regs

/-- What tick 88 does once the samples are published: the flights correct, the observer begins (R28). -/
def State.corrected (n : Nat) (s : State) : State := ((s.led n).foldl (fun s f => s.correctFlight n f) s).latchZ n

theorem exec_correctionComplete {s : State} {n : Fin 16} (hd : s.stepDue n 88 = true) :
    exec (.correctionComplete n) s =
      .next (((((s.stepAt n 88).publishSamples n).corrected n).cycleFcs n).foldl (fun s m => s.ucStart m)
        (((s.stepAt n 88).publishSamples n).corrected n)) := if_pos hd

theorem State.tick_corrected (s : State) (n : Nat) : (s.corrected n).tick = s.tick :=
  State.tick_of_still (π := fun _ => ()) (by simp [State.corrected, State.latchZ])

theorem State.rg_corrected (s : State) (n : Nat) {a : Nat} (ha : StartReg a) : (s.corrected n).rg a = s.rg a := by
  unfold State.corrected State.latchZ
  dsimp only
  rw [State.rg_mapFc, State.rg_wr_ne _ _ (by unfold Reg.OBS_FROZEN; omega), State.rg_correctFlights ha]

/-- What the observer begins with; the rest of the FC's hidden state stays. -/
theorem State.fc_corrected (s : State) (n : Nat) : ((s.corrected n).fc n).obsRun = true ∧ ((s.corrected n).fc n).obsPc = 0 ∧
    ((s.corrected n).fc n).done = (s.fc n).done ∧ ((s.corrected n).fc n).cor = (s.fc n).cor ∧
    ((s.corrected n).fc n).lat = (s.fc n).lat := by
  have h := s.fc_correctFlights n n
  unfold State.corrected State.latchZ
  dsimp only
  generalize (s.led n).foldl (fun s f => s.correctFlight n f) s = u at h
  rw [State.fc_mapFc_self, ← h]
  exact ⟨rfl, rfl, rfl, rfl, rfl⟩

/-- The program of an FC begins at the START it has latched, and those of its followers leave it. -/
theorem State.fc_ucStarts (s : State) (n : Nat) : (((s.cycleFcs n).foldl (fun s m => s.ucStart m) s).fc n) =
    { s.fc n with ucPc := s.lf n (Reg.BAL_UC_CTRL n) F.BAL_UC_CTRL_START, ucRun := true, ucTick := 88, lists := [] } := by
  rw [State.cycleFcs, List.foldl_cons]
  refine (foldl_frame_mem (fun t : State => t.fc n) _ _ _ fun m hm t => ?_).trans (s.fc_mapFc_self n _)
  exact t.fc_mapFc_ne _ (Ne.symm (State.ne_of_mem_followers hm))

theorem State.tick_ucStarts (s : State) (ms : List Nat) : (ms.foldl (fun s m => s.ucStart m) s).tick = s.tick :=
  foldl_frame State.tick _ _ _ fun _ _ => rfl

theorem State.lf_congr {s t : State} {n a : Nat} (hr : t.rg a = s.rg a) (hl : (t.fc n).lat = (s.fc n).lat) (f : Fld) :
    t.lf n a f = s.lf n a f := by
  unfold State.lf State.lv
  rw [hr, hl]

theorem correctionComplete_publishes (s : State) (n : Fin 16) (hd : s.stepDue n 88 = true) : Answers (.correctionComplete n) s fun t =>
    t.mem = s.mem ∧ t.tick = max s.tick ((s.fc n).cycTick + 88) ∧ 88 ∈ (t.fc n).done ∧
    (t.fc n).cor = (List.range 4).map (fun c => ((tget none (s.adc n).cyc c).map Conv.val).getD 0) ∧
    (t.fc n).obsRun = true ∧ (t.fc n).obsPc = 0 ∧ (t.fc n).ucRun = true ∧
    (t.fc n).ucPc = s.lf n (Reg.BAL_UC_CTRL n) F.BAL_UC_CTRL_START := by
  have hn := n.isLt
  have hreg : StartReg (Reg.BAL_UC_CTRL n) := by unfold StartReg Reg.BAL_UC_CTRL; omega
  have hpub := State.fc_of_still ((s.stepAt n 88).still_publishSamples n) n
  have hdone := congrArg FcSt.done hpub
  have hlat := congrArg FcSt.lat hpub
  obtain ⟨hrun, hpc, hcdone, hcor, hclat⟩ := ((s.stepAt n 88).publishSamples n).fc_corrected n
  refine ⟨_, exec_correctionComplete hd, ?_⟩
  dsimp only
  rw [State.fc_ucStarts, State.tick_ucStarts]
  refine ⟨?_, ?_, ?_, ?_, hrun, hpc, rfl, ?_⟩
  · exact (State.mem_of_memTs (s := s.stepAt n 88) (by simp [State.corrected])).trans (s.mem_stepAt n 88)
  · rw [State.tick_corrected, State.tick_of_still ((s.stepAt n 88).still_publishSamples n), State.tick_stepAt]
  · exact (congrArg (88 ∈ ·) (hcdone.trans hdone)).mpr (s.done_stepAt n 88)
  · rw [hcor, State.cor_publishSamples, State.sampleOf_of_adcs (s.adcs_stepAt n 88)]
    exact List.map_congr_left fun c _ => s.sampleOf_eq n c
  · refine State.lf_congr ?_ (hclat.trans (hlat.trans (s.lat_stepAt n 88))) _
    rw [State.rg_corrected _ _ hreg, State.rg_publishSamples (by omega) (by omega), State.rg_congr (s.regs_stepAt n 88)]

/-! ### Shaper targets -/

theorem shtgtWrite_by_owner (s : State) (n : Fin 16) (ch : Fin 8) (who : Fin 21) (v : Word) (f : Nat) (h : s.shOwner n ch = some f) :
    let ok := who.val = 20 ∨ (16 ≤ who.val ∧ s.fld (Reg.FC_FLT_CFG n f) F.FC_FLT_CFG_REF_SRC = who.val - 15 ∧ s.fltState n f ≠ 4)
    Answers (.shtgtWrite n ch who v) s fun t =>
      t = { s with regs := t.regs } ∧
      (ok → t.rg (Reg.OBS_SHTGT n ch) = v ∧ SameRegs [Reg.OBS_SHTGT n ch] s t) ∧
      (¬ok → t.bit (Reg.FC_FLT_STAT n f) F.FC_FLT_STAT_REF_IGN = true ∧ SameRegs [Reg.FC_FLT_STAT n f] s t) := by
  intro ok
  have hok : ok ↔ who.val = 20 ∨ (decide (who.val ≥ 16) && (who.val - 15 == s.fld (Reg.FC_FLT_CFG n f) F.FC_FLT_CFG_REF_SRC) &&
      s.fltState n f != 4) = true := by
    simp only [ok, Bool.and_eq_true, decide_eq_true_eq, beq_iff_eq, bne_iff_ne, and_assoc, ge_iff_le]
    rw [eq_comm (a := s.fld _ _)]
  have hw : s.shtgtWrite n ch who v =
      if ok then s.wr (Reg.OBS_SHTGT n ch) v else s.flag (Reg.FC_FLT_STAT n f) F.FC_FLT_STAT_REF_IGN := by
    unfold State.shtgtWrite
    rw [h]
    dsimp only
    by_cases h20 : who.val = 20
    · rw [if_pos h20, if_pos (hok.2 (.inl h20))]
    · rw [if_neg h20]
      exact if_congr (by rw [hok, or_iff_right h20]) rfl rfl
  refine ⟨_, rfl, ?_⟩
  rw [hw]
  by_cases h : ok
  · rw [if_pos h]
    exact ⟨rfl, fun _ => ⟨State.rg_wr_self _ _ _, fun a ha => State.rg_wr_ne _ _ (by simpa using ha)⟩, fun hn => absurd h hn⟩
  · rw [if_neg h]
    exact ⟨rfl, fun hk => absurd hk h,
      fun _ => ⟨State.bit_sf_self _ _ _ 1 (by decide), fun a ha => State.rg_flag_ne _ _ (by simpa using ha)⟩⟩

end Sys2Proof.Machine

open Sys2Proof.Machine

/-- Settles O16, clause by clause. -/
theorem cyclesBeginEndAndTakeTheirSamples : Obligations.CyclesBeginEndAndTakeTheirSamples :=
  ⟨sampleInstant_begins_cycle, sampleInstant_takes_held_target, cycleEnd_ends_cycling, listenDeadline_judges_barges,
    correctionComplete_publishes, shtgtWrite_by_owner⟩

end
section
/-! What the operations of a Lock link leave of the lanes, of LNK_STAT and of the registers of the cycle (O6, O7). -/

namespace Sys2Proof.Machine

/-! ### Lanes -/

theorem State.lane_of_lanes {s t : State} (h : t.lanes = s.lanes) (l : Nat) : t.lane l = s.lane l := by
  unfold State.lane
  rw [h]

@[simp] theorem State.lane_wr (s : State) (a : Nat) (v : Word) (l : Nat) : (s.wr a v).lane l = s.lane l := rfl
@[simp] theorem State.lane_sf (s : State) (a : Nat) (f : Fld) (x l : Nat) : (s.sf a f x).lane l = s.lane l := rfl
@[simp] theorem State.lane_flag (s : State) (a : Nat) (f : Fld) (l : Nat) : (s.flag a f).lane l = s.lane l := rfl
@[simp] theorem State.lane_atTick (s : State) (t l : Nat) : (s.atTick t).lane l = s.lane l := State.lane_of_lanes (by simp) l

@[simp] theorem State.lane_raise (s : State) (src code pay l : Nat) : (s.raise src code pay).lane l = s.lane l :=
  State.lane_of_lanes (by simp) l

@[simp] theorem State.lanes_ite (c : Prop) [Decidable c] (s t : State) :
    (if c then s else t).lanes = if c then s.lanes else t.lanes := apply_ite _ _ _ _

@[simp] theorem State.lanes_setCause (s : State) (n c : Nat) (on : Bool) : (s.setCause n c on).lanes = s.lanes := by
  unfold State.setCause State.setInternal
  dsimp only
  split
  · rfl
  · obtain ⟨r, h, y, l, c, p, t, o, e⟩ := State.setSource_frame (s.wr (Reg.SLU_FCSRC n) (BitVec.ofNat 32
      (setBit (s.rn (Reg.SLU_FCSRC n)) c on))) (144 + n) (setBit (s.rn (Reg.SLU_FCSRC n)) c on != 0)
      (setBit (s.rn (Reg.SLU_FCSRC n)) c on != 0)
    rw [e, State.lanes_wr]

@[simp] theorem State.lanes_lossOfLink (s : State) (l : Nat) : (s.lossOfLink l).lanes = s.lanes := by
  unfold State.lossOfLink
  split
  · simp [State.lossEval]
  · rfl

/-- A lane that takes a state stays as it is, but that it keeps its admission in READY and DEGRADED alone (R74). -/
@[simp] theorem State.lane_setLane_self (s : State) (l st : Nat) :
    (s.setLane l st).lane l = { s.lane l with adm := (st == 5 || st == 6) && (s.lane l).adm } := by
  unfold State.setLane State.mapBit
  rw [State.lane_of_lanes (State.lanes_lossOfLink _ l)]
  cases st == 5 || st == 6 <;> simp

theorem State.lane_setLane_ne (s : State) {l k : Nat} (st : Nat) (h : k ≠ l) : (s.setLane l st).lane k = s.lane k := by
  unfold State.setLane State.mapBit
  rw [State.lane_of_lanes (State.lanes_lossOfLink _ l)]
  cases st == 5 || st == 6 <;> simp [State.lane_mapLane_ne _ _ h]

theorem State.lane_trainStart_self (s : State) (l : Nat) : (s.trainStart l).lane l =
    { s.lane l with tcyc := 0, good := 0, recd := [], probes := [], probeOut := false, pendEn := false, pendRetrain := false,
                    rej := false, stat := 0, upStart := s.fld (Reg.LNK_CFG (l / 64) (l % 64)) F.LNK_CFG_UP_START, adm := false } := by
  simp [State.trainStart]

theorem State.lane_trainStart_ne (s : State) {l k : Nat} (h : k ≠ l) : (s.trainStart l).lane k = s.lane k :=
  (State.lane_setLane_ne _ 1 h).trans (s.lane_mapLane_ne _ h)

@[simp] theorem State.lane_clrCnt_self (s : State) (l : Nat) : (s.clrCnt l).lane l = { s.lane l with pendClr := false } := by
  simp [State.clrCnt]

theorem State.lane_clrCnt_ne (s : State) {l k : Nat} (h : k ≠ l) : (s.clrCnt l).lane k = s.lane k :=
  State.lane_mapLane_ne _ _ h

/-! ### LNK_STAT -/

/-- Of its own LNK_STAT a lane that takes a state writes STATE alone. -/
theorem State.rg_setLane_self (s : State) {l : Nat} (hl : l < 1024) (st : Nat) :
    (s.setLane l st).rg (lnkStat l) = (s.sf (lnkStat l) F.LNK_STAT_STATE st).rg (lnkStat l) := by
  have hlow : lnkStat l < 0x70000000 ∧ lnkStat l % 0x100000 < 0x2000 := by unfold lnkStat Reg.LNK_STAT; omega
  unfold State.setLane
  dsimp only
  rw [State.rg_lossOfLink _ _ hlow.1 (by omega), State.rg_ite, State.rg_mapLane, ite_self]
  unfold State.mapBit
  dsimp only
  rw [State.rg_wr_ne _ _ (by unfold Reg.LNK_LOST_LO; omega), State.rg_wr_ne _ _ (by unfold Reg.LNK_READY_LO; omega)]

theorem State.fld_setLane_self (s : State) {l : Nat} (hl : l < 1024) (st : Nat) {f : Fld} (hf : 4 ≤ f.lo) :
    (s.setLane l st).fld (lnkStat l) f = s.fld (lnkStat l) f :=
  (State.fld_of_rg (s.rg_setLane_self hl st) f).trans (s.fld_sf_disjoint _ _ _ _ (.inl hf))

theorem State.rg_raise_lnkStat (s : State) {l : Nat} (hl : l < 1024) (src code pay : Nat) :
    (s.raise src code pay).rg (lnkStat l) = s.rg (lnkStat l) :=
  s.rg_raise_below src code pay (by unfold lnkStat Reg.LNK_STAT; omega)

/-- The blocks of two links are apart. -/
theorem lnkStat_ne {l k : Nat} (h : k ≠ l) : lnkStat k ≠ lnkStat l := by
  unfold lnkStat Reg.LNK_STAT
  omega

theorem State.laneState_setLane_ne (s : State) {l k : Nat} (hk : k < 1024) (st : Nat) (h : k ≠ l) :
    (s.setLane l st).laneState k = s.laneState k :=
  State.laneState_of_rg (s.rg_setLane st (by unfold lnkStat Reg.LNK_STAT; omega) (by unfold lnkStat Reg.LNK_STAT; omega)
    (lnkStat_ne h))

theorem State.laneState_trainStart_self (s : State) {l : Nat} (hl : l < 1024) : (s.trainStart l).laneState l = 1 :=
  State.laneState_setLane_self _ hl (by decide)

theorem State.laneState_trainStart_ne (s : State) {l k : Nat} (hk : k < 1024) (h : k ≠ l) :
    (s.trainStart l).laneState k = s.laneState k :=
  State.laneState_setLane_ne _ hk 1 h

theorem State.rg_clrCnt_ne (s : State) {l a : Nat} (he : a ≠ Reg.LNK_ERR (l / 64) (l % 64)) (hm : a ≠ Reg.LNK_MISS (l / 64) (l % 64)) :
    (s.clrCnt l).rg a = s.rg a := by
  simp [State.clrCnt, State.rg_sf_ne _ _ _ hm, State.rg_wr_ne _ _ he]

/-! ### Registers of the cycle -/

/-- The registers of the control cycle, below offset 0x1000 of an FC window, are the same. -/
def SameCycleRegs (s t : State) : Prop := ∀ a, a % 0x100000 < 0x1000 → t.rg a = s.rg a

theorem State.sameCycleRegs_wr (s : State) {a : Nat} (h : 0x1000 ≤ a % 0x100000) (v : Word) : SameCycleRegs s (s.wr a v) :=
  fun b hb => s.rg_wr_ne v fun e => by rw [e] at hb; omega

section
variable {s t : State} (h : SameCycleRegs s t)
include h

theorem SameCycleRegs.leader (n : Nat) : t.leader n = s.leader n := by
  have hr := h (Reg.FC_CYC_STAT n) (by unfold Reg.FC_CYC_STAT; omega)
  unfold State.leader
  rw [State.bit_of_rg hr, State.fld_of_rg hr]

theorem SameCycleRegs.runOn (n : Nat) : t.runOn n = s.runOn n := by
  unfold State.runOn
  rw [h.leader, State.bit_of_rg (h _ (by unfold Reg.FC_CYC_CTRL; omega))]

theorem SameCycleRegs.count (n : Nat) : t.count n = s.count n := by
  unfold State.count
  rw [h.leader, h _ (by unfold Reg.FC_CYC_COUNT; omega)]

end

end Sys2Proof.Machine
end
section
/-! Training (O6): probes, the check, the limits of the steps, and up barges at the pins. -/

namespace Sys2Proof.Machine

/-! ### Probes -/

theorem probeSend_in_free_slot (s : State) (l : Fin 1024) (hst : s.laneState l = 2) (hc : s.cycling (l / 64) = true)
    (hb : s.slot72Blocked l = false) : Answers (.probeSend l) s fun t =>
      t = { s with tick := t.tick, ts := t.ts, lanes := t.lanes } ∧
      t.tick = max s.tick ((s.fc (s.leader (l / 64))).cycTick + 1440) ∧
      t.lane l = { s.lane l with probeOut := true, slot72 := 2 } ∧ ∀ j, j ≠ l.val → t.lane j = s.lane j := by
  generalize hu : s.atTick ((s.fc (s.leader (l / 64))).cycTick + 1440) = u
  have hlane : ∀ j, u.lane j = s.lane j := fun j => by rw [← hu, State.lane_atTick]
  have hub : u.slot72Blocked l = false := by
    unfold State.slot72Blocked at hb ⊢
    rwa [hlane]
  have he : exec (.probeSend l) s = .next (u.mapLane l fun x => { x with probeOut := true, slot72 := 2 }) :=
    (if_pos (by simp [hst, hc])).trans (by rw [hu]; exact if_neg (by simp [hub]))
  have hfr : u = { s with tick := u.tick, ts := u.ts } := by
    rw [← hu]
    unfold State.atTick
    split <;> rfl
  refine ⟨_, he, ?_, by rw [← s.tick_atTick, hu]; rfl, by rw [State.lane_mapLane_self, hlane], fun j hj => by
    rw [State.lane_mapLane_ne _ _ hj, hlane]⟩
  exact congrArg (fun v : State => { v with lanes := (u.mapLane l fun x => { x with probeOut := true, slot72 := 2 }).lanes }) hfr

/-- A PROBE that comes back at a lane that is not OFF: the receiver's running disparity follows its group (R38). -/
def State.probed (l : Nat) (s : State) : State := s.mapLane l fun x => { x with rxRd := rdGroup x.rxRd (encodeSym x.rxRd .probe) }

/-- The delays that a round trip of `r` ticks gives, with the spread of its set (R50). -/
def State.putDelays (l : Nat) (r : Int) (spread : Nat) (s : State) : State :=
  let dd := rhe (r - s.decl16 l 8) 2
  (s.wr (Reg.LNK_RTT (l / 64) (l % 64)) (BitVec.ofNat 32 (enc 16 r + 65536 * spread))).wr (Reg.LNK_DELAY (l / 64) (l % 64))
    (BitVec.ofNat 32 (enc 16 dd + 65536 * enc 16 (r - s.decl16 l 8 - dd)))

theorem exec_probeReply_of_expected {s : State} {l : Fin 1024} (rtt : Nat) (hst : s.laneState l = 2)
    (ho : (s.lane l).probeOut = true) : exec (.probeReply l rtt) s =
      let u := s.probed l
      let ps := (s.lane l).probes ++ [rtt]
      let spread := ps.foldl max 0 - ps.foldl min (ps.headD 0)
      if ps.length < 4 then .next (u.mapLane l fun x => { x with probes := ps, probeOut := false })
      else if 2 < spread then .next (u.mapLane l fun x => { x with probes := [], probeOut := false })
      else .next (((u.putDelays l (rhe (ps.foldl (· + ·) 0) 4) spread).mapLane l fun x =>
        { x with probes := [], probeOut := false, tcyc := 0, good := 0 }).setLane l 3) := by
  show execProbeReply l rtt s = _
  unfold execProbeReply
  dsimp only
  rw [if_neg (by omega : ¬ s.laneState l = 0)]
  exact if_pos (Bool.and_eq_true_iff.2 ⟨decide_eq_true hst, ho⟩)

theorem probeReply_joins_set (s : State) (l : Fin 1024) (rtt : Nat) (hst : s.laneState l = 2) (ho : (s.lane l).probeOut = true)
    (hn : (s.lane l).probes.length < 3) : Answers (.probeReply l rtt) s fun t =>
      t = { s with lanes := t.lanes } ∧
        t.lane l = { s.lane l with probes := (s.lane l).probes ++ [rtt], probeOut := false,
                                   rxRd := rdGroup (s.lane l).rxRd (encodeSym (s.lane l).rxRd .probe) } ∧
      ∀ j, j ≠ l.val → t.lane j = s.lane j := by
  have hlen : ((s.lane l).probes ++ [rtt]).length < 4 := by
    rw [List.length_append, List.length_singleton]
    omega
  refine ⟨_, (exec_probeReply_of_expected rtt hst ho).trans (if_pos hlen), rfl, ?_, fun j hj => ?_⟩
  · rw [State.lane_mapLane_self, State.probed, State.lane_mapLane_self]
  · rw [State.lane_mapLane_ne _ _ hj, State.probed, State.lane_mapLane_ne _ _ hj]

theorem probeReply_ends_set (s : State) (l : Fin 1024) (a b c rtt : Nat) (hst : s.laneState l = 2)
    (ho : (s.lane l).probeOut = true) (hp : (s.lane l).probes = [a, b, c]) :
    let spread := max (max a b) (max c rtt) - min (min a b) (min c rtt)
    Answers (.probeReply l rtt) s fun t =>
      t.mem = s.mem ∧ (t.lane l).probes = [] ∧ (t.lane l).probeOut = false ∧
      (spread ≤ 2 → t.laneState l = 3 ∧
        t.rg (Reg.LNK_RTT (l / 64) (l % 64)) = BitVec.ofNat 32 (enc 16 (rhe ((a + b + c + rtt : Nat) : Int) 4) + 65536 * spread)) ∧
      (2 < spread → t.laneState l = 2) := by
  intro spread
  have hs : [a, b, c, rtt].foldl max 0 - [a, b, c, rtt].foldl min ([a, b, c, rtt].headD 0) = spread := by
    simp only [List.foldl_cons, List.foldl_nil, List.headD_cons, spread]
    omega
  have hsum : ([a, b, c, rtt].foldl (· + ·) 0 : Int) = ((a + b + c + rtt : Nat) : Int) := by
    simp
  have he := exec_probeReply_of_expected rtt hst ho
  rw [hp] at he
  replace he := he.trans (if_neg (by simp))
  rw [List.cons_append, List.cons_append, List.cons_append, List.nil_append, hs] at he
  by_cases h2 : 2 < spread
  · exact ⟨_, he.trans (if_pos h2), rfl, by simp, by simp, fun h => absurd h2 (by omega), fun _ => hst⟩
  · refine ⟨_, he.trans (if_neg h2), State.mem_of_memTs (by simp [State.putDelays, State.probed]), by simp, by simp,
      fun _ => ⟨State.laneState_setLane_self _ l.isLt (by decide), ?_⟩, fun h => absurd h h2⟩
    rw [State.rg_setLane _ _ (by unfold Reg.LNK_RTT; omega) (by unfold Reg.LNK_RTT; omega)
        (by unfold lnkStat Reg.LNK_STAT Reg.LNK_RTT; omega), State.rg_mapLane, State.putDelays,
      State.rg_wr_ne _ _ (by unfold Reg.LNK_RTT Reg.LNK_DELAY; omega), State.rg_wr_self, hsum]

/-! ### The check -/

/-- A lane whose record agrees with its descriptor takes up READY (R51, R437). -/
def State.checkPassed (l : Nat) (s : State) : State :=
  let u := s.sf (Reg.LNK_MISS (l / 64) (l % 64)) F.LNK_MISS_CONSEC 0
  let u := u.mapLane l fun x => { x with judgeFrom := u.count (l / 64) + 2, repTs := false, repBlk := false, rej := false }
  (u.setLane l 5).raise l 0x01 (u.lanePay l (u.lane l).stat)

/-- A lane whose record differs from its descriptor goes to MISMATCH (R51). -/
def State.checkFailed (l : Nat) (s : State) : State :=
  let u := s.flag (lnkStat l) F.LNK_STAT_MISMATCH
  (u.setLane l 4).raise l 0x04 (u.lanePay l (u.lane l).stat)

theorem exec_check_of_aligned {s : State} {l : Fin 1024} (hst : s.laneState l = 3) (hg : 4 ≤ (s.lane l).good) :
    exec (.check l) s =
      let u := s.sf (lnkStat l) F.LNK_STAT_MISM_MASK (s.mismatches l)
      if s.mismatches l = 0 then .next (u.checkPassed l) else .next (u.checkFailed l) :=
  if_pos (Bool.and_eq_true_iff.2 ⟨decide_eq_true hst, decide_eq_true hg⟩)

/-- The mask has its eight bits. -/
theorem State.mismatches_lt (s : State) (l : Nat) : s.mismatches l < 256 := by
  have hb : ∀ b, b2n b ≤ 1 := by decide
  unfold State.mismatches
  linarith [hb (s.decl8 l 1 != s.cellType l), hb (s.decl8 l 2 != s.edgeRes l), hb (s.decl16 l 4 != s.minPulse l),
    hb (s.decl16 l 16 != nbits (s.cdesc l 2) 0 16), hb (s.decl16 l 18 != nbits (s.cdesc l 2) 16 16),
    hb (s.cdesc l 3 != 0 && s.rn (Reg.LNK_DECL (l / 64) (l % 64) 5) != s.cdesc l 3),
    hb (decide (nbits (s.cdesc l 1) 16 16 < s.decl16 l 6)), hb (s.decl8 l 0 != 1)]

theorem State.fld_sf_mismMask (s : State) (l : Nat) :
    (s.sf (lnkStat l) F.LNK_STAT_MISM_MASK (s.mismatches l)).fld (lnkStat l) F.LNK_STAT_MISM_MASK = s.mismatches l :=
  (s.fld_sf_self _ _ _ (by decide)).trans (Nat.mod_eq_of_lt (s.mismatches_lt l))

theorem State.memTs_checkPassed (s : State) (l : Nat) : (s.checkPassed l).memTs = s.memTs := by simp [State.checkPassed]
theorem State.memTs_checkFailed (s : State) (l : Nat) : (s.checkFailed l).memTs = s.memTs := by simp [State.checkFailed]

/-- The state of a lane after its move and the event that reports it. -/
theorem State.laneState_raise_setLane (s : State) {l st : Nat} (hl : l < 1024) (hst : st < 16) (src code pay : Nat) :
    ((s.setLane l st).raise src code pay).laneState l = st :=
  (State.laneState_of_rg (State.rg_raise_lnkStat _ hl _ _ _)).trans (s.laneState_setLane_self hl hst)

theorem State.fld_raise_setLane (s : State) {l : Nat} (hl : l < 1024) (st src code pay : Nat) {f : Fld} (hf : 4 ≤ f.lo) :
    ((s.setLane l st).raise src code pay).fld (lnkStat l) f = s.fld (lnkStat l) f :=
  (State.fld_of_rg (State.rg_raise_lnkStat _ hl _ _ _) f).trans (s.fld_setLane_self hl st hf)

theorem State.fld_checkPassed (s : State) {l : Nat} (hl : l < 1024) :
    (s.checkPassed l).fld (lnkStat l) F.LNK_STAT_MISM_MASK = s.fld (lnkStat l) F.LNK_STAT_MISM_MASK :=
  (State.fld_raise_setLane _ hl _ _ _ _ (by decide)).trans
    (State.fld_sf_ne _ _ _ _ (by unfold lnkStat Reg.LNK_STAT Reg.LNK_MISS; omega))

theorem State.judgeFrom_checkPassed (s : State) (l : Nat) : ((s.checkPassed l).lane l).judgeFrom = s.count (l / 64) + 2 := by
  have hc : (s.sf (Reg.LNK_MISS (l / 64) (l % 64)) F.LNK_MISS_CONSEC 0).count (l / 64) = s.count (l / 64) :=
    SameCycleRegs.count (s.sameCycleRegs_wr (by unfold Reg.LNK_MISS; omega) _) _
  simp [State.checkPassed, hc]

theorem State.fld_checkFailed (s : State) {l : Nat} (hl : l < 1024) :
    (s.checkFailed l).fld (lnkStat l) F.LNK_STAT_MISM_MASK = s.fld (lnkStat l) F.LNK_STAT_MISM_MASK :=
  (State.fld_raise_setLane _ hl _ _ _ _ (by decide)).trans (State.fld_sf_disjoint _ _ _ _ _ (by decide))

theorem State.bit_checkFailed (s : State) {l : Nat} (hl : l < 1024) :
    (s.checkFailed l).bit (lnkStat l) F.LNK_STAT_MISMATCH = true := by
  unfold State.bit State.checkFailed
  rw [State.fld_raise_setLane _ hl _ _ _ _ (by decide), State.flag, State.fld_sf_self _ _ _ _ (by decide)]
  rfl

theorem check_decides (s : State) (l : Fin 1024) (hst : s.laneState l = 3) (hg : 4 ≤ (s.lane l).good) :
    Answers (.check l) s fun t =>
      t.mem = s.mem ∧ t.fld (lnkStat l) F.LNK_STAT_MISM_MASK = s.mismatches l ∧
      (s.mismatches l = 0 → t.laneState l = 5 ∧ (t.lane l).judgeFrom = s.count (l / 64) + 2) ∧
      (s.mismatches l ≠ 0 → t.laneState l = 4 ∧ t.bit (lnkStat l) F.LNK_STAT_MISMATCH = true) := by
  have he := exec_check_of_aligned hst hg
  have hm := s.fld_sf_mismMask l
  have hc : (s.sf (lnkStat l) F.LNK_STAT_MISM_MASK (s.mismatches l)).count (l / 64) = s.count (l / 64) :=
    SameCycleRegs.count (s.sameCycleRegs_wr (by unfold lnkStat Reg.LNK_STAT; omega) _) _
  by_cases h0 : s.mismatches l = 0
  · exact ⟨_, he.trans (if_pos h0), State.mem_of_memTs (State.memTs_checkPassed _ l), (State.fld_checkPassed _ l.isLt).trans hm,
      fun _ => ⟨State.laneState_raise_setLane _ l.isLt (by decide) _ _ _, (State.judgeFrom_checkPassed _ l).trans (by rw [hc])⟩,
      fun h => absurd h0 h⟩
  · exact ⟨_, he.trans (if_neg h0), State.mem_of_memTs (State.memTs_checkFailed _ l), (State.fld_checkFailed _ l.isLt).trans hm,
      fun h => absurd h h0, fun _ => ⟨State.laneState_raise_setLane _ l.isLt (by decide) _ _ _, State.bit_checkFailed _ l.isLt⟩⟩

/-! ### The limits of the steps -/

/-- A lane whose training fails shows the step (R48). -/
theorem State.trainFail_fails (s : State) {l step : Nat} (hl : l < 1024) (hs : step < 4) :
    (s.trainFail l step).laneState l = 8 ∧ (s.trainFail l step).fld (lnkStat l) F.LNK_STAT_FAIL_STEP = step := by
  refine ⟨State.laneState_raise_setLane _ hl (by decide) _ _ _, (State.fld_raise_setLane _ hl _ _ _ _ (by decide)).trans ?_⟩
  rw [State.flag, State.fld_sf_disjoint _ _ _ _ _ (by decide), State.fld_sf_self _ _ _ _ (by decide)]
  exact Nat.mod_eq_of_lt hs

theorem trainLimit_fails_step (s : State) (l : Fin 1024) : Answers (.trainLimit l) s fun t =>
    t.mem = s.mem ∧
    (s.laneState l = 1 → 256 ≤ (s.lane l).tcyc → t.laneState l = 8 ∧ t.fld (lnkStat l) F.LNK_STAT_FAIL_STEP = 0) ∧
    (s.laneState l = 2 → 64 ≤ (s.lane l).tcyc → t.laneState l = 8 ∧ t.fld (lnkStat l) F.LNK_STAT_FAIL_STEP = 1) ∧
    (s.laneState l = 3 → 64 ≤ (s.lane l).tcyc → (s.lane l).good < 4 →
      t.laneState l = 8 ∧ t.fld (lnkStat l) F.LNK_STAT_FAIL_STEP = 2) := by
  have hmem : ∀ (c : Prop) [Decidable c] (step : Nat), (if c then s.trainFail l step else s).mem = s.mem := fun c _ step =>
    State.mem_of_memTs (by simp)
  unfold Answers
  simp only [exec, execTrainLimit]
  split
  · next hst =>
    refine ⟨_, rfl, by rw [hmem], fun _ ht => ?_, by omega, by omega⟩
    rw [if_pos ht]
    exact s.trainFail_fails l.isLt (by decide)
  · next hst =>
    refine ⟨_, rfl, by rw [hmem], by omega, fun _ ht => ?_, by omega⟩
    rw [if_pos ht]
    exact s.trainFail_fails l.isLt (by decide)
  · next hst =>
    refine ⟨_, rfl, by rw [hmem], by omega, by omega, fun _ ht hg => ?_⟩
    rw [if_pos (by simp [ht, hg])]
    exact s.trainFail_fails l.isLt (by decide)
  · next h1 h2 h3 => exact ⟨_, rfl, rfl, fun h => absurd h h1, fun h => absurd h h2, fun h => absurd h h3⟩

/-! ### Up barges at the pins -/

/-- What the receiver of a lane takes from the code groups at its pins: bytes, violations, running disparity (R36, R44). -/
def State.received (s : State) (l : Nat) (groups : List (BitVec 10)) : List Byte × Nat × Bool :=
  takeGroups true (s.lane l).rxRd (groups.map fun g =>
    if s.bit (Reg.LNK_CFG (l / 64) (l % 64)) F.LNK_CFG_RX_INV then 1023 - g.toNat else g.toNat)

/-- A barge waits at its lane for the judgement, and the receiver keeps its running disparity. -/
def State.takeBarge (l : Nat) (r : List Byte × Nat × Bool) (s : State) : State :=
  s.mapLane l fun x => { x with rx := some { bytes := r.1, viol := r.2.1 }, rxRd := r.2.2 }

/-- The code violations and the CRC error of a barge are counted (R45). -/
def State.countErrs (l : Nat) (r : List Byte × Nat × Bool) (s : State) : State :=
  let a := Reg.LNK_ERR (l / 64) (l % 64)
  let u := s.sf a F.LNK_ERR_UP_CODE (min 65535 (s.fld a F.LNK_ERR_UP_CODE + r.2.1))
  if crc16 0xFFFF ((r.1.drop 1).take 61) == leAt r.1 62 2 then u else u.incSat a F.LNK_ERR_UP_CRC

theorem exec_upBarge_of_on {s : State} {l : Fin 1024} (sof : BitVec 10) (groups : List (BitVec 10)) (hst : s.laneState l ≠ 0) :
    exec (.upBarge l sof groups) s = .next ((if s.laneUp l && !s.judged l (s.upCycle (l / 64)) then s
      else s.countErrs l (s.received l (sof :: groups))).takeBarge l (s.received l (sof :: groups))) :=
  if_neg hst

/-- A count that writes LNK_ERR alone, and the barge that then waits: the frame of both. -/
theorem State.takeBarge_frame {s u : State} {l : Nat} (r : List Byte × Nat × Bool) (hu : u = { s with regs := u.regs })
    (hr : SameRegs [Reg.LNK_ERR (l / 64) (l % 64)] s u) :
    u.takeBarge l r = { s with regs := (u.takeBarge l r).regs, lanes := (u.takeBarge l r).lanes } ∧
    SameRegs [Reg.LNK_ERR (l / 64) (l % 64)] s (u.takeBarge l r) ∧
    (u.takeBarge l r).lane l = { s.lane l with rx := some { bytes := r.1, viol := r.2.1 }, rxRd := r.2.2 } ∧
    ∀ j, j ≠ l → (u.takeBarge l r).lane j = s.lane j := by
  have hlane : ∀ j, u.lane j = s.lane j := State.lane_of_lanes (by rw [hu])
  refine ⟨congrArg (fun v : State => { v with lanes := (u.takeBarge l r).lanes }) hu, hr, ?_, fun j hj => ?_⟩
  · exact (u.lane_mapLane_self l _).trans (by rw [hlane])
  · exact (u.lane_mapLane_ne _ hj).trans (hlane j)

theorem State.countErrs_frame (s : State) (l : Nat) (r : List Byte × Nat × Bool) :
    s.countErrs l r = { s with regs := (s.countErrs l r).regs } ∧
      SameRegs [Reg.LNK_ERR (l / 64) (l % 64)] s (s.countErrs l r) := by
  unfold State.countErrs
  dsimp only
  refine ⟨by split <;> rfl, fun a ha => ?_⟩
  replace ha : a ≠ Reg.LNK_ERR (l / 64) (l % 64) := by simpa using ha
  rw [State.rg_ite, State.rg_incSat_ne _ _ ha, State.rg_sf_ne _ _ _ ha, ite_self]

theorem State.fld_countErrs (s : State) (l : Nat) (r : List Byte × Nat × Bool) :
    let a := Reg.LNK_ERR (l / 64) (l % 64)
    (s.countErrs l r).fld a F.LNK_ERR_UP_CODE = min 65535 (s.fld a F.LNK_ERR_UP_CODE + r.2.1) ∧
    (s.countErrs l r).fld a F.LNK_ERR_UP_CRC =
      if crc16 0xFFFF ((r.1.drop 1).take 61) = leAt r.1 62 2 then s.fld a F.LNK_ERR_UP_CRC
      else min 65535 (s.fld a F.LNK_ERR_UP_CRC + 1) := by
  intro a
  have hcode : (s.sf a F.LNK_ERR_UP_CODE (min 65535 (s.fld a F.LNK_ERR_UP_CODE + r.2.1))).fld a F.LNK_ERR_UP_CODE =
      min 65535 (s.fld a F.LNK_ERR_UP_CODE + r.2.1) :=
    (State.fld_sf_self _ _ _ _ (by decide)).trans (Nat.mod_eq_of_lt (Nat.lt_of_le_of_lt (min_le_left _ _) (by decide)))
  have hcrc : (s.sf a F.LNK_ERR_UP_CODE (min 65535 (s.fld a F.LNK_ERR_UP_CODE + r.2.1))).fld a F.LNK_ERR_UP_CRC =
      s.fld a F.LNK_ERR_UP_CRC := State.fld_sf_disjoint _ _ _ _ _ (by decide)
  unfold State.countErrs
  simp only [beq_iff_eq]
  split
  · exact ⟨hcode, hcrc⟩
  · refine ⟨(State.fld_sf_disjoint _ _ _ _ _ (by decide)).trans hcode, (State.fld_sf_self _ _ _ _ (by decide)).trans ?_⟩
    rw [hcrc]
    exact satInc_sixteen (State.fld_lt _ _ _)

theorem upBarge_waits_for_judgement (s : State) (l : Fin 1024) (sof : BitVec 10) (groups : List (BitVec 10))
    (hst : s.laneState l ≠ 0) : Answers (.upBarge l sof groups) s fun t =>
      let a := Reg.LNK_ERR (l / 64) (l % 64)
      let r := s.received l (sof :: groups)
      t = { s with regs := t.regs, lanes := t.lanes } ∧ SameRegs [a] s t ∧
      t.lane l = { s.lane l with rx := some { bytes := r.1, viol := r.2.1 }, rxRd := r.2.2 } ∧
      (∀ j, j ≠ l.val → t.lane j = s.lane j) ∧
      (s.laneUp l = true → s.judged l (s.upCycle (l / 64)) = false → t.rg a = s.rg a) ∧
      (s.laneUp l = false ∨ s.judged l (s.upCycle (l / 64)) = true →
        t.fld a F.LNK_ERR_UP_CODE = min 65535 (s.fld a F.LNK_ERR_UP_CODE + r.2.1) ∧
        t.fld a F.LNK_ERR_UP_CRC =
          if crc16 0xFFFF ((r.1.drop 1).take 61) = leAt r.1 62 2 then s.fld a F.LNK_ERR_UP_CRC
          else min 65535 (s.fld a F.LNK_ERR_UP_CRC + 1)) := by
  refine ⟨_, exec_upBarge_of_on sof groups hst, ?_⟩
  generalize s.received l (sof :: groups) = r
  dsimp only
  by_cases hj : s.laneUp l = true ∧ s.judged l (s.upCycle (l / 64)) = false
  · rw [if_pos (by simp [hj])]
    obtain ⟨hfr, hsame, hself, hne⟩ := State.takeBarge_frame (s := s) (l := l) r rfl fun _ _ => rfl
    exact ⟨hfr, hsame, hself, hne, fun _ _ => rfl, fun h => by simp [hj] at h⟩
  · rw [if_neg (by simpa using hj)]
    obtain ⟨hc, hcr⟩ := s.countErrs_frame l r
    obtain ⟨hfr, hsame, hself, hne⟩ := State.takeBarge_frame r hc hcr
    exact ⟨hfr, hsame, hself, hne, fun hup hnj => absurd ⟨hup, hnj⟩ hj, fun _ => s.fld_countErrs l r⟩

end Sys2Proof.Machine

open Sys2Proof.Machine

/-- Settles O6, clause by clause. -/
theorem laneTrainingCommandsRun : Obligations.LaneTrainingCommandsRun :=
  ⟨probeSend_in_free_slot, probeReply_joins_set, probeReply_ends_set, check_decides, trainLimit_fails_step,
    upBarge_waits_for_judgement⟩

end
section
/-! Link controls (O7): ENABLE, RETRAIN and CLR_CNT, and the safe point at which an engine takes them (R298). -/

namespace Sys2Proof.Machine

/-! ### The engine that a written item wakes -/

theorem State.stalled_of_rg {s t : State} {n : Nat} (h : t.rg (Reg.MCS_ENGSTAT n) = s.rg (Reg.MCS_ENGSTAT n)) (e : Nat) :
    t.stalled n e = s.stalled n e := by
  rw [State.stalled, State.fld_of_rg h, State.stalled]

/-- The engine after the four events that an item written for one of its lanes stands for. -/
def State.woken (n e : Nat) (s : State) : State := forN 4 (fun ev s => s.wakeEng n e ev) s

theorem State.woken_frame (s : State) (n e : Nat) : s.woken n e = { s with fcs := (s.woken n e).fcs } :=
  forN_induct (fun t : State => t = { s with fcs := t.fcs }) 4 _ s rfl fun ev _ t ht =>
    congrArg (fun v : State => { v with fcs := (t.wakeEng n e ev).fcs }) ht

theorem State.lane_woken (s : State) (n e l : Nat) : (s.woken n e).lane l = s.lane l :=
  State.lane_of_lanes (congrArg State.lanes (s.woken_frame n e)) l

theorem State.rg_woken (s : State) (n e a : Nat) : (s.woken n e).rg a = s.rg a :=
  State.rg_congr (congrArg State.regs (s.woken_frame n e)) a

/-- An event ends an engine's WAIT and not its run since the last safe point. -/
theorem State.run_wakeEng (s : State) (n e ev : Nat) : ((s.wakeEng n e ev).eng n e).run = (s.eng n e).run := by
  unfold State.wakeEng State.mapEng State.eng
  rw [State.fc_mapFc_self, tget_tput_self]
  dsimp only
  split <;> rfl

theorem State.run_woken (s : State) (n e : Nat) : ((s.woken n e).eng n e).run = (s.eng n e).run :=
  forN_frame (fun t : State => (t.eng n e).run) 4 _ s fun ev _ t => t.run_wakeEng n e ev

theorem State.itemWritten_eq (s : State) (l : Nat) : s.itemWritten l =
    if !(s.woken (l / 64) (l % 64 / 8)).stalled (l / 64) (l % 64 / 8) &&
        ((s.woken (l / 64) (l % 64 / 8)).eng (l / 64) (l % 64 / 8)).run == 0 then
      (s.woken (l / 64) (l % 64 / 8)).takeItems l
    else s.woken (l / 64) (l % 64 / 8) := rfl

/-- An engine at a safe point takes an item at once. -/
theorem State.itemWritten_of_safe {s : State} {l : Nat} (hs : s.stalled (l / 64) (l % 64 / 8) = false)
    (hr : (s.eng (l / 64) (l % 64 / 8)).run = 0) : s.itemWritten l = (s.woken (l / 64) (l % 64 / 8)).takeItems l := by
  rw [State.itemWritten_eq, if_pos]
  rw [State.stalled_of_rg (s.rg_woken _ _ _), State.run_woken, hs, hr]
  rfl

/-- A busy engine lets it wait. -/
theorem State.itemWritten_of_busy {s : State} {l : Nat} (hr : (s.eng (l / 64) (l % 64 / 8)).run ≠ 0) :
    s.itemWritten l = s.woken (l / 64) (l % 64 / 8) := by
  rw [State.itemWritten_eq, if_neg]
  simp [State.run_woken, hr]

/-! ### Taking the items of a lane -/

/-- A lane's counters after a CLR_CNT that may be pending. -/
def State.cleared (l : Nat) (s : State) : State := if (s.lane l).pendClr then s.clrCnt l else s

theorem State.lane_cleared_self (s : State) (l : Nat) : (s.cleared l).lane l = { s.lane l with pendClr := false } := by
  unfold State.cleared
  split
  · exact s.lane_clrCnt_self l
  · next h =>
    rw [Bool.not_eq_true] at h
    rw [← h]

theorem State.lane_cleared_ne (s : State) {l k : Nat} (h : k ≠ l) : (s.cleared l).lane k = s.lane k := by
  unfold State.cleared
  split
  · exact s.lane_clrCnt_ne h
  · rfl

theorem State.rg_cleared_ne (s : State) {l a : Nat} (he : a ≠ Reg.LNK_ERR (l / 64) (l % 64))
    (hm : a ≠ Reg.LNK_MISS (l / 64) (l % 64)) : (s.cleared l).rg a = s.rg a := by
  rw [State.cleared, State.rg_ite, s.rg_clrCnt_ne he hm, ite_self]

theorem State.laneState_cleared (s : State) (l k : Nat) : (s.cleared l).laneState k = s.laneState k :=
  State.laneState_of_rg (s.rg_cleared_ne (by unfold lnkStat Reg.LNK_STAT Reg.LNK_ERR; omega)
    (by unfold lnkStat Reg.LNK_STAT Reg.LNK_MISS; omega))

theorem State.runOn_cleared (s : State) (l n : Nat) : (s.cleared l).runOn n = s.runOn n :=
  SameCycleRegs.runOn (fun a ha => s.rg_cleared_ne (by unfold Reg.LNK_ERR; omega) (by unfold Reg.LNK_MISS; omega)) n

/-- RETRAIN and ENABLE of a lane lead nowhere. -/
def State.dropItems (l : Nat) (s : State) : State := s.mapLane l fun x => { x with pendRetrain := false, pendEn := false }

/-- RETRAIN starts the training of a lane that is not OFF, and ENABLE that of a lane that is, while RUN is 1 (R298). -/
theorem State.takeItems_eq (s : State) (l : Nat) : s.takeItems l =
    if (s.lane l).pendRetrain && s.laneState l != 0 then (s.cleared l).trainStart l
    else if (s.lane l).pendEn && s.laneState l == 0 && s.runOn (l / 64) then (s.cleared l).trainStart l
    else (s.cleared l).dropItems l := by
  rw [← s.laneState_cleared l l, ← s.runOn_cleared l]
  rfl

theorem State.takeItems_of_retrain {s : State} {l : Nat} (hp : (s.lane l).pendRetrain = true) (hst : s.laneState l ≠ 0) :
    s.takeItems l = (s.cleared l).trainStart l := by
  rw [State.takeItems_eq, if_pos (by simp [hp, hst])]

theorem State.takeItems_of_enable {s : State} {l : Nat} (hp : (s.lane l).pendEn = true) (hst : s.laneState l = 0)
    (hr : s.runOn (l / 64) = true) : s.takeItems l = (s.cleared l).trainStart l := by
  rw [State.takeItems_eq, if_neg (by simp [hst]), if_pos (by simp [hp, hst, hr])]

/-- An engine that takes a lane's items starts its training or drops them; it drops no RETRAIN of a lane that is not OFF. -/
theorem State.takeItems_cases (s : State) (l : Nat) : s.takeItems l = (s.cleared l).trainStart l ∨
    s.takeItems l = (s.cleared l).dropItems l ∧ ((s.lane l).pendRetrain = true → s.laneState l = 0) := by
  rw [State.takeItems_eq]
  split
  · exact .inl rfl
  · next hn =>
    split
    · exact .inl rfl
    · exact .inr ⟨rfl, fun hp => by simpa [hp] using hn⟩

theorem State.rg_takeItems (s : State) {l a : Nat} (ha : a < 0x70000000) (ho : a % 0x100000 < 0x2000 ∨ 0x2020 ≤ a % 0x100000)
    (hst : a ≠ lnkStat l) : (s.takeItems l).rg a = (s.cleared l).rg a := by
  obtain h | ⟨h, -⟩ := s.takeItems_cases l <;> rw [h]
  · exact State.rg_trainStart _ ha ho hst
  · rfl

/-- An item that leads to training does so at once where the engine stands at a safe point (R48, R59). -/
theorem State.itemWritten_trains {s : State} {l : Nat} (hs : s.stalled (l / 64) (l % 64 / 8) = false)
    (hr : (s.eng (l / 64) (l % 64 / 8)).run = 0)
    (hp : (s.lane l).pendRetrain = true ∧ s.laneState l ≠ 0 ∨
      (s.lane l).pendEn = true ∧ s.laneState l = 0 ∧ s.runOn (l / 64) = true) :
    s.itemWritten l = ((s.woken (l / 64) (l % 64 / 8)).cleared l).trainStart l := by
  rw [State.itemWritten_of_safe hs hr]
  have hrg := s.rg_woken (l / 64) (l % 64 / 8)
  rw [← s.lane_woken (l / 64) (l % 64 / 8), ← State.laneState_of_rg (hrg _), ← SameCycleRegs.runOn fun a _ => hrg a] at hp
  obtain ⟨hret, hst⟩ | ⟨hen, hst, hrun⟩ := hp
  · exact State.takeItems_of_retrain hret hst
  · exact State.takeItems_of_enable hen hst hrun

/-- What a safe point shows of a lane: its hidden part and its state. -/
def State.ctlView (l : Nat) (s : State) : Lane × Nat := (s.lane l, s.laneState l)

theorem State.ctlView_takeItems_ne (s : State) {l k : Nat} (hk : k < 1024) (h : k ≠ l) :
    (s.takeItems l).ctlView k = s.ctlView k := by
  unfold State.ctlView
  rw [← s.lane_cleared_ne h, ← s.laneState_cleared l k]
  obtain e | ⟨e, -⟩ := s.takeItems_cases l <;> rw [e]
  · rw [State.lane_trainStart_ne _ h, State.laneState_trainStart_ne _ hk h]
  · exact congrArg (·, _) (State.lane_mapLane_ne _ _ h)

/-- A lane with no item pending any more, whose RETRAIN has led it to LOCK unless it was OFF. -/
def ItemsTaken (before after : Lane × Nat) : Prop :=
  after.1.pendRetrain = false ∧ after.1.pendEn = false ∧ after.1.pendClr = false ∧
    (before.1.pendRetrain = true → before.2 ≠ 0 → after.2 = 1)

theorem State.itemsTaken_takeItems (s : State) {l : Nat} (hl : l < 1024) : ItemsTaken (s.ctlView l) ((s.takeItems l).ctlView l) := by
  unfold ItemsTaken State.ctlView
  obtain h | ⟨h, hoff⟩ := s.takeItems_cases l <;> rw [h]
  · rw [State.lane_trainStart_self, State.lane_cleared_self]
    exact ⟨rfl, rfl, rfl, fun _ _ => State.laneState_trainStart_self _ hl⟩
  · rw [State.dropItems, State.lane_mapLane_self, State.lane_cleared_self]
    exact ⟨rfl, rfl, rfl, fun hp hne => absurd (hoff hp) hne⟩

/-- Each lane of an engine has its items taken at the safe point, whatever those of its fellows do (R298). -/
theorem State.itemsTaken_safePoint (s : State) {n e j : Nat} (hn : n < 16) (he : e < 8) (hj : j < 8) :
    ItemsTaken (s.ctlView (64 * n + 8 * e + j)) ((s.safePoint n e).ctlView (64 * n + 8 * e + j)) := by
  obtain ⟨u, hu, ht⟩ := forN_view (State.ctlView (64 * n + 8 * e + j)) (fun j s => s.takeItems (64 * n + 8 * e + j))
    (s.mapEng n e fun x => { x with run := 0 }) hj fun i hi hne v => v.ctlView_takeItems_ne (by omega) (by omega)
  have hs : (s.mapEng n e fun x => { x with run := 0 }).ctlView (64 * n + 8 * e + j) = s.ctlView (64 * n + 8 * e + j) := rfl
  rw [State.safePoint, ht, ← hs, ← hu]
  exact u.itemsTaken_takeItems (by omega)

/-! ### The clauses -/

theorem enable_off_silences (s : State) (l : Fin 1024) : Answers (.lnkEnable l false) s fun t =>
    t.mem = s.mem ∧ t.laneState l = 0 ∧ t.bit (Reg.LNK_CTRL (l / 64) (l % 64)) F.LNK_CTRL_ENABLE = false := by
  refine ⟨_, rfl, State.mem_of_memTs (s.memTs_lnkEnable l false), State.laneState_setLane_self _ l.isLt (by decide), ?_⟩
  have hr := (s.sb (Reg.LNK_CTRL (l / 64) (l % 64)) F.LNK_CTRL_ENABLE false).rg_laneOff (l := l)
    (a := Reg.LNK_CTRL (l / 64) (l % 64)) (by unfold Reg.LNK_CTRL; omega) (by unfold Reg.LNK_CTRL; omega)
    (by unfold lnkStat Reg.LNK_STAT Reg.LNK_CTRL; omega)
  exact (State.bit_of_rg hr _).trans (s.bit_sf_self _ _ _ (by decide))

/-- ENABLE changing to 1 writes an item for the lane's engine (R298). -/
def State.enableWritten (l : Nat) (s : State) : State :=
  (s.sb (Reg.LNK_CTRL (l / 64) (l % 64)) F.LNK_CTRL_ENABLE true).mapLane l fun x => { x with pendEn := true }

theorem State.rg_enableWritten_ne (s : State) {l a : Nat} (h : a ≠ Reg.LNK_CTRL (l / 64) (l % 64)) :
    (s.enableWritten l).rg a = s.rg a := s.rg_sb_ne _ _ h

theorem State.runOn_enableWritten (s : State) (l n : Nat) : (s.enableWritten l).runOn n = s.runOn n :=
  SameCycleRegs.runOn (fun a ha => s.rg_enableWritten_ne (by unfold Reg.LNK_CTRL; omega)) n

theorem State.lnkEnable_of_off {s : State} {l : Nat} (he : s.bit (Reg.LNK_CTRL (l / 64) (l % 64)) F.LNK_CTRL_ENABLE = false)
    (hr : s.runOn (l / 64) = true) : s.lnkEnable l true = (s.enableWritten l).itemWritten l :=
  if_pos (Bool.and_eq_true_iff.2 ⟨by rw [he]; rfl, (s.runOn_enableWritten l _).trans hr⟩)

theorem enable_on_starts_training (s : State) (l : Fin 1024)
    (he : s.bit (Reg.LNK_CTRL (l / 64) (l % 64)) F.LNK_CTRL_ENABLE = false) (hst : s.laneState l = 0)
    (hrun : s.runOn (l / 64) = true) (hs : s.stalled (l / 64) (l % 64 / 8) = false)
    (hr : (s.eng (l / 64) (l % 64 / 8)).run = 0) : Answers (.lnkEnable l true) s fun t =>
      t.mem = s.mem ∧ t.laneState l = 1 ∧ (t.lane l).tcyc = 0 ∧
      t.bit (Reg.LNK_CTRL (l / 64) (l % 64)) F.LNK_CTRL_ENABLE = true := by
  have hst' : (s.enableWritten l).laneState l = 0 :=
    (State.laneState_of_rg (s.rg_enableWritten_ne (by unfold lnkStat Reg.LNK_STAT Reg.LNK_CTRL; omega))).trans hst
  have hs' : (s.enableWritten l).stalled (l / 64) (l % 64 / 8) = false :=
    (State.stalled_of_rg (s.rg_enableWritten_ne (by unfold Reg.MCS_ENGSTAT Reg.LNK_CTRL; omega)) _).trans hs
  have hp : ((s.enableWritten l).lane l).pendEn = true := by rw [State.enableWritten, State.lane_mapLane_self]
  refine ⟨_, rfl, State.mem_of_memTs (s.memTs_lnkEnable l true), ?_⟩
  rw [State.lnkEnable_of_off he hrun,
    State.itemWritten_trains hs' hr (.inr ⟨hp, hst', (s.runOn_enableWritten l _).trans hrun⟩)]
  refine ⟨State.laneState_trainStart_self _ l.isLt, by rw [State.lane_trainStart_self], ?_⟩
  rw [State.bit_of_rg (State.rg_trainStart _ (by unfold Reg.LNK_CTRL; omega) (by unfold Reg.LNK_CTRL; omega)
      (by unfold lnkStat Reg.LNK_STAT Reg.LNK_CTRL; omega)),
    State.bit_of_rg (State.rg_cleared_ne _ (by unfold Reg.LNK_ERR Reg.LNK_CTRL; omega)
      (by unfold Reg.LNK_MISS Reg.LNK_CTRL; omega)), State.bit_of_rg (State.rg_woken _ _ _ _)]
  exact s.bit_sf_self _ _ _ (by decide)

/-- A write of RETRAIN leaves an item (R59, R298). -/
def State.retrainWritten (l : Nat) (s : State) : State := s.mapLane l fun x => { x with pendRetrain := true }

theorem retrain_restarts_training (s : State) (l : Fin 1024) (hst : s.laneState l ≠ 0)
    (hs : s.stalled (l / 64) (l % 64 / 8) = false) : Answers (.retrain l) s fun t =>
      t.mem = s.mem ∧
      ((s.eng (l / 64) (l % 64 / 8)).run = 0 → t.laneState l = 1 ∧ (t.lane l).tcyc = 0 ∧ (t.lane l).pendRetrain = false) ∧
      ((s.eng (l / 64) (l % 64 / 8)).run ≠ 0 → t.laneState l = s.laneState l ∧ (t.lane l).pendRetrain = true) := by
  have he : s.retrain l = (s.retrainWritten l).itemWritten l := if_neg hst
  have hp : ((s.retrainWritten l).lane l).pendRetrain = true := by rw [State.retrainWritten, State.lane_mapLane_self]
  refine ⟨_, rfl, State.mem_of_memTs (s.memTs_retrain l), fun hr => ?_, fun hr => ?_⟩
  · rw [he, State.itemWritten_trains (s := s.retrainWritten l) hs hr (.inl ⟨hp, hst⟩), State.lane_trainStart_self]
    exact ⟨State.laneState_trainStart_self _ l.isLt, rfl, rfl⟩
  · rw [he, State.itemWritten_of_busy (s := s.retrainWritten l) hr, State.lane_woken]
    exact ⟨State.laneState_of_rg (State.rg_woken _ _ _ _), hp⟩

theorem forceBlock_takes_bit (s : State) (l : Fin 1024) (on : Bool) : Answers (.forceBlock l on) s fun t =>
    t = { s with regs := t.regs } ∧ SameRegs [Reg.LNK_CTRL (l / 64) (l % 64)] s t ∧
    t.bit (Reg.LNK_CTRL (l / 64) (l % 64)) F.LNK_CTRL_FORCE_BLOCK = on ∧
    t.bit (Reg.LNK_CTRL (l / 64) (l % 64)) F.LNK_CTRL_ENABLE = s.bit (Reg.LNK_CTRL (l / 64) (l % 64)) F.LNK_CTRL_ENABLE := by
  refine ⟨_, rfl, rfl, fun a ha => s.rg_sb_ne _ _ (by simpa using ha), (s.bit_sf_self _ _ _ (by decide)).trans ?_, ?_⟩
  · cases on <;> rfl
  · exact congrArg (· != 0) (s.fld_sf_disjoint _ _ _ _ (by decide))

theorem alignNow_asks_align (s : State) (l : Fin 1024) : Answers (.alignNow l) s fun t =>
    t = { s with lanes := t.lanes } ∧ t.lane l = { s.lane l with alignReq := true } ∧ ∀ j, j ≠ l.val → t.lane j = s.lane j :=
  ⟨_, rfl, rfl, s.lane_mapLane_self l _, fun _ hj => s.lane_mapLane_ne _ hj⟩

/-- CLR_CNT leaves no count (R436). -/
theorem State.counts_clrCnt (s : State) (l : Nat) :
    (s.clrCnt l).rg (Reg.LNK_ERR (l / 64) (l % 64)) = 0 ∧
    (s.clrCnt l).fld (Reg.LNK_MISS (l / 64) (l % 64)) F.LNK_MISS_MISS = 0 ∧
    (s.clrCnt l).fld (Reg.LNK_MISS (l / 64) (l % 64)) F.LNK_MISS_CONSEC = 0 := by
  have hne : Reg.LNK_ERR (l / 64) (l % 64) ≠ Reg.LNK_MISS (l / 64) (l % 64) := by unfold Reg.LNK_ERR Reg.LNK_MISS; omega
  refine ⟨?_, (State.fld_sf_disjoint _ _ _ _ _ (by decide)).trans (State.fld_sf_self _ _ _ _ (by decide)),
    State.fld_sf_self _ _ _ _ (by decide)⟩
  rw [State.clrCnt, State.rg_mapLane, State.rg_sf_ne _ _ _ hne, State.rg_sf_ne _ _ _ hne, State.rg_wr_self]

/-- A write of CLR_CNT leaves an item (R298, R436). -/
def State.clrWritten (l : Nat) (s : State) : State := s.mapLane l fun x => { x with pendClr := true }

theorem clrCnt_clears_counters (s : State) (l : Fin 1024) (hs : s.stalled (l / 64) (l % 64 / 8) = false)
    (hr : (s.eng (l / 64) (l % 64 / 8)).run = 0) : Answers (.clrCnt l) s fun t =>
      t.mem = s.mem ∧ t.rg (Reg.LNK_ERR (l / 64) (l % 64)) = 0 ∧
      t.fld (Reg.LNK_MISS (l / 64) (l % 64)) F.LNK_MISS_MISS = 0 ∧ t.fld (Reg.LNK_MISS (l / 64) (l % 64)) F.LNK_MISS_CONSEC = 0 := by
  have he : exec (.clrCnt l) s = .next ((s.clrWritten l).itemWritten l) := rfl
  refine ⟨_, he, State.mem_of_memTs (by simp [State.clrWritten]), ?_⟩
  rw [State.itemWritten_of_safe (s := s.clrWritten l) hs hr]
  generalize hu : (s.clrWritten l).woken (l / 64) (l % 64 / 8) = u
  have hc : u.cleared l = u.clrCnt l := if_pos (by rw [← hu, State.lane_woken, State.clrWritten, State.lane_mapLane_self])
  have herr : (u.takeItems l).rg (Reg.LNK_ERR (l / 64) (l % 64)) = _ := u.rg_takeItems (by unfold Reg.LNK_ERR; omega)
    (by unfold Reg.LNK_ERR; omega) (by unfold lnkStat Reg.LNK_STAT Reg.LNK_ERR; omega)
  have hmiss : (u.takeItems l).rg (Reg.LNK_MISS (l / 64) (l % 64)) = _ := u.rg_takeItems (by unfold Reg.LNK_MISS; omega)
    (by unfold Reg.LNK_MISS; omega) (by unfold lnkStat Reg.LNK_STAT Reg.LNK_MISS; omega)
  rw [herr, State.fld_of_rg hmiss, State.fld_of_rg hmiss, hc]
  exact u.counts_clrCnt l

theorem safePoint_takes_items (s : State) (n : Fin 16) (e : Fin 8) (hs : s.stalled n e = false) :
    Answers (.safePoint n e) s fun t => t.mem = s.mem ∧ ∀ j : Fin 8,
      let l := 64 * n.val + 8 * e.val + j.val
      (t.lane l).pendRetrain = false ∧ (t.lane l).pendEn = false ∧ (t.lane l).pendClr = false ∧
      ((s.lane l).pendRetrain = true → s.laneState l ≠ 0 → t.laneState l = 1) := by
  have he : exec (.safePoint n e) s = .next (s.safePoint n e) :=
    congrArg Host.Outcome.next (if_neg (by simp [hs]))
  refine ⟨_, he, State.mem_of_memTs (s.memTs_safePoint n e), fun j => ?_⟩
  obtain ⟨hret, hen, hclr, hlock⟩ := s.itemsTaken_safePoint n.isLt e.isLt j.isLt
  exact ⟨hret, hen, hclr, hlock⟩

end Sys2Proof.Machine

open Sys2Proof.Machine

/-- Settles O7, clause by clause. -/
theorem linkControlCommandsRun : Obligations.LinkControlCommandsRun :=
  ⟨enable_off_silences, enable_on_starts_training, retrain_restarts_training, forceBlock_takes_bit, alignNow_asks_align,
    clrCnt_clears_counters, safePoint_takes_items⟩

end
section
/-! What the flight and cell-map commands (spec/04_flights_cell_map.md) leave of the host ports, of the Keeper and of the hidden
state of the cycles (O19, O20, O21). -/

namespace Sys2Proof.Machine

/-! ### Host ports -/

/-- The host ports, as a view of a state that operations keep. -/
def State.hosts (s : State) : Tbl PortSt := s.ports

theorem State.hosts_of_ports {s t : State} (h : t.ports = s.ports) : t.hosts = s.hosts := h

@[simp] theorem State.hosts_ite (c : Prop) [Decidable c] (s t : State) :
    (if c then s else t).hosts = if c then s.hosts else t.hosts := apply_ite _ _ _ _

@[simp] theorem State.hosts_forN (n : Nat) (f : Nat → State → State) (s : State) (h : ∀ i s, (f i s).hosts = s.hosts) :
    (forN n f s).hosts = s.hosts := forN_frame State.hosts n f s fun i _ s => h i s

@[simp] theorem State.hosts_foldl {α : Type} (l : List α) (f : State → α → State) (s : State)
    (h : ∀ s x, (f s x).hosts = s.hosts) : (l.foldl f s).hosts = s.hosts := foldl_frame State.hosts l f s h

@[simp] theorem State.hosts_wr (s : State) (a : Nat) (v : Word) : (s.wr a v).hosts = s.hosts := State.hosts_of_ports (by simp)
@[simp] theorem State.hosts_sf (s : State) (a : Nat) (f : Fld) (x : Nat) : (s.sf a f x).hosts = s.hosts := by simp [State.sf]
@[simp] theorem State.hosts_sb (s : State) (a : Nat) (f : Fld) (b : Bool) : (s.sb a f b).hosts = s.hosts := by simp [State.sb]
@[simp] theorem State.hosts_flag (s : State) (a : Nat) (f : Fld) : (s.flag a f).hosts = s.hosts := by simp [State.flag]

@[simp] theorem State.hosts_mapLane (s : State) (l : Nat) (f : Lane → Lane) : (s.mapLane l f).hosts = s.hosts :=
  State.hosts_of_ports (by simp)
@[simp] theorem State.hosts_mapFc (s : State) (n : Nat) (f : FcSt → FcSt) : (s.mapFc n f).hosts = s.hosts :=
  State.hosts_of_ports (by simp)
@[simp] theorem State.hosts_mapSlot (s : State) (n f : Nat) (g : SlotSt → SlotSt) : (s.mapSlot n f g).hosts = s.hosts :=
  State.hosts_of_ports (by simp)
@[simp] theorem State.hosts_raise (s : State) (src code pay : Nat) : (s.raise src code pay).hosts = s.hosts :=
  State.hosts_of_ports (by simp)

@[simp] theorem State.hosts_mapEng (n e : Nat) (g : EngSt → EngSt) (s : State) : (s.mapEng n e g).hosts = s.hosts := by
  simp [State.mapEng]
@[simp] theorem State.hosts_wakeEng (n e ev : Nat) (s : State) : (s.wakeEng n e ev).hosts = s.hosts := by simp [State.wakeEng]

@[simp] theorem State.hosts_sluRefresh (s : State) : s.sluRefresh.hosts = s.hosts := by
  obtain ⟨r, c, p, e⟩ := s.sluRefresh_frame
  exact State.hosts_of_ports (by rw [e])

@[simp] theorem State.hosts_setSource (k : Nat) (act out : Bool) (s : State) : (s.setSource k act out).hosts = s.hosts := by
  obtain ⟨r, h, y, l, c, p, t, o, e⟩ := s.setSource_frame k act out
  exact State.hosts_of_ports (by rw [e])

@[simp] theorem State.hosts_setCause (n c : Nat) (on : Bool) (s : State) : (s.setCause n c on).hosts = s.hosts := by
  simp [State.setCause, State.setInternal]

@[simp] theorem State.hosts_lossEval (n f : Nat) (s : State) : (s.lossEval n f).hosts = s.hosts := by simp [State.lossEval]

@[simp] theorem State.hosts_lossOfLink (l : Nat) (s : State) : (s.lossOfLink l).hosts = s.hosts := by
  unfold State.lossOfLink
  split <;> simp

@[simp] theorem State.hosts_setLane (l st : Nat) (s : State) : (s.setLane l st).hosts = s.hosts := by
  simp [State.setLane, State.mapBit]

@[simp] theorem State.hosts_trainStart (l : Nat) (s : State) : (s.trainStart l).hosts = s.hosts := by simp [State.trainStart]
@[simp] theorem State.hosts_laneOff (l : Nat) (s : State) : (s.laneOff l).hosts = s.hosts := by simp [State.laneOff]
@[simp] theorem State.hosts_clrCnt (l : Nat) (s : State) : (s.clrCnt l).hosts = s.hosts := by simp [State.clrCnt]
@[simp] theorem State.hosts_takeItems (l : Nat) (s : State) : (s.takeItems l).hosts = s.hosts := by simp [State.takeItems]
@[simp] theorem State.hosts_itemWritten (l : Nat) (s : State) : (s.itemWritten l).hosts = s.hosts := by simp [State.itemWritten]
@[simp] theorem State.hosts_lnkEnable (l : Nat) (on : Bool) (s : State) : (s.lnkEnable l on).hosts = s.hosts := by
  simp [State.lnkEnable]
@[simp] theorem State.hosts_retrain (l : Nat) (s : State) : (s.retrain l).hosts = s.hosts := by simp [State.retrain]
@[simp] theorem State.hosts_startFc (m : Nat) (s : State) : (s.startFc m).hosts = s.hosts := by simp [State.startFc]

@[simp] theorem State.hosts_setFlt (n f new : Nat) (s : State) : (s.setFlt n f new).hosts = s.hosts := by
  simp [State.setFlt, State.slewRefresh, State.startEffects, State.seed]

@[simp] theorem State.hosts_holdTargets (n f : Nat) (s : State) : (s.holdTargets n f).hosts = s.hosts := by
  simp [State.holdTargets]

@[simp] theorem State.hosts_splitBits (m : Nat) (s : State) : (s.splitBits m).hosts = s.hosts := by simp [State.splitBits]
@[simp] theorem State.hosts_cfgFollow (m : Nat) (s : State) : (s.cfgFollow m).hosts = s.hosts := by simp [State.cfgFollow]
@[simp] theorem State.hosts_bindLanes (d : FltDesc) (s : State) : (s.bindLanes d).hosts = s.hosts := by simp [State.bindLanes]
@[simp] theorem State.hosts_gangForm (d : FltDesc) (s : State) : (s.gangForm d).hosts = s.hosts := by simp [State.gangForm]
@[simp] theorem State.hosts_gangEnd (ms : List Nat) (s : State) : (s.gangEnd ms).hosts = s.hosts := by
  simp [State.gangEnd, State.switchEnd]
@[simp] theorem State.hosts_clearCfg (n f : Nat) (ms : List Nat) (s : State) : (s.clearCfg n f ms).hosts = s.hosts := by
  simp [State.clearCfg]

@[simp] theorem State.hosts_ctlPut (a : Nat) (v : Word) (s : State) : (s.ctlPut a v).hosts = s.hosts := by
  dsimp only [State.ctlPut]
  split <;> simp

@[simp] theorem State.hosts_heldWrite (n a : Nat) (v : Word) (s : State) : (s.heldWrite n a v).hosts = s.hosts := by
  simp [State.heldWrite]

@[simp] theorem State.hosts_bindRegs (d : FltDesc) (s : State) : (s.bindRegs d).hosts = s.hosts := by simp [State.bindRegs]
@[simp] theorem State.hosts_ovEval (m : Nat) (s : State) : (s.ovEval m).hosts = s.hosts := by simp [State.ovEval]
@[simp] theorem State.hosts_setBankVal (n f b : Nat) (v : Bool) (s : State) : (s.setBankVal n f b v).hosts = s.hosts := by
  simp [State.setBankVal]

@[simp] theorem State.hosts_showSet (n f : Nat) (s : State) : (s.showSet n f).hosts = s.hosts := by
  unfold State.showSet
  split <;> simp

@[simp] theorem State.hosts_setXinit (n f : Nat) (l : List Byte) (s : State) : (s.setXinit n f l).hosts = s.hosts := by
  simp [State.setXinit]
@[simp] theorem State.hosts_putDesc (l : Nat) (d : List Byte) (s : State) : (s.putDesc l d).hosts = s.hosts := by
  simp [State.putDesc]
@[simp] theorem State.hosts_clearWear (l : Nat) (s : State) : (s.clearWear l).hosts = s.hosts := by
  unfold State.clearWear
  generalize ht : forN 15 _ s = t
  have h : t.hosts = s.hosts := ht ▸ by simp
  exact h

@[simp] theorem State.hosts_swapBank (n f : Nat) (init : Bool) (s : State) : (s.swapBank n f init).2.hosts = s.hosts := by
  dsimp only [State.swapBank]
  split <;> simp

/-! ### The Keeper and the hidden state of the cycles -/

section still

variable {τ : Type} {π : FcSt → τ}

@[simp] theorem State.still_clrCnt (l : Nat) (s : State) : (s.clrCnt l).still π = s.still π := by simp [State.clrCnt]
@[simp] theorem State.still_takeItems (l : Nat) (s : State) : (s.takeItems l).still π = s.still π := by simp [State.takeItems]

@[simp] theorem State.still_itemWritten (l : Nat) (s : State) :
    (s.itemWritten l).still FcSt.clock = s.still FcSt.clock := by
  simp [State.itemWritten, State.wakeEng]

@[simp] theorem State.still_lnkEnable (l : Nat) (on : Bool) (s : State) :
    (s.lnkEnable l on).still FcSt.clock = s.still FcSt.clock := by
  simp [State.lnkEnable]

@[simp] theorem State.still_retrain (l : Nat) (s : State) : (s.retrain l).still FcSt.clock = s.still FcSt.clock := by
  simp [State.retrain]

@[simp] theorem State.still_bindLanes (d : FltDesc) (s : State) : (s.bindLanes d).still FcSt.clock = s.still FcSt.clock := by
  simp [State.bindLanes]

@[simp] theorem State.still_cfgFollow (m : Nat) (s : State) : (s.cfgFollow m).still π = s.still π := by
  simp [State.cfgFollow, State.splitBits]

end still

end Sys2Proof.Machine
end
section
/-! Taking a command, waiting for a sample instant, and replying (O19, O20, O21). -/

namespace Sys2Proof.Machine

/-! ### Replies -/

/-- Taking an entry out of its inbox leaves the power state and the outbox of its port. -/
theorem State.port_popEntry (s : State) (e : Entry) :
    ((s.popEntry e).port e.port).d3 = (s.port e.port).d3 ∧ ((s.popEntry e).port e.port).outbox = (s.port e.port).outbox := by
  unfold State.popEntry
  rw [State.port_mapPort_self]
  split
  · split <;> exact ⟨rfl, rfl⟩
  · exact ⟨rfl, rfl⟩

/-- A reply from a state whose ports stand as they did when the entry was taken. -/
theorem replied_replyTo {s u : State} {e : Entry} (hp : u.hosts = (s.popEntry e).hosts) (hd : (s.port e.port).d3 = false)
    (devref : Bool) (status resx : Nat) (res : List Nat) :
    Replied e status res s (u.replyTo e true devref status resx res) := by
  obtain ⟨hd3, hout⟩ := s.port_popEntry e
  have hport : u.port e.port = (s.popEntry e).port e.port := congrArg (tget PortSt.init · e.port) hp
  obtain ⟨r, hr, h⟩ := u.outbox_replyTo e devref status resx res (by rw [hport, hd3, hd])
  exact ⟨r, by rw [hr, hport, hout], h⟩

/-- A command that has not waited ends with its reply. -/
theorem replied_finish {s u : State} {e : Entry} (hp : u.hosts = (s.popEntry e).hosts) (hd : (s.port e.port).d3 = false)
    (st status resx : Nat) (res : List Nat) : Replied e status res s (u.finish (nowWait e st) status resx res) :=
  replied_replyTo (u := u.dropWait (nowWait e st)) hp hd false status resx res

/-- A reply writes registers of its port alone. -/
theorem State.rg_replyTo (s : State) (e : Entry) (live devref : Bool) (status resx : Nat) (res : List Nat) {a : Nat}
    (ha : a < 0x78000000) : (s.replyTo e live devref status resx res).rg a = s.rg a := by
  have hk : a ≠ Reg.HIF_KDISC e.port := (ha.trans_le (by unfold Reg.HIF_KDISC; omega)).ne
  have ho : a ≠ Reg.HIF_KOUTSTAT e.port := (ha.trans_le (by unfold Reg.HIF_KOUTSTAT; omega)).ne
  simp [State.replyTo, State.pushReply, State.outFree, State.rg_incSat_ne _ _ hk, State.rg_sf_ne _ _ _ ho]

theorem State.rg_finish_nowWait (s : State) (e : Entry) (st status resx : Nat) (res : List Nat) {a : Nat} (ha : a < 0x78000000) :
    (s.finish (nowWait e st) status resx res).rg a = s.rg a :=
  State.rg_replyTo (s.dropWait (nowWait e st)) e true false status resx res ha

/-! ### Waiting for a sample instant -/

@[simp] theorem e_nowWait (e : Entry) (st : Nat) : (nowWait e st).e = e := rfl
@[simp] theorem st_nowWait (e : Entry) (st : Nat) : (nowWait e st).st = st := rfl

theorem State.atSample_of_cycling {s : State} {n : Nat} (h : s.cycling n = true) (e : Entry) (st : Nat)
    (body : Wait → State → State) : s.atSample n e st body = s.await e (.sample n) st := if_pos h

theorem State.atSample_of_idle {s : State} {n : Nat} (h : s.cycling n = false) (e : Entry) (st : Nat)
    (body : Wait → State → State) : s.atSample n e st body = body (nowWait e st) s := if_neg (by simp [h])

/-- A command for a sample instant of FC `n`, once accepted: it waits where the FC cycles, and does its work at once elsewhere. -/
theorem answers_atSample {i : Instr} {s u : State} {e : Entry} {n st : Nat} {body : Wait → State → State} {P Q : State → Prop}
    (hx : exec i s = .next (u.atSample n e st body)) (hm : (u.atSample n e st body).mem = s.mem) (hc : u.cycling n = s.cycling n)
    (hw : P (u.await e (.sample n) st)) (hb : s.cycling n = false → Q (body (nowWait e st) u)) :
    Answers i s fun t => t.mem = s.mem ∧ (s.cycling n = true → P t) ∧ (s.cycling n = false → Q t) := by
  refine ⟨_, hx, hm, fun h => ?_, fun h => ?_⟩
  · rwa [State.atSample_of_cycling (hc.trans h)]
  · rw [State.atSample_of_idle (hc.trans h)]
    exact hb h

/-! ### Where flights stand -/

theorem State.mem_boundSlots {s : State} {n f : Nat} (h : (n, f) ∈ s.boundSlots) :
    n < 16 ∧ f < 2 ∧ s.bound n f = true ∧ s.leader n = n := by
  obtain ⟨k, hk, he⟩ := List.mem_filterMap.1 h
  have hlt := List.mem_range.1 hk
  split at he
  · next hl =>
    cases he
    simp only [State.leads, Bool.and_eq_true, beq_iff_eq] at hl
    exact ⟨by omega, by omega, hl.1, hl.2⟩
  · cases he

theorem State.slotOf_spec {s : State} {fl n f : Nat} (h : s.slotOf fl = some (n, f)) :
    n < 16 ∧ f < 2 ∧ s.bound n f = true ∧ s.leader n = n := State.mem_boundSlots (List.mem_of_find?_eq_some h)

theorem State.leader_lt {n : Nat} (s : State) (hn : n < 16) : s.leader n < 16 := by
  unfold State.leader
  split
  · exact s.fld_lt _ _
  · exact hn

/-- The members of a flight are its leader and other FCs. -/
theorem State.members_eq_cons (s : State) (n f : Nat) : ∃ ms, s.members n f = n :: ms ∧ ∀ m ∈ ms, m ≠ n := by
  unfold State.members
  split
  · obtain ⟨k, hk⟩ := Nat.exists_eq_succ_of_ne_zero (Nat.two_pow_pos (s.fld (Reg.FC_FLT_CFG n f) F.FC_FLT_CFG_GANG)).ne'
    refine ⟨((List.range k).map Nat.succ).map (n + ·), ?_, ?_⟩
    · rw [State.gangSize, hk, List.range_succ_eq_map, List.map_cons, Nat.add_zero]
    · simp only [List.mem_map]
      rintro m ⟨_, ⟨i, -, rfl⟩, rfl⟩
      omega
  · exact ⟨[], rfl, by simp⟩

end Sys2Proof.Machine
end
section
/-! A flight takes a state (R76): what that leaves of the registers, and of the sets of the observer. -/

namespace Sys2Proof.Machine

/-- What starts with a flight is written in the books and the balancer alone (R82, R114). -/
theorem State.rg_startEffects_below (s : State) (n : Nat) {f a : Nat} (hf : f < 2) (ho : a % 0x100000 < 0x6000) :
    (s.startEffects n f).rg a = s.rg a := by
  unfold State.startEffects State.seed
  simp [State.rg_flag_ne _ _ (show a ≠ Reg.LED_STAT n f by unfold Reg.LED_STAT; omega),
    State.rg_wr_ne _ _ (show a ≠ Reg.BAL_SWAPTOT n f by unfold Reg.BAL_SWAPTOT; omega),
    State.rg_sf_ne _ _ _ (show a ≠ Reg.BAL_STAT n f by unfold Reg.BAL_STAT; omega)]

theorem State.rg_slewRefresh (s : State) {a : Nat} (ha : a < 0x70000000) : s.slewRefresh.rg a = s.rg a := by
  have hst : a ≠ Reg.TS_STAT := by unfold Reg.TS_STAT; omega
  simp [State.slewRefresh, State.rg_sb_ne _ _ _ hst]

/-- A flight that takes a state changes no register of its FC below the balancer's but STATE. -/
theorem State.rg_setFlt_below (s : State) (n new : Nat) {f a : Nat} (hf : f < 2) (ha : a < 0x70000000)
    (ho : a % 0x100000 < 0x50 ∨ 0x58 ≤ a % 0x100000 ∧ a % 0x100000 < 0x6000) : (s.setFlt n f new).rg a = s.rg a := by
  have hmem : ∀ (l : List Nat) (t : State),
      (l.foldl (fun s m => s.sf (Reg.FC_FLT_STAT m f) F.FC_FLT_STAT_STATE new) t).rg a = t.rg a :=
    fun l t => foldl_frame (State.rg · a) l _ t fun u m => u.rg_sf_ne _ _ (by unfold Reg.FC_FLT_STAT; omega)
  simp [State.setFlt, State.rg_raise_below _ _ _ _ (show a < 0x70040000 by omega), State.rg_slewRefresh _ ha, hmem,
    State.rg_startEffects_below _ _ hf (show a % 0x100000 < 0x6000 by omega)]

/-- FC_FLT_STAT of the leader takes the state, unless it shows it already (R76). -/
theorem State.rg_setFlt_stat (s : State) {n f new : Nat} (hn : n < 16) (hf : f < 2) (h : s.fltState n f ≠ new) :
    (s.setFlt n f new).rg (Reg.FC_FLT_STAT n f) = fput (s.rg (Reg.FC_FLT_STAT n f)) F.FC_FLT_STAT_STATE new := by
  have ha : Reg.FC_FLT_STAT n f < 0x70000000 := by unfold Reg.FC_FLT_STAT; omega
  have ho : Reg.FC_FLT_STAT n f % 0x100000 < 0x6000 := by unfold Reg.FC_FLT_STAT; omega
  have hstate : ∀ t : State, ((t.members n f).foldl (fun s m => s.sf (Reg.FC_FLT_STAT m f) F.FC_FLT_STAT_STATE new) t).rg
      (Reg.FC_FLT_STAT n f) = fput (t.rg (Reg.FC_FLT_STAT n f)) F.FC_FLT_STAT_STATE new := fun t => by
    obtain ⟨ms, hms, hne⟩ := t.members_eq_cons n f
    rw [hms, List.foldl_cons, foldl_frame_mem (State.rg · (Reg.FC_FLT_STAT n f)) ms _ _ fun m hm u =>
      u.rg_sf_ne _ _ (by have := hne m hm; unfold Reg.FC_FLT_STAT; omega), State.rg_sf_self]
  unfold State.setFlt
  dsimp only
  rw [if_neg h, State.rg_raise_below _ _ _ _ (by omega), State.rg_slewRefresh _ ha, hstate]
  simp [State.rg_startEffects_below _ n hf ho]

/-- A flight that takes a state has it. -/
theorem State.fltState_setFlt (s : State) {n f new : Nat} (hn : n < 16) (hf : f < 2) (hnew : new < 8) :
    (s.setFlt n f new).fltState n f = new := by
  by_cases h : s.fltState n f = new
  · rw [State.setFlt, if_pos h, h]
  · rw [State.fltState, State.fld, s.rg_setFlt_stat hn hf h, fget_fput_self _ _ _ (by decide)]
    exact Nat.mod_eq_of_lt hnew

/-- AVAIL does not follow the state. -/
theorem State.availN_setFlt (s : State) {n f : Nat} (new : Nat) (hn : n < 16) (hf : f < 2) :
    (s.setFlt n f new).availN n f = s.availN n f := by
  by_cases h : s.fltState n f = new
  · rw [State.setFlt, if_pos h]
  · rw [State.availN, State.fld, s.rg_setFlt_stat hn hf h]
    exact fget_fput_disjoint _ _ _ _ (by decide)

/-! ### The sets in force -/

/-- The images of the banks, and the set that a load of an active bank holds back. -/
def State.sets (s : State) : Tbl (List Byte) × (Nat → Option (Option (List Byte))) :=
  (s.banks, fun k => (tget SlotSt.init s.slots k).xinit)

@[simp] theorem State.sets_ite (c : Prop) [Decidable c] (s t : State) :
    (if c then s else t).sets = if c then s.sets else t.sets := apply_ite _ _ _ _

@[simp] theorem State.sets_foldl {α : Type} (l : List α) (f : State → α → State) (s : State)
    (h : ∀ s x, (f s x).sets = s.sets) : (l.foldl f s).sets = s.sets := foldl_frame State.sets l f s h

@[simp] theorem State.sets_wr (s : State) (a : Nat) (v : Word) : (s.wr a v).sets = s.sets := by
  simp [State.sets]
@[simp] theorem State.sets_sf (s : State) (a : Nat) (f : Fld) (x : Nat) : (s.sf a f x).sets = s.sets := by simp [State.sf]
@[simp] theorem State.sets_flag (s : State) (a : Nat) (f : Fld) : (s.flag a f).sets = s.sets := by simp [State.flag]
@[simp] theorem State.sets_sb (s : State) (a : Nat) (f : Fld) (b : Bool) : (s.sb a f b).sets = s.sets := by simp [State.sb]
@[simp] theorem State.sets_mapLane (s : State) (l : Nat) (f : Lane → Lane) : (s.mapLane l f).sets = s.sets := by
  simp [State.sets]

@[simp] theorem State.sets_mapSlot (s : State) (n f : Nat) (g : SlotSt → SlotSt) (h : ∀ y, (g y).xinit = y.xinit) :
    (s.mapSlot n f g).sets = s.sets := by
  refine congrArg (s.banks, ·) (funext fun k => ?_)
  show (tget SlotSt.init (tput s.slots (2 * n + f) (g (s.slot n f))) k).xinit = _
  rw [tget_tput]
  split
  · next hk => rw [h, hk, State.slot]
  · rfl

@[simp] theorem State.sets_raise (s : State) (src code pay : Nat) : (s.raise src code pay).sets = s.sets := by
  obtain ⟨r, h, e⟩ := s.raise_frame src code pay
  rw [e]
  rfl

@[simp] theorem State.sets_setFlt (n f new : Nat) (s : State) : (s.setFlt n f new).sets = s.sets := by
  simp [State.setFlt, State.slewRefresh, State.startEffects, State.seed]

/-- A shaper channel belongs to the flight that it belonged to while the bindings, the banks and the sets stand (R128). -/
theorem State.shOwner_congr {s t : State} {n : Nat} (hs : t.sets = s.sets)
    (hc : ∀ f < 2, t.rg (Reg.FC_FLT_CFG n f) = s.rg (Reg.FC_FLT_CFG n f))
    (hb : ∀ f < 2, t.rg (Reg.OBS_BANK n f) = s.rg (Reg.OBS_BANK n f)) (ch : Nat) : t.shOwner n ch = s.shOwner n ch := by
  have hbanks : t.banks = s.banks := congrArg Prod.fst hs
  refine List.find?_congr fun f hf => ?_
  have hf := List.mem_range.1 hf
  have hbound : t.bound n f = s.bound n f := State.bit_of_rg (hc f hf) _
  have hx : (t.slot n f).xinit = (s.slot n f).xinit := congrFun (congrArg Prod.snd hs) (2 * n + f)
  have hact : t.actSet n f = s.actSet n f := by
    unfold State.actSet State.bankVal State.actBank State.bank
    rw [State.bit_of_rg (hb f hf), State.fld_of_rg (hb f hf), hbanks]
  have heff : t.effSet n f = s.effSet n f := by
    unfold State.effSet
    rw [hx, hact]
  rw [hbound, heff]

/-- The owner, the target and the output of a shaper channel. -/
def State.chView (n ch : Nat) (s : State) : Option Nat × Word × Word :=
  (s.shOwner n ch, s.rg (Reg.OBS_SHTGT n ch), s.rg (Reg.OBS_SHOUT n ch))

theorem State.chView_wr_shtgt (s : State) (n : Nat) {ch j : Nat} (hj : j < 8) (h : j ≠ ch) (v : Word) :
    (s.wr (Reg.OBS_SHTGT n j) v).chView n ch = s.chView n ch := by
  unfold State.chView
  rw [State.shOwner_congr (s.sets_wr _ _) (fun f hf => s.rg_wr_ne v (by unfold Reg.FC_FLT_CFG Reg.OBS_SHTGT; omega))
      (fun f hf => s.rg_wr_ne v (by unfold Reg.OBS_BANK Reg.OBS_SHTGT; omega)),
    s.rg_wr_ne v (by unfold Reg.OBS_SHTGT; omega), s.rg_wr_ne v (by unfold Reg.OBS_SHTGT Reg.OBS_SHOUT; omega)]

/-- The targets that HOLD sets (R137): every channel of the flight takes the shaper's present output. -/
theorem State.rg_holdTargets_of_owner {s : State} {n f ch : Nat} (hch : ch < 8) (h : s.shOwner n ch = some f) :
    (s.holdTargets n f).rg (Reg.OBS_SHTGT n ch) = s.rg (Reg.OBS_SHOUT n ch) := by
  obtain ⟨u, hu, ht⟩ := forN_view (State.chView n ch)
    (fun ch s => if s.shOwner n ch = some f then s.wr (Reg.OBS_SHTGT n ch) (s.rg (Reg.OBS_SHOUT n ch)) else s) s hch
    fun j hj hne t => by
      split
      · exact t.chView_wr_shtgt n hj hne _
      · rfl
  have hown : u.shOwner n ch = some f := (congrArg Prod.fst hu).trans h
  have hout : u.rg (Reg.OBS_SHOUT n ch) = s.rg (Reg.OBS_SHOUT n ch) := congrArg (·.2.2) hu
  refine (congrArg (·.2.1) ht).trans ?_
  dsimp only [State.chView]
  rw [if_pos hown, State.rg_wr_self, hout]

/-- HOLD writes targets of the shaper alone. -/
theorem State.rg_holdTargets_ne (s : State) (n f : Nat) {a : Nat} (h : ∀ ch < 8, a ≠ Reg.OBS_SHTGT n ch) :
    (s.holdTargets n f).rg a = s.rg a :=
  forN_frame (State.rg · a) 8 _ s fun ch hch t => by
    rw [State.rg_ite, t.rg_wr_ne _ (h ch hch), ite_self]

end Sys2Proof.Machine
end
section
/-! The flight commands (O19): what each does once it is accepted, and at its sample instant. -/

namespace Sys2Proof.Machine

theorem fltStateWrite_takes_effect (s : State) (n : Fin 16) (f : Fin 2) (code : Fin 8) :
    Answers (.fltStateWrite n f code) s fun t =>
    t.mem = s.mem ∧ (5 < code.val → t = s) ∧
    (code.val ≤ 5 → s.cycling n = true → t = { s with slots := t.slots } ∧ t.slot n f = { s.slot n f with held := some code.val }) ∧
    (code.val ≤ 5 → s.cycling n = false → t.fltState n f = code) := by
  refine ⟨_, rfl, State.mem_of_memTs (s.memTs_fltStateWrite n f code), fun h => if_pos h, fun h hc => ?_, fun h hc => ?_⟩
  · rw [State.fltStateWrite, if_neg (by omega), if_pos hc]
    exact ⟨rfl, s.slot_mapSlot_self _ _ _⟩
  · rw [State.fltStateWrite, if_neg (by omega), if_neg (by simp [hc])]
    exact s.fltState_setFlt n.isLt f.isLt code.isLt

/-- A flight command ends as it began to take effect: the state its flight has taken stands, and the reply goes out. -/
theorem State.fltState_finish_nowWait (s : State) (e : Entry) (st status resx : Nat) (res : List Nat) {n : Nat} (f : Nat)
    (hn : n < 16) (hf : f < 2) : (s.finish (nowWait e st) status resx res).fltState n f = s.fltState n f :=
  State.fld_of_rg (State.rg_finish_nowWait s e st status resx res (by unfold Reg.FC_FLT_STAT; omega)) _

/-! ### START_FLIGHT -/

section start

variable {s : State} {e : Entry} {n f : Nat} (hs : s.slotOf (eTarget e) = some (n, f)) (hl : s.startFail n f = none)
  (hst : s.fltState n f = 2) (hr : s.startReady n f = true)
include hs hl hst hr

theorem State.startFlight_of_ready (hz : zeroes e 8 48 = true) : s.startFlight e = s.atSample n e 2 State.startAt := by
  simp [State.startFlight, hz, hs, hl, hst, hr]

theorem State.startAt_of_ready : s.startAt (nowWait e 2) =
    (s.setFlt n f 3).finish (nowWait e 2) stOk ((s.setFlt n f 3).count16 n) [(s.setFlt n f 3).availN n f] := by
  simp [State.startAt, hs, hl, hst, hr]

end start

theorem startFlight_runs (s : State) (e : Entry) (n f : Nat) (ha : Accepted 0x33 e s) (hz : zeroes e 8 48 = true)
    (hs : s.slotOf (eTarget e) = some (n, f)) (hl : s.startFail n f = none) (hst : s.fltState n f = 2)
    (hr : s.startReady n f = true) (hd : (s.port e.port).d3 = false) : Answers (.startFlight e) s fun t =>
      t.mem = s.mem ∧
      (s.cycling n = true → t.keep.waits = s.keep.waits ++ [{ e := e, live := true, silent := false, on := .sample n, st := 2 }]) ∧
      (s.cycling n = false → t.fltState n f = 3 ∧ Replied e 0 [s.availN n f] s t) := by
  obtain ⟨hn, hf, -⟩ := State.slotOf_spec hs
  have hx : exec (.startFlight e) s = .next ((s.popEntry e).atSample n e 2 State.startAt) :=
    congrArg Host.Outcome.next ((State.take_accepted _ _ _ _ ha).trans
      (State.startFlight_of_ready (s := s.popEntry e) hs hl hst hr hz))
  refine answers_atSample hx (State.mem_of_memTs (by simp)) rfl rfl fun _ => ?_
  rw [State.startAt_of_ready (s := s.popEntry e) hs hl hst hr, State.availN_setFlt _ _ hn hf]
  exact ⟨(State.fltState_finish_nowWait _ _ _ _ _ _ _ hn hf).trans (State.fltState_setFlt _ hn hf (by decide)),
    replied_finish (by simp) hd _ _ _ _⟩

/-! ### STOP_FLIGHT -/

section stop

variable {s : State} {e : Entry} {n f : Nat} (hs : s.slotOf (eTarget e) = some (n, f)) (hr : s.runs n f = true)
include hs hr

theorem State.stopFlight_of_running (hz : zeroes e 8 48 = true) :
    s.stopFlight e = s.atSample n e (s.fltState n f) State.stopAt := by
  simp [State.stopFlight, hz, hs, hr]

theorem State.stopAt_of_running {st : Nat} (hst : s.fltState n f = st) : s.stopAt (nowWait e st) =
    (s.setFlt n f (if s.nReq n f ≤ s.availN n f then 2 else 1)).finish (nowWait e st) stOk 0 [] := by
  simp [State.stopAt, State.done, hs, hr, hst]

end stop

theorem stopFlight_stops (s : State) (e : Entry) (n f : Nat) (ha : Accepted 0x34 e s) (hz : zeroes e 8 48 = true)
    (hs : s.slotOf (eTarget e) = some (n, f)) (hr : s.runs n f = true) (hd : (s.port e.port).d3 = false) :
    Answers (.stopFlight e) s fun t =>
      t.mem = s.mem ∧
      (s.cycling n = true →
        t.keep.waits = s.keep.waits ++ [{ e := e, live := true, silent := false, on := .sample n, st := s.fltState n f }]) ∧
      (s.cycling n = false → t.fltState n f = (if s.nReq n f ≤ s.availN n f then 2 else 1) ∧ Replied e 0 [] s t) := by
  obtain ⟨hn, hf, -⟩ := State.slotOf_spec hs
  have hx : exec (.stopFlight e) s = .next ((s.popEntry e).atSample n e (s.fltState n f) State.stopAt) :=
    congrArg Host.Outcome.next ((State.take_accepted _ _ _ _ ha).trans
      (State.stopFlight_of_running (s := s.popEntry e) hs hr hz))
  refine answers_atSample hx (State.mem_of_memTs (by simp)) rfl rfl fun _ => ?_
  have hnew : (if s.nReq n f ≤ s.availN n f then 2 else 1) < 8 := by split <;> decide
  rw [State.stopAt_of_running (s := s.popEntry e) (st := s.fltState n f) hs hr rfl]
  exact ⟨(State.fltState_finish_nowWait _ _ _ _ _ _ _ hn hf).trans (State.fltState_setFlt _ hn hf hnew),
    replied_finish (by simp) hd _ _ _ _⟩

/-! ### HOLD_FLIGHT -/

/-- The state that HOLD_FLIGHT looks for, and the one that it leads to (R76). -/
theorem State.holdFlight_of_state {s : State} {e : Entry} {n f : Nat} (h1 : ent e 8 1 ≤ 1) (hz : zeroes e 9 48 = true)
    (hs : s.slotOf (eTarget e) = some (n, f)) (hst : s.fltState n f = if ent e 8 1 = 1 then 3 else 4) :
    s.holdFlight e = s.atSample n e (s.fltState n f) State.holdAt := by
  have hbad : (decide (1 < ent e 8 1) || !zeroes e 9 48) = false := by simp [hz]; omega
  unfold State.holdFlight
  rw [hbad, hs]
  exact if_pos hst

theorem State.holdAt_on {s : State} {e : Entry} {n f : Nat} (h1 : ent e 8 1 = 1) (hs : s.slotOf (eTarget e) = some (n, f))
    (hst : s.fltState n f = 3) : s.holdAt (nowWait e 3) = ((s.setFlt n f 4).holdTargets n f).finish (nowWait e 3) stOk 0 [] := by
  simp [State.holdAt, State.done, hs, hst, h1]

theorem State.holdAt_off {s : State} {e : Entry} {n f : Nat} (h1 : ent e 8 1 = 0) (hs : s.slotOf (eTarget e) = some (n, f))
    (hst : s.fltState n f = 4) : s.holdAt (nowWait e 4) = (s.setFlt n f 3).finish (nowWait e 4) stOk 0 [] := by
  simp [State.holdAt, State.done, hs, hst, h1]

/-- A flight that takes a state leaves the owners of the shaper's channels, and their outputs. -/
theorem State.chView_setFlt (s : State) {n f : Nat} (new : Nat) {ch : Nat} (hn : n < 16) (hf : f < 2) (hch : ch < 8) :
    (s.setFlt n f new).chView n ch = s.chView n ch := by
  unfold State.chView
  rw [State.shOwner_congr (s.sets_setFlt n f new)
      (fun g hg => s.rg_setFlt_below n new hf (by unfold Reg.FC_FLT_CFG; omega) (by unfold Reg.FC_FLT_CFG; omega))
      (fun g hg => s.rg_setFlt_below n new hf (by unfold Reg.OBS_BANK; omega) (by unfold Reg.OBS_BANK; omega)),
    s.rg_setFlt_below n new hf (by unfold Reg.OBS_SHTGT; omega) (by unfold Reg.OBS_SHTGT; omega),
    s.rg_setFlt_below n new hf (by unfold Reg.OBS_SHOUT; omega) (by unfold Reg.OBS_SHOUT; omega)]

theorem State.fltState_holdTargets (s : State) (n : Nat) {f : Nat} (hf : f < 2) :
    (s.holdTargets n f).fltState n f = s.fltState n f :=
  State.fld_of_rg (s.rg_holdTargets_ne n f fun ch _ => by unfold Reg.FC_FLT_STAT Reg.OBS_SHTGT; omega) _

theorem holdFlight_holds (s : State) (e : Entry) (n f : Nat) (ha : Accepted 0x35 e s) (h1 : ent e 8 1 ≤ 1)
    (hz : zeroes e 9 48 = true) (hs : s.slotOf (eTarget e) = some (n, f))
    (hst : s.fltState n f = (if ent e 8 1 = 1 then 3 else 4)) (hd : (s.port e.port).d3 = false) :
    Answers (.holdFlight e) s fun t =>
      t.mem = s.mem ∧
      (s.cycling n = true →
        t.keep.waits = s.keep.waits ++ [{ e := e, live := true, silent := false, on := .sample n, st := s.fltState n f }]) ∧
      (s.cycling n = false → t.fltState n f = (if ent e 8 1 = 1 then 4 else 3) ∧ Replied e 0 [] s t ∧
        (ent e 8 1 = 1 → ∀ ch : Fin 8, s.shOwner n ch = some f → t.rg (Reg.OBS_SHTGT n ch) = s.rg (Reg.OBS_SHOUT n ch))) := by
  obtain ⟨hn, hf, -⟩ := State.slotOf_spec hs
  have hx : exec (.holdFlight e) s = .next ((s.popEntry e).atSample n e (s.fltState n f) State.holdAt) :=
    congrArg Host.Outcome.next ((State.take_accepted _ _ _ _ ha).trans
      (State.holdFlight_of_state (s := s.popEntry e) h1 hz hs hst))
  refine answers_atSample hx (State.mem_of_memTs (by simp)) rfl rfl fun _ => ?_
  obtain hoff | hon : ent e 8 1 = 0 ∨ ent e 8 1 = 1 := by omega
  · rw [if_neg (by omega)] at hst ⊢
    rw [hst, State.holdAt_off (s := s.popEntry e) hoff hs hst]
    exact ⟨(State.fltState_finish_nowWait _ _ _ _ _ _ _ hn hf).trans (State.fltState_setFlt _ hn hf (by decide)),
      replied_finish (by simp) hd _ _ _ _, fun h => absurd h (by omega)⟩
  · rw [if_pos hon] at hst ⊢
    rw [hst, State.holdAt_on (s := s.popEntry e) hon hs hst]
    refine ⟨(State.fltState_finish_nowWait _ _ _ _ _ _ _ hn hf).trans
      ((State.fltState_holdTargets _ n hf).trans (State.fltState_setFlt _ hn hf (by decide))),
      replied_finish (by simp) hd _ _ _ _, fun _ ch hown => ?_⟩
    have hview := (s.popEntry e).chView_setFlt 4 hn hf ch.isLt
    rw [State.rg_finish_nowWait _ _ _ _ _ _ (by unfold Reg.OBS_SHTGT; omega),
      State.rg_holdTargets_of_owner ch.isLt ((congrArg Prod.fst hview).trans hown)]
    exact congrArg (·.2.2) hview

/-! ### SET_REFERENCE -/

/-- The masked targets of a SET_REFERENCE (R370). -/
def State.putTargets (n : Nat) (e : Entry) (s : State) : State :=
  forN 8 (fun ch s => if nbit (ent e 8 1) ch then
    s.wr (Reg.OBS_SHTGT n ch) (BitVec.ofNat 32 (ent e (12 + 4 * ch) 4)) else s) s

theorem State.rg_putTargets (s : State) (n : Nat) (e : Entry) {ch : Nat} (hch : ch < 8) :
    (s.putTargets n e).rg (Reg.OBS_SHTGT n ch) =
      if nbit (ent e 8 1) ch then BitVec.ofNat 32 (ent e (12 + 4 * ch) 4) else s.rg (Reg.OBS_SHTGT n ch) := by
  obtain ⟨u, hu, ht⟩ := forN_view (State.rg · (Reg.OBS_SHTGT n ch)) (fun ch s => if nbit (ent e 8 1) ch then
    s.wr (Reg.OBS_SHTGT n ch) (BitVec.ofNat 32 (ent e (12 + 4 * ch) 4)) else s) s hch fun j _ hne t => by
      rw [State.rg_ite, t.rg_wr_ne _ (by unfold Reg.OBS_SHTGT; omega), ite_self]
  refine ht.trans ?_
  rw [State.rg_ite, State.rg_wr_self, hu]

theorem State.rg_putTargets_ne (s : State) (n : Nat) (e : Entry) {a : Nat} (h : ∀ ch < 8, a ≠ Reg.OBS_SHTGT n ch) :
    (s.putTargets n e).rg a = s.rg a :=
  forN_frame (State.rg · a) 8 _ s fun ch hch t => by rw [State.rg_ite, t.rg_wr_ne _ (h ch hch), ite_self]

@[simp] theorem State.hosts_putTargets (n : Nat) (e : Entry) (s : State) : (s.putTargets n e).hosts = s.hosts := by
  simp [State.putTargets]

/-- The targets are no register of the cycle, so the count stays. -/
theorem State.count16_putTargets (s : State) (n : Nat) (e : Entry) : (s.putTargets n e).count16 n = s.count16 n := by
  have hstat : (s.putTargets n e).rg (Reg.FC_CYC_STAT n) = s.rg (Reg.FC_CYC_STAT n) :=
    s.rg_putTargets_ne n e fun ch _ => by unfold Reg.FC_CYC_STAT Reg.OBS_SHTGT; omega
  have hlead : (s.putTargets n e).leader n = s.leader n := by
    unfold State.leader
    rw [State.bit_of_rg hstat, State.fld_of_rg hstat]
  unfold State.count16 State.count
  rw [hlead, s.rg_putTargets_ne n e fun ch _ => by unfold Reg.FC_CYC_COUNT Reg.OBS_SHTGT; omega]

section reference

variable {s : State} {e : Entry} {n f : Nat} (hs : s.slotOf (eTarget e) = some (n, f)) (h4 : s.fltState n f ≠ 4)
include hs h4

theorem State.setReference_of_owned (hm : ent e 8 1 ≠ 0) (hz : zeroes e 9 12 = true) (hz' : zeroes e 44 48 = true)
    (hown : ∀ ch : Fin 8, nbit (ent e 8 1) ch = true → s.shOwner n ch = some f) (h0 : s.fltState n f ≠ 0)
    (href : s.fld (Reg.FC_FLT_CFG n f) F.FC_FLT_CFG_REF_SRC = 0) :
    s.setReference e = s.atSample n e (s.fltState n f) State.setRefAt := by
  have hany : ((List.range 8).any fun ch => nbit (ent e 8 1) ch && s.shOwner n ch != some f) = false := by
    rw [List.any_eq_false]
    intro ch hch
    have := hown ⟨ch, List.mem_range.1 hch⟩
    cases hb : nbit (ent e 8 1) ch <;> simp_all
  simp [State.setReference, hm, hz, hz', hs, hany, h4, h0, href]

theorem State.setRefAt_of_state {st : Nat} (hst : s.fltState n f = st) : s.setRefAt (nowWait e st) =
    (s.putTargets n e).finish (nowWait e st) stOk 0 [(s.putTargets n e).count16 n] := by
  unfold State.setRefAt
  rw [e_nowWait, hs]
  exact if_neg (by simp [hst, hst ▸ h4])

end reference

theorem setReference_sets_targets (s : State) (e : Entry) (n f : Nat) (ha : Accepted 0x32 e s) (hm : ent e 8 1 ≠ 0)
    (hz : zeroes e 9 12 = true) (hz' : zeroes e 44 48 = true) (hs : s.slotOf (eTarget e) = some (n, f))
    (hown : ∀ ch : Fin 8, nbit (ent e 8 1) ch = true → s.shOwner n ch = some f)
    (h4 : s.fltState n f ≠ 4) (h0 : s.fltState n f ≠ 0) (href : s.fld (Reg.FC_FLT_CFG n f) F.FC_FLT_CFG_REF_SRC = 0)
    (hd : (s.port e.port).d3 = false) : Answers (.setReference e) s fun t =>
      t.mem = s.mem ∧
      (s.cycling n = true →
        t.keep.waits = s.keep.waits ++ [{ e := e, live := true, silent := false, on := .sample n, st := s.fltState n f }]) ∧
      (s.cycling n = false → Replied e 0 [s.count16 n] s t ∧ ∀ ch : Fin 8,
        t.rg (Reg.OBS_SHTGT n ch) =
          if nbit (ent e 8 1) ch then BitVec.ofNat 32 (ent e (12 + 4 * ch) 4) else s.rg (Reg.OBS_SHTGT n ch)) := by
  obtain ⟨hn, hf, -⟩ := State.slotOf_spec hs
  have hx : exec (.setReference e) s = .next ((s.popEntry e).atSample n e (s.fltState n f) State.setRefAt) :=
    congrArg Host.Outcome.next ((State.take_accepted _ _ _ _ ha).trans
      (State.setReference_of_owned (s := s.popEntry e) hs h4 hm hz hz' hown h0 href))
  refine answers_atSample hx (State.mem_of_memTs (by simp)) rfl rfl fun _ => ?_
  rw [State.setRefAt_of_state (s := s.popEntry e) (st := s.fltState n f) hs h4 rfl, State.count16_putTargets]
  exact ⟨replied_finish (by simp) hd _ _ _ _, fun ch =>
    (State.rg_finish_nowWait _ _ _ _ _ _ (by unfold Reg.OBS_SHTGT; omega)).trans
      ((s.popEntry e).rg_putTargets n e ch.isLt)⟩

/-! ### REBASE_LEDGER -/

theorem State.rebaseLedger_of_running {s : State} {e : Entry} {n f : Nat} (hz : zeroes e 16 48 = true)
    (hs : s.slotOf (eTarget e) = some (n, f)) (hr : s.runs n f = true) :
    s.rebaseLedger e = s.await e (.rebase n) (s.fltState n f) := by
  simp [State.rebaseLedger, hz, hs, hr]

theorem rebaseLedger_waits (s : State) (e : Entry) (n f : Nat) (ha : Accepted 0x92 e s) (hz : zeroes e 16 48 = true)
    (hs : s.slotOf (eTarget e) = some (n, f)) (hr : s.runs n f = true) : Answers (.rebaseLedger e) s fun t =>
      t.mem = s.mem ∧ t.regs = s.regs ∧
      t.keep.waits = s.keep.waits ++ [{ e := e, live := true, silent := false, on := .rebase n, st := s.fltState n f }] :=
  ⟨_, congrArg Host.Outcome.next ((State.take_accepted _ _ _ _ ha).trans
    (State.rebaseLedger_of_running (s := s.popEntry e) hz hs hr)), rfl, rfl, rfl⟩

end Sys2Proof.Machine

open Sys2Proof.Machine

/-- Settles O19, clause by clause. -/
theorem flightStateCommandsRun : Obligations.FlightStateCommandsRun :=
  ⟨fltStateWrite_takes_effect, startFlight_runs, stopFlight_stops, holdFlight_holds, setReference_sets_targets,
    rebaseLedger_waits⟩

end
section
/-! Cell maps, cell parameters, bypasses and coefficient sets (O21). -/

namespace Sys2Proof.Machine

theorem leAt_lt (l : List Byte) (o n : Nat) : leAt l o n < 256 ^ n :=
  (leNat_lt _).trans_le (Nat.pow_le_pow_right (by decide) (List.length_take_le _ _))

section sameCycleRegs

variable {s t : State} (h : SameCycleRegs s t)
include h

theorem SameCycleRegs.cycling (n : Nat) : t.cycling n = s.cycling n := by
  unfold State.cycling
  rw [h.leader, State.bit_of_rg (h _ (by unfold Reg.FC_CYC_STAT; omega))]

theorem SameCycleRegs.fltState {n f : Nat} (hf : f < 2) : t.fltState n f = s.fltState n f :=
  State.fld_of_rg (h _ (by unfold Reg.FC_FLT_STAT; omega)) _

theorem SameCycleRegs.leads {n f : Nat} (hf : f < 2) : t.leads n f = s.leads n f := by
  unfold State.leads State.bound
  rw [h.leader, State.bit_of_rg (h _ (by unfold Reg.FC_FLT_CFG; omega))]

theorem SameCycleRegs.slotOf (flight : Nat) : t.slotOf flight = s.slotOf flight := by
  have hslots : t.boundSlots = s.boundSlots :=
    List.filterMap_congr fun k _ => by rw [h.leads (Nat.mod_lt k (by decide))]
  unfold State.slotOf
  rw [hslots]
  refine List.find?_congr fun p hp => ?_
  obtain ⟨-, hf, -⟩ := State.mem_boundSlots (n := p.1) (f := p.2) hp
  rw [State.flightOf, State.fld_of_rg (h _ (by unfold Reg.FC_FLT_CFG; omega))]
  rfl

end sameCycleRegs

/-! ### SET_CELL_MAP -/

/-- One lane of a cell map (R66, R393): its descriptor, a fresh wear record, and the note that the descriptor is new. -/
def State.putCell (l : Nat) (d : List Byte) (s : State) : State :=
  ((s.putDesc l d).clearWear l).mapLane l fun x => { x with descNew := true }

theorem State.rg_clearWear (s : State) (l : Nat) {a : Nat} (h : a % 0x100000 < 0xC400) : (s.clearWear l).rg a = s.rg a := by
  have hw : ∀ k < 16, a ≠ Reg.WEAR_REC (l / 64) (l % 64) k := fun k hk => by unfold Reg.WEAR_REC; omega
  unfold State.clearWear
  generalize ht : forN 15 _ s = t
  have hrec : t.rg a = s.rg a :=
    ht ▸ forN_frame (State.rg · a) 15 _ s fun w hlt u => u.rg_wr_ne _ (hw (w + 1) (by omega))
  exact (State.rg_wr_ne t _ (hw 0 (by decide))).trans hrec

theorem State.rg_putDesc_self (s : State) (l : Nat) (d : List Byte) {w : Nat} (hw : w < 8) :
    (s.putDesc l d).rg (Reg.FC_CDESC (l / 64) (l % 64) w) = BitVec.ofNat 32 (leAt d (4 * w) 4) := by
  obtain ⟨u, -, ht⟩ := forN_view (State.rg · (Reg.FC_CDESC (l / 64) (l % 64) w))
    (fun w s => s.wr (Reg.FC_CDESC (l / 64) (l % 64) w) (BitVec.ofNat 32 (leAt d (4 * w) 4))) s hw
    fun j _ hne t => t.rg_wr_ne _ (by unfold Reg.FC_CDESC; omega)
  exact ht.trans (u.rg_wr_self _ _)

theorem State.rg_putCell_self (s : State) (l : Nat) (d : List Byte) {w : Nat} (hw : w < 8) :
    (s.putCell l d).rg (Reg.FC_CDESC (l / 64) (l % 64) w) = BitVec.ofNat 32 (leAt d (4 * w) 4) := by
  rw [State.putCell, State.rg_mapLane, State.rg_clearWear _ l (by unfold Reg.FC_CDESC; omega), s.rg_putDesc_self l d hw]

/-- The descriptors of two links are apart. -/
theorem State.rg_putCell_ne (s : State) {l k : Nat} (d : List Byte) {w : Nat} (hw : w < 8) (h : k ≠ l) :
    (s.putCell l d).rg (Reg.FC_CDESC (k / 64) (k % 64) w) = s.rg (Reg.FC_CDESC (k / 64) (k % 64) w) := by
  have hdesc : (s.putDesc l d).rg (Reg.FC_CDESC (k / 64) (k % 64) w) = s.rg (Reg.FC_CDESC (k / 64) (k % 64) w) :=
    forN_frame (State.rg · (Reg.FC_CDESC (k / 64) (k % 64) w)) 8 _ s fun j hj t => t.rg_wr_ne _ (by unfold Reg.FC_CDESC; omega)
  rw [State.putCell, State.rg_mapLane, State.rg_clearWear _ l (by unfold Reg.FC_CDESC; omega), hdesc]

@[simp] theorem State.hosts_putCell (l : Nat) (d : List Byte) (s : State) : (s.putCell l d).hosts = s.hosts := by
  simp [State.putCell]

/-- Descriptor `i` in the buffer of a SET_CELL_MAP. -/
def bufDesc (b : List Byte) (i : Nat) : List Byte := (b.drop (32 * i)).take 32

/-- A legal cell map for unclaimed lanes, none of them above a locked VCAP_OV. -/
theorem State.setCellMap_of_legal {s : State} {e : Entry} {b : List Byte} (h1 : 1 ≤ ent e 8 2)
    (hle : eTarget e + ent e 8 2 ≤ 1024) (hlen : eBufLen e = 32 * ent e 8 2) (hb : e.buf = some b) (hz : zeroes e 10 48 = true)
    (hd : ∀ i, i < ent e 8 2 → descOk (bufDesc b i) = true ∧ s.linkSlot (eTarget e + i) = none ∧
      (s.fcLocked ((eTarget e + i) / 64) = true → leAt (bufDesc b i) 20 2 ≤ s.vcapOv (eTarget e + i))) :
    s.setCellMap e =
      (forN (ent e 8 2) (fun i s => s.putCell (eTarget e + i) (bufDesc b i)) s).reply e stOk := by
  have hform : ((List.range (ent e 8 2)).all fun i => descOk (bufDesc b i)) = true :=
    List.all_eq_true.2 fun i hi => (hd i (List.mem_range.1 hi)).1
  have hfree : ((List.range (ent e 8 2)).any fun i => (s.linkSlot (eTarget e + i)).isSome) = false :=
    List.any_eq_false.2 fun i hi => by simp [(hd i (List.mem_range.1 hi)).2.1]
  have hlock : ((List.range (ent e 8 2)).any fun i => s.fcLocked ((eTarget e + i) / 64) &&
      decide (s.vcapOv (eTarget e + i) < leAt (bufDesc b i) 20 2)) = false :=
    List.any_eq_false.2 fun i hi => by
      have := (hd i (List.mem_range.1 hi)).2.2
      cases hl : s.fcLocked ((eTarget e + i) / 64) <;> simp_all
  unfold State.setCellMap State.withBuf
  dsimp only
  rw [if_neg (by simp [hlen]), hb]
  unfold bufDesc at hform hlock
  dsimp only
  rw [hform, hfree, hlock, if_neg (by simp [hz]; omega), if_neg (by decide), if_neg (by decide)]
  rfl

theorem setCellMap_stands (s : State) (e : Entry) (b : List Byte) (ha : Accepted 0x12 e s) (h1 : 1 ≤ ent e 8 2)
    (hle : eTarget e + ent e 8 2 ≤ 1024) (hlen : eBufLen e = 32 * ent e 8 2) (hb : e.buf = some b) (hz : zeroes e 10 48 = true)
    (hd : ∀ i, i < ent e 8 2 → descOk (bufDesc b i) = true ∧ s.linkSlot (eTarget e + i) = none ∧
      (s.fcLocked ((eTarget e + i) / 64) = true → leAt (bufDesc b i) 20 2 ≤ s.vcapOv (eTarget e + i)))
    (hd3 : (s.port e.port).d3 = false) : Answers (.setCellMap e) s fun t =>
      t.mem = s.mem ∧ Replied e 0 [] s t ∧ ∀ i, i < ent e 8 2 → ∀ w : Fin 8,
        t.rg (Reg.FC_CDESC ((eTarget e + i) / 64) ((eTarget e + i) % 64) w) =
          BitVec.ofNat 32 (leAt (bufDesc b i) (4 * w) 4) := by
  have hx : exec (.setCellMap e) s = .next _ := congrArg Host.Outcome.next ((State.take_accepted _ _ _ _ ha).trans
    (State.setCellMap_of_legal (s := s.popEntry e) h1 hle hlen hb hz hd))
  refine ⟨_, hx, State.mem_of_memTs (by simp [State.putCell]), replied_replyTo (by simp) hd3 _ _ _ _, fun i hi w => ?_⟩
  obtain ⟨u, -, ht⟩ := forN_view (State.rg · (Reg.FC_CDESC ((eTarget e + i) / 64) ((eTarget e + i) % 64) w))
    (fun i s => s.putCell (eTarget e + i) (bufDesc b i)) (s.popEntry e) hi
    fun j _ hne t => t.rg_putCell_ne _ w.isLt (by omega)
  exact (State.rg_replyTo _ _ _ _ _ _ _ (by unfold Reg.FC_CDESC; omega)).trans (ht.trans (u.rg_putCell_self _ _ w.isLt))

/-! ### SET_CELL_PARAMS -/

theorem State.rg_ctlPut (s : State) (a b : Nat) (v : Word) : (s.ctlPut a v).rg b = (s.wr a v).rg b := by
  unfold State.ctlPut
  dsimp only
  split
  · rw [State.rg_ite, State.rg_mapLane, ite_self]
  · rfl

/-- The fields that FLAGS names take their new values (R67). -/
def State.takeParams (e : Entry) (s : State) : State :=
  let l := eTarget e
  let fl := ent e 8 1
  let a := fun k => Reg.FC_CDESC (l / 64) (l % 64) k
  let s := if nbit fl 0 then s.sf (a 0) ⟨24, 8⟩ (ent e 9 1) else s
  let s := if nbit fl 1 then s.ctlPut (a 4) (BitVec.ofNat 32 (ent e 12 4)) else s
  if nbit fl 2 then s.sf (a 5) ⟨0, 16⟩ (ent e 16 2) else s

section takeParams

variable (s : State) (e : Entry)

theorem cdescWord_ne (l : Nat) {j k : Nat} (h : j ≠ k) : Reg.FC_CDESC (l / 64) (l % 64) j ≠ Reg.FC_CDESC (l / 64) (l % 64) k := by
  unfold Reg.FC_CDESC
  omega

/-- Of word 0, WEAR_CLASS alone is written. -/
theorem State.rg_takeParams_word0 : (s.takeParams e).rg (Reg.FC_CDESC (eTarget e / 64) (eTarget e % 64) 0) =
    if nbit (ent e 8 1) 0 then fput (s.rg (Reg.FC_CDESC (eTarget e / 64) (eTarget e % 64) 0)) ⟨24, 8⟩ (ent e 9 1)
    else s.rg (Reg.FC_CDESC (eTarget e / 64) (eTarget e % 64) 0) := by
  have h4 := cdescWord_ne (eTarget e) (show 0 ≠ 4 by decide)
  have h5 := cdescWord_ne (eTarget e) (show 0 ≠ 5 by decide)
  simp [State.takeParams, State.rg_ctlPut, State.rg_wr_ne _ _ h4, State.rg_sf_ne _ _ _ h5]

theorem State.rg_takeParams_word4 : (s.takeParams e).rg (Reg.FC_CDESC (eTarget e / 64) (eTarget e % 64) 4) =
    if nbit (ent e 8 1) 1 then BitVec.ofNat 32 (ent e 12 4) else s.rg (Reg.FC_CDESC (eTarget e / 64) (eTarget e % 64) 4) := by
  have h0 := cdescWord_ne (eTarget e) (show 4 ≠ 0 by decide)
  have h5 := cdescWord_ne (eTarget e) (show 4 ≠ 5 by decide)
  simp [State.takeParams, State.rg_ctlPut, State.rg_sf_ne _ _ _ h0, State.rg_sf_ne _ _ _ h5]

theorem State.rg_takeParams_word5 : (s.takeParams e).rg (Reg.FC_CDESC (eTarget e / 64) (eTarget e % 64) 5) =
    if nbit (ent e 8 1) 2 then fput (s.rg (Reg.FC_CDESC (eTarget e / 64) (eTarget e % 64) 5)) ⟨0, 16⟩ (ent e 16 2)
    else s.rg (Reg.FC_CDESC (eTarget e / 64) (eTarget e % 64) 5) := by
  have h0 := cdescWord_ne (eTarget e) (show 5 ≠ 0 by decide)
  have h4 := cdescWord_ne (eTarget e) (show 5 ≠ 4 by decide)
  simp [State.takeParams, State.rg_ctlPut, State.rg_wr_ne _ _ h4, State.rg_sf_ne _ _ _ h0]

@[simp] theorem State.hosts_takeParams : (s.takeParams e).hosts = s.hosts := by
  simp [State.takeParams]

end takeParams

theorem envelope_of_accepted {op : Nat} {e : Entry} {s : State} {i : OpInfo} (h : Accepted op e s) (hi : opInfo op = some i) :
    envelopeOk e i = true := by
  have hc := h.check
  unfold State.precheck at hc
  rw [h.op, hi] at hc
  dsimp only at hc
  repeat' split at hc
  all_goals simp_all

/-- The target of an accepted entry is one that its opcode has (R357). -/
theorem target_lt_of_accepted {op : Nat} {e : Entry} {s : State} {i : OpInfo} (h : Accepted op e s) (hi : opInfo op = some i)
    (hop : op ≠ 0x05) : eTarget e < i.targets := by
  have henv := envelope_of_accepted h hi
  rw [envelopeOk, h.op, if_neg hop, Bool.and_eq_true, decide_eq_true_eq] at henv
  exact henv.2

section params

variable {s : State} {e : Entry}
  (hlock : nbit (ent e 8 1) 2 = false ∨ s.fcLocked (eTarget e / 64) = false ∨ ent e 16 2 ≤ s.vcapOv (eTarget e))
include hlock

/-- A locked VCAP_OV refuses no parameters that leave it or lower it (R67). -/
theorem vcapOv_not_refused :
    ¬ (nbit (ent e 8 1) 2 && s.fcLocked (eTarget e / 64) && decide (s.vcapOv (eTarget e) < ent e 16 2)) = true := by
  obtain h | h | h := hlock <;> simp [h]

theorem State.setCellParams_of_legal (h1 : 1 ≤ ent e 8 1) (h7 : ent e 8 1 ≤ 7) (hty : s.cellType (eTarget e) ≠ 0)
    (hwc : ent e 9 1 ≤ (if nbit (ent e 8 1) 0 then 7 else 0)) (hcq : nbit (ent e 8 1) 1 = true ∨ ent e 12 4 = 0)
    (hov : nbit (ent e 8 1) 2 = true ∨ ent e 16 2 = 0) (hz : zeroes e 10 12 = true) (hz' : zeroes e 18 48 = true) :
    s.setCellParams e = s.atSample (s.leader (eTarget e / 64)) e 0 State.cellParamsAt := by
  have hwear : (nbit (ent e 8 1) 0 && decide (7 < ent e 9 1) || !nbit (ent e 8 1) 0 && ent e 9 1 != 0) = false := by
    cases h : nbit (ent e 8 1) 0 <;> simp [h] at hwc ⊢ <;> omega
  have hcap : (!nbit (ent e 8 1) 1 && ent e 12 4 != 0) = false := by obtain h | h := hcq <;> simp [h]
  have hlim : (!nbit (ent e 8 1) 2 && ent e 16 2 != 0) = false := by obtain h | h := hov <;> simp [h]
  obtain ⟨hw, hw'⟩ := Bool.or_eq_false_iff.1 hwear
  unfold State.setCellParams
  dsimp only
  rw [if_neg (by rw [hw, hw', hcap, hlim, hz, hz']; simp; omega), if_neg (vcapOv_not_refused hlock)]

theorem State.cellParamsAt_of_legal : s.cellParamsAt (nowWait e 0) = (s.takeParams e).finish (nowWait e 0) stOk 0 [] :=
  if_neg (vcapOv_not_refused hlock)

end params

theorem setCellParams_stand (s : State) (e : Entry) (ha : Accepted 0x13 e s) (h1 : 1 ≤ ent e 8 1) (h7 : ent e 8 1 ≤ 7)
    (hty : s.cellType (eTarget e) ≠ 0) (hwc : ent e 9 1 ≤ (if nbit (ent e 8 1) 0 then 7 else 0))
    (hcq : nbit (ent e 8 1) 1 = true ∨ ent e 12 4 = 0) (hov : nbit (ent e 8 1) 2 = true ∨ ent e 16 2 = 0)
    (hz : zeroes e 10 12 = true) (hz' : zeroes e 18 48 = true)
    (hlock : nbit (ent e 8 1) 2 = false ∨ s.fcLocked (eTarget e / 64) = false ∨ ent e 16 2 ≤ s.vcapOv (eTarget e))
    (hd : (s.port e.port).d3 = false) : Answers (.setCellParams e) s fun t =>
      t.mem = s.mem ∧
      (s.cycling (s.leader (eTarget e / 64)) = true → t.regs = s.regs ∧ t.keep.waits =
        s.keep.waits ++ [{ e := e, live := true, silent := false, on := .sample (s.leader (eTarget e / 64)), st := 0 }]) ∧
      (s.cycling (s.leader (eTarget e / 64)) = false → Replied e 0 [] s t ∧ t.cellType (eTarget e) = s.cellType (eTarget e) ∧
        nbits (t.cdesc (eTarget e) 0) 24 8 =
          (if nbit (ent e 8 1) 0 then ent e 9 1 else nbits (s.cdesc (eTarget e) 0) 24 8) ∧
        t.capQ (eTarget e) = (if nbit (ent e 8 1) 1 then ent e 12 4 else s.capQ (eTarget e)) ∧
        t.vcapOv (eTarget e) = if nbit (ent e 8 1) 2 then ent e 16 2 else s.vcapOv (eTarget e)) := by
  have hx : exec (.setCellParams e) s =
      .next ((s.popEntry e).atSample (s.leader (eTarget e / 64)) e 0 State.cellParamsAt) :=
    congrArg Host.Outcome.next ((State.take_accepted _ _ _ _ ha).trans
      (State.setCellParams_of_legal (s := s.popEntry e) hlock h1 h7 hty hwc hcq hov hz hz'))
  refine answers_atSample hx (State.mem_of_memTs (by simp)) rfl ⟨rfl, rfl⟩ fun _ => ?_
  rw [State.cellParamsAt_of_legal (s := s.popEntry e) hlock]
  have hl : eTarget e < 1024 := target_lt_of_accepted ha rfl (by decide)
  have hrg : ∀ k < 8, (((s.popEntry e).takeParams e).finish (nowWait e 0) stOk 0 []).rg
      (Reg.FC_CDESC (eTarget e / 64) (eTarget e % 64) k) =
        ((s.popEntry e).takeParams e).rg (Reg.FC_CDESC (eTarget e / 64) (eTarget e % 64) k) :=
    fun k hk => State.rg_finish_nowWait _ _ _ _ _ _ (by unfold Reg.FC_CDESC; omega)
  have h0 := (hrg 0 (by decide)).trans ((s.popEntry e).rg_takeParams_word0 e)
  have h4 := (hrg 4 (by decide)).trans ((s.popEntry e).rg_takeParams_word4 e)
  have h5 := (hrg 5 (by decide)).trans ((s.popEntry e).rg_takeParams_word5 e)
  refine ⟨replied_finish (by simp) hd _ _ _ _, (congrArg (fget · ⟨8, 8⟩) h0).trans ?_,
    (congrArg (fget · ⟨24, 8⟩) h0).trans ?_, (congrArg BitVec.toNat h4).trans ?_, (congrArg (fget · ⟨0, 16⟩) h5).trans ?_⟩
  · split
    · exact fget_fput_disjoint _ _ _ _ (by decide)
    · rfl
  · split
    · next hb =>
      rw [if_pos hb] at hwc
      exact (fget_fput_self _ _ _ (by decide)).trans (Nat.mod_eq_of_lt (show ent e 9 1 < 256 by omega))
    · rfl
  · split
    · exact Nat.mod_eq_of_lt (leAt_lt _ _ 4)
    · rfl
  · split
    · exact (fget_fput_self _ _ _ (by decide)).trans (Nat.mod_eq_of_lt (leAt_lt _ _ 2))
    · rfl

/-! ### BYPASS_CELL -/

/-- A bypass is ordered once, and dated (R75). -/
def Lane.orderBypass (tick : Nat) (x : Lane) : Lane :=
  if x.bypass then x else { x with bypass := true, bypassTick := tick }

theorem State.bypassCell_of_bound {s : State} {e : Entry} {n f : Nat} (hz : zeroes e 8 48 = true)
    (hty : s.cellType (eTarget e) = 1 ∨ s.cellType (eTarget e) = 2)
    (hdecl : s.decl8 (eTarget e) 0 = 0 ∨ nbit (s.decl8 (eTarget e) 28) 1 = true) (hf : s.linkFlight (eTarget e) = some (n, f))
    (h0 : s.fltState n f ≠ 0) (hup : s.laneUp (eTarget e) = true) :
    s.bypassCell e = (s.mapLane (eTarget e) (Lane.orderBypass s.tick)).await e (.bypass (eTarget e)) 0 := by
  have hcell : (!(s.cellType (eTarget e) == 1 || s.cellType (eTarget e) == 2)) = false := by
    obtain h | h := hty <;> simp [h]
  have hbyp : (s.decl8 (eTarget e) 0 != 0 && !nbit (s.decl8 (eTarget e) 28) 1) = false := by
    obtain h | h := hdecl <;> simp [h]
  unfold State.bypassCell
  dsimp only
  rw [hz, hcell, hbyp, hf, hup, if_neg (by decide)]
  dsimp only
  rw [if_neg (by simp [h0])]
  rfl

theorem bypassCell_orders (s : State) (e : Entry) (n f : Nat) (ha : Accepted 0x14 e s) (hz : zeroes e 8 48 = true)
    (hty : s.cellType (eTarget e) = 1 ∨ s.cellType (eTarget e) = 2)
    (hdecl : s.decl8 (eTarget e) 0 = 0 ∨ nbit (s.decl8 (eTarget e) 28) 1 = true) (hf : s.linkFlight (eTarget e) = some (n, f))
    (h0 : s.fltState n f ≠ 0) (hup : s.laneUp (eTarget e) = true) : Answers (.bypassCell e) s fun t =>
      t.mem = s.mem ∧ t.regs = s.regs ∧
      t.lane (eTarget e) = (if (s.lane (eTarget e)).bypass then s.lane (eTarget e)
        else { s.lane (eTarget e) with bypass := true, bypassTick := s.tick }) ∧
      t.keep.waits = s.keep.waits ++ [{ e := e, live := true, silent := false, on := .bypass (eTarget e), st := 0 }] := by
  refine ⟨_, congrArg Host.Outcome.next ((State.take_accepted _ _ _ _ ha).trans
    (State.bypassCell_of_bound (s := s.popEntry e) hz hty hdecl hf h0 hup)), rfl, rfl, ?_, rfl⟩
  exact (s.popEntry e).lane_mapLane_self (eTarget e) (Lane.orderBypass s.tick)

/-! ### LOAD_OBSERVER -/

/-- The registers that describe the active set are WHOLE of OBS_BANK, and OBS_SETID. -/
theorem State.rg_showSet_ne (s : State) {n f a : Nat} (hb : a ≠ Reg.OBS_BANK n f) (hi : a ≠ Reg.OBS_SETID n f) :
    (s.showSet n f).rg a = s.rg a := by
  unfold State.showSet
  split
  · rw [State.rg_wr_ne _ _ hi, State.rg_sb_ne _ _ _ hb]
  · rw [State.rg_wr_ne _ _ hi, State.rg_sf_ne _ _ _ hb]

theorem State.fld_showSet (s : State) (n f : Nat) {g : Fld} (hg : g.lo + g.w ≤ 4 ∨ 5 ≤ g.lo) :
    (s.showSet n f).fld (Reg.OBS_BANK n f) g = s.fld (Reg.OBS_BANK n f) g := by
  have hi : Reg.OBS_BANK n f ≠ Reg.OBS_SETID n f := by unfold Reg.OBS_BANK Reg.OBS_SETID; omega
  have hw : ∀ x, (s.sf (Reg.OBS_BANK n f) F.OBS_BANK_WHOLE x).fld (Reg.OBS_BANK n f) g = s.fld (Reg.OBS_BANK n f) g :=
    fun x => s.fld_sf_disjoint _ _ _ _ hg.symm
  unfold State.showSet
  split
  · rw [State.fld_wr_ne _ _ _ hi]
    exact hw _
  · rw [State.fld_wr_ne _ _ _ hi]
    exact hw _

@[simp] theorem State.sets_showSet (n f : Nat) (s : State) : (s.showSet n f).sets = s.sets := by
  unfold State.showSet
  split <;> simp

/-- A set in bank `k` of a slot, valid (R131). -/
def State.loaded (n f k : Nat) (b : List Byte) (s : State) : State :=
  ({ s with banks := tput s.banks (4 * n + 2 * f + k) b }.setBankVal n f k true).showSet n f

/-- A set that has been loaded reaches the states, where its bank is the active one (R131). -/
def State.loadSet (n f k : Nat) (b : List Byte) (s : State) : State :=
  if s.actBank n f ≠ k then s.loaded n f k b
  else if s.cycling n then (s.loaded n f k b).mapSlot n f fun y => { y with xinit := some (s.effSet n f) }
  else (s.loaded n f k b).setXinit n f b

/-- The field that says that bank `k` is valid. -/
def validFld (k : Nat) : Fld := if k = 0 then F.OBS_BANK_VAL_A else F.OBS_BANK_VAL_B

theorem validFld_place (k : Nat) : 1 ≤ (validFld k).lo ∧ (validFld k).lo + (validFld k).w ≤ 3 ∧ (validFld k).w = 1 := by
  unfold validFld
  split <;> decide

section loaded

variable (s : State) (n f : Nat) {k : Nat} (b : List Byte)

theorem State.rg_loaded_ne {a : Nat} (hb : a ≠ Reg.OBS_BANK n f) (hi : a ≠ Reg.OBS_SETID n f) : (s.loaded n f k b).rg a = s.rg a :=
  (State.rg_showSet_ne _ hb hi).trans (State.rg_sb_ne _ _ _ hb)

theorem State.sameCycleRegs_loaded (hf : f < 2) : SameCycleRegs s (s.loaded n f k b) := fun a ha =>
  s.rg_loaded_ne n f b (by unfold Reg.OBS_BANK; omega) (by unfold Reg.OBS_SETID; omega)

theorem State.actBank_loaded : (s.loaded n f k b).actBank n f = s.actBank n f := by
  have hv := validFld_place k
  exact (State.fld_showSet _ n f (by decide)).trans (State.fld_sf_disjoint _ _ (validFld k) _ _ (.inr (by
    show 0 + 1 ≤ _
    omega)))

theorem State.bankVal_loaded : (s.loaded n f k b).bankVal n f k = true := by
  obtain ⟨-, hhi, hw⟩ := validFld_place k
  have hv : (s.loaded n f k b).fld (Reg.OBS_BANK n f) (validFld k) = 1 % 2 ^ (validFld k).w :=
    (State.fld_showSet _ n f (.inl (by omega))).trans (State.fld_sf_self _ _ (validFld k) _ (by omega))
  rw [hw] at hv
  exact congrArg (· != 0) hv

theorem State.banks_loaded : (s.loaded n f k b).banks = tput s.banks (4 * n + 2 * f + k) b := by
  have h : (s.loaded n f k b).sets = _ := (State.sets_showSet _ _ _).trans (State.sets_sb _ _ _ _)
  exact congrArg Prod.fst h

@[simp] theorem State.hosts_loaded : (s.loaded n f k b).hosts = s.hosts :=
  (State.hosts_showSet _ _ _).trans (State.hosts_setBankVal _ _ _ _ _)

@[simp] theorem State.memTs_loaded : (s.loaded n f k b).memTs = s.memTs :=
  (State.memTs_showSet _ _ _).trans (State.memTs_setBankVal _ _ _ _ _)

end loaded

section loadSet

variable {s : State} {n f k : Nat} {b : List Byte}

/-- Where the set goes from its bank, no register and no bank has to do with it. -/
theorem State.loadSet_frame (s : State) (n f k : Nat) (b : List Byte) :
    ∃ x y, s.loadSet n f k b = { s.loaded n f k b with slots := x, fcs := y } := by
  unfold State.loadSet
  split_ifs <;> exact ⟨_, _, rfl⟩

@[simp] theorem State.hosts_loadSet (s : State) (n f k : Nat) (b : List Byte) : (s.loadSet n f k b).hosts = s.hosts := by
  simp [State.loadSet]

@[simp] theorem State.memTs_loadSet (s : State) (n f k : Nat) (b : List Byte) : (s.loadSet n f k b).memTs = s.memTs := by
  simp [State.loadSet]

theorem State.bank_loadSet (s : State) (n f k : Nat) (b : List Byte) : (s.loadSet n f k b).bank n f k = b := by
  obtain ⟨x, y, hl⟩ := s.loadSet_frame n f k b
  rw [hl]
  show tget [] (s.loaded n f k b).banks _ = b
  rw [State.banks_loaded, tget_tput_self]

theorem State.rg_loadSet (s : State) (n f k : Nat) (b : List Byte) (a : Nat) :
    (s.loadSet n f k b).rg a = (s.loaded n f k b).rg a := by
  obtain ⟨x, y, hl⟩ := s.loadSet_frame n f k b
  rw [hl]
  rfl

/-- A set that reaches the states at once gives each that it owns its start value. -/
theorem State.obsX_setXinit (s : State) (n f : Nat) (b : List Byte) {i : Nat} (hi : i < 32) (ho : owns b f 32 i = true) :
    tget 0 ((s.setXinit n f b).fc n).obsX i = imgI b (160 + 4 * i) 4 := by
  unfold State.setXinit
  rw [State.fc_mapFc_self]
  obtain ⟨u, -, ht⟩ := forN_view (tget 0 · i)
    (fun i t => if owns b f 32 i then tput t i (imgI b (160 + 4 * i) 4) else t) (s.fc n).obsX hi fun j _ hne t => by
      split
      · exact tget_tput_ne _ _ _ hne.symm
      · rfl
  rw [ht, if_pos ho, tget_tput_self]

/-- While the FC cycles, the sample instant gives the states their start values, and the old set stays in force until then. -/
theorem State.xinit_loadSet (h : s.actBank n f = k) (hc : s.cycling n = true) :
    ((s.loadSet n f k b).slot n f).xinit = some (s.effSet n f) := by
  rw [State.loadSet, if_neg (not_not.2 h), if_pos hc, State.slot_mapSlot_self]

theorem State.obsX_loadSet (h : s.actBank n f = k) (hc : s.cycling n = false) {i : Nat} (hi : i < 32)
    (ho : owns b f 32 i = true) : tget 0 ((s.loadSet n f k b).fc n).obsX i = imgI b (160 + 4 * i) 4 := by
  rw [State.loadSet, if_neg (not_not.2 h), if_neg (by simp [hc]), State.obsX_setXinit _ n f b hi ho]

theorem State.loadObserver_of_legal {e : Entry} (hlen : eBufLen e = 9512) (hb : e.buf = some b) (hbl : b.length = 9512)
    (hk : ent e 8 1 ≤ 1) (hz : zeroes e 9 48 = true) (hs : s.slotOf (eTarget e) = some (n, f))
    (hi : s.imageOk (some (n, f)) b = true) (h0 : s.fltState n f ≠ 0) (ha : s.actBank n f = ent e 8 1 → s.fltState n f = 1)
    (hp : s.actBank n f ≠ ent e 8 1 → s.bit (Reg.OBS_BANK n f) F.OBS_BANK_SWAP_PEND = false)
    (hw : setWhole b = true → s.bound n (1 - f) = false) :
    s.loadObserver e = (s.loadSet n f (ent e 8 1) b).reply e stOk := by
  obtain ⟨-, hf, -⟩ := State.slotOf_spec hs
  have hcyc : (s.loaded n f (ent e 8 1) b).cycling n = s.cycling n := (s.sameCycleRegs_loaded n f b hf).cycling n
  unfold State.loaded at hcyc
  have hother : (setWhole b && s.bound n (1 - f)) = false := by
    cases h : setWhole b <;> simp [h, hw]
  unfold State.loadObserver State.withBuf
  dsimp only
  rw [if_neg (not_not.2 hlen), hb]
  dsimp only
  rw [hz, hs, hi, if_neg (by simp [hbl]; omega)]
  dsimp only
  rw [hcyc, hother, State.loadSet]
  by_cases hact : s.actBank n f = ent e 8 1
  · rw [if_neg (by simp [hact, ha hact]), if_neg (not_not.2 hact)]
    simp [hact]
    rfl
  · rw [if_neg (by simp [hact, hp hact, h0]), if_pos hact]
    simp [hact]
    rfl

end loadSet

theorem loadObserver_loads (s : State) (e : Entry) (b : List Byte) (n f : Nat) (ha : Accepted 0x30 e s) (hlen : eBufLen e = 9512)
    (hb : e.buf = some b) (hbl : b.length = 9512) (hk : ent e 8 1 ≤ 1) (hz : zeroes e 9 48 = true)
    (hs : s.slotOf (eTarget e) = some (n, f)) (hi : s.imageOk (some (n, f)) b = true) (h0 : s.fltState n f ≠ 0)
    (hact : s.actBank n f = ent e 8 1 → s.fltState n f = 1)
    (hp : s.actBank n f ≠ ent e 8 1 → s.bit (Reg.OBS_BANK n f) F.OBS_BANK_SWAP_PEND = false)
    (hw : setWhole b = true → s.bound n (1 - f) = false) (hd : (s.port e.port).d3 = false) :
    Answers (.loadObserver e) s fun t =>
      t.mem = s.mem ∧ t.bank n f (ent e 8 1) = b ∧ t.bankVal n f (ent e 8 1) = true ∧ t.actBank n f = s.actBank n f ∧
      Replied e 0 [] s t ∧
      (s.actBank n f = ent e 8 1 → s.cycling n = true → (t.slot n f).xinit = some (s.effSet n f)) ∧
      (s.actBank n f = ent e 8 1 → s.cycling n = false → ∀ i : Fin 32, owns b f 32 i = true →
        tget 0 (t.fc n).obsX i = imgI b (160 + 4 * i) 4) := by
  have hx : exec (.loadObserver e) s = .next _ := congrArg Host.Outcome.next ((State.take_accepted _ _ _ _ ha).trans
    (State.loadObserver_of_legal (s := s.popEntry e) hlen hb hbl hk hz hs hi h0 hact hp hw))
  have hbank : ((s.popEntry e).loadSet n f (ent e 8 1) b).rg (Reg.OBS_BANK n f) = _ := State.rg_loadSet _ _ _ _ _ _
  obtain ⟨hn, hf, -⟩ := State.slotOf_spec hs
  have hrg := (State.rg_replyTo ((s.popEntry e).loadSet n f (ent e 8 1) b) e true false stOk 0 []
    (show Reg.OBS_BANK n f < 0x78000000 by unfold Reg.OBS_BANK; omega)).trans hbank
  have hport := replied_replyTo (u := (s.popEntry e).loadSet n f (ent e 8 1) b) (by simp) hd false stOk 0 []
  refine ⟨_, hx, State.mem_of_memTs (by simp), ?_⟩
  unfold State.reply
  obtain ⟨r, p, ht⟩ := ((s.popEntry e).loadSet n f (ent e 8 1) b).replyTo_frame e true false stOk 0 []
  refine ⟨?_, (State.bit_of_rg hrg (validFld _)).trans ((s.popEntry e).bankVal_loaded n f b),
    (State.fld_of_rg hrg _).trans ((s.popEntry e).actBank_loaded n f b), hport, fun ha hc => ?_, fun ha hc i ho => ?_⟩
  · rw [ht]
    exact (s.popEntry e).bank_loadSet n f (ent e 8 1) b
  · rw [ht]
    exact State.xinit_loadSet (s := s.popEntry e) ha hc
  · rw [ht]
    exact State.obsX_loadSet (s := s.popEntry e) ha hc i.isLt ho

/-! ### SWAP_COEFF -/

/-- The end of a swap: what shows it, once bank `b` is active and `k` states have saturated. -/
def State.swapEnd (n f b k : Nat) (s : State) : State :=
  let s := s.sf (Reg.OBS_BANK n f) F.OBS_BANK_SWAP_PEND 0
  let s := s.sf (Reg.OBS_BANK n f) F.OBS_BANK_SWAP_CYC ((s.count n).toNat % 65536)
  let s := if k = 0 then s else s.flag (Reg.OBS_STAT n f) F.OBS_STAT_SWAP_SAT
  (s.showSet n f).raise (slotSrc n f) 0x1B (b + 256 * k + 65536 * ((s.count n).toNat % 65536))

/-- A swap makes the other bank active, carries the states over, and shows it (R132). -/
theorem State.swapBank_eq_swapEnd (s : State) (n f : Nat) (init : Bool) : ∃ k x, (s.swapBank n f init).2 =
    { s.sf (Reg.OBS_BANK n f) F.OBS_BANK_ACT (1 - s.actBank n f) with fcs := x }.swapEnd n f (1 - s.actBank n f) k := by
  unfold State.swapBank
  dsimp only
  split <;> exact ⟨_, _, rfl⟩

section swapEnd

variable (s : State) {n f : Nat} (b k : Nat) (hn : n < 16) (hf : f < 2)
include hn hf

/-- At the end of a swap OBS_BANK keeps what is neither SWAP_PEND, nor SWAP_CYC, nor WHOLE. -/
theorem State.fld_swapEnd {g : Fld} (hg : g.lo + g.w ≤ 4) :
    (s.swapEnd n f b k).fld (Reg.OBS_BANK n f) g = (s.sf (Reg.OBS_BANK n f) F.OBS_BANK_SWAP_PEND 0).fld (Reg.OBS_BANK n f) g := by
  have ha : Reg.OBS_BANK n f < 0x70040000 := by unfold Reg.OBS_BANK; omega
  have hst : Reg.OBS_BANK n f ≠ Reg.OBS_STAT n f := by unfold Reg.OBS_BANK Reg.OBS_STAT; omega
  unfold State.swapEnd
  dsimp only
  rw [State.fld_of_rg (State.rg_raise_below _ _ _ _ ha), State.fld_showSet _ n f (.inl hg)]
  have hcyc := fun x => State.fld_sf_disjoint (s.sf (Reg.OBS_BANK n f) F.OBS_BANK_SWAP_PEND 0) (Reg.OBS_BANK n f)
    F.OBS_BANK_SWAP_CYC g x (.inr (show g.lo + g.w ≤ 16 by omega))
  split
  · exact hcyc _
  · rw [State.flag, State.fld_sf_ne _ _ _ _ hst, hcyc]

theorem State.actBank_swapBank (init : Bool) : (s.swapBank n f init).2.actBank n f = 1 - s.actBank n f := by
  obtain ⟨k, x, h⟩ := s.swapBank_eq_swapEnd n f init
  rw [h, State.actBank, State.fld_swapEnd _ _ _ hn hf (by decide), State.fld_sf_disjoint _ _ _ _ _ (by decide)]
  exact (State.fld_sf_self _ _ _ _ (by decide)).trans (Nat.mod_eq_of_lt (show 1 - _ < 2 by omega))

theorem State.swapPend_swapBank (init : Bool) :
    (s.swapBank n f init).2.bit (Reg.OBS_BANK n f) F.OBS_BANK_SWAP_PEND = false := by
  obtain ⟨k, x, h⟩ := s.swapBank_eq_swapEnd n f init
  rw [h, State.bit, State.fld_swapEnd _ _ _ hn hf (by decide), State.fld_sf_self _ _ _ _ (by decide)]
  rfl

end swapEnd

section swap

variable {s : State} {e : Entry} {n f : Nat} (hs : s.slotOf (eTarget e) = some (n, f))
  (hv : s.bankVal n f (1 - s.actBank n f) = true)
include hs hv

theorem State.swapCoeff_of_valid (h1 : ent e 8 1 ≤ 1) (hz : zeroes e 9 48 = true) (h0 : s.fltState n f ≠ 0)
    (hp : s.bit (Reg.OBS_BANK n f) F.OBS_BANK_SWAP_PEND = false) :
    s.swapCoeff e = (s.flag (Reg.OBS_BANK n f) F.OBS_BANK_SWAP_PEND).atSample n e (s.fltState n f) State.swapAt := by
  obtain ⟨-, hf, -⟩ := State.slotOf_spec hs
  have hst := (s.sameCycleRegs_wr (a := Reg.OBS_BANK n f) (by unfold Reg.OBS_BANK; omega)
    (fput (s.rg (Reg.OBS_BANK n f)) F.OBS_BANK_SWAP_PEND 1)).fltState (n := n) hf
  have hbad : ¬ (decide (1 < ent e 8 1) || !zeroes e 9 48) = true := by simp [hz]; omega
  unfold State.swapCoeff
  rw [if_neg hbad, hs]
  dsimp only
  rw [if_neg (by simp [h0, hv, hp])]
  exact congrArg (State.atSample n e · State.swapAt _) hst

theorem State.swapAt_of_valid {st : Nat} (hst : s.fltState n f = st) : s.swapAt (nowWait e st) =
    (s.swapBank n f (ent e 8 1 % 2 == 1)).2.finish (nowWait e st) stOk
      ((s.swapBank n f (ent e 8 1 % 2 == 1)).2.count16 n)
      [(s.swapBank n f (ent e 8 1 % 2 == 1)).2.actBank n f, (s.swapBank n f (ent e 8 1 % 2 == 1)).1] := by
  unfold State.swapAt
  rw [e_nowWait, hs]
  exact if_neg (by simp [hv, hst])

end swap

theorem swapCoeff_swaps (s : State) (e : Entry) (n f : Nat) (ha : Accepted 0x31 e s) (h1 : ent e 8 1 ≤ 1)
    (hz : zeroes e 9 48 = true) (hs : s.slotOf (eTarget e) = some (n, f)) (h0 : s.fltState n f ≠ 0)
    (hv : s.bankVal n f (1 - s.actBank n f) = true) (hp : s.bit (Reg.OBS_BANK n f) F.OBS_BANK_SWAP_PEND = false)
    (hd : (s.port e.port).d3 = false) : Answers (.swapCoeff e) s fun t =>
      t.mem = s.mem ∧
      (s.cycling n = true → t.bit (Reg.OBS_BANK n f) F.OBS_BANK_SWAP_PEND = true ∧ t.actBank n f = s.actBank n f ∧
        t.keep.waits = s.keep.waits ++ [{ e := e, live := true, silent := false, on := .sample n, st := s.fltState n f }]) ∧
      (s.cycling n = false → t.actBank n f = 1 - s.actBank n f ∧ t.bit (Reg.OBS_BANK n f) F.OBS_BANK_SWAP_PEND = false ∧
        ∃ res, Replied e 0 res s t) := by
  obtain ⟨hn, hf, -⟩ := State.slotOf_spec hs
  have hx : exec (.swapCoeff e) s = .next _ := congrArg Host.Outcome.next ((State.take_accepted _ _ _ _ ha).trans
    (State.swapCoeff_of_valid (s := s.popEntry e) hs hv h1 hz h0 hp))
  have hcyc := (s.popEntry e).sameCycleRegs_wr (a := Reg.OBS_BANK n f) (by unfold Reg.OBS_BANK; omega)
    (fput (s.rg (Reg.OBS_BANK n f)) F.OBS_BANK_SWAP_PEND 1)
  set u := (s.popEntry e).flag (Reg.OBS_BANK n f) F.OBS_BANK_SWAP_PEND with hu
  have hslot : u.slotOf (eTarget e) = some (n, f) := (hcyc.slotOf _).trans hs
  have hst : u.fltState n f = s.fltState n f := hcyc.fltState hf
  have hact : u.actBank n f = s.actBank n f := State.fld_sf_disjoint _ _ _ _ _ (by decide)
  have hpend : u.bit (Reg.OBS_BANK n f) F.OBS_BANK_SWAP_PEND = true := State.bit_sf_self _ _ _ _ (by decide)
  have hval : u.bankVal n f (1 - u.actBank n f) = true := by
    obtain ⟨-, hhi, -⟩ := validFld_place (1 - s.actBank n f)
    have hsame := (s.popEntry e).fld_sf_disjoint (Reg.OBS_BANK n f) F.OBS_BANK_SWAP_PEND (validFld (1 - s.actBank n f)) 1
      (.inr (show _ ≤ 3 by omega))
    rw [hact]
    exact (congrArg (· != 0) hsame).trans hv
  refine answers_atSample hx (State.mem_of_memTs (by simp [hu])) (hcyc.cycling n) ⟨hpend, hact, rfl⟩ fun _ => ?_
  rw [State.swapAt_of_valid hslot hval (st := (s.popEntry e).fltState n f) hst]
  have ha : Reg.OBS_BANK n f < 0x78000000 := by unfold Reg.OBS_BANK; omega
  refine ⟨(State.fld_of_rg (State.rg_finish_nowWait _ _ _ _ _ _ ha) _).trans
      ((u.actBank_swapBank hn hf _).trans (by rw [hact])),
    (State.bit_of_rg (State.rg_finish_nowWait _ _ _ _ _ _ ha) _).trans (u.swapPend_swapBank hn hf _),
    _, replied_finish (by simp [hu]) hd _ _ _ _⟩

/-! ### BAD_OPCODE -/

theorem badOpcode_refused (s : State) (e : Entry) (ho : opInfo (eOp e) = none) (hrom : s.dev ≠ 0 ∨ s.keep.romReady = true)
    (hr : s.pwr.inReset = false) (hk : s.dev = 4 ∨ s.keeperOn = true) (hd : (s.port e.port).d3 = false) :
    Answers (.badOpcode e) s fun t => t = { s with regs := t.regs, ports := t.ports } ∧ Replied e 0x10 [] s t := by
  have hpre : s.precheck e = some (stBadOpcode, true) := by simp [State.precheck, ho]
  have hx : exec (.badOpcode e) s = .next ((s.popEntry e).replyTo e true true stBadOpcode 0 []) := by
    have htake : s.take (eOp e) e (fun _ s => s) = (s.popEntry e).replyTo e true true stBadOpcode 0 [] := by
      unfold State.take
      rw [if_neg (by obtain h | h := hrom <;> simp [h, hr]), if_neg (by obtain h | h := hk <;> simp [h]), hpre]
    show execBadOpcode e s = _
    rw [execBadOpcode, ho, if_pos (by decide), htake]
  obtain ⟨r, p, ht⟩ := (s.popEntry e).replyTo_frame e true true stBadOpcode 0 []
  refine ⟨_, hx, ?_, replied_replyTo rfl hd _ _ _ _⟩
  rw [ht]
  rfl

end Sys2Proof.Machine

open Sys2Proof.Machine

/-- Settles O21, clause by clause. -/
theorem cellAndCoefficientCommandsRun : Obligations.CellAndCoefficientCommandsRun :=
  ⟨setCellMap_stands, setCellParams_stand, bypassCell_orders, loadObserver_loads, swapCoeff_swaps, badOpcode_refused⟩

end
section
/-! What the operations on lanes and flights leave of the registers of the cycles and the flights (O20). -/

namespace Sys2Proof.Machine

/-! ### The registers of the cycles and the flights -/

/-- The registers below offset 0x1000 of the FC windows, as a view of a state: those of the cycle and of the flights. -/
def State.head (s : State) (a : Nat) : Word := if a < 0x70000000 ∧ a % 0x100000 < 0x1000 then s.rg a else 0

theorem State.head_of_rg {s t : State} (h : ∀ a < 0x70000000, a % 0x100000 < 0x1000 → t.rg a = s.rg a) : t.head = s.head :=
  funext fun a => by
    unfold State.head
    split
    · next ha => exact h a ha.1 ha.2
    · rfl

theorem State.rg_of_head {s t : State} (h : t.head = s.head) {a : Nat} (ha : a < 0x70000000) (ho : a % 0x100000 < 0x1000) :
    t.rg a = s.rg a := by
  have he := congrFun h a
  rwa [State.head, State.head, if_pos ⟨ha, ho⟩, if_pos ⟨ha, ho⟩] at he

@[simp] theorem State.head_ite (c : Prop) [Decidable c] (s t : State) :
    (if c then s else t).head = if c then s.head else t.head := apply_ite _ _ _ _

@[simp] theorem State.head_foldl {α : Type} (l : List α) (f : State → α → State) (s : State)
    (h : ∀ s x, (f s x).head = s.head) : (l.foldl f s).head = s.head := foldl_frame State.head l f s h

@[simp] theorem State.head_mapLane (l : Nat) (f : Lane → Lane) (s : State) : (s.mapLane l f).head = s.head :=
  State.head_of_rg (by simp)
@[simp] theorem State.head_mapFc (n : Nat) (f : FcSt → FcSt) (s : State) : (s.mapFc n f).head = s.head := State.head_of_rg (by simp)
@[simp] theorem State.head_mapSlot (n f : Nat) (g : SlotSt → SlotSt) (s : State) : (s.mapSlot n f g).head = s.head :=
  State.head_of_rg (by simp)

theorem State.head_wr (s : State) {a : Nat} (h : 0x1000 ≤ a % 0x100000) (v : Word) : (s.wr a v).head = s.head :=
  State.head_of_rg fun b _ hb => s.rg_wr_ne v fun e => by rw [e] at hb; omega

theorem State.head_sf (s : State) {a : Nat} (h : 0x1000 ≤ a % 0x100000) (f : Fld) (x : Nat) : (s.sf a f x).head = s.head :=
  s.head_wr h _

@[simp] theorem State.head_sluRefresh (s : State) : s.sluRefresh.head = s.head :=
  State.head_of_rg fun _ ha _ => s.rg_sluRefresh (.inl ha)

@[simp] theorem State.head_setCause (n c : Nat) (on : Bool) (s : State) : (s.setCause n c on).head = s.head :=
  State.head_of_rg fun _ ha _ => s.rg_setCause n c on ha

@[simp] theorem State.head_lossEval (n f : Nat) (s : State) : (s.lossEval n f).head = s.head :=
  State.head_of_rg fun _ ha ho => s.rg_lossEval n f ha (by omega)

@[simp] theorem State.head_setLane (l st : Nat) (s : State) : (s.setLane l st).head = s.head :=
  State.head_of_rg fun _ ha ho => s.rg_setLane st ha (by omega) (by unfold lnkStat Reg.LNK_STAT; omega)

@[simp] theorem State.head_trainStart (l : Nat) (s : State) : (s.trainStart l).head = s.head := by simp [State.trainStart]
@[simp] theorem State.head_laneOff (l : Nat) (s : State) : (s.laneOff l).head = s.head := by simp [State.laneOff]

@[simp] theorem State.head_takeItems (l : Nat) (s : State) : (s.takeItems l).head = s.head :=
  State.head_of_rg fun _ ha ho =>
    (s.rg_takeItems ha (by omega) (by unfold lnkStat Reg.LNK_STAT; omega)).trans
      (s.rg_cleared_ne (by unfold Reg.LNK_ERR; omega) (by unfold Reg.LNK_MISS; omega))

@[simp] theorem State.head_woken (n e : Nat) (s : State) : (s.woken n e).head = s.head :=
  State.head_of_rg fun a _ _ => s.rg_woken n e a

@[simp] theorem State.head_itemWritten (l : Nat) (s : State) : (s.itemWritten l).head = s.head := by simp [State.itemWritten_eq]

@[simp] theorem State.head_lnkEnable (l : Nat) (on : Bool) (s : State) : (s.lnkEnable l on).head = s.head := by
  have ha : 0x1000 ≤ Reg.LNK_CTRL (l / 64) (l % 64) % 0x100000 := by unfold Reg.LNK_CTRL; omega
  simp [State.lnkEnable, State.sb, State.head_sf _ ha]

@[simp] theorem State.head_retrain (l : Nat) (s : State) : (s.retrain l).head = s.head := by simp [State.retrain]
@[simp] theorem State.head_bindLanes (d : FltDesc) (s : State) : (s.bindLanes d).head = s.head := by simp [State.bindLanes]

@[simp] theorem State.head_splitBits (m : Nat) (s : State) : (s.splitBits m).head = s.head :=
  forN_frame State.head 2 _ s fun f hf t => t.head_sf (by unfold Reg.OBS_BANK; omega) _ _

@[simp] theorem State.head_cfgFollow (m : Nat) (s : State) : (s.cfgFollow m).head = s.head := by simp [State.cfgFollow]

@[simp] theorem State.head_startFc (m : Nat) (s : State) : (s.startFc m).head = s.head := by
  unfold State.startFc
  refine (forN_frame State.head 64 _ _ fun i _ t => ?_).trans (forN_frame State.head 8 _ _ fun e _ t => rfl)
  simp

section head

variable {s t : State} (h : t.head = s.head) {n : Nat} (hn : n < 16)
include h hn

theorem State.leader_of_head : t.leader n = s.leader n := by
  have hr := State.rg_of_head h (a := Reg.FC_CYC_STAT n) (by unfold Reg.FC_CYC_STAT; omega) (by unfold Reg.FC_CYC_STAT; omega)
  unfold State.leader
  rw [State.bit_of_rg hr, State.fld_of_rg hr]

theorem State.cycling_of_head : t.cycling n = s.cycling n := by
  have hl := s.leader_lt hn
  unfold State.cycling
  rw [State.leader_of_head h hn]
  exact State.bit_of_rg (State.rg_of_head h (by unfold Reg.FC_CYC_STAT; omega) (by unfold Reg.FC_CYC_STAT; omega)) _

theorem State.fltState_of_head {f : Nat} (hf : f < 2) : t.fltState n f = s.fltState n f :=
  State.fld_of_rg (State.rg_of_head h (by unfold Reg.FC_FLT_STAT; omega) (by unfold Reg.FC_FLT_STAT; omega)) _

end head

end Sys2Proof.Machine
end
section
/-! What BIND_FLIGHT writes (O20): the registers of a flight, and of a cycle that it starts. -/

namespace Sys2Proof.Machine

/-! ### The flight descriptor -/

/-- The bounds that R68 sets to a flight descriptor. -/
structure FltDesc.Fits (d : FltDesc) : Prop where
  flight : d.flight < 32
  gang : d.gang = 1 ∨ d.gang = 2 ∨ d.gang = 4
  ld : d.ld < 16
  aligned : d.ld % d.gang = 0
  lanes : 8 ≤ d.cnt
  req : d.nreq ≤ d.cnt
  most : d.cnt ≤ 256
  cycle : cycleOk d.len d.phase d.lat = true
  range : d.first + d.cnt ≤ 64 * d.gang

theorem FltDesc.fits_of_formOk {d : FltDesc} {e : Entry} (h : d.formOk e = true) : d.Fits := by
  simp only [FltDesc.formOk, Bool.and_eq_true, Bool.or_eq_true, decide_eq_true_eq, beq_iff_eq] at h
  obtain ⟨⟨⟨⟨⟨⟨⟨⟨⟨⟨⟨⟨⟨⟨⟨⟨hfl, hg⟩, hld⟩, hal⟩, -⟩, -⟩, hla⟩, hmo⟩, -⟩, -⟩, hre⟩, hcy⟩, -⟩, -⟩, -⟩, hra⟩, -⟩ := h
  exact ⟨hfl, or_assoc.1 hg, hld, hal, hla, hre, hmo, hcy, hra⟩

/-- The FC_FLT_CFG word of the FC `i` places behind the leader (R71). -/
def FltDesc.cfgWord (d : FltDesc) (i : Nat) : Word :=
  BitVec.ofNat 32 (d.flight + 32 + 64 * (d.gang / 2) + 256 * (max d.first (64 * i) - 64 * i) +
    65536 * (min (d.first + d.cnt) (64 * (i + 1)) - max d.first (64 * i)) + 2 ^ 24 * d.refsrc)

theorem FltDesc.slot_lt (d : FltDesc) : d.slot < 2 := by
  unfold FltDesc.slot
  split <;> decide

theorem FltDesc.mem_fcs {d : FltDesc} {m : Nat} : m ∈ d.fcs ↔ ∃ i < d.gang, d.ld + i = m := by
  simp [FltDesc.fcs]

namespace FltDesc.Fits

variable {d : FltDesc} (h : d.Fits)
include h

theorem gang_pos : 0 < d.gang := by
  obtain hg | hg | hg := h.gang <;> omega

theorem ld_mem_fcs : d.ld ∈ d.fcs := FltDesc.mem_fcs.2 ⟨0, h.gang_pos, rfl⟩

theorem fc_lt {i : Nat} (hi : i < d.gang) : d.ld + i < 16 := by
  have hl := h.ld
  have ha := h.aligned
  obtain hg | hg | hg := h.gang <;> rw [hg] at ha hi <;> omega

/-- FLIGHT and BOUND read as the descriptor says. -/
theorem fget_cfgWord (i : Nat) :
    fget (d.cfgWord i) F.FC_FLT_CFG_FLIGHT = d.flight ∧ fget (d.cfgWord i) F.FC_FLT_CFG_BOUND = 1 := by
  have := h.flight
  simp only [fget, FltDesc.cfgWord, BitVec.toNat_ofNat, F.FC_FLT_CFG_FLIGHT, F.FC_FLT_CFG_BOUND]
  omega

theorem cfgWord_single (hg : d.gang = 1) :
    d.cfgWord 0 = BitVec.ofNat 32 (d.flight + 32 + 256 * d.first + 65536 * d.cnt + 2 ^ 24 * d.refsrc) := by
  have hr := h.range
  have hlo : max d.first (64 * 0) = d.first := by omega
  have hhi : min (d.first + d.cnt) (64 * (0 + 1)) = d.first + d.cnt := by omega
  rw [FltDesc.cfgWord, hlo, hhi, hg, Nat.add_sub_cancel_left]
  rfl

/-- The range of lanes reads as the descriptor says where one FC makes the flight. -/
theorem fget_cfgWord_single (hg : d.gang = 1) : fget (d.cfgWord 0) F.FC_FLT_CFG_FIRST_LANE = d.first ∧
    fget (d.cfgWord 0) F.FC_FLT_CFG_COUNT = d.cnt := by
  have hf := h.flight
  have hc := h.lanes
  have hr := h.range
  rw [h.cfgWord_single hg]
  simp only [fget, BitVec.toNat_ofNat, F.FC_FLT_CFG_FIRST_LANE, F.FC_FLT_CFG_COUNT]
  omega

end FltDesc.Fits

/-! ### Writes that may be held -/

theorem State.rg_heldWrite_ne (s : State) {n a b : Nat} (v : Word) (h : b ≠ a) : (s.heldWrite n a v).rg b = s.rg b := by
  rw [State.heldWrite, State.rg_ite, State.rg_mapFc, State.rg_ctlPut, s.rg_wr_ne v h, ite_self]

theorem State.rg_heldWrite_of_idle {s : State} {n : Nat} (hc : s.cycling n = false) (a : Nat) (v : Word) :
    (s.heldWrite n a v).rg a = v := by
  rw [State.heldWrite, if_neg (by simp [hc]), State.rg_ctlPut, State.rg_wr_self]

theorem State.cycling_of_rg {s t : State} (h : ∀ m, t.rg (Reg.FC_CYC_STAT m) = s.rg (Reg.FC_CYC_STAT m)) :
    t.cycling = s.cycling :=
  funext fun n => by
    have hl : t.leader n = s.leader n := by
      unfold State.leader
      rw [State.bit_of_rg (h n), State.fld_of_rg (h n)]
    unfold State.cycling
    rw [hl, State.bit_of_rg (h _)]

/-! ### Step 1 of R71 -/

/-- The configuration registers of the slot, on every FC of the flight. -/
def State.putCfg (d : FltDesc) (s : State) : State :=
  forN d.gang (fun i s => s.heldWrite (d.ld + i) (Reg.FC_FLT_CFG (d.ld + i) d.slot) (d.cfgWord i)) s

/-- What follows them: FC_FLT_REQ and FC_HUB_MASK of the leader, and the lanes and the slot begin anew. -/
theorem State.bindRegs_eq (s : State) (d : FltDesc) : s.bindRegs d =
    (d.links.foldl (fun s l => s.mapLane l fun x => { x with lastV := none, hist := [] })
      (((s.putCfg d).heldWrite d.ld (Reg.FC_FLT_REQ d.ld d.slot) (BitVec.ofNat 32 d.nreq)).heldWrite d.ld
        (Reg.FC_HUB_MASK d.ld d.slot) (BitVec.ofNat 32 d.hub))).mapSlot d.ld d.slot fun _ => SlotSt.init := rfl

theorem State.rg_putCfg_ne (s : State) (d : FltDesc) {a : Nat} (h : ∀ m, a ≠ Reg.FC_FLT_CFG m d.slot) :
    (s.putCfg d).rg a = s.rg a :=
  forN_frame (State.rg · a) d.gang _ s fun _ _ t => t.rg_heldWrite_ne _ (h _)

theorem State.rg_bindRegs (s : State) (d : FltDesc) (a : Nat) : (s.bindRegs d).rg a =
    (((s.putCfg d).heldWrite d.ld (Reg.FC_FLT_REQ d.ld d.slot) (BitVec.ofNat 32 d.nreq)).heldWrite d.ld
        (Reg.FC_HUB_MASK d.ld d.slot) (BitVec.ofNat 32 d.hub)).rg a := by
  rw [State.bindRegs_eq, State.rg_mapSlot, State.rg_foldl_mapLane]

/-- The registers that BIND_FLIGHT writes first are FC_FLT_CFG, FC_FLT_REQ and FC_HUB_MASK. -/
theorem State.rg_bindRegs_ne (s : State) (d : FltDesc) {a : Nat}
    (h : a % 0x100000 < 0x40 ∨ 0x50 ≤ a % 0x100000 ∧ a % 0x100000 < 0x58 ∨ 0x60 ≤ a % 0x100000) :
    (s.bindRegs d).rg a = s.rg a := by
  have hf := d.slot_lt
  rw [State.rg_bindRegs, State.rg_heldWrite_ne _ _ (by unfold Reg.FC_HUB_MASK; omega),
    State.rg_heldWrite_ne _ _ (by unfold Reg.FC_FLT_REQ; omega), s.rg_putCfg_ne d fun m => by unfold Reg.FC_FLT_CFG; omega]

theorem State.cycling_putCfg (s : State) (d : FltDesc) : (s.putCfg d).cycling = s.cycling :=
  State.cycling_of_rg fun m => s.rg_putCfg_ne d fun k => by
    have hf := d.slot_lt
    unfold Reg.FC_FLT_CFG Reg.FC_CYC_STAT
    omega

theorem State.cycling_bindRegs (s : State) (d : FltDesc) : (s.bindRegs d).cycling = s.cycling :=
  State.cycling_of_rg fun m => s.rg_bindRegs_ne d (by unfold Reg.FC_CYC_STAT; omega)

section idle

variable {s : State} {d : FltDesc} (hidle : ∀ m ∈ d.fcs, s.cycling m = false)
include hidle

theorem State.rg_bindRegs_cfg {i : Nat} (hi : i < d.gang) :
    (s.bindRegs d).rg (Reg.FC_FLT_CFG (d.ld + i) d.slot) = d.cfgWord i := by
  have hf := d.slot_lt
  obtain ⟨u, hu, ht⟩ := forN_view (fun t : State => (t.rg (Reg.FC_FLT_CFG (d.ld + i) d.slot), t.cycling))
    (fun i s => s.heldWrite (d.ld + i) (Reg.FC_FLT_CFG (d.ld + i) d.slot) (d.cfgWord i)) s hi fun j _ hne t => by
      have hcyc : (t.heldWrite (d.ld + j) (Reg.FC_FLT_CFG (d.ld + j) d.slot) (d.cfgWord j)).cycling = t.cycling :=
        State.cycling_of_rg fun m => t.rg_heldWrite_ne _ (by unfold Reg.FC_FLT_CFG Reg.FC_CYC_STAT; omega)
      rw [hcyc, t.rg_heldWrite_ne _ (by unfold Reg.FC_FLT_CFG; omega)]
  have hc : u.cycling (d.ld + i) = false :=
    (congrFun (congrArg Prod.snd hu) _).trans (hidle _ (FltDesc.mem_fcs.2 ⟨i, hi, rfl⟩))
  rw [State.rg_bindRegs, State.rg_heldWrite_ne _ _ (by unfold Reg.FC_HUB_MASK Reg.FC_FLT_CFG; omega),
    State.rg_heldWrite_ne _ _ (by unfold Reg.FC_FLT_REQ Reg.FC_FLT_CFG; omega)]
  exact (congrArg Prod.fst ht).trans (State.rg_heldWrite_of_idle hc _ _)

theorem State.rg_bindRegs_req (h : d.Fits) : (s.bindRegs d).rg (Reg.FC_FLT_REQ d.ld d.slot) = BitVec.ofNat 32 d.nreq := by
  have hf := d.slot_lt
  have hc : (s.putCfg d).cycling d.ld = false := (congrFun (s.cycling_putCfg d) _).trans (hidle _ h.ld_mem_fcs)
  rw [State.rg_bindRegs, State.rg_heldWrite_ne _ _ (by unfold Reg.FC_HUB_MASK Reg.FC_FLT_REQ; omega),
    State.rg_heldWrite_of_idle hc]

end idle

/-! ### Step 2 of R71 -/

/-- The cycle of a flight that restarts: its gang, and LEN, PHASE and LAT. -/
def State.putCycle (d : FltDesc) (s : State) : State :=
  (((s.gangForm d).sf (Reg.FC_CYC_LEN d.ld) F.FC_CYC_LEN_LEN d.len).sf (Reg.FC_CYC_PHASE d.ld) F.FC_CYC_PHASE_PHASE d.phase).sf
    (Reg.FC_APPLY_LAT d.ld) F.FC_APPLY_LAT_LAT d.lat

/-- An FC becomes a follower of a gang (R12, R34). -/
def State.joinGang (ld m : Nat) (s : State) : State :=
  ((s.flag (Reg.FC_CYC_STAT m) F.FC_CYC_STAT_FOLLOWER).sf (Reg.FC_CYC_STAT m) F.FC_CYC_STAT_LEADER ld).mapFc m
    fun x => { x with switching := true, switchAt := s.tick }

theorem State.gangForm_eq (s : State) (d : FltDesc) :
    s.gangForm d = forN (d.gang - 1) (fun i s => s.joinGang d.ld (d.ld + i + 1)) s := rfl

theorem State.rg_joinGang_ne (s : State) (ld : Nat) {m a : Nat} (h : a ≠ Reg.FC_CYC_STAT m) : (s.joinGang ld m).rg a = s.rg a := by
  rw [State.joinGang, State.rg_mapFc, State.rg_sf_ne _ _ _ h, State.rg_flag_ne _ _ h]

theorem State.follows_joinGang (s : State) {ld : Nat} (m : Nat) (h : ld < 16) :
    (s.joinGang ld m).follower m = true ∧ (s.joinGang ld m).leader m = ld := by
  have hfol : (s.joinGang ld m).follower m = true :=
    congrArg (· != 0) ((State.fld_sf_disjoint _ _ _ _ _ (by decide)).trans (State.fld_sf_self _ _ _ _ (by decide)))
  refine ⟨hfol, (if_pos hfol).trans ((State.fld_sf_self _ _ _ _ (by decide)).trans (Nat.mod_eq_of_lt h))⟩

theorem State.rg_gangForm_ne (s : State) (d : FltDesc) {a : Nat} (h : ∀ m, d.ld < m → a ≠ Reg.FC_CYC_STAT m) :
    (s.gangForm d).rg a = s.rg a := by
  rw [State.gangForm_eq]
  exact forN_frame (State.rg · a) (d.gang - 1) _ s fun i _ t => t.rg_joinGang_ne d.ld (h (d.ld + i + 1) (by omega))

theorem State.rg_putCycle_ne (s : State) (d : FltDesc) {a : Nat} (h : a % 0x100000 = 0 ∨ 0x10 ≤ a % 0x100000)
    (hs : ∀ m, d.ld < m → a ≠ Reg.FC_CYC_STAT m) : (s.putCycle d).rg a = s.rg a := by
  rw [State.putCycle, State.rg_sf_ne _ _ _ (by unfold Reg.FC_APPLY_LAT; omega),
    State.rg_sf_ne _ _ _ (by unfold Reg.FC_CYC_PHASE; omega), State.rg_sf_ne _ _ _ (by unfold Reg.FC_CYC_LEN; omega),
    s.rg_gangForm_ne d hs]

/-- The leader of a gang keeps what FC_CYC_STAT says of it. -/
theorem State.rg_putCycle_stat (s : State) (d : FltDesc) :
    (s.putCycle d).rg (Reg.FC_CYC_STAT d.ld) = s.rg (Reg.FC_CYC_STAT d.ld) :=
  s.rg_putCycle_ne d (by unfold Reg.FC_CYC_STAT; omega) fun m hm => by unfold Reg.FC_CYC_STAT; omega

theorem State.follower_of_rg {s t : State} {n : Nat} (h : t.rg (Reg.FC_CYC_STAT n) = s.rg (Reg.FC_CYC_STAT n)) :
    t.follower n = s.follower n ∧ t.leader n = s.leader n := by
  unfold State.leader
  rw [State.bit_of_rg h, State.fld_of_rg h]
  exact ⟨State.bit_of_rg h _, rfl⟩

/-- The members of a gang follow its leader. -/
theorem State.follows_putCycle (s : State) {d : FltDesc} (h : d.ld < 16) {j : Nat} (hj : j < d.gang - 1) :
    (s.putCycle d).follower (d.ld + j + 1) = true ∧ (s.putCycle d).leader (d.ld + j + 1) = d.ld := by
  obtain ⟨u, -, ht⟩ := forN_view (State.rg · (Reg.FC_CYC_STAT (d.ld + j + 1))) (fun i s => s.joinGang d.ld (d.ld + i + 1)) s hj
    fun i _ hne t => t.rg_joinGang_ne d.ld (by unfold Reg.FC_CYC_STAT; omega)
  have hstat : (s.putCycle d).rg (Reg.FC_CYC_STAT (d.ld + j + 1)) = (s.gangForm d).rg (Reg.FC_CYC_STAT (d.ld + j + 1)) := by
    rw [State.putCycle, State.rg_sf_ne _ _ _ (by unfold Reg.FC_CYC_STAT Reg.FC_APPLY_LAT; omega),
      State.rg_sf_ne _ _ _ (by unfold Reg.FC_CYC_STAT Reg.FC_CYC_PHASE; omega),
      State.rg_sf_ne _ _ _ (by unfold Reg.FC_CYC_STAT Reg.FC_CYC_LEN; omega)]
  rw [State.gangForm_eq] at hstat
  obtain ⟨hf, hl⟩ := State.follower_of_rg (hstat.trans ht)
  rw [hf, hl]
  exact u.follows_joinGang _ h

/-- Whether an FC may cycle is in its load port and the self-test, far from the registers of the cycle (R285, R309). -/
theorem State.fcCan_of_rg {s t : State} {m : Nat} (hm : m < 16) (h : ∀ a, 0x10000 ≤ a % 0x100000 → t.rg a = s.rg a) :
    t.fcCan m = s.fcCan m := by
  unfold State.fcCan State.rn
  rw [h (Reg.MCS_VMAPE m 0) (by unfold Reg.MCS_VMAPE; omega), h Reg.MEM_BIST_FC (by decide),
    State.bit_of_rg (h (Reg.MCS_STAT m) (by unfold Reg.MCS_STAT mcsBase; rw [if_pos hm]; omega))]

theorem State.fcCan_bindRegs (s : State) (d : FltDesc) {m : Nat} (hm : m < 16) : (s.bindRegs d).fcCan m = s.fcCan m :=
  State.fcCan_of_rg hm fun _ ha => s.rg_bindRegs_ne d (by omega)

theorem State.fcCan_putCycle (s : State) (d : FltDesc) {m : Nat} (hm : m < 16) : (s.putCycle d).fcCan m = s.fcCan m :=
  State.fcCan_of_rg hm fun _ ha => s.rg_putCycle_ne d (by omega) fun k _ => by unfold Reg.FC_CYC_STAT; omega

/-- LEN, PHASE and LAT take the descriptor's values. -/
theorem State.cycle_putCycle (s : State) {d : FltDesc} (h : cycleOk d.len d.phase d.lat = true) :
    (s.putCycle d).fld (Reg.FC_CYC_LEN d.ld) F.FC_CYC_LEN_LEN = d.len ∧
    (s.putCycle d).fld (Reg.FC_CYC_PHASE d.ld) F.FC_CYC_PHASE_PHASE = d.phase ∧
    (s.putCycle d).fld (Reg.FC_APPLY_LAT d.ld) F.FC_APPLY_LAT_LAT = d.lat := by
  simp only [cycleOk, Bool.and_eq_true, decide_eq_true_eq] at h
  obtain ⟨⟨⟨⟨-, hlen⟩, hph⟩, -⟩, hlat⟩ := h
  have hpl : Reg.FC_CYC_PHASE d.ld ≠ Reg.FC_APPLY_LAT d.ld := by unfold Reg.FC_CYC_PHASE Reg.FC_APPLY_LAT; omega
  have hll : Reg.FC_CYC_LEN d.ld ≠ Reg.FC_APPLY_LAT d.ld := by unfold Reg.FC_CYC_LEN Reg.FC_APPLY_LAT; omega
  have hlp : Reg.FC_CYC_LEN d.ld ≠ Reg.FC_CYC_PHASE d.ld := by unfold Reg.FC_CYC_LEN Reg.FC_CYC_PHASE; omega
  refine ⟨?_, ?_, ?_⟩ <;> unfold State.putCycle
  · rw [State.fld_sf_ne _ _ _ _ hll, State.fld_sf_ne _ _ _ _ hlp, State.fld_sf_self _ _ _ _ (by decide)]
    exact Nat.mod_eq_of_lt (show d.len < 1024 by omega)
  · rw [State.fld_sf_ne _ _ _ _ hpl, State.fld_sf_self _ _ _ _ (by decide)]
    exact Nat.mod_eq_of_lt (show d.phase < 262144 by omega)
  · rw [State.fld_sf_self _ _ _ _ (by decide)]
    exact Nat.mod_eq_of_lt (show d.lat < 262144 by omega)

/-- RUN = 1 where it is accepted: of the registers of cycles and flights it writes RUN alone. -/
theorem State.head_runStart_putCycle {s : State} {d : FltDesc} (h : d.Fits) (hf : s.follower d.ld = false)
    (hr : s.bit (Reg.FC_CYC_CTRL d.ld) F.FC_CYC_CTRL_RUN = false)
    (hR : s.bit (Reg.FC_CYC_STAT d.ld) F.FC_CYC_STAT_RUNNING = false) (hcan : s.fcCan d.ld = true) :
    ((s.putCycle d).runStart d.ld).head = ((s.putCycle d).flag (Reg.FC_CYC_CTRL d.ld) F.FC_CYC_CTRL_RUN).head ∧
    ((s.putCycle d).runStart d.ld).hosts = s.hosts := by
  have hstat := s.rg_putCycle_stat d
  obtain ⟨hlen, hph, hlat⟩ := s.cycle_putCycle h.cycle
  have hctrl : (s.putCycle d).rg (Reg.FC_CYC_CTRL d.ld) = s.rg (Reg.FC_CYC_CTRL d.ld) :=
    s.rg_putCycle_ne d (by unfold Reg.FC_CYC_CTRL; omega) fun m _ => by unfold Reg.FC_CYC_CTRL Reg.FC_CYC_STAT; omega
  rw [State.runStart_of_ok ((State.bit_of_rg hstat _).trans hf) ((State.bit_of_rg hctrl _).trans hr)
    ((State.bit_of_rg hstat _).trans hR) (by rw [hlen, hph, hlat, h.cycle, s.fcCan_putCycle d h.ld, hcan]; rfl)]
  constructor
  · simp
  · simp [State.putCycle]

end Sys2Proof.Machine
end
section
/-! BIND_FLIGHT (O20): on FCs that stand, and on an FC that cycles. -/

namespace Sys2Proof.Machine

/-- Steps 3 and 4 of R71: the lanes of the range, and what follows the configuration on every FC of the flight. -/
def State.putLanes (d : FltDesc) (s : State) : State := d.fcs.foldl (fun s m => s.cfgFollow m) (s.bindLanes d)

@[simp] theorem State.head_putLanes (d : FltDesc) (s : State) : (s.putLanes d).head = s.head := by simp [State.putLanes]
@[simp] theorem State.hosts_putLanes (d : FltDesc) (s : State) : (s.putLanes d).hosts = s.hosts := by simp [State.putLanes]

@[simp] theorem State.still_putLanes (d : FltDesc) (s : State) : (s.putLanes d).still FcSt.clock = s.still FcSt.clock := by
  simp [State.putLanes]

theorem State.bindRest_eq (w : Wait) (restart : Bool) (s : State) : s.bindRest w restart =
    let d := fltDesc w.e
    let u := (if restart then (s.putCycle d).runStart d.ld else s).putLanes d
    if u.cycling d.ld then (u.dropWait w).mapKeep fun k => { k with waits := k.waits ++ [{ w with on := .sample d.ld }] }
    else u.bindState w := rfl

theorem State.bindState_of_same {s : State} {e : Entry} {st : Nat} (h : s.fltState (fltDesc e).ld (fltDesc e).slot = st) :
    s.bindState (nowWait e st) = (s.setFlt (fltDesc e).ld (fltDesc e).slot 1).finish (nowWait e st) stOk 0 [] := if_pos h

theorem foldl_of_fixed {α σ : Type} (f : σ → α → σ) (s : σ) (l : List α) (h : ∀ x ∈ l, f s x = s) : l.foldl f s = s := by
  induction l with
  | nil => rfl
  | cons x l ih =>
    obtain ⟨hx, hl⟩ := List.forall_mem_cons.1 h
    rw [List.foldl_cons, hx, ih hl]

theorem State.runOn_bindRegs (s : State) (d : FltDesc) (m : Nat) : (s.bindRegs d).runOn m = s.runOn m := by
  have hl := (State.follower_of_rg (n := m) (s.rg_bindRegs_ne d (by unfold Reg.FC_CYC_STAT; omega))).2
  unfold State.runOn
  rw [hl, State.bit_of_rg (s.rg_bindRegs_ne d (by unfold Reg.FC_CYC_CTRL; omega))]

/-! ### FCs that stand -/

/-- The FCs of a descriptor stand, each on its own. -/
def State.Stands (s : State) (d : FltDesc) : Prop :=
  ∀ m ∈ d.fcs, s.follower m = false ∧ s.runOn m = false ∧ s.cycling m = false

/-- The registers of a flight that BIND_FLIGHT sets up on FCs that stand: configured, and its leader's RUN at 1. -/
def State.setUp (d : FltDesc) (s : State) : State := ((s.bindRegs d).putCycle d).flag (Reg.FC_CYC_CTRL d.ld) F.FC_CYC_CTRL_RUN

/-- Steps 1 to 4 of R71 on FCs that stand. -/
def State.bindStart (d : FltDesc) (s : State) : State := (((s.bindRegs d).putCycle d).runStart d.ld).putLanes d

theorem State.rg_setUp_ne (s : State) (d : FltDesc) {a : Nat}
    (h : 0x10 ≤ a % 0x100000 ∧ a % 0x100000 < 0x40 ∨ 0x50 ≤ a % 0x100000 ∧ a % 0x100000 < 0x58)
    (hs : ∀ m, d.ld < m → a ≠ Reg.FC_CYC_STAT m) : (s.setUp d).rg a = s.rg a := by
  rw [State.setUp, State.rg_flag_ne _ _ (by unfold Reg.FC_CYC_CTRL; omega), State.rg_putCycle_ne _ _ (by omega) hs,
    s.rg_bindRegs_ne d (by omega)]

section stands

variable {s : State} {d : FltDesc} (h : d.Fits) (hst : s.Stands d)
include h hst

theorem State.head_bindStart (hcan : s.fcCan d.ld = true) :
    (s.bindStart d).head = (s.setUp d).head ∧ (s.bindStart d).hosts = s.hosts := by
  obtain ⟨hf, hr, hc⟩ := hst _ h.ld_mem_fcs
  have hstat : (s.bindRegs d).rg (Reg.FC_CYC_STAT d.ld) = s.rg (Reg.FC_CYC_STAT d.ld) :=
    s.rg_bindRegs_ne d (by unfold Reg.FC_CYC_STAT; omega)
  have hlead := State.leader_of_not_follower hf
  rw [State.runOn, hlead] at hr
  rw [State.cycling, hlead] at hc
  obtain ⟨hhead, hhosts⟩ := State.head_runStart_putCycle (s := s.bindRegs d) h ((State.bit_of_rg hstat _).trans hf)
    ((State.bit_of_rg (s.rg_bindRegs_ne d (by unfold Reg.FC_CYC_CTRL; omega)) _).trans hr)
    ((State.bit_of_rg hstat _).trans hc) ((s.fcCan_bindRegs d h.ld).trans hcan)
  exact ⟨(State.head_putLanes _ _).trans hhead, (State.hosts_putLanes _ _).trans (hhosts.trans (State.hosts_bindRegs _ _))⟩

theorem State.cycling_bindStart (hcan : s.fcCan d.ld = true) : (s.bindStart d).cycling d.ld = false := by
  obtain ⟨hf, -, hc⟩ := hst _ h.ld_mem_fcs
  have hstat : (s.setUp d).rg (Reg.FC_CYC_STAT d.ld) = s.rg (Reg.FC_CYC_STAT d.ld) :=
    s.rg_setUp_ne d (by unfold Reg.FC_CYC_STAT; omega) fun m hm => by unfold Reg.FC_CYC_STAT; omega
  have hlead := State.leader_of_not_follower hf
  rw [State.cycling_of_head (State.head_bindStart h hst hcan).1 h.ld, State.cycling, (State.follower_of_rg hstat).2, hlead,
    State.bit_of_rg hstat]
  rwa [State.cycling, hlead] at hc

theorem State.fltState_bindStart (hcan : s.fcCan d.ld = true) :
    (s.bindStart d).fltState d.ld d.slot = s.fltState d.ld d.slot := by
  have hf := d.slot_lt
  rw [State.fltState_of_head (State.head_bindStart h hst hcan).1 h.ld hf]
  exact State.fld_of_rg (s.rg_setUp_ne d (by unfold Reg.FC_FLT_STAT; omega) fun m _ => by
    unfold Reg.FC_FLT_STAT Reg.FC_CYC_STAT; omega) _

end stands

/-- The FCs of a flight that may be bound have their stores and memories ready to cycle (R285, R309). -/
theorem State.fcCan_of_no_conflict {s : State} {d : FltDesc} (h : s.bindConflict d = false) : ∀ m ∈ d.fcs, s.fcCan m = true := by
  simp only [State.bindConflict, Bool.or_eq_false_iff] at h
  obtain ⟨⟨-, hcan⟩, -⟩ := h
  simpa using hcan

theorem State.bindFlight_of_stands {s : State} {e : Entry} (hform : (fltDesc e).formOk e = true)
    (hbad : s.bindBad (fltDesc e) = false) (hcon : s.bindConflict (fltDesc e) = false) (hst : s.Stands (fltDesc e)) :
    s.bindFlight e = ((s.bindStart (fltDesc e)).setFlt (fltDesc e).ld (fltDesc e).slot 1).finish
      (nowWait e (s.fltState (fltDesc e).ld (fltDesc e).slot)) stOk 0 [] := by
  have h := FltDesc.fits_of_formOk hform
  have hcan := State.fcCan_of_no_conflict hcon _ h.ld_mem_fcs
  have hstop : (fltDesc e).fcs.foldl (fun s m => if s.runOn m then s.runStop m else s) (s.bindRegs (fltDesc e)) =
      s.bindRegs (fltDesc e) :=
    foldl_of_fixed _ _ _ fun m hm => if_neg (by simp [State.runOn_bindRegs, (hst m hm).2.1])
  have hcyc : ((fltDesc e).fcs.any fun m => (s.bindRegs (fltDesc e)).cycling m) = false :=
    List.any_eq_false.2 fun m hm => by simp [State.cycling_bindRegs, (hst m hm).2.2]
  unfold State.bindFlight
  dsimp only
  rw [if_neg (by simp [hform, hbad]), if_neg (by simp [hcon]), if_pos (by simp [(hst _ h.ld_mem_fcs).2.1]), hstop, hcyc,
    if_neg (by decide), State.bindRest_eq, e_nowWait]
  dsimp only
  rw [if_pos rfl, ← State.bindStart, State.cycling_bindStart h hst hcan, if_neg (by decide),
    State.bindState_of_same (State.fltState_bindStart h hst hcan)]

/-- A flight is bound on FCs that stand: its registers stand as set up, it is BOUND, and the command replies OK. -/
theorem bindFlight_binds {s : State} {e : Entry} (ha : Accepted 0x10 e s) (hform : (fltDesc e).formOk e = true)
    (hbad : s.bindBad (fltDesc e) = false) (hcon : s.bindConflict (fltDesc e) = false) (hst : s.Stands (fltDesc e))
    (hd : (s.port e.port).d3 = false) : Answers (.bindFlight e) s fun t =>
      t.mem = s.mem ∧ t.fltState (fltDesc e).ld (fltDesc e).slot = 1 ∧ Replied e 0 [] s t ∧
      ∀ a < 0x70000000, a % 0x100000 < 0x50 → t.rg a = ((s.popEntry e).setUp (fltDesc e)).rg a := by
  have h := FltDesc.fits_of_formOk hform
  have hf := (fltDesc e).slot_lt
  obtain ⟨hhead, hhosts⟩ := State.head_bindStart (s := s.popEntry e) h hst (State.fcCan_of_no_conflict hcon _ h.ld_mem_fcs)
  refine ⟨_, congrArg Host.Outcome.next ((State.take_accepted _ _ _ _ ha).trans
    (State.bindFlight_of_stands (s := s.popEntry e) hform hbad hcon hst)), State.mem_of_memTs ?_,
    (State.fltState_finish_nowWait _ _ _ _ _ _ _ h.ld hf).trans (State.fltState_setFlt _ h.ld hf (by decide)),
    replied_finish ((State.hosts_setFlt _ _ _ _).trans hhosts) hd _ _ _ _, fun a ha ho => ?_⟩
  · simp [State.bindStart, State.putLanes, State.putCycle]
  · rw [State.rg_finish_nowWait _ _ _ _ _ _ (by omega), State.rg_setFlt_below _ _ _ hf ha (.inl ho),
      State.rg_of_head hhead ha (by omega)]

/-! ### The registers of a flight that is set up -/

theorem State.rg_setUp_cfg {s : State} {d : FltDesc} (hst : s.Stands d) {i : Nat} (hi : i < d.gang) :
    (s.setUp d).rg (Reg.FC_FLT_CFG (d.ld + i) d.slot) = d.cfgWord i := by
  have hf := d.slot_lt
  rw [State.setUp, State.rg_flag_ne _ _ (by unfold Reg.FC_FLT_CFG Reg.FC_CYC_CTRL; omega),
    State.rg_putCycle_ne _ _ (by unfold Reg.FC_FLT_CFG; omega) fun m _ => by unfold Reg.FC_FLT_CFG Reg.FC_CYC_STAT; omega]
  exact State.rg_bindRegs_cfg (fun m hm => (hst m hm).2.2) hi

theorem State.nReq_setUp {s : State} {d : FltDesc} (h : d.Fits) (hst : s.Stands d) : (s.setUp d).nReq d.ld d.slot = d.nreq := by
  have hf := d.slot_lt
  have hreq : (s.setUp d).rg (Reg.FC_FLT_REQ d.ld d.slot) = BitVec.ofNat 32 d.nreq := by
    rw [State.setUp, State.rg_flag_ne _ _ (by unfold Reg.FC_FLT_REQ Reg.FC_CYC_CTRL; omega),
      State.rg_putCycle_ne _ _ (by unfold Reg.FC_FLT_REQ; omega) fun m _ => by unfold Reg.FC_FLT_REQ Reg.FC_CYC_STAT; omega]
    exact State.rg_bindRegs_req (fun m hm => (hst m hm).2.2) h
  have hle := h.req
  have hm := h.most
  rw [State.nReq, State.fld, hreq]
  simp only [fget, BitVec.toNat_ofNat, F.FC_FLT_REQ_N_REQ]
  omega

theorem State.run_setUp (s : State) (d : FltDesc) : (s.setUp d).bit (Reg.FC_CYC_CTRL d.ld) F.FC_CYC_CTRL_RUN = true :=
  State.bit_sf_self _ _ _ _ (by decide)

theorem State.len_setUp (s : State) {d : FltDesc} (h : d.Fits) : (s.setUp d).fld (Reg.FC_CYC_LEN d.ld) F.FC_CYC_LEN_LEN = d.len :=
  (State.fld_sf_ne _ _ _ _ (by unfold Reg.FC_CYC_LEN Reg.FC_CYC_CTRL; omega)).trans (State.cycle_putCycle _ h.cycle).1

theorem State.follows_setUp (s : State) {d : FltDesc} (h : d.Fits) {i : Nat} (hi : i < d.gang) (h0 : i ≠ 0) :
    (s.setUp d).follower (d.ld + i) = true ∧ (s.setUp d).leader (d.ld + i) = d.ld := by
  obtain ⟨j, rfl⟩ := Nat.exists_eq_succ_of_ne_zero h0
  obtain ⟨hf, hl⟩ := State.follower_of_rg (n := d.ld + j + 1) (s := (s.bindRegs d).putCycle d) (t := s.setUp d)
    (State.rg_flag_ne _ _ (by unfold Reg.FC_CYC_STAT Reg.FC_CYC_CTRL; omega))
  rw [Nat.succ_eq_add_one, ← Nat.add_assoc, hf, hl]
  exact State.follows_putCycle _ h.ld (by omega)

/-! ### The clauses -/

theorem bindFlight_binds_one (s : State) (e : Entry) (ha : Accepted 0x10 e s) (hform : (fltDesc e).formOk e = true)
    (hg : (fltDesc e).gang = 1) (hbad : s.bindBad (fltDesc e) = false) (hcon : s.bindConflict (fltDesc e) = false)
    (hfol : s.follower (fltDesc e).ld = false) (hd : (s.port e.port).d3 = false) (hrun : s.runOn (fltDesc e).ld = false)
    (hcyc : s.cycling (fltDesc e).ld = false) :
    let d := fltDesc e
    Answers (.bindFlight e) s fun t =>
      t.mem = s.mem ∧ t.bound d.ld d.slot = true ∧ t.flightOf d.ld d.slot = d.flight ∧
      t.fld (Reg.FC_FLT_CFG d.ld d.slot) F.FC_FLT_CFG_FIRST_LANE = d.first ∧
      t.fld (Reg.FC_FLT_CFG d.ld d.slot) F.FC_FLT_CFG_COUNT = d.cnt ∧ t.nReq d.ld d.slot = d.nreq ∧
      t.bit (Reg.FC_CYC_CTRL d.ld) F.FC_CYC_CTRL_RUN = true ∧
      t.fld (Reg.FC_CYC_LEN d.ld) F.FC_CYC_LEN_LEN = d.len ∧ t.fltState d.ld d.slot = 1 ∧ Replied e 0 [] s t := by
  have h := FltDesc.fits_of_formOk hform
  have hst : s.Stands (fltDesc e) := fun m hm => by
    obtain ⟨i, hi, rfl⟩ := FltDesc.mem_fcs.1 hm
    obtain rfl : i = 0 := by omega
    exact ⟨hfol, hrun, hcyc⟩
  obtain ⟨t, hx, hmem, hflt, hrep, hrg⟩ := bindFlight_binds ha hform hbad hcon hst hd
  have hld := h.ld
  have hs := (fltDesc e).slot_lt
  have hset := State.rg_setUp_cfg (s := s.popEntry e) hst h.gang_pos
  rw [Nat.add_zero] at hset
  have hcfg : t.rg (Reg.FC_FLT_CFG (fltDesc e).ld (fltDesc e).slot) = (fltDesc e).cfgWord 0 :=
    (hrg _ (by unfold Reg.FC_FLT_CFG; omega) (by unfold Reg.FC_FLT_CFG; omega)).trans hset
  obtain ⟨hflight, hbound⟩ := h.fget_cfgWord 0
  obtain ⟨hfirst, hcount⟩ := h.fget_cfgWord_single hg
  refine ⟨t, hx, hmem, ?_, ?_, ?_, ?_, ?_, ?_, ?_, hflt, hrep⟩
  · rw [State.bound, State.bit, State.fld, hcfg, hbound]
    rfl
  · rw [State.flightOf, State.fld, hcfg, hflight]
  · rw [State.fld, hcfg, hfirst]
  · rw [State.fld, hcfg, hcount]
  · exact (State.fld_of_rg (hrg _ (by unfold Reg.FC_FLT_REQ; omega) (by unfold Reg.FC_FLT_REQ; omega)) _).trans
      (State.nReq_setUp (s := s.popEntry e) h hst)
  · exact (State.bit_of_rg (hrg _ (by unfold Reg.FC_CYC_CTRL; omega) (by unfold Reg.FC_CYC_CTRL; omega)) _).trans
      (State.run_setUp _ _)
  · exact (State.fld_of_rg (hrg _ (by unfold Reg.FC_CYC_LEN; omega) (by unfold Reg.FC_CYC_LEN; omega)) _).trans
      (State.len_setUp _ h)

theorem bindFlight_binds_gang (s : State) (e : Entry) (ha : Accepted 0x10 e s) (hform : (fltDesc e).formOk e = true)
    (hg : (fltDesc e).gang ≠ 1) (hbad : s.bindBad (fltDesc e) = false) (hcon : s.bindConflict (fltDesc e) = false)
    (hst : s.Stands (fltDesc e)) (hd : (s.port e.port).d3 = false) :
    let d := fltDesc e
    Answers (.bindFlight e) s fun t =>
      t.mem = s.mem ∧ (∀ m ∈ d.fcs, t.bound m 0 = true ∧ t.flightOf m 0 = d.flight) ∧
      (∀ m ∈ d.fcs, m ≠ d.ld → t.follower m = true ∧ t.leader m = d.ld) ∧
      t.bit (Reg.FC_CYC_CTRL d.ld) F.FC_CYC_CTRL_RUN = true ∧ t.fltState d.ld 0 = 1 ∧ Replied e 0 [] s t := by
  have h := FltDesc.fits_of_formOk hform
  obtain ⟨t, hx, hmem, hflt, hrep, hrg⟩ := bindFlight_binds ha hform hbad hcon hst hd
  have hld := h.ld
  have hslot : (fltDesc e).slot = 0 := if_pos (by have := h.gang; simp; omega)
  rw [hslot] at hflt
  refine ⟨t, hx, hmem, fun m hm => ?_, fun m hm hne => ?_, ?_, hflt, hrep⟩
  · obtain ⟨i, hi, rfl⟩ := FltDesc.mem_fcs.1 hm
    have hlt := h.fc_lt hi
    have hset := State.rg_setUp_cfg (s := s.popEntry e) hst hi
    rw [hslot] at hset
    have hcfg : t.rg (Reg.FC_FLT_CFG ((fltDesc e).ld + i) 0) = (fltDesc e).cfgWord i :=
      (hrg _ (by unfold Reg.FC_FLT_CFG; omega) (by unfold Reg.FC_FLT_CFG; omega)).trans hset
    obtain ⟨hflight, hbound⟩ := h.fget_cfgWord i
    rw [State.bound, State.bit, State.flightOf, State.fld, State.fld, hcfg, hbound]
    exact ⟨rfl, hflight⟩
  · obtain ⟨i, hi, rfl⟩ := FltDesc.mem_fcs.1 hm
    have hlt := h.fc_lt hi
    obtain ⟨hf, hl⟩ := State.follower_of_rg (hrg (Reg.FC_CYC_STAT ((fltDesc e).ld + i)) (by unfold Reg.FC_CYC_STAT; omega)
      (by unfold Reg.FC_CYC_STAT; omega))
    rw [hf, hl]
    exact State.follows_setUp _ h hi (by omega)
  · exact (State.bit_of_rg (hrg _ (by unfold Reg.FC_CYC_CTRL; omega) (by unfold Reg.FC_CYC_CTRL; omega)) _).trans
      (State.run_setUp _ _)

/-! ### An FC that cycles -/

/-- A write that is held for the sample instant of an FC that cycles (R435, R440). -/
theorem State.heldWrite_of_cycling {s : State} {n : Nat} (h : s.cycling n = true) (a : Nat) (v : Word) :
    s.heldWrite n a v = s.mapFc n fun x => { x with writes := x.writes ++ [(a, v)] } := if_pos h

/-- The Keeper, and the writes that FC `n` holds for its sample instant. -/
def State.held (n : Nat) (s : State) : KeepSt × List (Nat × Word) := (s.keep, (s.fc n).writes)

theorem State.held_of_still {s t : State} (h : t.still FcSt.clock = s.still FcSt.clock) (n : Nat) : t.held n = s.held n := by
  have hw := congrArg FcSt.writes (State.fc_of_still h n)
  exact congrArg₂ Prod.mk (State.keep_of_still h) hw

theorem State.held_heldWrite {s : State} {n : Nat} (h : s.cycling n = true) (a : Nat) (v : Word) :
    (s.heldWrite n a v).held n = (s.keep, (s.fc n).writes ++ [(a, v)]) := by
  rw [State.heldWrite_of_cycling h, State.held, State.fc_mapFc_self]
  rfl

theorem State.cycling_heldWrite {s : State} {n : Nat} (h : s.cycling n = true) (a : Nat) (v : Word) :
    (s.heldWrite n a v).cycling n = true := by
  rw [State.heldWrite_of_cycling h]
  exact h

/-- The configuration of a flight on one FC that cycles is held. -/
theorem State.held_bindRegs {s : State} {d : FltDesc} (hg : d.gang = 1) (hc : s.cycling d.ld = true) :
    (s.bindRegs d).held d.ld = (s.keep, (s.fc d.ld).writes ++
      [(Reg.FC_FLT_CFG d.ld d.slot, d.cfgWord 0), (Reg.FC_FLT_REQ d.ld d.slot, BitVec.ofNat 32 d.nreq),
        (Reg.FC_HUB_MASK d.ld d.slot, BitVec.ofNat 32 d.hub)]) := by
  have hcfg : s.putCfg d = s.heldWrite d.ld (Reg.FC_FLT_CFG d.ld d.slot) (d.cfgWord 0) := by
    rw [State.putCfg, hg]
    rfl
  have hc1 := State.cycling_heldWrite hc (Reg.FC_FLT_CFG d.ld d.slot) (d.cfgWord 0)
  have hc2 := State.cycling_heldWrite hc1 (Reg.FC_FLT_REQ d.ld d.slot) (BitVec.ofNat 32 d.nreq)
  have h1 := State.held_heldWrite hc (Reg.FC_FLT_CFG d.ld d.slot) (d.cfgWord 0)
  have h2 := State.held_heldWrite hc1 (Reg.FC_FLT_REQ d.ld d.slot) (BitVec.ofNat 32 d.nreq)
  have h3 := State.held_heldWrite hc2 (Reg.FC_HUB_MASK d.ld d.slot) (BitVec.ofNat 32 d.hub)
  have hlanes : (s.bindRegs d).still FcSt.clock =
      (((s.putCfg d).heldWrite d.ld (Reg.FC_FLT_REQ d.ld d.slot) (BitVec.ofNat 32 d.nreq)).heldWrite d.ld
        (Reg.FC_HUB_MASK d.ld d.slot) (BitVec.ofNat 32 d.hub)).still FcSt.clock := by
    rw [State.bindRegs_eq]
    simp
  obtain ⟨hk1, hw1⟩ := Prod.mk.inj h1
  obtain ⟨hk2, hw2⟩ := Prod.mk.inj h2
  rw [State.held_of_still hlanes, hcfg, h3, hk2, hw2, hk1, hw1]
  simp

theorem State.bindFlight_of_cycling {s : State} {e : Entry} (hform : (fltDesc e).formOk e = true) (hg : (fltDesc e).gang = 1)
    (hbad : s.bindBad (fltDesc e) = false) (hcon : s.bindConflict (fltDesc e) = false) (hrun : s.runOn (fltDesc e).ld = true)
    (hc : s.cycling (fltDesc e).ld = true)
    (hv : s.cycVals (fltDesc e).ld = ((fltDesc e).len, (fltDesc e).phase, (fltDesc e).lat)) :
    let st := s.fltState (fltDesc e).ld (fltDesc e).slot
    s.bindFlight e = (((s.bindRegs (fltDesc e)).putLanes (fltDesc e)).dropWait (nowWait e st)).mapKeep fun k =>
      { k with waits := k.waits ++ [{ nowWait e st with on := .sample (fltDesc e).ld }] } := by
  have hld := (FltDesc.fits_of_formOk hform).ld
  have hcyc : ((s.bindRegs (fltDesc e)).putLanes (fltDesc e)).cycling (fltDesc e).ld = true :=
    (State.cycling_of_head (State.head_putLanes _ _) hld).trans ((congrFun (s.cycling_bindRegs _) _).trans hc)
  unfold State.bindFlight
  dsimp only
  rw [if_neg (by simp [hform, hbad]), if_neg (by simp [hcon]), if_neg (by simp [hg, hrun, hv]), State.bindRest_eq]
  exact if_pos hcyc

theorem bindFlight_joins_cycle (s : State) (e : Entry) (ha : Accepted 0x10 e s) (hform : (fltDesc e).formOk e = true)
    (hg : (fltDesc e).gang = 1) (hbad : s.bindBad (fltDesc e) = false) (hcon : s.bindConflict (fltDesc e) = false)
    (hrun : s.runOn (fltDesc e).ld = true) (hc : s.cycling (fltDesc e).ld = true)
    (hv : s.cycVals (fltDesc e).ld = ((fltDesc e).len, (fltDesc e).phase, (fltDesc e).lat)) :
    let d := fltDesc e
    let st := s.fltState d.ld d.slot
    Answers (.bindFlight e) s fun t =>
      t.mem = s.mem ∧
      (t.fc d.ld).writes = (s.fc d.ld).writes ++
        [(Reg.FC_FLT_CFG d.ld d.slot, BitVec.ofNat 32 (d.flight + 32 + 256 * d.first + 65536 * d.cnt + 2 ^ 24 * d.refsrc)),
         (Reg.FC_FLT_REQ d.ld d.slot, BitVec.ofNat 32 d.nreq), (Reg.FC_HUB_MASK d.ld d.slot, BitVec.ofNat 32 d.hub)] ∧
      t.keep.waits =
        s.keep.waits.erase (nowWait e st) ++ [{ e := e, live := true, silent := false, on := .sample d.ld, st := st }] := by
  obtain ⟨hkeep, hwrites⟩ := Prod.mk.inj ((State.held_of_still (State.still_putLanes (fltDesc e) _) _).trans
    (State.held_bindRegs (s := s.popEntry e) hg hc))
  refine ⟨_, congrArg Host.Outcome.next ((State.take_accepted _ _ _ _ ha).trans
    (State.bindFlight_of_cycling (s := s.popEntry e) hform hg hbad hcon hrun hc hv)),
    State.mem_of_memTs (by simp [State.putLanes]), ?_, ?_⟩
  · rw [← (FltDesc.fits_of_formOk hform).cfgWord_single hg]
    exact hwrites
  · exact congrArg (fun k : KeepSt => k.waits.erase (nowWait e _) ++ [{ nowWait e _ with on := .sample (fltDesc e).ld }]) hkeep

end Sys2Proof.Machine
end
section
/-! UNBIND_FLIGHT (O20). -/

namespace Sys2Proof.Machine

/-! ### Lanes that are OFF stay so -/

section laneOff

variable {l : Nat} (hl : l / 64 < 256)
include hl

theorem lnkStat_place : lnkStat l < 0x70000000 ∧ 0x1000 ≤ lnkStat l % 0x100000 ∧ lnkStat l % 0x100000 < 0x2000 := by
  unfold lnkStat Reg.LNK_STAT
  omega

/-- A write outside the lane blocks of the FCs leaves every lane's state. -/
theorem State.laneState_wr (s : State) {a : Nat} (h : a % 0x100000 < 0x1000 ∨ 0x2000 ≤ a % 0x100000) (v : Word) :
    (s.wr a v).laneState l = s.laneState l := by
  obtain ⟨-, hlo, hhi⟩ := lnkStat_place hl
  exact State.laneState_of_rg (s.rg_wr_ne v fun e => by rw [e] at hlo hhi; omega)

theorem State.laneState_sf (s : State) {a : Nat} (h : a % 0x100000 < 0x1000 ∨ 0x2000 ≤ a % 0x100000) (f : Fld) (x : Nat) :
    (s.sf a f x).laneState l = s.laneState l := s.laneState_wr hl h _

/-- A lane that falls silent is OFF (R37). -/
theorem State.laneState_lnkEnable_self (s : State) : (s.lnkEnable l false).laneState l = 0 := by
  obtain ⟨hlow, -, hhi⟩ := lnkStat_place hl
  have hset : ∀ u : State, (u.setLane l 0).laneState l = 0 := fun u => by
    have hr : (u.setLane l 0).rg (lnkStat l) = (u.sf (lnkStat l) F.LNK_STAT_STATE 0).rg (lnkStat l) := by
      unfold State.setLane State.mapBit
      dsimp only
      rw [State.rg_lossOfLink _ _ hlow (by omega), State.rg_ite, State.rg_mapLane, ite_self,
        State.rg_wr_ne _ _ (by unfold Reg.LNK_LOST_LO; omega), State.rg_wr_ne _ _ (by unfold Reg.LNK_READY_LO; omega)]
    exact (State.laneState_of_rg hr).trans (u.fld_sf_self _ _ _ (by decide))
  exact hset _

/-- A lane that falls silent turns no other lane on. -/
theorem State.off_lnkEnable {s : State} (k : Nat) (h : s.laneState l = 0) : (s.lnkEnable k false).laneState l = 0 := by
  obtain ⟨hlow, -, hhi⟩ := lnkStat_place hl
  by_cases hk : l = k
  · subst hk
    exact s.laneState_lnkEnable_self hl
  · have hoff : (s.lnkEnable k false).rg (lnkStat l) = s.rg (lnkStat l) :=
      (State.rg_laneOff _ hlow (by omega) (lnkStat_ne hk)).trans
        (s.rg_sb_ne _ _ (by unfold lnkStat Reg.LNK_STAT Reg.LNK_CTRL; omega))
    rw [State.laneState_of_rg hoff, h]

theorem State.laneState_setCause (s : State) (n c : Nat) (on : Bool) : (s.setCause n c on).laneState l = s.laneState l :=
  State.laneState_of_rg (s.rg_setCause n c on (lnkStat_place hl).1)

theorem State.laneState_cfgFollow (s : State) (m : Nat) : (s.cfgFollow m).laneState l = s.laneState l := by
  obtain ⟨hlow, -, hhi⟩ := lnkStat_place hl
  have hsplit : ∀ u : State, (u.splitBits m).laneState l = u.laneState l := fun u =>
    forN_frame (State.laneState · l) 2 _ u fun f hf v => v.laneState_wr hl (by unfold Reg.OBS_BANK; omega) _
  unfold State.cfgFollow
  rw [State.laneState_of_rg (State.rg_sluRefresh _ (.inl hlow)), hsplit,
    State.laneState_of_rg (State.rg_lossEval _ _ _ hlow (by omega)),
    State.laneState_of_rg (State.rg_lossEval _ _ _ hlow (by omega))]

end laneOff

/-! ### The parts of UNBIND_FLIGHT -/

/-- A lane of a flight that ends: kept with KEEP = 1 where it is the leader's, silent otherwise (R77). -/
def State.freeLane (n : Nat) (keep : Bool) (s : State) (l : Nat) : State :=
  let s := s.mapLane l fun x => { x with ovNow := false, avail := false, qual := false, adm := false }
  let s := s.sf (ledFlags l) ⟨19, 1⟩ 0
  if keep && l / 64 = n then s.mapLane l fun x => { x with kept := s.laneState l != 0, descNew := false }
  else s.lnkEnable l false

/-- The causes and the banks of a flight that ends (R107, R113). -/
def State.freeBanks (n f : Nat) (ms : List Nat) (s : State) : State :=
  let s := ms.foldl (fun s m => s.ovEval m) s
  let s := ((s.sf (Reg.LED_STAT n f) F.LED_STAT_SRC_FAULT 0).setCause n (3 + f) false)
  let s := forN 2 (fun b s => s.setBankVal n f b false) s
  (s.sf (Reg.OBS_BANK n f) F.OBS_BANK_SWAP_PEND 0).showSet n f

/-- A flight that ends (R77). -/
def State.freed (n f : Nat) (keep : Bool) (s : State) : State :=
  let ms := s.members n f
  let u := ((s.slotLinks n f).foldl (State.freeLane n keep) (s.setFlt n f 0)).freeBanks n f ms
  ms.foldl (fun s m => s.cfgFollow m) ((u.clearCfg n f ms).gangEnd ms)

section unbind

variable {s : State} {e : Entry} {n f : Nat} (hs : s.slotOf (eTarget e) = some (n, f))
  (hst : s.fltState n f = 1 ∨ s.fltState n f = 2 ∨ s.fltState n f = 5)
include hs hst

theorem State.unbindFlight_of_state (h1 : ent e 8 1 ≤ 1) (hz : zeroes e 9 48 = true) :
    s.unbindFlight e = s.atSample n e (s.fltState n f) State.unbindAt := by
  have hbad : ¬ (decide (1 < ent e 8 1) || !zeroes e 9 48) = true := by simp [hz]; omega
  unfold State.unbindFlight
  rw [if_neg hbad, hs]
  exact if_pos (by obtain h | h | h := hst <;> simp [h])

theorem State.unbindAt_of_state : s.unbindAt (nowWait e (s.fltState n f)) =
    (s.freed n f (ent e 8 1 % 2 == 1)).finish (nowWait e (s.fltState n f)) stOk 0 [] := by
  unfold State.unbindAt
  rw [e_nowWait, hs]
  exact if_neg (by obtain h | h | h := hst <;> simp [h])

end unbind

/-! ### The slot is free -/

theorem State.rg_clearCfg_cfg (s : State) {n f : Nat} {ms : List Nat} (hne : ∀ m ∈ ms, m ≠ n) :
    (s.clearCfg n f (n :: ms)).rg (Reg.FC_FLT_CFG n f) = 0 := by
  have hrest : ∀ u : State, (ms.foldl (fun s m => s.wr (Reg.FC_FLT_CFG m f) 0) u).rg (Reg.FC_FLT_CFG n f) =
      u.rg (Reg.FC_FLT_CFG n f) := fun u =>
    foldl_frame_mem (State.rg · (Reg.FC_FLT_CFG n f)) ms _ u fun m hm v => v.rg_wr_ne 0 (by
      have := hne m hm
      unfold Reg.FC_FLT_CFG
      omega)
  rw [State.clearCfg, State.rg_mapSlot, State.rg_sf_ne _ _ _ (by unfold Reg.FC_FLT_CFG Reg.FC_FLT_STAT; omega),
    State.rg_wr_ne _ _ (by unfold Reg.FC_FLT_CFG Reg.FC_HUB_MASK; omega),
    State.rg_wr_ne _ _ (by unfold Reg.FC_FLT_CFG Reg.FC_FLT_REQ; omega), List.foldl_cons, hrest, State.rg_wr_self]

theorem State.rg_clearCfg_req (s : State) (n f : Nat) (ms : List Nat) :
    (s.clearCfg n f ms).rg (Reg.FC_FLT_REQ n f) = 0 := by
  rw [State.clearCfg, State.rg_mapSlot, State.rg_sf_ne _ _ _ (by unfold Reg.FC_FLT_REQ Reg.FC_FLT_STAT; omega),
    State.rg_wr_ne _ _ (by unfold Reg.FC_FLT_REQ Reg.FC_HUB_MASK; omega), State.rg_wr_self]

/-- A follower of a gang that ends (R77). -/
def State.leaveGang (s : State) (m : Nat) : State :=
  let s := forN 64 (fun i s => if s.bit (Reg.LNK_CTRL m i) F.LNK_CTRL_ENABLE then s.lnkEnable (64 * m + i) false else s) s
  let s := (s.sf (Reg.FC_CYC_STAT m) F.FC_CYC_STAT_FOLLOWER 0).sf (Reg.FC_CYC_STAT m) F.FC_CYC_STAT_LEADER m
  ((s.sf (Reg.FC_CYC_CTRL m) F.FC_CYC_CTRL_RUN 0).sf (Reg.FC_CYC_STAT m) F.FC_CYC_STAT_RUNNING 0).switchEnd m

theorem State.gangEnd_eq (ms : List Nat) (s : State) : s.gangEnd ms = (ms.drop 1).foldl State.leaveGang s := rfl

/-- The end of a gang leaves the registers of the flights. -/
theorem State.rg_gangEnd (s : State) (ms : List Nat) {a : Nat} (ha : a < 0x70000000) (hlo : 0x40 ≤ a % 0x100000)
    (hhi : a % 0x100000 < 0x1000) : (s.gangEnd ms).rg a = s.rg a := by
  rw [State.gangEnd_eq]
  exact foldl_frame (State.rg · a) _ State.leaveGang s fun t m => by
    have hstat : a ≠ Reg.FC_CYC_STAT m := by unfold Reg.FC_CYC_STAT; omega
    have hctrl : a ≠ Reg.FC_CYC_CTRL m := by unfold Reg.FC_CYC_CTRL; omega
    have hlanes := forN_frame State.head 64 (fun i s =>
      if s.bit (Reg.LNK_CTRL m i) F.LNK_CTRL_ENABLE then s.lnkEnable (64 * m + i) false else s) t fun i _ u => by simp
    rw [State.leaveGang, State.switchEnd, State.rg_mapFc, State.rg_sf_ne _ _ _ hstat, State.rg_sf_ne _ _ _ hctrl,
      State.rg_sf_ne _ _ _ hstat, State.rg_sf_ne _ _ _ hstat, State.rg_of_head hlanes ha hhi]

theorem State.rg_freed (s : State) {n f a : Nat} (keep : Bool) (ha : a < 0x70000000) (hlo : 0x40 ≤ a % 0x100000)
    (hhi : a % 0x100000 < 0x1000) : (s.freed n f keep).rg a =
      ((((s.slotLinks n f).foldl (State.freeLane n keep) (s.setFlt n f 0)).freeBanks n f (s.members n f)).clearCfg n f
        (s.members n f)).rg a :=
  (State.rg_of_head (State.head_foldl _ _ _ fun t m => t.head_cfgFollow m) ha hhi).trans (State.rg_gangEnd _ _ ha hlo hhi)

/-- A flight that has ended leaves its slot unbound, with N_REQ 0. -/
theorem State.bound_freed (s : State) {n f : Nat} (keep : Bool) (hn : n < 16) (hf : f < 2) :
    (s.freed n f keep).bound n f = false ∧ (s.freed n f keep).nReq n f = 0 := by
  obtain ⟨ms, hms, hne⟩ := s.members_eq_cons n f
  have hcfg : (s.freed n f keep).rg (Reg.FC_FLT_CFG n f) = 0 := by
    rw [s.rg_freed keep (by unfold Reg.FC_FLT_CFG; omega) (by unfold Reg.FC_FLT_CFG; omega) (by unfold Reg.FC_FLT_CFG; omega), hms,
      State.rg_clearCfg_cfg _ hne]
  have hreq : (s.freed n f keep).rg (Reg.FC_FLT_REQ n f) = 0 := by
    rw [s.rg_freed keep (by unfold Reg.FC_FLT_REQ; omega) (by unfold Reg.FC_FLT_REQ; omega) (by unfold Reg.FC_FLT_REQ; omega),
      State.rg_clearCfg_req]
  rw [State.bound, State.bit, State.fld, hcfg, State.nReq, State.fld, hreq]
  exact ⟨rfl, rfl⟩

/-! ### Its lanes are OFF -/

/-- What the step for one element of a list makes true, and every step keeps, is true in the end. -/
theorem foldl_of_mem {α σ : Type} {P : σ → Prop} {f : σ → α → σ} {x : α} (hself : ∀ s, P (f s x))
    (hkeep : ∀ y s, P s → P (f s y)) {l : List α} (hx : x ∈ l) (s : σ) : P (l.foldl f s) := by
  induction l generalizing s with
  | nil => cases hx
  | cons y l ih =>
    obtain rfl | hl := List.mem_cons.1 hx
    · exact List.foldlRecOn l f (hself s) fun t ht z _ => hkeep z t ht
    · exact ih hl _

section laneOff

variable {l : Nat} (hl : l / 64 < 256)
include hl

theorem State.laneState_freeLane_self (s : State) (n : Nat) : (s.freeLane n false l).laneState l = 0 :=
  State.laneState_lnkEnable_self hl _

theorem State.off_freeLane {s : State} (n k : Nat) (h : s.laneState l = 0) : (s.freeLane n false k).laneState l = 0 :=
  State.off_lnkEnable hl k ((State.laneState_wr hl _ (by unfold ledFlags Reg.LED_CELL; omega) _).trans h)

theorem State.laneState_setBankVal (s : State) (n : Nat) {f : Nat} (hf : f < 2) (b : Nat) (v : Bool) :
    (s.setBankVal n f b v).laneState l = s.laneState l := State.laneState_wr hl s (by unfold Reg.OBS_BANK; omega) _

theorem State.laneState_freeBanks (s : State) (n : Nat) {f : Nat} (hf : f < 2) (ms : List Nat) :
    (s.freeBanks n f ms).laneState l = s.laneState l := by
  obtain ⟨-, hlo, hhi⟩ := lnkStat_place hl
  have hbank : lnkStat l ≠ Reg.OBS_BANK n f := fun e => by rw [e] at hhi; unfold Reg.OBS_BANK at hhi; omega
  have hset : lnkStat l ≠ Reg.OBS_SETID n f := fun e => by rw [e] at hhi; unfold Reg.OBS_SETID at hhi; omega
  have hled : lnkStat l ≠ Reg.LED_STAT n f := fun e => by rw [e] at hhi; unfold Reg.LED_STAT at hhi; omega
  have hvals : ∀ u : State, (forN 2 (fun b s => s.setBankVal n f b false) u).laneState l = u.laneState l := fun u =>
    forN_frame (State.laneState · l) 2 _ u fun b _ v => v.laneState_setBankVal hl n hf b false
  have hov : ∀ u : State, (ms.foldl (fun s m => s.ovEval m) u).laneState l = u.laneState l := fun u =>
    foldl_frame (State.laneState · l) ms _ u fun v m => v.laneState_setCause hl m 5 _
  unfold State.freeBanks
  dsimp only
  rw [State.laneState_of_rg (State.rg_showSet_ne _ hbank hset), State.laneState_of_rg (State.rg_sf_ne _ _ _ hbank), hvals,
    State.laneState_setCause hl, State.laneState_of_rg (State.rg_sf_ne _ _ _ hled), hov]

theorem State.laneState_clearCfg (s : State) (n : Nat) {f : Nat} (hf : f < 2) (ms : List Nat) :
    (s.clearCfg n f ms).laneState l = s.laneState l := by
  have hcfg : (ms.foldl (fun s m => s.wr (Reg.FC_FLT_CFG m f) 0) s).laneState l = s.laneState l :=
    foldl_frame (State.laneState · l) ms _ s fun v m => v.laneState_wr hl (by unfold Reg.FC_FLT_CFG; omega) _
  rw [State.clearCfg, State.laneState_of_rg (State.rg_mapSlot _ _ _ _),
    State.laneState_sf hl _ (by unfold Reg.FC_FLT_STAT; omega), State.laneState_wr hl _ (by unfold Reg.FC_HUB_MASK; omega),
    State.laneState_wr hl _ (by unfold Reg.FC_FLT_REQ; omega), hcfg]

theorem State.off_gangEnd {s : State} (ms : List Nat) (h : s.laneState l = 0) : (s.gangEnd ms).laneState l = 0 := by
  rw [State.gangEnd_eq]
  exact List.foldlRecOn (ms.drop 1) State.leaveGang h fun t ht m _ => by
    have hlanes : (forN 64 (fun i s =>
        if s.bit (Reg.LNK_CTRL m i) F.LNK_CTRL_ENABLE then s.lnkEnable (64 * m + i) false else s) t).laneState l = 0 :=
      forN_induct (fun u : State => u.laneState l = 0) 64 _ t ht fun i _ u hu => by
        split
        · exact State.off_lnkEnable hl _ hu
        · exact hu
    have hstat : Reg.FC_CYC_STAT m % 0x100000 < 0x1000 := by unfold Reg.FC_CYC_STAT; omega
    have hctrl : Reg.FC_CYC_CTRL m % 0x100000 < 0x1000 := by unfold Reg.FC_CYC_CTRL; omega
    rw [State.leaveGang, State.switchEnd, State.laneState_of_rg (State.rg_mapFc _ _ _), State.laneState_sf hl _ (.inl hstat),
      State.laneState_sf hl _ (.inl hctrl), State.laneState_sf hl _ (.inl hstat), State.laneState_sf hl _ (.inl hstat), hlanes]

/-- With KEEP = 0 every lane of a flight that ends is OFF (R77). -/
theorem State.laneState_freed (s : State) {n f : Nat} (hf : f < 2) (hx : l ∈ s.slotLinks n f) :
    (s.freed n f false).laneState l = 0 := by
  have hoff : ((s.slotLinks n f).foldl (State.freeLane n false) (s.setFlt n f 0)).laneState l = 0 :=
    foldl_of_mem (P := fun u : State => u.laneState l = 0) (fun u => u.laneState_freeLane_self hl n)
      (fun k _ h => State.off_freeLane hl n k h) hx _
  have hfollow : ∀ (ms : List Nat) (u : State), (ms.foldl (fun s m => s.cfgFollow m) u).laneState l = u.laneState l :=
    fun ms u => foldl_frame (State.laneState · l) ms _ u fun v m => v.laneState_cfgFollow hl m
  refine (hfollow _ _).trans (State.off_gangEnd hl _ ?_)
  rw [State.laneState_clearCfg hl _ n hf, State.laneState_freeBanks hl _ n hf, hoff]

end laneOff

/-- The links of a flight lie in FC windows. -/
theorem State.window_of_slotLinks {s : State} {n f l : Nat} (hn : n < 16) (h : l ∈ s.slotLinks n f) : l / 64 < 256 := by
  have hmem : ∀ m ∈ s.members n f, m < 24 := by
    have hgang : s.gangSize n f ≤ 2 ^ 3 := Nat.pow_le_pow_right (by decide) (Nat.le_of_lt_succ (s.fld_lt _ F.FC_FLT_CFG_GANG))
    unfold State.members
    split
    · simp only [List.mem_map, List.mem_range]
      rintro m ⟨i, hi, rfl⟩
      omega
    · simp only [List.mem_singleton]
      omega
  unfold State.slotLinks at h
  obtain ⟨m, hm, hl⟩ := List.mem_flatMap.1 h
  obtain ⟨i, hi, rfl⟩ := List.mem_map.1 hl
  have hcnt : s.fld (Reg.FC_FLT_CFG m f) F.FC_FLT_CFG_COUNT < 128 := s.fld_lt _ _
  have hfirst : s.fld (Reg.FC_FLT_CFG m f) F.FC_FLT_CFG_FIRST_LANE < 64 := s.fld_lt _ _
  have hi := List.mem_range.1 hi
  have hm := hmem m hm
  omega

/-! ### The clause -/

@[simp] theorem State.hosts_freed (n f : Nat) (keep : Bool) (s : State) : (s.freed n f keep).hosts = s.hosts := by
  simp [State.freed, State.freeBanks, State.freeLane]

theorem unbindFlight_frees (s : State) (e : Entry) (n f : Nat) (ha : Accepted 0x11 e s) (h1 : ent e 8 1 ≤ 1)
    (hz : zeroes e 9 48 = true) (hs : s.slotOf (eTarget e) = some (n, f))
    (hst : s.fltState n f = 1 ∨ s.fltState n f = 2 ∨ s.fltState n f = 5) (hd : (s.port e.port).d3 = false) :
    Answers (.unbindFlight e) s fun t =>
      t.mem = s.mem ∧
      (s.cycling n = true →
        t.keep.waits = s.keep.waits ++ [{ e := e, live := true, silent := false, on := .sample n, st := s.fltState n f }]) ∧
      (s.cycling n = false → t.bound n f = false ∧ t.nReq n f = 0 ∧ Replied e 0 [] s t ∧
        (ent e 8 1 = 0 → ∀ l ∈ s.slotLinks n f, t.laneState l = 0)) := by
  obtain ⟨hn, hf, -⟩ := State.slotOf_spec hs
  have hx : exec (.unbindFlight e) s = .next ((s.popEntry e).atSample n e (s.fltState n f) State.unbindAt) :=
    congrArg Host.Outcome.next ((State.take_accepted _ _ _ _ ha).trans
      (State.unbindFlight_of_state (s := s.popEntry e) hs hst h1 hz))
  have hat : (s.popEntry e).unbindAt (nowWait e (s.fltState n f)) = _ := State.unbindAt_of_state (s := s.popEntry e) hs hst
  refine answers_atSample hx (State.mem_of_memTs (by simp)) rfl rfl fun _ => ?_
  obtain ⟨hbound, hreq⟩ := (s.popEntry e).bound_freed (ent e 8 1 % 2 == 1) hn hf
  rw [hat]
  refine ⟨(State.bit_of_rg (State.rg_finish_nowWait _ _ _ _ _ _ (by unfold Reg.FC_FLT_CFG; omega)) _).trans hbound,
    (State.fld_of_rg (State.rg_finish_nowWait _ _ _ _ _ _ (by unfold Reg.FC_FLT_REQ; omega)) _).trans hreq,
    replied_finish (by simp) hd _ _ _ _, fun hkeep l hl => ?_⟩
  have hw := State.window_of_slotLinks hn hl
  rw [hkeep, State.laneState_of_rg (State.rg_finish_nowWait _ _ _ _ _ _ (by have := (lnkStat_place hw).1; omega))]
  exact State.laneState_freed hw (s.popEntry e) hf hl

end Sys2Proof.Machine

open Sys2Proof.Machine

/-- Settles O20, clause by clause. -/
theorem bindingsAreMadeAndEnded : Obligations.BindingsAreMadeAndEnded :=
  ⟨bindFlight_binds_one, bindFlight_joins_cycle, bindFlight_binds_gang, unbindFlight_frees⟩

end

section
/-! What the steps of a cycle from tick 184 on leave alone (O17, O18): the registers of the cycles and the flights, and the
flight slots. -/

namespace Sys2Proof.Machine

/-! ### Loops over slots and lanes -/

/-- A loop over distinct elements does to what belongs to one of them what that element's turn does, where no other turn
touches it. -/
theorem foldl_view {σ τ α : Type} (g : σ → τ) {x : α} {l : List α} (f : σ → α → σ) (s : σ) (hl : l.Nodup) (hx : x ∈ l)
    (h : ∀ y ∈ l, y ≠ x → ∀ s, g (f s y) = g s) : ∃ u, g u = g s ∧ g (l.foldl f s) = g (f u x) := by
  induction l generalizing s with
  | nil => cases hx
  | cons y l ih =>
    obtain ⟨hy, hl⟩ := List.nodup_cons.1 hl
    by_cases hxy : y = x
    · subst hxy
      exact ⟨s, rfl, foldl_frame_mem g l f _ fun z hz => h z (List.mem_cons_of_mem _ hz) fun e => hy (e ▸ hz)⟩
    · obtain ⟨u, hu, he⟩ := ih (f s y) hl ((List.mem_cons.1 hx).resolve_left (Ne.symm hxy)) fun z hz =>
        h z (List.mem_cons_of_mem _ hz)
      exact ⟨u, hu.trans (h y List.mem_cons_self hxy s), he⟩

/-- A loop over both slots of an FC one of which has nothing to do. -/
theorem forN_two_of_skip {σ : Type} (P : σ → Prop) (g : Nat → σ → σ) (s : σ) (f : Fin 2) (hs : P s) (hf : P (g f s))
    (h : ∀ t, P t → g (1 - f.val) t = t) : forN 2 g s = g f s := by
  match f with
  | 0 => exact h _ hf
  | 1 => exact congrArg (g 1) (h s hs)

/-! ### The registers of the cycles and the flights -/

theorem State.head_of_regs {s t : State} (h : t.regs = s.regs) : t.head = s.head := State.head_of_rg fun a _ _ => State.rg_congr h a

@[simp] theorem State.head_atTick (s : State) (t : Nat) : (s.atTick t).head = s.head := State.head_of_regs (by simp)
@[simp] theorem State.head_stepAt (s : State) (n t : Nat) : (s.stepAt n t).head = s.head := State.head_of_regs (s.regs_stepAt n t)
@[simp] theorem State.head_raise (s : State) (src code pay : Nat) : (s.raise src code pay).head = s.head :=
  State.head_of_rg fun _ ha _ => s.rg_raise_below src code pay (by omega)
@[simp] theorem State.head_raiseIf (s : State) (c : Bool) (src code pay : Nat) : (s.raiseIf c src code pay).head = s.head := by
  simp [State.raiseIf]

theorem State.head_flag (s : State) {a : Nat} (h : 0x1000 ≤ a % 0x100000) (f : Fld) : (s.flag a f).head = s.head := s.head_sf h f 1
theorem State.head_flagOnce (s : State) {a : Nat} (h : 0x1000 ≤ a % 0x100000) (f : Fld) (src code pay : Nat) :
    (s.flagOnce a f src code pay).head = s.head := by
  simp [State.flagOnce, State.head_flag _ h]

section head

variable {s t : State} (h : t.head = s.head)
include h

theorem State.gang_of_head : t.gang = s.gang :=
  State.gang_of_rg fun m => State.rg_of_head h (by unfold Reg.FC_CYC_STAT; omega) (by unfold Reg.FC_CYC_STAT; omega)

variable {n : Nat} (hn : n < 16)
include hn

theorem State.tcyc_of_head : t.tcyc n = s.tcyc n := by
  have hl := s.leader_lt hn
  unfold State.tcyc
  rw [State.leader_of_head h hn,
    State.fld_of_rg (State.rg_of_head h (by unfold Reg.FC_CYC_LEN; omega) (by unfold Reg.FC_CYC_LEN; omega))]

variable {f : Nat} (hf : f < 2)
include hf

theorem State.cfg_of_head : t.rg (Reg.FC_FLT_CFG n f) = s.rg (Reg.FC_FLT_CFG n f) :=
  State.rg_of_head h (by unfold Reg.FC_FLT_CFG; omega) (by unfold Reg.FC_FLT_CFG; omega)

theorem State.bound_of_head : t.bound n f = s.bound n f := State.bit_of_rg (State.cfg_of_head h hn hf) _

theorem State.leads_of_head : t.leads n f = s.leads n f := by
  rw [State.leads, State.bound_of_head h hn hf, State.leader_of_head h hn, State.leads]

theorem State.runs_of_head : t.runs n f = s.runs n f := by
  rw [State.runs, State.fltState_of_head h hn hf, State.runs]

theorem State.slotLinks_of_head : t.slotLinks n f = s.slotLinks n f := by
  have hm : t.members n f = s.members n f := by
    unfold State.members State.gangSize
    rw [State.bound_of_head h hn hf, State.fld_of_rg (State.cfg_of_head h hn hf)]
  have hlt : ∀ m ∈ s.members n f, m < 32 := by
    intro m hmem
    unfold State.members at hmem
    split at hmem
    · obtain ⟨i, hi, rfl⟩ := List.mem_map.1 hmem
      have hg : s.gangSize n f ≤ 2 ^ 3 :=
        Nat.pow_le_pow_right (by decide) (by have := s.fld_lt (Reg.FC_FLT_CFG n f) F.FC_FLT_CFG_GANG; exact Nat.lt_succ_iff.1 this)
      have := List.mem_range.1 hi
      omega
    · rw [List.mem_singleton.1 hmem]
      omega
  unfold State.slotLinks
  rw [hm]
  refine List.flatMap_congr fun m hmem => ?_
  have hr : t.rg (Reg.FC_FLT_CFG m f) = s.rg (Reg.FC_FLT_CFG m f) := by
    have := hlt m hmem
    exact State.rg_of_head h (by unfold Reg.FC_FLT_CFG; omega) (by unfold Reg.FC_FLT_CFG; omega)
  rw [State.fld_of_rg hr, State.fld_of_rg hr]

end head

theorem State.runs_of_rg {s t : State} {n f : Nat} (h : t.rg (Reg.FC_FLT_STAT n f) = s.rg (Reg.FC_FLT_STAT n f)) :
    t.runs n f = s.runs n f := by
  rw [State.runs, State.fltState, State.fld_of_rg h, State.runs, State.fltState]

theorem State.mem_led {s : State} {n f : Nat} : f ∈ s.led n ↔ f < 2 ∧ s.leads n f = true := by
  rw [State.led, List.mem_filter, List.mem_range]

theorem State.nodup_led (s : State) (n : Nat) : (s.led n).Nodup := List.nodup_range.filter _

/-! ### Flight slots -/

theorem State.slot_of_slots {s t : State} (h : t.slots = s.slots) (n f : Nat) : t.slot n f = s.slot n f := by
  unfold State.slot
  rw [h]

@[simp] theorem State.slot_wr (s : State) (a : Nat) (v : Word) (n f : Nat) : (s.wr a v).slot n f = s.slot n f :=
  State.slot_of_slots rfl n f
@[simp] theorem State.slot_sf (s : State) (a : Nat) (g : Fld) (x n f : Nat) : (s.sf a g x).slot n f = s.slot n f :=
  State.slot_of_slots rfl n f
@[simp] theorem State.slot_flag (s : State) (a : Nat) (g : Fld) (n f : Nat) : (s.flag a g).slot n f = s.slot n f :=
  State.slot_of_slots rfl n f
@[simp] theorem State.slot_sb (s : State) (a : Nat) (g : Fld) (b : Bool) (n f : Nat) : (s.sb a g b).slot n f = s.slot n f :=
  State.slot_of_slots rfl n f
@[simp] theorem State.slot_raiseIf (s : State) (c : Bool) (src code pay n f : Nat) :
    (s.raiseIf c src code pay).slot n f = s.slot n f :=
  State.slot_of_slots (by simp) n f
@[simp] theorem State.slot_ite (c : Prop) [Decidable c] (s t : State) (n f : Nat) :
    (if c then s else t).slot n f = if c then s.slot n f else t.slot n f := apply_ite (State.slot · n f) _ _ _

theorem State.slot_mapSlot_ne (s : State) {n f k : Nat} (g : SlotSt → SlotSt) (h : k ≠ f) :
    (s.mapSlot n f g).slot n k = s.slot n k := by
  unfold State.slot State.mapSlot
  exact tget_tput_ne _ _ _ (by omega)

theorem State.slots_stepAt (s : State) (n t : Nat) : (s.stepAt n t).slots = s.slots := s.slots_atTick _
theorem State.keep_stepAt (s : State) (n t : Nat) : (s.stepAt n t).keep = s.keep := s.keep_atTick _
theorem State.ports_stepAt (s : State) (n t : Nat) : (s.stepAt n t).ports = s.ports := s.ports_atTick _

@[simp] theorem State.slots_ite (c : Prop) [Decidable c] (s t : State) :
    (if c then s else t).slots = if c then s.slots else t.slots := apply_ite _ _ _ _

@[simp] theorem State.slots_foldl_mapLane {α : Type} (l : List α) (k : α → Nat) (g : State → α → Lane → Lane) (s : State) :
    (l.foldl (fun s x => s.mapLane (k x) (g s x)) s).slots = s.slots := foldl_frame State.slots l _ s fun _ _ => rfl

/-- The hidden state of the flight slots, without the note that a trip has latched for the flight (R170). -/
def State.flown (s : State) (k : Nat) : SlotSt := { tget SlotSt.init s.slots k with tripPend := false }

theorem State.flown_of_slots {s t : State} (h : t.slots = s.slots) : t.flown = s.flown := by
  unfold State.flown
  rw [h]

theorem State.flown_mapSlot_of {s : State} {n f : Nat} {g : SlotSt → SlotSt}
    (h : { g (s.slot n f) with tripPend := false } = { s.slot n f with tripPend := false }) : (s.mapSlot n f g).flown = s.flown := by
  funext k
  unfold State.flown State.mapSlot
  dsimp only
  rw [tget_tput]
  split
  · next e =>
    rw [e]
    exact h
  · rfl

theorem State.flown_mapSlot_ne (s : State) {n f k : Nat} (g : SlotSt → SlotSt) (h : k ≠ 2 * n + f) :
    (s.mapSlot n f g).flown k = s.flown k := by
  unfold State.flown State.mapSlot
  dsimp only
  rw [tget_tput_ne _ _ _ h]

/-- The slots of an FC whose hidden state is the same but for notes of trips. -/
theorem State.slot_of_flown {s t : State} {n f : Nat} (h : t.flown (2 * n + f) = s.flown (2 * n + f)) :
    ∃ p, t.slot n f = { s.slot n f with tripPend := p } := by
  have ht := congrArg (fun y => { y with tripPend := (t.slot n f).tripPend }) h
  exact ⟨_, ht⟩

theorem State.flown_noteTrip (s : State) (g : Nat) : (s.noteTrip g).flown = s.flown :=
  foldl_frame State.flown _ _ s fun _ _ => State.flown_mapSlot_of rfl

theorem State.flown_latchGroup (s : State) (g : Nat) : (s.latchGroup g).flown = s.flown := by
  obtain ⟨r, h, e⟩ := ({ s with latchTick := tput s.latchTick g s.tick }.noteTrip g).showLatch_frame g (s.firstOf g)
  unfold State.latchGroup
  rw [e]
  exact State.flown_noteTrip { s with latchTick := tput s.latchTick g s.tick } g

/-- A source that changes may latch groups, which notes trips and nothing else in the flight slots (R167, R170). -/
theorem State.flown_setSource (s : State) (k : Nat) (act out : Bool) : (s.setSource k act out).flown = s.flown := by
  unfold State.setSource State.sluEval
  dsimp only
  obtain ⟨r, c, p, e⟩ := State.sluRefresh_frame (forN 32 (fun g s =>
    if s.bit (Reg.SLU_GCFG g) F.SLU_GCFG_EN && !s.latched g && (s.groupMask g &&& s.tripOut != 0) then s.latchGroup g else s)
    (((s.wr (Reg.SLU_SRC_ACT (k / 32)) (BitVec.ofNat 32 (setBit (s.rn (Reg.SLU_SRC_ACT (k / 32))) (k % 32) act))).setTrip k out)))
  rw [e]
  refine Eq.trans (forN_frame State.flown 32 _ _ fun g _ t => ?_ : _ = _) ?_
  · split
    · exact t.flown_latchGroup g
    · rfl
  · obtain ⟨r, h, o, e⟩ := State.setTrip_frame (s.wr (Reg.SLU_SRC_ACT (k / 32)) (BitVec.ofNat 32
      (setBit (s.rn (Reg.SLU_SRC_ACT (k / 32))) (k % 32) act))) k out
    rw [e]
    rfl

theorem State.flown_setCause (s : State) (n c : Nat) (on : Bool) : (s.setCause n c on).flown = s.flown := by
  unfold State.setCause State.setInternal
  dsimp only
  split
  · rfl
  · exact State.flown_setSource _ _ _ _

end Sys2Proof.Machine
end

section
/-! The balancer's words and their deadline at tick 236 (O17). -/

namespace Sys2Proof.Machine

/-! ### Reading a control-store word -/

/-- What a read of a control-store word reports goes to registers and the event hub (R288, R305). -/
theorem State.csNote_frame (s : State) (key w mid off port src sel a : Nat) :
    ∃ r h, s.csNote key w mid off port src sel a = { s with regs := r, hubq := h } := by
  have flagged : ∀ t : State, (∃ r h, t = { s with regs := r, hubq := h }) → ∃ r h,
      (if s.csBad key w then t.flagOnce (Reg.MCS_STAT port) F.MCS_STAT_UE src 0x53 (sel + 65536 * a) else t) =
        { s with regs := r, hubq := h } := by
    rintro _ ⟨r, h, rfl⟩
    split
    · exact State.flagOnce_frame { s with regs := r, hubq := h } _ _ _ _ _
    · exact ⟨_, _, rfl⟩
  unfold State.csNote
  refine flagged _ (forN_induct (fun t => ∃ r h, t = { s with regs := r, hubq := h }) w _ s ⟨_, _, rfl⟩ ?_)
  rintro b - _ ⟨r, h, rfl⟩
  dsimp only
  split
  · exact ⟨_, _, rfl⟩
  · exact State.noteCe_frame { s with regs := r, hubq := h } _
  · exact State.noteUe_frame { s with regs := r, hubq := h } _ _ _

theorem State.csNoteFc_frame (s : State) (n st a : Nat) : ∃ r h, s.csNoteFc n st a = { s with regs := r, hubq := h } := by
  unfold State.csNoteFc
  split
  · exact s.csNote_frame _ _ _ _ _ _ _ _
  · exact ⟨_, _, rfl⟩

theorem State.rg_noteCe (s : State) (mid : Nat) {a : Nat} (ha : a < 0x70000000) : (s.noteCe mid).rg a = s.rg a := by
  unfold State.noteCe
  rw [State.rg_flagOnce_ne _ _ _ _ _ (by omega) (by unfold Reg.MEM_STAT; omega),
    State.rg_incSat_ne _ _ (by unfold Reg.MEM_CE_CNT; omega)]

theorem State.rg_noteUe (s : State) (mid off b : Nat) {a : Nat} (ha : a < 0x70000000) : (s.noteUe mid off b).rg a = s.rg a := by
  unfold State.noteUe
  dsimp only
  rw [State.rg_flagOnce_ne _ _ _ _ _ (by omega) (by unfold Reg.MEM_STAT; omega),
    State.rg_wr_ne _ _ (by unfold Reg.MEM_ERR_ADDR; omega), State.rg_wr_ne _ _ (by unfold Reg.MEM_ERR_MID; omega),
    State.rg_incSat_ne _ _ (by unfold Reg.MEM_UE_CNT; omega)]

theorem State.rg_csNoteFc (s : State) (n st w : Nat) {a : Nat} (ha : a < 0x70000000) (h : a ≠ Reg.MCS_STAT n) :
    (s.csNoteFc n st w).rg a = s.rg a := by
  unfold State.csNoteFc
  split
  · unfold State.csNote
    dsimp only
    rw [State.rg_ite, State.rg_flagOnce_ne _ _ _ _ _ (by omega) h, ite_self]
    refine forN_frame (State.rg · a) _ _ _ fun b _ t => ?_
    split
    · rfl
    · exact t.rg_noteCe _ ha
    · exact t.rg_noteUe _ _ _ ha
  · rfl

theorem mcsStat_fc {n : Nat} (hn : n < 16) : Reg.MCS_STAT n = 0x6001000C + 0x100000 * n := by
  unfold Reg.MCS_STAT mcsBase
  rw [if_pos hn]
  omega

theorem State.head_csNoteFc (s : State) {n : Nat} (hn : n < 16) (st w : Nat) : (s.csNoteFc n st w).head = s.head :=
  State.head_of_rg fun _ ha ho => s.rg_csNoteFc n st w ha (by rw [mcsStat_fc hn]; omega)

/-- A word reads after the report of its read as before. -/
theorem State.csWord_csNoteFc (s : State) {n st : Nat} (hn : n < 16) (hst : st < 3) (w a : Nat) :
    (s.csNoteFc n st w).csWord n st a = s.csWord n st a := by
  have hr : (s.csNoteFc n st w).rg (Reg.MCS_VMAPE n st) = s.rg (Reg.MCS_VMAPE n st) :=
    s.rg_csNoteFc n st w (by unfold Reg.MCS_VMAPE; omega) (by rw [mcsStat_fc hn]; unfold Reg.MCS_VMAPE; omega)
  unfold State.csWord State.rn
  rw [hr]
  obtain ⟨r, h, e⟩ := s.csNoteFc_frame n st w
  rw [e]
  rfl

/-! ### A word of the balancer program -/

/-- The ticks that a balancer word takes (R99). -/
def ucTicks (w : Nat) : Nat :=
  if nbits w 14 2 = 1 then 4 else if nbits w 14 2 = 2 then 2 else if nbits w 56 2 = 2 then 8 else 1

/-- LOAD, BUCKET and the compare-exchange stage of a balancer word (R99). -/
def State.ucSort (m w : Nat) (s : State) : State :=
  let s := if nbits w 14 2 = 1 then s.mapFc m fun x => { x with keys := (List.range 64).map (64 * m + ·) } else s
  let s := if nbits w 14 2 = 2 then forN 64 (fun i s => s.mapLane (64 * m + i) fun x => { x with slotB := x.keyB }) s else s
  if nbit w 16 then
    let ks := s.cxStage m (nbits w 17 3) (nbits w 20 3) (nbits w 24 32) (s.fc m).keys
    s.mapFc m fun x => { x with keys := ks }
  else s

/-- The merge of a balancer word, of a gang member or of its leader `n` (R99). -/
def State.ucMerge (n m w : Nat) (s : State) : State :=
  if nbits w 56 2 = 1 then
    let ks := (s.fc m).keys
    if n = m then s else s.mapFc n fun x => { x with lists := tput x.lists (m - n) ks }
  else if nbits w 56 2 = 2 then
    let ks := s.mergeKeys m (tget [] (s.fc m).lists (nbits w 58 2)) (s.fc m).keys
    s.mapFc m fun x => { x with keys := ks }
  else s

/-- What a balancer word does before the program goes on (R99). -/
def State.ucKeys (n m w : Nat) (s : State) : State :=
  let s := (s.ucSort m w).ucMerge n m w
  if nbit w 60 then s.ucPublish m else s

/-- The word after a balancer word: its target, or the next one (R99). -/
def State.ucNext (s : State) (m w : Nat) : Nat :=
  if nbits w 9 2 == 1 || (nbits w 9 2 == 2 && s.ucCond m (nbits w 11 3)) then nbits w 0 9 else ((s.fc m).ucPc + 1) % 512

/-- A balancer word in its parts: one that waits for a list passes a tick. -/
theorem State.ucWord_eq (s : State) (m w : Nat) : s.ucWord m w =
    if (nbits w 56 2 = 2 && !(s.fc m).lists.any fun e => e.1 == nbits w 58 2) = true then
      s.mapFc m fun x => { x with ucTick := x.ucTick + 1 }
    else
      let u := (s.atTick ((s.fc (s.leader m)).cycTick + (s.fc m).ucTick + ucTicks w)).ucKeys (s.leader m) m w
      u.mapFc m fun x => { x with ucPc := u.ucNext m w, ucTick := x.ucTick + ucTicks w, ucRun := nbits w 9 2 != 3 } := rfl

/-- The hidden state of an FC without the key slots of its sort. -/
def FcSt.keyless (x : FcSt) : FcSt := { x with keys := [] }

@[simp] theorem State.still_publishRank {τ : Type} {π : FcSt → τ} (n f : Nat) (l : List Nat) (s : State) :
    (s.publishRank n f l).still π = s.still π := by
  simp [State.publishRank]

@[simp] theorem State.still_ucPublish {τ : Type} {π : FcSt → τ} (m : Nat) (s : State) : (s.ucPublish m).still π = s.still π := by
  simp [State.ucPublish]

theorem State.still_mapKeys (s : State) (m : Nat) (f : FcSt → List Nat) :
    (s.mapFc m fun x => { x with keys := f x }).still FcSt.keyless = s.still FcSt.keyless := s.still_mapFc _ _ fun _ => rfl

theorem State.still_ucKeys (s : State) {n m w : Nat} (h : nbits w 56 2 = 0) :
    (s.ucKeys n m w).still FcSt.keyless = s.still FcSt.keyless := by
  simp [State.ucKeys, State.ucMerge, State.ucSort, h, State.still_mapKeys]

@[simp] theorem State.memTs_ucSort (m w : Nat) (s : State) : (s.ucSort m w).memTs = s.memTs := by simp [State.ucSort]
@[simp] theorem State.memTs_ucMerge (n m w : Nat) (s : State) : (s.ucMerge n m w).memTs = s.memTs := by simp [State.ucMerge]
@[simp] theorem State.memTs_ucKeys (n m w : Nat) (s : State) : (s.ucKeys n m w).memTs = s.memTs := by simp [State.ucKeys]

theorem State.mem_ucWord (s : State) (m w : Nat) : (s.ucWord m w).mem = s.mem := by
  rw [State.ucWord_eq]
  split
  · rfl
  · exact (State.mem_of_memTs (State.memTs_ucKeys _ m w _)).trans (s.mem_atTick _)

/-- A word that loads the key slots and sorts none of them leaves them as they are loaded. -/
theorem State.keys_ucKeys_of_load (s : State) {n m w : Nat} (hm : nbits w 56 2 = 0) (hk : nbits w 14 2 = 1)
    (hx : nbit w 16 = false) : ((s.ucKeys n m w).fc m).keys = (List.range 64).map (64 * m + ·) := by
  have hload : ((s.mapFc m fun x => { x with keys := (List.range 64).map (64 * m + ·) }).fc m).keys =
      (List.range 64).map (64 * m + ·) := by rw [State.fc_mapFc_self]
  unfold State.ucKeys State.ucMerge State.ucSort
  simp only [hm, hk, hx, if_true, OfNat.zero_ne_ofNat, OfNat.one_ne_ofNat, zero_ne_one, if_false, Bool.false_eq_true]
  split
  · exact (congrArg FcSt.keys (State.fc_of_still (π := id) (State.still_ucPublish m _) m)).trans hload
  · exact hload

theorem exec_balMicroword {s : State} {m : Fin 16} (hc : s.cycling m = true) (hr : (s.fc m).ucRun = true)
    (ht : (s.fc m).ucTick < 236) : exec (.balMicroword m) s =
      match s.csWord m 2 (s.fc m).ucPc with
      | none => .next ((s.csNoteFc m 2 (s.fc m).ucPc).ucAbort m)
      | some w => .next ((s.csNoteFc m 2 (s.fc m).ucPc).ucWord m w) := by
  rw [← s.csWord_csNoteFc m.isLt (by decide : 2 < 3) (s.fc m).ucPc]
  exact if_pos (by simp [hc, hr, ht])

/-- A usable word without a merge: its ticks, the word after it, and the key slots where it loads them (R99). -/
theorem State.ucWord_runs (s : State) {m w : Nat} (h : nbits w 56 2 = 0) :
    let t := s.ucWord m w
    t.tick = max s.tick ((s.fc (s.leader m)).cycTick + (s.fc m).ucTick + ucTicks w) ∧
    (t.fc m).ucTick = (s.fc m).ucTick + ucTicks w ∧ (t.fc m).ucRun = (nbits w 9 2 != 3) ∧
    (nbits w 9 2 = 0 → (t.fc m).ucPc = ((s.fc m).ucPc + 1) % 512) ∧ (nbits w 9 2 = 1 → (t.fc m).ucPc = nbits w 0 9) ∧
    (nbits w 14 2 = 1 → nbit w 16 = false → (t.fc m).keys = (List.range 64).map fun (i : Nat) => 64 * m + i) := by
  rw [State.ucWord_eq, if_neg (by simp [h])]
  extract_lets u
  have hstill : u.still FcSt.keyless = _ := State.still_ucKeys _ h
  have htick : u.tick = max s.tick _ := (State.tick_of_still hstill).trans (s.tick_atTick _)
  have hfc : FcSt.keyless (u.fc m) = FcSt.keyless (s.fc m) := by
    rw [State.fc_of_still hstill m, State.fc, s.fcs_atTick, State.fc]
  have hpc : (u.fc m).ucPc = (s.fc m).ucPc := congrArg (·.ucPc) hfc
  have huc : (u.fc m).ucTick = (s.fc m).ucTick := congrArg (·.ucTick) hfc
  rw [State.fc_mapFc_self]
  refine ⟨htick, congrArg (· + ucTicks w) huc, rfl, fun h0 => ?_, fun h1 => ?_, fun hk hx => State.keys_ucKeys_of_load _ h hk hx⟩
  · simp [State.ucNext, h0, hpc]
  · simp [State.ucNext, h1]

theorem balMicroword_runs (s : State) (m : Fin 16) (hc : s.cycling m = true) (hr : (s.fc m).ucRun = true)
    (ht : (s.fc m).ucTick < 236) :
    let x := s.fc m
    Answers (.balMicroword m) s fun t =>
      t.mem = s.mem ∧
      (s.csWord m 2 x.ucPc = none → (t.fc m).ucRun = false) ∧
      ∀ w, s.csWord m 2 x.ucPc = some w → nbits w 56 2 = 0 →
        let dur := if nbits w 14 2 = 1 then 4 else if nbits w 14 2 = 2 then 2 else 1
        t.tick = max s.tick ((s.fc (s.leader m)).cycTick + x.ucTick + dur) ∧ (t.fc m).ucTick = x.ucTick + dur ∧
        (t.fc m).ucRun = (nbits w 9 2 != 3) ∧
        (nbits w 9 2 = 0 → (t.fc m).ucPc = (x.ucPc + 1) % 512) ∧ (nbits w 9 2 = 1 → (t.fc m).ucPc = nbits w 0 9) ∧
        (nbits w 14 2 = 1 → nbit w 16 = false → (t.fc m).keys = (List.range 64).map fun (i : Nat) => 64 * m.val + i) := by
  intro x
  unfold Answers
  rw [exec_balMicroword hc hr ht]
  match hw : s.csWord m 2 x.ucPc with
  | none =>
    refine ⟨_, rfl, State.mem_of_memTs (by simp), fun _ => ?_, fun w h => by cases h⟩
    unfold State.ucAbort
    dsimp only
    rw [State.fc_mapFc_self]
  | some w =>
    have hlead : (s.csNoteFc m 2 x.ucPc).leader m = s.leader m := State.leader_of_head (s.head_csNoteFc m.isLt 2 _) m.isLt
    obtain ⟨r, q, hnote⟩ := s.csNoteFc_frame m 2 x.ucPc
    refine ⟨_, rfl, (State.mem_ucWord _ _ _).trans (by rw [hnote]), nofun, fun v hv h => ?_⟩
    cases hv
    have hrun := (s.csNoteFc m 2 x.ucPc).ucWord_runs (m := m) h
    rw [hlead, ucTicks, h, if_neg (by decide : ¬(0 : Nat) = 2)] at hrun
    rw [hnote] at hrun ⊢
    exact hrun

/-! ### The deadline at tick 236 -/

@[simp] theorem State.head_publishRank (n f : Nat) (l : List Nat) (s : State) : (s.publishRank n f l).head = s.head := by
  simp [State.publishRank]

@[simp] theorem State.still_ucDeadline {τ : Type} {π : FcSt → τ} (n f : Nat) (s : State) :
    (s.ucDeadline n f).still π = s.still π := by
  simp [State.ucDeadline]

theorem State.head_ucDeadline (s : State) (n : Nat) {f : Nat} (hf : f < 2) : (s.ucDeadline n f).head = s.head := by
  simp [State.ucDeadline, State.head_flagOnce _ (show 0x1000 ≤ Reg.BAL_STAT n f % 0x100000 by unfold Reg.BAL_STAT; omega)]

/-- What a slot shows of the deadline: where its flight stands, its ranking, and BAL_STAT. -/
def State.ucView (n f : Nat) (s : State) : (Nat → Word) × SlotSt × Word := (s.head, s.slot n f, s.rg (Reg.BAL_STAT n f))

theorem State.ucView_ucDeadline_ne (s : State) {n f k : Nat} (hn : n < 16) (hk : k < 2) (hf : f < 2) (h : k ≠ f) :
    (s.ucDeadline n k).ucView n f = s.ucView n f := by
  have hslot : (s.ucDeadline n k).slot n f = s.slot n f := by
    unfold State.ucDeadline
    split
    · rfl
    split
    · rfl
    · exact (State.slot_of_slots (State.slots_flagOnce _ _ _ _ _ _) n f).trans (s.slot_mapSlot_ne _ h.symm)
  have hreg : (s.ucDeadline n k).rg (Reg.BAL_STAT n f) = s.rg (Reg.BAL_STAT n f) := by
    unfold State.ucDeadline
    rw [State.rg_ite, State.rg_ite, State.rg_flagOnce_ne _ _ _ _ _ (by unfold Reg.BAL_STAT; omega) (by unfold Reg.BAL_STAT; omega),
      State.publishRank, State.rg_mapSlot, ite_self, ite_self]
  rw [State.ucView, State.head_ucDeadline s n hk, hslot, hreg, State.ucView]

theorem State.rg_flagOnce_self (s : State) {a : Nat} (f : Fld) (src code pay : Nat) (ha : a < 0x70040000) :
    (s.flagOnce a f src code pay).rg a = fput (s.rg a) f 1 :=
  (State.rg_raiseIf_below _ _ _ _ _ ha).trans (s.rg_sf_self a f 1)

theorem State.bit_flagOnce_self (s : State) {a : Nat} (f : Fld) (src code pay : Nat) (ha : a < 0x70040000)
    (hw : f.lo + f.w ≤ 32) (h0 : 0 < f.w) : (s.flagOnce a f src code pay).bit a f = true := by
  rw [State.bit, State.fld, State.rg_flagOnce_self _ _ _ _ _ ha, fget_fput_self _ _ _ hw,
    Nat.mod_eq_of_lt (Nat.one_lt_two_pow h0.ne')]
  rfl

/-- A led flight whose ranking is not published has one after the deadline, with UC_LATE (R99). -/
theorem State.late_ucDeadline {s : State} {n f : Nat} (hn : n < 16) (hf : f < 2) (hl : s.leads n f = true)
    (hp : (s.slot n f).published = false) :
    ((s.ucDeadline n f).slot n f).published = true ∧
      (s.ucDeadline n f).bit (Reg.BAL_STAT n f) F.BAL_STAT_UC_LATE = true := by
  have he : s.ucDeadline n f = (s.publishRank n f (s.fc n).keys).flagOnce (Reg.BAL_STAT n f) F.BAL_STAT_UC_LATE (slotSrc n f) 0x14
      ((s.fc n).ucPc + 65536 * (((s.publishRank n f (s.fc n).keys).count n).toNat % 65536)) := by
    unfold State.ucDeadline
    rw [if_neg (by simp [hl]), if_neg (by simp [hp])]
    rfl
  rw [he]
  refine ⟨?_, State.bit_flagOnce_self _ _ _ _ _ (by unfold Reg.BAL_STAT; omega) (by decide) (by decide)⟩
  rw [State.slot_of_slots (State.slots_flagOnce _ _ _ _ _ _), State.publishRank, State.slot_mapSlot_self]

/-- The program of an FC stops (R99). -/
def State.ucStop (s : State) (m : Nat) : State := s.mapFc m fun x => { x with ucRun := false }

theorem exec_ucDeadline {s : State} {n : Fin 16} (hd : s.stepDue n 236 = true) : exec (.ucDeadline n) s =
    .next ((s.cycleFcs n).foldl State.ucStop (forN 2 (fun f s => s.ucDeadline n f) (s.stepAt n 236))) := if_pos hd

theorem ucDeadline_stops (s : State) (n : Fin 16) (hd : s.stepDue n 236 = true) : Answers (.ucDeadline n) s fun t =>
    t.mem = s.mem ∧ t.tick = max s.tick ((s.fc n).cycTick + 236) ∧ (t.fc n).ucRun = false ∧
    ∀ f : Fin 2, s.leads n f = true → (s.slot n f).published = false →
      (t.slot n f).published = true ∧ t.bit (Reg.BAL_STAT n f) F.BAL_STAT_UC_LATE = true := by
  have hn := n.isLt
  refine ⟨_, exec_ucDeadline hd, ?_, ?_, ?_, fun f hl hp => ?_⟩
  · refine (State.mem_of_memTs (s := s.stepAt n 236) ?_).trans (s.mem_stepAt n 236)
    simp [State.ucStop]
  · refine (foldl_frame State.tick (s.cycleFcs n) State.ucStop _ fun _ _ => rfl).trans ?_
    rw [State.tick_of_still (π := id) (s := s.stepAt n 236) (by simp), State.tick_stepAt]
  · rw [State.cycleFcs, List.foldl_cons]
    refine (foldl_frame_mem (fun t : State => (t.fc n).ucRun) _ _ _ fun m hm t => ?_).trans ?_
    · exact congrArg FcSt.ucRun (t.fc_mapFc_ne _ (Ne.symm (State.ne_of_mem_followers hm)))
    · exact congrArg FcSt.ucRun (State.fc_mapFc_self _ _ _)
  · have hstop : ∀ t : State, ((s.cycleFcs n).foldl State.ucStop t).ucView n f = t.ucView n f :=
      fun t => foldl_frame (State.ucView n f) _ _ t fun u m => by
        rw [State.ucView, State.ucStop, State.head_mapFc]
        rfl
    obtain ⟨u, hu, he⟩ := forN_view (State.ucView n f) (fun f s => s.ucDeadline n f) (s.stepAt n 236) f.isLt
      fun k hk hne t => t.ucView_ucDeadline_ne hn hk f.isLt hne
    simp only [State.ucView, Prod.mk.injEq] at hu hstop he
    obtain ⟨hhead, hslot, -⟩ := hu
    obtain ⟨-, heslot, hereg⟩ := he
    obtain ⟨-, hsslot, hsreg⟩ := hstop (forN 2 (fun f s => s.ucDeadline n f) (s.stepAt n 236))
    rw [State.bit_of_rg (hsreg.trans hereg), hsslot.trans heslot]
    refine State.late_ucDeadline hn f.isLt ?_ ?_
    · rw [State.leads_of_head (hhead.trans (s.head_stepAt n 236)) hn f.isLt, hl]
    · rw [hslot, State.slot_of_slots (s.slots_stepAt n 236), hp]

end Sys2Proof.Machine
end

section
/-! The observer's words and their end at tick 184 (O17). -/

namespace Sys2Proof.Machine

/-! ### The writeback of a row -/

/-- The hidden state of an FC without the observer's sums and row results. -/
def FcSt.rowless (x : FcSt) : FcSt := { x with obsXn := [], obsU := [], obsAcc := 0, obsLow := none }

@[simp] theorem State.still_rowSat {τ : Type} {π : FcSt → τ} (n f r : Nat) (s : State) : (s.rowSat n f r).still π = s.still π := by
  simp [State.rowSat, State.mapBit]

theorem State.still_mapRows (s : State) (n : Nat) (f g : FcSt → Tbl Int) :
    (s.mapFc n fun x => { x with obsXn := f x, obsU := g x }).still FcSt.rowless = s.still FcSt.rowless :=
  s.still_mapFc _ _ fun _ => rfl

theorem State.still_writeback (n f : Nat) (l : List Byte) (w : Nat) (acc : Int) (s : State) :
    (s.writeback n f l w acc).still FcSt.rowless = s.still FcSt.rowless := by
  simp [State.writeback, State.still_mapRows]

/-- What the writeback of a row reports before its result stands: the saturation and the trace (R122, R123). -/
def State.rowReport (n f : Nat) (l : List Byte) (w : Nat) (acc : Int) (s : State) : State :=
  let v := scale2 acc (imgI l (40 + owRow w) 1 - 23)
  let s := if satI 32 v = v then s else s.rowSat n f (owRow w)
  if owTrace w then
    let a := enc 72 acc
    let s := s.wr (Reg.OBS_TRACE_LO n) (BitVec.ofNat 32 a)
    let s := s.wr (Reg.OBS_TRACE_MID n) (BitVec.ofNat 32 (a / 2 ^ 32))
    let s := s.wr (Reg.OBS_TRACE_HI n) (BitVec.ofNat 32 (a / 2 ^ 64))
    s.wr (Reg.OBS_TRACE_ROW n) (BitVec.ofNat 32 (owRow w + 65536 * ((s.count n).toNat % 65536)))
  else s

/-- A state row without freeze: its result, scaled and saturated, becomes the row's next state (R122). -/
theorem State.writeback_of_state_row (s : State) {n f : Nat} {l : List Byte} {w : Nat} {acc : Int} (hr : owRow w < 32)
    (hz : owFrz w = false) : s.writeback n f l w acc = (s.rowReport n f l w acc).mapFc n fun x =>
      { x with obsXn := tput x.obsXn (owRow w) (satI 32 (scale2 acc (imgI l (40 + owRow w) 1 - 23))) } := by
  refine (if_pos hr).trans (if_neg ?_)
  rw [hz, Bool.false_and]
  exact Bool.false_ne_true

theorem State.obsXn_writeback (s : State) {n f : Nat} {l : List Byte} {w : Nat} {acc : Int} (hr : owRow w < 32)
    (hz : owFrz w = false) : tget 0 ((s.writeback n f l w acc).fc n).obsXn (owRow w) =
      satI 32 (scale2 acc (imgI l (40 + owRow w) 1 - 23)) := by
  rw [State.writeback_of_state_row s hr hz, State.fc_mapFc_self]
  exact tget_tput_self _ _ _ _

/-! ### A word of the observer program -/

theorem State.atTick_frame (s : State) (t : Nat) : ∃ k u, s.atTick t = { s with tick := k, ts := u } := by
  unfold State.atTick
  split
  · exact ⟨_, _, rfl⟩
  · exact ⟨_, _, rfl⟩

/-- An issued word of the observer on the operands of the cycle that `x` holds: a low pass forms its sum, a high pass with a low
pass before it writes its row (R121, R125). -/
def State.obsPass (n f : Nat) (l : List Byte) (mw : Nat) (x : FcSt) (s : State) : State :=
  if owPass mw = 0 then s.mapFc n fun y => { y with obsLow := some (passSum l (owRow mw) (owLanes mw) y.obsZ false) }
  else match x.obsLow with
    | none => s
    | some low =>
      let acc := low + 65536 * passSum l (owRow mw) (owLanes mw) x.obsZ true
      (s.mapFc n fun y => { y with obsAcc := acc }).writeback n f l mw acc

/-- The state in which word `w` of the observer's schedule is read. -/
def State.obsFetch (s : State) (n : Nat) : State :=
  (s.atTick ((s.fc n).cycTick + 88 + (s.fc n).obsPc + 1)).mapFc n fun y => { y with obsPc := (s.fc n).obsPc + 1, obsLow := none }

theorem State.fc_obsFetch (s : State) (n : Nat) :
    (s.obsFetch n).fc n = { s.fc n with obsPc := (s.fc n).obsPc + 1, obsLow := none } := by
  rw [State.obsFetch, State.fc_mapFc_self, State.fc, State.fcs_atTick, State.fc]

theorem State.wordSlot_obsFetch (s : State) (n w : Nat) : (s.obsFetch n).wordSlot n w = s.wordSlot n w := by
  obtain ⟨k, u, e⟩ := s.atTick_frame ((s.fc n).cycTick + 88 + (s.fc n).obsPc + 1)
  unfold State.obsFetch
  rw [e]
  rfl

theorem State.csWord_obsFetch (s : State) (n st a : Nat) : (s.obsFetch n).csWord n st a = s.csWord n st a := by
  obtain ⟨k, u, e⟩ := s.atTick_frame ((s.fc n).cycTick + 88 + (s.fc n).obsPc + 1)
  unfold State.obsFetch
  rw [e]
  rfl

/-- The address of the word of a set's program at place `w` of the schedule (R127, R128). -/
def obsAddr (l : List Byte) (w : Nat) : Nat := imgU l 2 2 + (if setWhole l then w else w % 48)

theorem exec_obsMicroword {s : State} {n : Fin 16} {f mw : Nat} {l : List Byte} (hc : s.cycling n = true)
    (hf : s.follower n = false) (hr : (s.fc n).obsRun = true) (hp : (s.fc n).obsPc < 96)
    (hs : s.wordSlot n (s.fc n).obsPc = some (f, l)) (hw : s.csWord n 1 (obsAddr l (s.fc n).obsPc) = some mw)
    (hi : owIssue mw = true) : exec (.obsMicroword n) s =
      .next (((s.obsFetch n).csNoteFc n 1 (obsAddr l (s.fc n).obsPc)).obsPass n f l mw (s.fc n)) := by
  rw [← s.wordSlot_obsFetch] at hs
  rw [← s.csWord_obsFetch, ← (s.obsFetch n).csWord_csNoteFc n.isLt (by decide : 1 < 3) (obsAddr l (s.fc n).obsPc)] at hw
  refine (if_pos (by simp [hc, hf, hr, hp])).trans ?_
  unfold State.obsFetch obsAddr at *
  dsimp only at hs hw ⊢
  rw [hs]
  dsimp only
  rw [hw]
  dsimp only
  rw [hi, if_neg (by decide), State.obsPass]
  split
  · rfl
  · cases (s.fc n).obsLow <;> rfl

theorem State.still_obsPass (n f : Nat) (l : List Byte) (mw : Nat) (x : FcSt) (s : State) :
    (s.obsPass n f l mw x).still FcSt.rowless = s.still FcSt.rowless := by
  unfold State.obsPass
  split
  · exact s.still_mapFc _ _ fun _ => rfl
  · split
    · rfl
    · exact (State.still_writeback _ _ _ _ _ _).trans (s.still_mapFc _ _ fun _ => rfl)

@[simp] theorem State.memTs_obsPass (n f : Nat) (l : List Byte) (mw : Nat) (x : FcSt) (s : State) :
    (s.obsPass n f l mw x).memTs = s.memTs := by
  unfold State.obsPass
  split
  · rfl
  · split <;> simp

theorem obsMicroword_runs (s : State) (n : Fin 16) (f : Nat) (l : List Byte) (mw : Nat) (hc : s.cycling n = true)
    (hf : s.follower n = false) (hr : (s.fc n).obsRun = true) (hp : (s.fc n).obsPc < 96) :
    let x := s.fc n
    let w := x.obsPc
    s.wordSlot n w = some (f, l) → s.csWord n 1 (imgU l 2 2 + (if setWhole l then w else w % 48)) = some mw → owIssue mw = true →
    Answers (.obsMicroword n) s fun t =>
      t.mem = s.mem ∧ t.tick = max s.tick (x.cycTick + 88 + w + 1) ∧ (t.fc n).obsPc = w + 1 ∧
      (owPass mw = 0 → (t.fc n).obsLow = some (passSum l (owRow mw) (owLanes mw) x.obsZ false)) ∧
      (owPass mw = 1 → x.obsLow = none → (t.fc n).obsXn = x.obsXn) ∧
      (∀ low, owPass mw = 1 → x.obsLow = some low → owRow mw < 32 → owFrz mw = false →
        let acc := low + 65536 * passSum l (owRow mw) (owLanes mw) x.obsZ true
        tget 0 (t.fc n).obsXn (owRow mw) = satI 32 (scale2 acc (imgI l (40 + owRow mw) 1 - 23))) := by
  intro x w hs hw hi
  refine ⟨_, exec_obsMicroword hc hf hr hp hs hw hi, ?_⟩
  obtain ⟨r, h, hnote⟩ := (s.obsFetch n).csNoteFc_frame n 1 (obsAddr l w)
  rw [hnote]
  set u : State := { s.obsFetch n with regs := r, hubq := h }
  have hmem : u.mem = s.mem := s.mem_atTick _
  have htick : u.tick = max s.tick (x.cycTick + 88 + w + 1) := s.tick_atTick _
  have hfc : u.fc n = { x with obsPc := w + 1, obsLow := none } := s.fc_obsFetch n
  have hstill : (u.obsPass n f l mw x).still FcSt.rowless = u.still FcSt.rowless := State.still_obsPass ..
  refine ⟨(State.mem_of_memTs (State.memTs_obsPass ..)).trans hmem, (State.tick_of_still hstill).trans htick, ?_, ?_, ?_, ?_⟩
  · exact (congrArg FcSt.obsPc (State.fc_of_still hstill n)).trans (congrArg FcSt.obsPc hfc)
  · intro h0
    rw [State.obsPass, if_pos h0, State.fc_mapFc_self, hfc]
  · intro h1 hlow
    rw [State.obsPass, if_neg (by omega), hlow]
    have hxn : (u.fc n).obsXn = x.obsXn := by rw [hfc]
    exact hxn
  · intro low h1 hlow hrow hfrz
    rw [State.obsPass, if_neg (by omega), hlow]
    exact State.obsXn_writeback _ hrow hfrz

/-! ### The end of the observer's program at tick 184 -/

@[simp] theorem State.still_commitStates (n f : Nat) (s : State) :
    (s.commitStates n f).still FcSt.clock = s.still FcSt.clock := by
  unfold State.commitStates
  split
  · rfl
  split
  · exact s.still_mapFc _ _ fun _ => rfl
  · exact s.still_setXinit n f _

/-- The states of both slots of FC `n` commit (R125, R133). -/
def State.commitBoth (s : State) (n : Nat) : State := forN 2 (fun f s => if s.bound n f then s.commitStates n f else s) s

@[simp] theorem State.still_commitBoth (s : State) (n : Nat) : (s.commitBoth n).still FcSt.clock = s.still FcSt.clock := by
  simp [State.commitBoth]

@[simp] theorem State.memTs_commitBoth (s : State) (n : Nat) : (s.commitBoth n).memTs = s.memTs := by simp [State.commitBoth]

/-- A row result goes to its register: actuation, monitor or unlimited actuation (R125). -/
def State.putU (n : Nat) (s : State) (e : Nat × Int) : State :=
  if e.1 < 8 then s.wr (Reg.OBS_U n e.1) (BitVec.ofInt 32 e.2)
  else if 32 ≤ e.1 && e.1 < 40 then s.wr (Reg.OBS_O n (e.1 - 32)) (BitVec.ofInt 32 e.2)
  else if 64 ≤ e.1 && e.1 < 72 then s.wr (Reg.OBS_URAW n (e.1 - 64)) (BitVec.ofInt 32 e.2)
  else s

/-- State `i` goes to its register (R125). -/
def State.putX (n i : Nat) (s : State) : State := s.wr (Reg.OBS_X n i) (BitVec.ofInt 32 (tget 0 (s.fc n).obsX i))

@[simp] theorem State.still_putU {τ : Type} {π : FcSt → τ} (n : Nat) (s : State) (e : Nat × Int) :
    (s.putU n e).still π = s.still π := by
  simp [State.putU]
@[simp] theorem State.memTs_putU (n : Nat) (s : State) (e : Nat × Int) : (s.putU n e).memTs = s.memTs := by simp [State.putU]
@[simp] theorem State.still_putX {τ : Type} {π : FcSt → τ} (n i : Nat) (s : State) : (s.putX n i).still π = s.still π := by
  simp [State.putX]
@[simp] theorem State.memTs_putX (n i : Nat) (s : State) : (s.putX n i).memTs = s.memTs := by simp [State.putX]

theorem State.rg_putU_self (s : State) {n j : Nat} {v : Int} (hj : j < 8) :
    (s.putU n (j, v)).rg (Reg.OBS_U n j) = BitVec.ofInt 32 v := by
  rw [State.putU, if_pos hj, State.rg_wr_self]

theorem State.rg_putU_ne (s : State) {n j : Nat} {e : Nat × Int} (hj : j < 8) (h : e.1 ≠ j) :
    (s.putU n e).rg (Reg.OBS_U n j) = s.rg (Reg.OBS_U n j) := by
  unfold State.putU
  split
  · exact s.rg_wr_ne _ (by unfold Reg.OBS_U; omega)
  split
  · exact s.rg_wr_ne _ (by unfold Reg.OBS_U Reg.OBS_O; omega)
  split
  · exact s.rg_wr_ne _ (by unfold Reg.OBS_U Reg.OBS_URAW; omega)
  · rfl

/-- The row results and the states of FC `n` go to their registers (R125). -/
def State.publishObs (s : State) (n : Nat) : State := forN 32 (State.putX n) ((s.fc n).obsU.foldl (State.putU n) s)

@[simp] theorem State.still_publishObs {τ : Type} {π : FcSt → τ} (s : State) (n : Nat) :
    (s.publishObs n).still π = s.still π := by
  simp [State.publishObs]
@[simp] theorem State.memTs_publishObs (s : State) (n : Nat) : (s.publishObs n).memTs = s.memTs := by simp [State.publishObs]

/-- Each actuation written is in its register. -/
theorem State.rg_publishObs_u (s : State) {n j : Nat} {v : Int} (hnd : ((s.fc n).obsU.map (·.1)).Nodup)
    (hmem : (j, v) ∈ (s.fc n).obsU) (hj : j < 8) : (s.publishObs n).rg (Reg.OBS_U n j) = BitVec.ofInt 32 v := by
  refine (forN_frame (State.rg · (Reg.OBS_U n j)) 32 _ _ fun i hi t =>
    t.rg_wr_ne _ (by unfold Reg.OBS_U Reg.OBS_X; omega)).trans ?_
  obtain ⟨u, -, he⟩ := foldl_view (State.rg · (Reg.OBS_U n j)) (State.putU n) s (List.Nodup.of_map _ hnd) hmem
    fun e he hne t => t.rg_putU_ne hj fun h => hne (List.inj_on_of_nodup_map hnd he hmem h)
  exact he.trans (u.rg_putU_self hj)

/-- Each state is in its register. -/
theorem State.rg_publishObs_x (s : State) (n : Nat) {i : Nat} (hi : i < 32) :
    (s.publishObs n).rg (Reg.OBS_X n i) = BitVec.ofInt 32 (tget 0 ((s.publishObs n).fc n).obsX i) := by
  obtain ⟨u, -, he⟩ := forN_view (fun t : State => (t.rg (Reg.OBS_X n i), t.fc n)) (State.putX n)
    ((s.fc n).obsU.foldl (State.putU n) s) hi fun j _ hne t => Prod.ext (t.rg_wr_ne _ (by unfold Reg.OBS_X; omega)) rfl
  obtain ⟨hrg, hfc⟩ := Prod.mk.inj he
  rw [State.publishObs, hrg, hfc]
  exact State.rg_wr_self _ _ _

theorem exec_observerComplete {s : State} {n : Fin 16} (hd : s.stepDue n 184 = true) : exec (.observerComplete n) s =
    .next ((((s.stepAt n 184).commitBoth n).publishObs n).mapFc n fun x => { x with obsRun := false }) := if_pos hd

theorem observerComplete_publishes (s : State) (n : Fin 16) (hd : s.stepDue n 184 = true)
    (hnd : ((s.fc n).obsU.map (·.1)).Nodup) : Answers (.observerComplete n) s fun t =>
      t.mem = s.mem ∧ t.tick = max s.tick ((s.fc n).cycTick + 184) ∧ (t.fc n).obsRun = false ∧
      (∀ j v, (j, v) ∈ (s.fc n).obsU → j < 8 → t.rg (Reg.OBS_U n j) = BitVec.ofInt 32 v) ∧
      ∀ i : Fin 32, t.rg (Reg.OBS_X n i) = BitVec.ofInt 32 (tget 0 (t.fc n).obsX i) := by
  have hobsU : (((s.stepAt n 184).commitBoth n).fc n).obsU = (s.fc n).obsU := by
    refine (congrArg FcSt.obsU (State.fc_of_still (State.still_commitBoth _ n) n)).trans ?_
    exact (congrArg FcSt.obsU (State.fc_mapFc_self _ _ _)).trans (by rw [State.fc, State.fcs_atTick, State.fc])
  refine ⟨_, exec_observerComplete hd, ?_, ?_, ?_, fun j v hmem hj => ?_, fun i => ?_⟩
  · refine (State.mem_of_memTs (s := s.stepAt n 184) ?_).trans (s.mem_stepAt n 184)
    simp
  · refine (State.tick_of_still (π := fun _ => ()) (s := (s.stepAt n 184).commitBoth n) (by simp)).trans
      ((State.tick_of_still (State.still_commitBoth _ n)).trans (s.tick_stepAt n 184))
  · rw [State.fc_mapFc_self]
  · rw [State.rg_mapFc]
    exact State.rg_publishObs_u _ (hobsU ▸ hnd) (hobsU ▸ hmem) hj
  · rw [State.rg_mapFc, State.rg_publishObs_x _ _ i.isLt, State.fc_mapFc_self]

end Sys2Proof.Machine
end

section
/-! The modulator's N at tick 200 (O17). -/

namespace Sys2Proof.Machine

/-! ### The hold rule -/

/-- The hold counter of pair `n`, and the verdict on the cycle (R203). -/
def State.holdCount (s : State) (n : Nat) : State :=
  (s.sf (Reg.GLV_HOLD n) F.GLV_HOLD_HOLD_CNT
    (if s.pairDown n then min 15 (s.fld (Reg.GLV_HOLD n) F.GLV_HOLD_HOLD_CNT + 1) else 0)).mapFc n fun x =>
      { x with holdCyc := s.pairDown n, consecDue := false }

/-- The report of a run of hold cycles that exceeds its limit (R203). -/
def State.holdReport (s : State) (n pay : Nat) : State :=
  (s.flag (Reg.GLV_STAT n) F.GLV_STAT_HOLD_EXC).raise (1024 + 24 * n + 2) 0x4B pay

/-- The hold rule after its counter: what CONSEC, the hold cause and the report of an excess leave alone, it leaves alone. -/
theorem State.judgeHold_keeps {τ : Type} (g : State → τ) (s : State) (n : Nat) (hclear : ∀ t, g (t.consecClear n) = g t)
    (hcause : ∀ t on, g (t.setCause n 7 on) = g t) (hreport : ∀ t pay, g (t.holdReport n pay) = g t) :
    g (s.judgeHold n) = g (s.holdCount n) := by
  have hif : ∀ c : Prop, [Decidable c] → ∀ t u : State, g t = g u → g (if c then t else u) = g u := fun c _ t u h => by
    split
    · exact h
    · rfl
  unfold State.judgeHold
  extract_lets h lim old c on due s₁ s₂ s₃ s₄
  calc g _ = g s₄ := hif _ _ _ (hreport s₄ _)
    _ = g s₃ := hcause s₃ _
    _ = g s₂ := hif _ _ _ (hclear s₂)

theorem State.fc_judgeHold (s : State) (n : Nat) :
    (s.judgeHold n).fc n = { s.fc n with holdCyc := s.pairDown n, consecDue := false } := by
  refine (State.judgeHold_keeps (State.fc · n) s n ?_ ?_ ?_).trans (State.fc_mapFc_self _ _ _)
  · exact fun t => State.fc_of_still (π := id) (t.still_consecClear n) n
  · exact fun t on => State.fc_of_still (π := id) (t.still_setCause n 7 on) n
  · exact fun t pay => State.fc_of_still (π := id) (by simp [State.holdReport]) n

theorem State.tick_judgeHold (s : State) (n : Nat) : (s.judgeHold n).tick = s.tick := by
  refine State.judgeHold_keeps State.tick s n ?_ ?_ ?_
  · exact fun t => State.tick_of_still (π := id) (t.still_consecClear n)
  · exact fun t on => State.tick_of_still (π := id) (t.still_setCause n 7 on)
  · exact fun t pay => State.tick_of_still (π := id) (by simp [State.holdReport])

theorem State.flown_consecClear (s : State) (n : Nat) : (s.consecClear n).flown = s.flown := by
  unfold State.consecClear State.ovrEval
  refine (State.flown_setCause _ _ _ _).trans ?_
  split <;> rfl

theorem State.flown_judgeHold (s : State) (n : Nat) : (s.judgeHold n).flown = s.flown := by
  refine State.judgeHold_keeps State.flown s n (fun t => t.flown_consecClear n) (fun t on => t.flown_setCause n 7 on) ?_
  exact fun t pay => State.flown_of_slots (by simp [State.holdReport])

theorem State.rg_judgeHold_ne (s : State) {n a : Nat} (ha : a < 0x70000000) (hs : a ≠ Reg.FC_CYC_STAT n)
    (ho : a ≠ Reg.FC_OVR_COUNT n) : (s.judgeHold n).rg a = s.rg a := by
  refine (State.judgeHold_keeps (State.rg · a) s n ?_ ?_ ?_).trans ?_
  · exact fun t => (t.sf _ _ _).rg_ovrEval_ne ha hs |>.trans (t.rg_sf_ne _ _ ho)
  · exact fun t on => t.rg_setCause _ _ _ ha
  · exact fun t pay => (State.rg_raise_below _ _ _ _ (by omega)).trans (t.rg_flag_ne _ (by unfold Reg.GLV_STAT; omega))
  · exact s.rg_sf_ne _ _ (by unfold Reg.GLV_HOLD; omega)

/-- The hold rule leaves the fields of FC_CYC_STAT that say who leads. -/
theorem State.gang_judgeHold (s : State) {n : Nat} (hn : n < 16) : (s.judgeHold n).gang = s.gang := by
  have hfld : ∀ f : Fld, f.lo + f.w ≤ F.FC_CYC_STAT_OVR_TRIP.lo →
      (s.judgeHold n).fld (Reg.FC_CYC_STAT n) f = s.fld (Reg.FC_CYC_STAT n) f := fun f hf => by
    have hlow : Reg.FC_CYC_STAT n < 0x70000000 := by unfold Reg.FC_CYC_STAT; omega
    refine (State.judgeHold_keeps (fun t => t.fld (Reg.FC_CYC_STAT n) f) s n (fun t => ?_) (fun t on => ?_) fun t pay => ?_).trans ?_
    · rw [State.consecClear, State.fld_ovrEval _ hn hf, State.fld_sf_ne]
      unfold Reg.FC_CYC_STAT Reg.FC_OVR_COUNT
      omega
    · exact State.fld_of_rg (t.rg_setCause _ _ _ hlow) f
    · exact State.fld_of_rg ((State.rg_raise_below _ _ _ _ (by omega)).trans
        (t.rg_flag_ne _ (by unfold Reg.GLV_STAT; omega))) f
    · exact State.fld_of_rg (s.rg_sf_ne _ _ (by unfold Reg.GLV_HOLD; omega)) f
  funext m
  unfold State.gang
  by_cases hm : m = n
  · rw [hm, hfld _ (by decide), hfld _ (by decide)]
  · have hr : (s.judgeHold n).rg (Reg.FC_CYC_STAT m) = s.rg (Reg.FC_CYC_STAT m) :=
      s.rg_judgeHold_ne (by unfold Reg.FC_CYC_STAT; omega) (by unfold Reg.FC_CYC_STAT; omega)
        (by unfold Reg.FC_CYC_STAT Reg.FC_OVR_COUNT; omega)
    rw [State.fld_of_rg hr, State.fld_of_rg hr]

/-! ### The modulator -/

/-- The reference that the modulator of a flight takes (R84). -/
def State.modRef (s : State) (n f : Nat) : Int := (s.rg (Reg.OBS_U n (s.lf n (Reg.BAL_FCFG n f) F.BAL_FCFG_UIDX))).toInt

/-- The reference in units of the flight's cells, clamped to what they reach (R84). -/
def modX (y : SlotSt) (u : Int) : Int :=
  max (-65536 * (y.afb : Int)) (min (rhe (u * y.a * (recip y.sum).1) (2 ^ ((recip y.sum).2 + 8))) (65536 * y.a))

/-- The clamp of the modulator, as the least and greatest of its bounds and the value. -/
theorem clamp_eq_max_min {lo hi v : Int} (h : lo ≤ hi) : (if hi < v then hi else if v < lo then lo else v) = max lo (min v hi) := by
  split
  · omega
  · split <;> omega

/-- Outside a hold cycle a running flight's N and F are those of the clamped reference (R83, R84). -/
theorem State.modulate_runs {s : State} {n f : Nat} (hr : s.runs n f = true) (hh : (s.fc n).holdCyc = false)
    (hs : (s.slot n f).sum ≠ 0) (ha : (s.slot n f).a ≠ 0) :
    ((s.modulate n f).slot n f).n = modX (s.slot n f) (s.modRef n f) / 65536 ∧
      (((s.modulate n f).slot n f).fr : Int) = modX (s.slot n f) (s.modRef n f) % 65536 := by
  have hzd : ((s.slot n f).sum == 0 || (s.slot n f).a == 0) = false := by simp [hs, ha]
  have hx := clamp_eq_max_min (lo := -65536 * ((s.slot n f).afb : Int)) (hi := 65536 * ((s.slot n f).a : Int))
    (v := rhe (s.modRef n f * (s.slot n f).a * (recip (s.slot n f).sum).1) (2 ^ ((recip (s.slot n f).sum).2 + 8))) (by omega)
  unfold State.modRef at hx
  simp only [State.modulate, hr, hh, hzd, Bool.not_true, Bool.false_eq_true, if_false, State.slot_wr, State.slot_mapSlot_self, hx]
  exact ⟨rfl, Int.toNat_of_nonneg (Int.emod_nonneg _ (by decide))⟩

@[simp] theorem State.still_modulate {τ : Type} {π : FcSt → τ} (n f : Nat) (s : State) :
    (s.modulate n f).still π = s.still π := by
  simp [State.modulate]

theorem State.rg_modulate_ne (s : State) {n f a : Nat} (hs : a ≠ Reg.BAL_STAT n f) (hn : a ≠ Reg.BAL_NOUT n f)
    (hx : a ≠ Reg.BAL_XOUT n f) (hr : a ≠ Reg.BAL_RECIP n f) : (s.modulate n f).rg a = s.rg a := by
  simp [State.modulate, State.rg_wr_ne _ _ hn, State.rg_wr_ne _ _ hx, State.rg_wr_ne _ _ hr, State.rg_flag_ne _ _ hs]

theorem State.head_modulate (s : State) {n f : Nat} (hf : f < 2) : (s.modulate n f).head = s.head :=
  State.head_of_rg fun a _ ho => s.rg_modulate_ne (by unfold Reg.BAL_STAT; omega) (by unfold Reg.BAL_NOUT; omega)
    (by unfold Reg.BAL_XOUT; omega) (by unfold Reg.BAL_RECIP; omega)

theorem State.slot_modulate_ne (s : State) {n f k : Nat} (h : k ≠ f) : (s.modulate n k).slot n f = s.slot n f := by
  simp [State.modulate, State.slot_mapSlot_ne _ _ h.symm]

/-- The reference depends on the latched word that selects it and on the actuations. -/
theorem State.modRef_congr {s t : State} {n f : Nat} (hfc : (t.fc n).lat = (s.fc n).lat)
    (hcfg : t.rg (Reg.BAL_FCFG n f) = s.rg (Reg.BAL_FCFG n f)) (hu : ∀ j < 8, t.rg (Reg.OBS_U n j) = s.rg (Reg.OBS_U n j)) :
    t.modRef n f = s.modRef n f := by
  unfold State.modRef
  have hidx : s.lf n (Reg.BAL_FCFG n f) F.BAL_FCFG_UIDX < 8 := Nat.mod_lt _ (by decide)
  rw [State.lf_congr hcfg hfc, hu _ hidx]

/-- What the modulator of a flight reads. -/
def State.modView (n f : Nat) (s : State) : (Nat → Word) × SlotSt × FcSt × Int := (s.head, s.slot n f, s.fc n, s.modRef n f)

theorem State.modView_modulate_ne (s : State) {n f k : Nat} (hk : k < 2) (h : k ≠ f) :
    (s.modulate n k).modView n f = s.modView n f := by
  have hfc : (s.modulate n k).fc n = s.fc n := State.fc_of_still (π := id) (State.still_modulate n k s) n
  have hrg : ∀ a, a % 0x100000 < 0x6014 + 0x40 * k ∨ 0x602C + 0x40 * k ≤ a % 0x100000 → (s.modulate n k).rg a = s.rg a :=
    fun a ha => s.rg_modulate_ne (by unfold Reg.BAL_STAT; omega) (by unfold Reg.BAL_NOUT; omega)
      (by unfold Reg.BAL_XOUT; omega) (by unfold Reg.BAL_RECIP; omega)
  have href : (s.modulate n k).modRef n f = s.modRef n f :=
    State.modRef_congr (congrArg FcSt.lat hfc) (hrg _ (by unfold Reg.BAL_FCFG; omega))
      fun j hj => hrg _ (by unfold Reg.OBS_U; omega)
  rw [State.modView, s.head_modulate hk, s.slot_modulate_ne h, hfc, href, State.modView]

/-- The state in which the modulator of FC `n` works: at tick 200, the hold rule judged. -/
def State.atReady (s : State) (n : Nat) : State := (s.stepAt n 200).judgeHold n

theorem State.rg_atReady_ne (s : State) {n a : Nat} (ha : a < 0x70000000) (hs : a ≠ Reg.FC_CYC_STAT n)
    (ho : a ≠ Reg.FC_OVR_COUNT n) : (s.atReady n).rg a = s.rg a :=
  (State.rg_judgeHold_ne _ ha hs ho).trans (State.rg_congr (s.regs_stepAt n 200) a)

theorem State.gang_atReady (s : State) {n : Nat} (hn : n < 16) : (s.atReady n).gang = s.gang :=
  ((s.stepAt n 200).gang_judgeHold hn).trans (s.gang_stepAt n 200)

theorem State.tick_atReady (s : State) (n : Nat) : (s.atReady n).tick = max s.tick ((s.fc n).cycTick + 200) :=
  (State.tick_judgeHold _ n).trans (s.tick_stepAt n 200)

theorem State.slot_atReady (s : State) (n f : Nat) :
    ∃ p, (s.atReady n).slot n f = { s.slot n f with tripPend := p } :=
  State.slot_of_flown (congrFun ((State.flown_judgeHold _ n).trans (State.flown_of_slots (s.slots_stepAt n 200))) _)

theorem State.holdCyc_atReady (s : State) (n : Nat) : ((s.atReady n).fc n).holdCyc = s.pairDown n := by
  obtain ⟨k, u, e⟩ := s.atTick_frame ((s.fc n).cycTick + 200)
  rw [State.atReady, State.fc_judgeHold, State.stepAt, e]
  rfl

theorem State.lat_atReady (s : State) (n : Nat) : ((s.atReady n).fc n).lat = (s.fc n).lat := by
  rw [State.atReady, State.fc_judgeHold]
  exact s.lat_stepAt n 200

theorem State.leads_atReady (s : State) {n f : Nat} (hn : n < 16) (hf : f < 2) : (s.atReady n).leads n f = s.leads n f := by
  have hcfg : (s.atReady n).rg (Reg.FC_FLT_CFG n f) = s.rg (Reg.FC_FLT_CFG n f) :=
    s.rg_atReady_ne (by unfold Reg.FC_FLT_CFG; omega) (by unfold Reg.FC_FLT_CFG Reg.FC_CYC_STAT; omega)
      (by unfold Reg.FC_FLT_CFG Reg.FC_OVR_COUNT; omega)
  rw [State.leads, State.bound, State.bit_of_rg hcfg, State.leader_of_gang (s.gang_atReady hn) hn, State.leads, State.bound]

theorem State.runs_atReady (s : State) {n f : Nat} (hn : n < 16) (hf : f < 2) : (s.atReady n).runs n f = s.runs n f :=
  State.runs_of_rg (s.rg_atReady_ne (by unfold Reg.FC_FLT_STAT; omega) (by unfold Reg.FC_FLT_STAT Reg.FC_CYC_STAT; omega)
    (by unfold Reg.FC_FLT_STAT Reg.FC_OVR_COUNT; omega))

theorem State.modRef_atReady (s : State) {n f : Nat} (hn : n < 16) (hf : f < 2) : (s.atReady n).modRef n f = s.modRef n f :=
  State.modRef_congr (s.lat_atReady n)
    (s.rg_atReady_ne (by unfold Reg.BAL_FCFG; omega) (by unfold Reg.BAL_FCFG Reg.FC_CYC_STAT; omega)
      (by unfold Reg.BAL_FCFG Reg.FC_OVR_COUNT; omega))
    fun j hj => s.rg_atReady_ne (by unfold Reg.OBS_U; omega) (by unfold Reg.OBS_U Reg.FC_CYC_STAT; omega)
      (by unfold Reg.OBS_U Reg.FC_OVR_COUNT; omega)

theorem exec_nReady {s : State} {n : Fin 16} (hd : s.stepDue n 200 = true) : exec (.nReady n) s =
    let u := s.atReady n
    let v := (u.led n).foldl (fun s f => s.modulate n f) u
    .next ((v.cycleFcs n).foldl (fun s m => s.line m 1) v) := if_pos hd

theorem nReady_publishes (s : State) (n : Fin 16) (hd : s.stepDue n 200 = true) : Answers (.nReady n) s fun t =>
    t.mem = s.mem ∧ t.tick = max s.tick ((s.fc n).cycTick + 200) ∧ (∀ m ∈ s.cycleFcs n, (tget 0 t.irq m).getLsbD 1 = true) ∧
    ∀ f : Fin 2, s.leads n f = true → s.runs n f = true → s.pairDown n = false →
      (s.slot n f).sum ≠ 0 → (s.slot n f).a ≠ 0 →
      let y := s.slot n f
      let u := (s.rg (Reg.OBS_U n (s.lf n (Reg.BAL_FCFG n f) F.BAL_FCFG_UIDX))).toInt
      let x := max (-65536 * (y.afb : Int)) (min (rhe (u * y.a * (recip y.sum).1) (2 ^ ((recip y.sum).2 + 8))) (65536 * y.a))
      (t.slot n f).n = x / 65536 ∧ ((t.slot n f).fr : Int) = x % 65536 := by
  have hn := n.isLt
  set u := s.atReady n with hu
  set v := (u.led n).foldl (fun s f => s.modulate n f) u with hv
  have hled : ∀ f ∈ u.led n, f < 2 := fun f hf => (State.mem_led.1 hf).1
  have hhead : v.head = u.head := foldl_frame_mem State.head _ _ _ fun f hf t => t.head_modulate (hled f hf)
  have hfcs : v.cycleFcs n = s.cycleFcs n := State.cycleFcs_of_gang ((State.gang_of_head hhead).trans (s.gang_atReady hn)) n
  obtain ⟨q, hq, -, hline⟩ := v.foldl_line (s.cycleFcs n) (l := 1) (by decide)
  refine ⟨_, exec_nReady hd, ?_⟩
  dsimp only
  rw [← hu, ← hv, hfcs, hq]
  refine ⟨?_, ?_, hline, fun f hl hr hp hsum ha => ?_⟩
  · refine (State.mem_of_memTs (s := s.stepAt n 200) ?_).trans (s.mem_stepAt n 200)
    simp [hv, hu, State.atReady]
  · refine (State.tick_of_still (π := id) (by simp [hv]) : v.tick = u.tick).trans (s.tick_atReady n)
  · have hfled : f.val ∈ u.led n := State.mem_led.2 ⟨f.isLt, (s.leads_atReady hn f.isLt).trans hl⟩
    obtain ⟨w, hw, he⟩ := foldl_view (State.modView n f) (fun s f => s.modulate n f) u (u.nodup_led n) hfled
      fun k hk hne t => t.modView_modulate_ne (hled k hk) hne
    simp only [State.modView, Prod.mk.injEq] at hw he
    obtain ⟨hwhead, hwslot, hwfc, hwref⟩ := hw
    obtain ⟨-, heslot, -, -⟩ := he
    obtain ⟨p, hslot⟩ := s.slot_atReady n f
    rw [hslot] at hwslot
    have hrun := State.modulate_runs (s := w) (n := n) (f := f)
      ((State.runs_of_head hwhead hn f.isLt).trans ((s.runs_atReady hn f.isLt).trans hr))
      (by rw [hwfc, s.holdCyc_atReady, hp]) (by rw [hwslot]; exact hsum) (by rw [hwslot]; exact ha)
    rw [← heslot, hwslot, hwref, s.modRef_atReady hn f.isLt] at hrun
    exact hrun

end Sys2Proof.Machine
end

section
/-! The balancer's deadline at tick 240 (O17). -/

namespace Sys2Proof.Machine

/-! ### The deadline on an override -/

theorem State.rg_ovrdEnd_ne (s : State) {m f a : Nat} (hs : a ≠ Reg.FC_CYC_STAT m) (ho : a ≠ Reg.FC_N_OVRD m f) :
    (s.ovrdEnd m f).rg a = s.rg a := by
  simp [State.ovrdEnd, State.rg_sf_ne _ _ _ ho, State.rg_flag_ne _ _ hs]

@[simp] theorem State.slots_ovrdEnd (m f : Nat) (s : State) : (s.ovrdEnd m f).slots = s.slots := by simp [State.ovrdEnd]
@[simp] theorem State.still_ovrdEnd {τ : Type} {π : FcSt → τ} (m f : Nat) (s : State) : (s.ovrdEnd m f).still π = s.still π := by
  simp [State.ovrdEnd]

/-- The deadline on an override leaves the fields of FC_CYC_STAT that say who leads. -/
theorem State.gang_ovrdEnd (s : State) {m f : Nat} (hf : f < 2) : (s.ovrdEnd m f).gang = s.gang := by
  have hne : ∀ k : Fin 16, Reg.FC_CYC_STAT k ≠ Reg.FC_N_OVRD m f := fun k => by
    unfold Reg.FC_CYC_STAT Reg.FC_N_OVRD
    omega
  have hfld : ∀ (k : Fin 16) (g : Fld), g.lo + g.w ≤ F.FC_CYC_STAT_OVRD_LATE.lo →
      (s.ovrdEnd m f).fld (Reg.FC_CYC_STAT k) g = s.fld (Reg.FC_CYC_STAT k) g := fun k g hg => by
    unfold State.ovrdEnd
    dsimp only
    rw [State.fld_sf_ne _ _ _ _ (hne k)]
    split
    · by_cases hk : k.val = m
      · rw [hk]
        exact s.fld_sf_disjoint _ _ _ _ (.inr hg)
      · exact s.fld_sf_ne _ _ _ (by unfold Reg.FC_CYC_STAT; omega)
    · rfl
  funext k
  rw [State.gang, hfld k _ (by decide), hfld k _ (by decide), State.gang]

theorem State.valid_ovrdEnd (s : State) (m f : Nat) : (s.ovrdEnd m f).bit (Reg.FC_N_OVRD m f) F.FC_N_OVRD_VALID = false := by
  rw [State.ovrdEnd, State.bit_sf_self _ _ _ _ (by decide)]
  rfl

/-! ### N_A of the deadline -/

/-- N_A of a running flight outside a hold cycle: the admitted override within its limits, or N (R31, R85). -/
def State.naOf (s : State) (n f : Nat) : Int :=
  let y := s.slot n f
  if s.ovrdHits n f then
    let delta : Int := s.lf n (Reg.FC_N_LIMIT n f) F.FC_N_LIMIT_DELTA
    clampI (-y.afb) y.a (clampI (y.n - delta) (y.n + delta) (sx 10 (s.fld (Reg.FC_N_OVRD n f) F.FC_N_OVRD_N)))
  else y.n

theorem State.fc_ovrdEnd (s : State) (m f n : Nat) : (s.ovrdEnd m f).fc n = s.fc n :=
  State.fc_of_still (π := id) (State.still_ovrdEnd m f s) n

theorem State.na_fixNa {s : State} {n f : Nat} (hf : f < 2) (hr : s.runs n f = true) (hh : (s.fc n).holdCyc = false) :
    ((s.fixNa n f).slot n f).na = s.naOf n f := by
  have hr' : (s.ovrdEnd n f).runs n f = true := (State.runs_of_rg (s.rg_ovrdEnd_ne (by unfold Reg.FC_FLT_STAT Reg.FC_CYC_STAT; omega)
    (by unfold Reg.FC_FLT_STAT Reg.FC_N_OVRD; omega))).trans hr
  have hlim : (s.ovrdEnd n f).lf n (Reg.FC_N_LIMIT n f) F.FC_N_LIMIT_DELTA = s.lf n (Reg.FC_N_LIMIT n f) F.FC_N_LIMIT_DELTA :=
    State.lf_congr (s.rg_ovrdEnd_ne (by unfold Reg.FC_N_LIMIT Reg.FC_CYC_STAT; omega)
      (by unfold Reg.FC_N_LIMIT Reg.FC_N_OVRD; omega)) (by rw [State.fc_ovrdEnd]) _
  unfold State.fixNa State.naOf
  simp only [hr', hlim, State.fc_ovrdEnd, hh, Bool.not_true, Bool.false_eq_true, if_false]
  split
  · rw [State.slot_mapSlot_self]
    rfl
  · rw [State.slot_mapSlot_self]
    exact congrArg SlotSt.n (State.slot_of_slots (State.slots_ovrdEnd n f s) n f)

/-- What tick 240 does to one slot of an FC (R85, R90). -/
def State.deadlineStage (s : State) (n f : Nat) : State := ((s.fixNa n f).fixTrim n f).tokenStage n f

theorem State.na_fixTrim (s : State) (n f : Nat) : ((s.fixTrim n f).slot n f).na = (s.slot n f).na := by
  unfold State.fixTrim
  split
  · rfl
  · simp [State.slot_mapSlot_self]

theorem State.na_tokenStage (s : State) (n f : Nat) : ((s.tokenStage n f).slot n f).na = (s.slot n f).na := by
  unfold State.tokenStage
  split
  · rfl
  · dsimp only
    rw [State.slot_mapSlot_self, State.slot_of_slots (State.slots_foldl_mapLane _ _ _ _)]
    simp

theorem State.na_deadlineStage {s : State} {n f : Nat} (hf : f < 2) (hr : s.runs n f = true) (hh : (s.fc n).holdCyc = false) :
    ((s.deadlineStage n f).slot n f).na = s.naOf n f :=
  (State.na_tokenStage _ n f).trans ((State.na_fixTrim _ n f).trans (State.na_fixNa hf hr hh))

/-! ### What the stage of one slot leaves -/

section still

variable {τ : Type} {π : FcSt → τ}

@[simp] theorem State.still_fixNa (n f : Nat) (s : State) : (s.fixNa n f).still π = s.still π := by simp [State.fixNa]
@[simp] theorem State.still_fixTrim (n f : Nat) (s : State) : (s.fixTrim n f).still π = s.still π := by simp [State.fixTrim]
@[simp] theorem State.still_tokenStage (n f : Nat) (s : State) : (s.tokenStage n f).still π = s.still π := by
  simp [State.tokenStage]
@[simp] theorem State.still_deadlineStage (n f : Nat) (s : State) : (s.deadlineStage n f).still π = s.still π := by
  simp [State.deadlineStage]

end still

theorem State.rg_deadlineStage (s : State) {n f a : Nat} (ha : a < 0x70040000) (hb : a ≠ Reg.BAL_STAT n f) :
    (s.deadlineStage n f).rg a = (s.ovrdEnd n f).rg a := by
  have htok : ∀ t : State, (t.tokenStage n f).rg a = t.rg a := fun t => by
    unfold State.tokenStage
    split
    · rfl
    · simp [State.rg_flag_ne _ _ hb]
  have htrim : ∀ t : State, (t.fixTrim n f).rg a = t.rg a := fun t => by
    simp [State.fixTrim, State.rg_raiseIf_below _ _ _ _ _ ha, State.rg_sb_ne _ _ _ hb, State.rg_flag_ne _ _ hb]
  have hna : (s.fixNa n f).rg a = (s.ovrdEnd n f).rg a := by
    simp [State.fixNa, State.rg_flag_ne _ _ hb]
  exact (htok _).trans ((htrim _).trans hna)

theorem State.slot_fixNa_ne (s : State) {n f k : Nat} (h : k ≠ f) : (s.fixNa n k).slot n f = s.slot n f := by
  simp [State.fixNa, State.slot_mapSlot_ne _ _ h.symm, State.slot_of_slots (State.slots_ovrdEnd n k s)]

theorem State.slot_fixTrim_ne (s : State) {n f k : Nat} (h : k ≠ f) : (s.fixTrim n k).slot n f = s.slot n f := by
  simp [State.fixTrim, State.slot_mapSlot_ne _ _ h.symm]

theorem State.slot_tokenStage_ne (s : State) {n f k : Nat} (h : k ≠ f) : (s.tokenStage n k).slot n f = s.slot n f := by
  simp [State.tokenStage, State.slot_mapSlot_ne _ _ h.symm, State.slot_of_slots (State.slots_foldl_mapLane _ _ _ _)]

theorem State.slot_deadlineStage_ne (s : State) {n f k : Nat} (h : k ≠ f) :
    (s.deadlineStage n k).slot n f = s.slot n f :=
  (State.slot_tokenStage_ne _ h).trans ((State.slot_fixTrim_ne _ h).trans (s.slot_fixNa_ne h))

theorem State.gang_deadlineStage (s : State) {n f : Nat} (hf : f < 2) : (s.deadlineStage n f).gang = s.gang :=
  (State.gang_of_rg fun m => s.rg_deadlineStage (by unfold Reg.FC_CYC_STAT; omega)
    (by unfold Reg.FC_CYC_STAT Reg.BAL_STAT; omega)).trans (s.gang_ovrdEnd hf)

theorem State.rg_deadlineStage_ne (s : State) {n f a : Nat} (ha : a < 0x70040000) (hb : a ≠ Reg.BAL_STAT n f)
    (hs : a ≠ Reg.FC_CYC_STAT n) (ho : a ≠ Reg.FC_N_OVRD n f) : (s.deadlineStage n f).rg a = s.rg a :=
  (s.rg_deadlineStage ha hb).trans (s.rg_ovrdEnd_ne hs ho)

theorem State.valid_deadlineStage (s : State) {n f : Nat} (hn : n < 16) (hf : f < 2) :
    (s.deadlineStage n f).bit (Reg.FC_N_OVRD n f) F.FC_N_OVRD_VALID = false :=
  (State.bit_of_rg (s.rg_deadlineStage (by unfold Reg.FC_N_OVRD; omega) (by unfold Reg.FC_N_OVRD Reg.BAL_STAT; omega)) _).trans
    (s.valid_ovrdEnd n f)

/-- What the deadline on a slot reads. -/
def State.ovrdView (n f : Nat) (s : State) : (Fin 16 → Nat × Nat) × Bool × SlotSt × Tbl Word × Bool × Word × Word × Word :=
  (s.gang, s.runs n f, s.slot n f, (s.fc n).lat, (s.fc n).holdCyc, s.rg (Reg.FC_N_OVRD n f), s.rg (Reg.FC_N_LIMIT n f), s.count n)

theorem State.ovrdView_deadlineStage_ne (s : State) {n f k : Nat} (hn : n < 16) (hf : f < 2) (hk : k < 2) (h : k ≠ f) :
    (s.deadlineStage n k).ovrdView n f = s.ovrdView n f := by
  have hg := s.gang_deadlineStage (n := n) hk
  have hl := s.leader_lt hn
  have hcount : (s.deadlineStage n k).count n = s.count n := by
    rw [State.count, State.leader_of_gang hg hn, s.rg_deadlineStage_ne, State.count]
      <;> unfold Reg.FC_CYC_COUNT
    · omega
    · unfold Reg.BAL_STAT; omega
    · unfold Reg.FC_CYC_STAT; omega
    · unfold Reg.FC_N_OVRD; omega
  have hruns : (s.deadlineStage n k).runs n f = s.runs n f := State.runs_of_rg (s.rg_deadlineStage_ne
    (by unfold Reg.FC_FLT_STAT; omega) (by unfold Reg.FC_FLT_STAT Reg.BAL_STAT; omega)
    (by unfold Reg.FC_FLT_STAT Reg.FC_CYC_STAT; omega) (by unfold Reg.FC_FLT_STAT Reg.FC_N_OVRD; omega))
  have hovrd : (s.deadlineStage n k).rg (Reg.FC_N_OVRD n f) = s.rg (Reg.FC_N_OVRD n f) := s.rg_deadlineStage_ne
    (by unfold Reg.FC_N_OVRD; omega) (by unfold Reg.FC_N_OVRD Reg.BAL_STAT; omega)
    (by unfold Reg.FC_N_OVRD Reg.FC_CYC_STAT; omega) (by unfold Reg.FC_N_OVRD; omega)
  have hlim : (s.deadlineStage n k).rg (Reg.FC_N_LIMIT n f) = s.rg (Reg.FC_N_LIMIT n f) := s.rg_deadlineStage_ne
    (by unfold Reg.FC_N_LIMIT; omega) (by unfold Reg.FC_N_LIMIT Reg.BAL_STAT; omega)
    (by unfold Reg.FC_N_LIMIT Reg.FC_CYC_STAT; omega) (by unfold Reg.FC_N_LIMIT Reg.FC_N_OVRD; omega)
  have hfc : (s.deadlineStage n k).fc n = s.fc n := State.fc_of_still (π := id) (State.still_deadlineStage n k s) n
  rw [State.ovrdView, hg, hruns, s.slot_deadlineStage_ne h, hfc, hovrd, hlim, hcount, State.ovrdView]

theorem State.naOf_of_ovrdView {s t : State} {n f : Nat} (h : t.ovrdView n f = s.ovrdView n f) : t.naOf n f = s.naOf n f := by
  simp only [State.ovrdView, Prod.mk.injEq] at h
  obtain ⟨-, -, hslot, hlat, -, hovrd, hlim, hcount⟩ := h
  unfold State.naOf State.ovrdHits
  rw [hslot, State.fld_of_rg hovrd, State.fld_of_rg hovrd, State.bit_of_rg hovrd, hcount, State.lf_congr hlim hlat]

/-! ### The clause -/

/-- Both overrides of FC `m` meet their deadline (R31). -/
def State.ovrdEnds (s : State) (m : Nat) : State := forN 2 (fun f s => s.ovrdEnd m f) s

theorem exec_balancerDeadline {s : State} {n : Fin 16} (hd : s.stepDue n 240 = true) : exec (.balancerDeadline n) s =
    let u := forN 2 (fun f s => s.deadlineStage n f) (s.stepAt n 240)
    .next (((u.cycleFcs n).drop 1).foldl State.ovrdEnds u) := if_pos hd

/-- The flight slots and an override register of an FC. -/
def State.ovrdOut (n f : Nat) (s : State) : Tbl SlotSt × Word := (s.slots, s.rg (Reg.FC_N_OVRD n f))

/-- The deadlines on the followers' overrides leave the leader's slots and overrides. -/
theorem State.ovrdOut_ovrdEnds (s : State) {n m f : Nat} (hf : f < 2) (h : m ≠ n) :
    (s.ovrdEnds m).ovrdOut n f = s.ovrdOut n f := by
  refine forN_frame (State.ovrdOut n f) 2 _ s fun k hk t => ?_
  rw [State.ovrdOut, State.slots_ovrdEnd, t.rg_ovrdEnd_ne (by unfold Reg.FC_N_OVRD Reg.FC_CYC_STAT; omega)
    (by unfold Reg.FC_N_OVRD; omega), State.ovrdOut]

theorem State.ovrdView_stepAt (s : State) (n f t : Nat) : (s.stepAt n t).ovrdView n f = s.ovrdView n f := by
  have hr := s.regs_stepAt n t
  have hhold : ((s.stepAt n t).fc n).holdCyc = (s.fc n).holdCyc := by
    rw [State.stepAt, State.fc_mapFc_self, State.fc, s.fcs_atTick, State.fc]
  rw [State.ovrdView, s.gang_stepAt, State.runs_of_rg (State.rg_congr hr _), State.slot_of_slots (s.slots_stepAt n t), s.lat_stepAt,
    hhold, State.rg_congr hr, State.rg_congr hr, State.count_of_regs hr, State.ovrdView]

theorem balancerDeadline_fixes (s : State) (n : Fin 16) (hd : s.stepDue n 240 = true) : Answers (.balancerDeadline n) s fun t =>
    t.mem = s.mem ∧ t.tick = max s.tick ((s.fc n).cycTick + 240) ∧ ∀ f : Fin 2,
      t.bit (Reg.FC_N_OVRD n f) F.FC_N_OVRD_VALID = false ∧
      (s.runs n f = true → (s.fc n).holdCyc = false →
        let y := s.slot n f
        let delta : Int := s.lf n (Reg.FC_N_LIMIT n f) F.FC_N_LIMIT_DELTA
        (s.bit (Reg.FC_N_OVRD n f) F.FC_N_OVRD_VALID = false → (t.slot n f).na = y.n) ∧
        (s.bit (Reg.FC_N_OVRD n f) F.FC_N_OVRD_VALID = true →
          s.fld (Reg.FC_N_OVRD n f) F.FC_N_OVRD_CYC = (s.count n).toNat % 256 →
          (t.slot n f).na = max (-(y.afb : Int)) (min
            (max (y.n - delta) (min (sx 10 (s.fld (Reg.FC_N_OVRD n f) F.FC_N_OVRD_N)) (y.n + delta))) y.a))) := by
  have hn := n.isLt
  set u := forN 2 (fun f s => s.deadlineStage n f) (s.stepAt n 240) with hu
  refine ⟨_, exec_balancerDeadline hd, ?_, ?_, fun f => ?_⟩
  · refine (State.mem_of_memTs (s := s.stepAt n 240) ?_).trans (s.mem_stepAt n 240)
    simp [State.ovrdEnds, State.deadlineStage]
  · refine (State.tick_of_still (π := id) (s := s.stepAt n 240) ?_).trans (s.tick_stepAt n 240)
    simp [State.ovrdEnds]
  have hout : (((u.cycleFcs n).drop 1).foldl State.ovrdEnds u).ovrdOut n f = u.ovrdOut n f :=
    foldl_frame_mem (State.ovrdOut n f) _ _ _ fun m hm t =>
      t.ovrdOut_ovrdEnds f.isLt (State.ne_of_mem_followers (s := u) hm)
  obtain ⟨w, hw, he⟩ := forN_view (State.ovrdView n f) (fun f s => s.deadlineStage n f) (s.stepAt n 240) f.isLt
    fun k hk hne t => t.ovrdView_deadlineStage_ne hn f.isLt hk hne
  have hw := hw.trans (s.ovrdView_stepAt n f 240)
  have hna := State.naOf_of_ovrdView hw
  simp only [State.ovrdView, State.ovrdOut, Prod.mk.injEq] at hout he hw
  obtain ⟨-, -, heslot, -, -, heovrd, -, -⟩ := he
  obtain ⟨-, hwruns, -, -, hwhold, -, -, -⟩ := hw
  obtain ⟨hslots, hovrd⟩ := hout
  refine ⟨(State.bit_of_rg (hovrd.trans heovrd) _).trans (w.valid_deadlineStage hn f.isLt), fun hr hh => ?_⟩
  rw [State.slot_of_slots hslots, heslot, State.na_deadlineStage f.isLt (hwruns.trans hr) (hwhold.trans hh), hna]
  refine ⟨fun hv => ?_, fun hv hc => ?_⟩
  · exact if_neg (by simp [State.ovrdHits, hv])
  · exact if_pos (by simp [State.ovrdHits, hv, hc])

end Sys2Proof.Machine

open Sys2Proof.Machine

/-- Settles O17, clause by clause. -/
theorem balancerAndObserverStepsRun : Obligations.BalancerAndObserverStepsRun :=
  ⟨balMicroword_runs, ucDeadline_stops, obsMicroword_runs, observerComplete_publishes, nReady_publishes, balancerDeadline_fixes⟩

end

section
/-! The edges at tick 256 (O18). -/

namespace Sys2Proof.Machine

/-- A step of the tick table changes the time and the list of steps done, and nothing else. -/
theorem State.stepAt_frame (s : State) (n t : Nat) : ∃ k u l, s.stepAt n t = { s with tick := k, ts := u, fcs := l } := by
  obtain ⟨k, u, e⟩ := s.atTick_frame ((s.fc n).cycTick + t)
  unfold State.stepAt
  rw [e]
  exact ⟨_, _, _, rfl⟩

/-! ### The duty -/

/-- The duty and the residual of a running flight (R85, R86, R97, R98). -/
def State.dutySet (s : State) (n f : Nat) : State :=
  let y := s.slot n f
  let rho := if y.zeroRho then 0 else y.rho
  if y.freeze then s.mapSlot n f fun y => { y with d := 0, trim := none }
  else
    match y.trim with
    | none => s.mapSlot n f fun y => { y with d := 0, rho := rho }
    | some l =>
      if (s.fc n).holdCyc then s
      else
        let (d, r, m) := dutyOf y.fr (s.tcyc n) rho (s.edgeRes l) (s.minPulse l)
          (s.lf n (Reg.BAL_FCFG n f) F.BAL_FCFG_MP_MODE == 1)
        let s := if m = 1 then s.flag (Reg.BAL_STAT n f) F.BAL_STAT_MP_DROP
          else if m = 2 then s.flag (Reg.BAL_STAT n f) F.BAL_STAT_MP_STRETCH else s
        s.mapSlot n f fun y => { y with d := d, rho := r }

/-- What a running flight shows of its duty and its tokens (R86, R90). -/
def State.dutyShow (s : State) (n f : Nat) : State :=
  let y := s.slot n f
  let s := s.wr (Reg.BAL_DUTY n f) (BitVec.ofNat 32
    (match y.trim with | some l => y.d + 2 ^ 23 + 2 ^ 24 * gangLane n l | none => 0))
  let s := s.wr (Reg.BAL_RHO n f) (BitVec.ofNat 32 (enc 32 y.rho))
  let s := s.wr (Reg.BAL_TOK n f) (BitVec.ofNat 32 (enc 10 y.na + 65536 * (y.swaps % 128) + 2 ^ 23 * (y.changes % 512)))
  s.wr (Reg.BAL_SWAPTOT n f) (BitVec.ofNat 32 (min (2 ^ 32 - 1) (s.rn (Reg.BAL_SWAPTOT n f) + y.swaps)))

theorem State.dutyStage_eq (s : State) (n f : Nat) :
    s.dutyStage n f = if !s.runs n f then s else (s.dutySet n f).dutyShow n f := by
  unfold State.dutyStage State.dutySet State.dutyShow
  rfl

/-- What the flags of BAL_STAT, a duty and a residual leave alone, the duty stage leaves alone, where a frozen flight's loss of its
trim cell does. -/
theorem State.dutySet_keeps {τ : Type} (g : State → τ) (s : State) (n f : Nat)
    (hflag : ∀ t b, g (t.flag (Reg.BAL_STAT n f) b) = g t)
    (hslot : ∀ (t : State) d r, g (t.mapSlot n f fun y => { y with d := d, rho := r }) = g t)
    (hfrz : (s.slot n f).freeze = true → g (s.mapSlot n f fun y => { y with d := 0, trim := none }) = g s) :
    g (s.dutySet n f) = g s := by
  unfold State.dutySet
  dsimp only
  generalize (if (s.slot n f).zeroRho = true then (0 : Int) else (s.slot n f).rho) = rho
  split
  · next h => exact hfrz h
  split
  · exact hslot s _ _
  split
  · rfl
  · refine (hslot _ _ _).trans ?_
    split
    · exact hflag _ _
    split
    · exact hflag _ _
    · rfl

theorem State.lanes_dutyStage (s : State) (n f : Nat) : (s.dutyStage n f).lanes = s.lanes := by
  rw [State.dutyStage_eq]
  split
  · rfl
  · exact State.dutySet_keeps State.lanes s n f (fun _ _ => rfl) (fun _ _ _ => rfl) fun _ => rfl

theorem State.head_dutyStage (s : State) {n f : Nat} (hf : f < 2) : (s.dutyStage n f).head = s.head := by
  have hshow : ∀ t : State, (t.dutyShow n f).head = t.head := fun t => by
    unfold State.dutyShow
    dsimp only
    rw [State.head_wr, State.head_wr, State.head_wr, State.head_wr]
    · unfold Reg.BAL_DUTY; omega
    · unfold Reg.BAL_RHO; omega
    · unfold Reg.BAL_TOK; omega
    · unfold Reg.BAL_SWAPTOT; omega
  rw [State.dutyStage_eq]
  split
  · rfl
  · refine (hshow _).trans (State.dutySet_keeps State.head s n f (fun t b => ?_) (fun t _ _ => t.head_mapSlot _ _ _) fun _ =>
      s.head_mapSlot _ _ _)
    exact t.head_flag (by unfold Reg.BAL_STAT; omega) b

theorem State.freeze_dutyStage (s : State) (n f : Nat) : ((s.dutyStage n f).slot n f).freeze = (s.slot n f).freeze := by
  rw [State.dutyStage_eq]
  split
  · rfl
  · refine State.dutySet_keeps (fun t : State => (t.slot n f).freeze) s n f (fun _ _ => rfl) (fun t _ _ => ?_) fun _ => ?_
      <;> rw [State.slot_mapSlot_self]

theorem State.trim_dutyStage (s : State) {n f : Nat} (h : (s.slot n f).freeze = false) :
    ((s.dutyStage n f).slot n f).trim = (s.slot n f).trim := by
  rw [State.dutyStage_eq]
  split
  · rfl
  · refine State.dutySet_keeps (fun t : State => (t.slot n f).trim) s n f (fun _ _ => rfl) (fun t _ _ => ?_) fun hfrz => ?_
    · rw [State.slot_mapSlot_self]
    · rw [h] at hfrz
      cases hfrz

@[simp] theorem State.still_dutyStage {τ : Type} {π : FcSt → τ} (n f : Nat) (s : State) :
    (s.dutyStage n f).still π = s.still π := by
  rw [State.dutyStage_eq]
  split
  · rfl
  · refine Eq.trans (by simp [State.dutyShow]) (State.dutySet_keeps (State.still π) s n f (fun t b => t.still_flag _ b)
      (fun t _ _ => t.still_mapSlot _ _ _) fun _ => s.still_mapSlot _ _ _)

/-! ### The edges of a lane -/

/-- The edge fields of a lane that gets no edge. -/
def noEdges : List Nat := [0xFFFFF, 0xFFFFF, 0xFFFFF, 0xFFFFF]

/-- The edge fields of lane `l` of a flight, which gets none where the flight does not run (R94). -/
def State.edgeLane (n f : Nat) (s : State) (l : Nat) : State :=
  if s.runs n f then s.edgesOf n f l else s.mapLane l fun x => { x with edges := noEdges }

/-- The level before the duty of a lane: its base level, and one more where it is the trim cell (R92). -/
def State.trimLvl (s : State) (n f l : Nat) : Int :=
  if (s.slot n f).trim = some l then (s.lane l).lvl + 1 else (s.lane l).lvl

/-- The edges of a lane change that lane alone. -/
theorem State.edgeLane_mapLane (s : State) (n f l : Nat) : ∃ g, s.edgeLane n f l = s.mapLane l g := by
  unfold State.edgeLane State.edgesOf
  dsimp only
  split
  · split
    · exact ⟨_, rfl⟩
    split
    · exact ⟨_, rfl⟩
    · exact ⟨_, rfl⟩
  · exact ⟨_, rfl⟩

@[simp] theorem State.head_edgeLane (s : State) (n f l : Nat) : (s.edgeLane n f l).head = s.head := by
  obtain ⟨g, e⟩ := s.edgeLane_mapLane n f l
  rw [e, State.head_mapLane]

@[simp] theorem State.still_edgeLane {τ : Type} {π : FcSt → τ} (n f l : Nat) (s : State) :
    (s.edgeLane n f l).still π = s.still π := by
  obtain ⟨g, e⟩ := s.edgeLane_mapLane n f l
  rw [e, State.still_mapLane]

theorem State.edges_edgeLane_of_idle {s : State} {n f l : Nat} (h : s.runs n f = false) :
    ((s.edgeLane n f l).lane l).edges = noEdges := by
  simp [State.edgeLane, h]

/-- Under BLOCK_CMD a lane gets no edges and its legs are off (R94). -/
theorem State.lane_edgeLane_of_blocked {s : State} {n f l : Nat} (h : s.runs n f = true) (hb : nbit (s.lane l).mode 3 = true) :
    ((s.edgeLane n f l).lane l).edges = noEdges ∧ ((s.edgeLane n f l).lane l).endLvl = 0 := by
  cases hz : (s.slot n f).freeze <;> simp [State.edgeLane, State.edgesOf, h, hb, hz, noEdges]

/-- A frozen lane gets no edges and keeps its level (R173). -/
theorem State.lane_edgeLane_of_frozen {s : State} {n f l : Nat} (h : s.runs n f = true) (hb : nbit (s.lane l).mode 3 = false)
    (hz : (s.slot n f).freeze = true) :
    ((s.edgeLane n f l).lane l).edges = noEdges ∧ ((s.edgeLane n f l).lane l).endLvl = (s.lane l).endLvl := by
  simp [State.edgeLane, State.edgesOf, h, hb, hz, noEdges]

/-- The levels that the books post of a lane that is not frozen (R94, R103). -/
theorem State.lvls_edgeLane {s : State} {n f l : Nat} (h : s.runs n f = true) (hz : (s.slot n f).freeze = false) :
    ((s.edgeLane n f l).lane l).l1 = s.trimLvl n f l ∧ ((s.edgeLane n f l).lane l).l2 = (s.lane l).lvl := by
  cases hb : nbit (s.lane l).mode 3 <;> simp [State.edgeLane, State.edgesOf, State.trimLvl, h, hb, hz]

/-! ### The clause -/

/-- The FREEZE copy of a flight at tick 256 (R173). -/
def State.freezeCopy (s : State) (n f : Nat) : State :=
  s.mapSlot n f fun y =>
    { y with freeze := s.freezeOn (s.flightOf n f), frzRun := y.frzRun || (s.freezeOn (s.flightOf n f) && s.runs n f) }

theorem State.edgeStage_of_bound {s : State} {n f : Nat} (h : s.bound n f = true) : s.edgeStage n f =
    (((s.freezeCopy n f).dutyStage n f).slotLinks n f).foldl (State.edgeLane n f) ((s.freezeCopy n f).dutyStage n f) :=
  if_neg (by simp [h])

theorem State.edgeStage_of_unbound {s : State} {n f : Nat} (h : s.bound n f = false) : s.edgeStage n f = s :=
  if_pos (by simp [h])

theorem State.head_edgeStage (s : State) {n f : Nat} (hf : f < 2) : (s.edgeStage n f).head = s.head := by
  cases h : s.bound n f with
  | false => rw [State.edgeStage_of_unbound h]
  | true =>
    rw [State.edgeStage_of_bound h, State.head_foldl _ _ _ fun t l => t.head_edgeLane n f l, State.head_dutyStage _ hf]
    exact s.head_mapSlot _ _ _

@[simp] theorem State.still_edgeStage {τ : Type} {π : FcSt → τ} (n f : Nat) (s : State) :
    (s.edgeStage n f).still π = s.still π := by
  cases h : s.bound n f with
  | false => rw [State.edgeStage_of_unbound h]
  | true =>
    rw [State.edgeStage_of_bound h]
    simp [State.freezeCopy]

theorem exec_edgeSchedule {s : State} {n : Fin 16} {f : Fin 2} (hd : s.stepDue n 256 = true)
    (h : s.bound n (1 - f.val) = false) : exec (.edgeSchedule n) s = .next ((s.stepAt n 256).edgeStage n f) := by
  have hn := n.isLt
  have hother : (s.stepAt n 256).bound n (1 - f.val) = false :=
    (State.bound_of_head (s.head_stepAt n 256) hn (by omega)).trans h
  refine (if_pos hd).trans (congrArg Host.Outcome.next (forN_two_of_skip (fun t => t.bound n (1 - f.val) = false)
    (fun f s => s.edgeStage n f) (s.stepAt n 256) f hother ?_ fun t ht => State.edgeStage_of_unbound ht))
  exact (State.bound_of_head (State.head_edgeStage _ f.isLt) hn (by omega)).trans hother

/-- What the edges of lane `l` depend on. -/
def State.edgeView (n f l : Nat) (s : State) : Lane × SlotSt × (Nat → Word) := (s.lane l, s.slot n f, s.head)

theorem State.edgeView_edgeLane_ne (s : State) {n f k l : Nat} (h : k ≠ l) :
    (s.edgeLane n f k).edgeView n f l = s.edgeView n f l := by
  obtain ⟨g, e⟩ := s.edgeLane_mapLane n f k
  rw [e, State.edgeView, State.lane_mapLane_ne _ _ h.symm, State.head_mapLane]
  rfl

theorem edgeSchedule_edges (s : State) (n : Fin 16) (f : Fin 2) (hd : s.stepDue n 256 = true) (hb : s.bound n f = true)
    (hob : s.bound n (1 - f.val) = false) (hnd : (s.slotLinks n f).Nodup) :
    let frz := s.freezeOn (s.flightOf n f)
    Answers (.edgeSchedule n) s fun t =>
      t.mem = s.mem ∧ t.tick = max s.tick ((s.fc n).cycTick + 256) ∧ (t.slot n f).freeze = frz ∧ ∀ l ∈ s.slotLinks n f,
        (s.runs n f = false → (t.lane l).edges = [0xFFFFF, 0xFFFFF, 0xFFFFF, 0xFFFFF]) ∧
        (s.runs n f = true → nbit (s.lane l).mode 3 = true →
          (t.lane l).edges = [0xFFFFF, 0xFFFFF, 0xFFFFF, 0xFFFFF] ∧ (t.lane l).endLvl = 0) ∧
        (s.runs n f = true → nbit (s.lane l).mode 3 = false → frz = true →
          (t.lane l).edges = [0xFFFFF, 0xFFFFF, 0xFFFFF, 0xFFFFF] ∧ (t.lane l).endLvl = (s.lane l).endLvl) ∧
        (s.runs n f = true → frz = false →
          (t.lane l).l2 = (s.lane l).lvl ∧
          (t.lane l).l1 = if (s.slot n f).trim = some l then (s.lane l).lvl + 1 else (s.lane l).lvl) := by
  intro frz
  have hn := n.isLt
  obtain ⟨tk, ts, fs, hstep⟩ := s.stepAt_frame n 256
  have hbound : (s.stepAt n 256).bound n f = true := (State.bound_of_head (s.head_stepAt n 256) hn f.isLt).trans hb
  set u := (s.stepAt n 256).freezeCopy n f with hu
  set v := u.dutyStage n f with hv
  have hufrz : (u.slot n f).freeze = frz := by
    rw [hu, State.freezeCopy, State.slot_mapSlot_self, hstep]
    rfl
  have hutrim : (u.slot n f).trim = (s.slot n f).trim := by
    rw [hu, State.freezeCopy, State.slot_mapSlot_self, hstep]
    rfl
  have hvhead : v.head = s.head :=
    (State.head_dutyStage _ f.isLt).trans ((State.head_mapSlot _ _ _ _).trans (s.head_stepAt n 256))
  have hvlanes : v.lanes = s.lanes := (State.lanes_dutyStage _ n f).trans (s.lanes_stepAt n 256)
  have hvfrz : (v.slot n f).freeze = frz := (State.freeze_dutyStage u n f).trans hufrz
  refine ⟨_, exec_edgeSchedule hd hob, ?_, ?_, ?_, fun l hl => ?_⟩
  · refine (State.mem_of_memTs (s := s.stepAt n 256) ?_).trans (s.mem_stepAt n 256)
    simp
  · refine (State.tick_of_still (π := id) (s := s.stepAt n 256) ?_).trans (s.tick_stepAt n 256)
    simp
  · rw [State.edgeStage_of_bound hbound, ← hu, ← hv]
    refine Eq.trans ?_ hvfrz
    refine foldl_frame (fun t : State => (t.slot n f).freeze) _ _ _ fun t k => ?_
    obtain ⟨g, e⟩ := t.edgeLane_mapLane n f k
    rw [e]
    rfl
  rw [State.edgeStage_of_bound hbound, ← hu, ← hv, State.slotLinks_of_head hvhead hn f.isLt]
  obtain ⟨w, hw, he⟩ := foldl_view (State.edgeView n f l) (State.edgeLane n f) v hnd hl
    fun k _ hne t => t.edgeView_edgeLane_ne hne
  simp only [State.edgeView, Prod.mk.injEq] at hw he
  obtain ⟨hwlane, hwslot, hwhead⟩ := hw
  obtain ⟨helane, -, -⟩ := he
  rw [State.lane_of_lanes hvlanes] at hwlane
  have hwruns : w.runs n f = s.runs n f := State.runs_of_head (hwhead.trans hvhead) hn f.isLt
  have hwfrz : (w.slot n f).freeze = frz := by rw [hwslot, hvfrz]
  rw [helane, ← hwruns, ← hwlane, ← hwfrz]
  refine ⟨State.edges_edgeLane_of_idle, State.lane_edgeLane_of_blocked, State.lane_edgeLane_of_frozen, fun hr hz => ?_⟩
  obtain ⟨hl1, hl2⟩ := State.lvls_edgeLane (l := l) hr hz
  refine ⟨hl2, hl1.trans ?_⟩
  have htrim : (w.slot n f).trim = (s.slot n f).trim := by
    rw [hwslot, hv, u.trim_dutyStage (hufrz.trans (hwfrz.symm.trans hz)), hutrim]
  rw [State.trimLvl, htrim]

end Sys2Proof.Machine
end

section
/-! The posting of a window at tick 480 (O18). -/

namespace Sys2Proof.Machine

/-- The current of a flight's posting, with its polarity (R103). -/
def State.postCur (s : State) (n f : Nat) : Int :=
  if s.lf n (Reg.BAL_FCFG n f) F.BAL_FCFG_I_POL = 1 then -(s.slot n f).cur else (s.slot n f).cur

/-- The posting of one lane of a flight that is neither blocked nor frozen (R103). -/
def postLane (ip : Int) (d t : Nat) (s : State) (l : Nat) : State :=
  s.mapLane l fun x => { x with acc := wrap64 (x.acc + posting ip d t x.l1 x.l2), hist := ((x.l1, x.l2) :: x.hist).take 3 }

theorem State.post_of_open {s : State} {n f : Nat} (hr : s.runs n f = true) (hb : s.blockOn (s.flightOf n f) = false)
    (hz : (s.slot n f).freeze = false) : s.post n f =
      ((s.slotLinks n f).foldl (postLane (s.postCur n f) (s.slot n f).d (s.tcyc n)) s).mapSlot n f fun y =>
        { y with facc := wrap64 (y.facc + s.postCur n f * ((s.slot n f).na * s.tcyc n + (s.slot n f).d)),
                 fpost := s.postCur n f * ((s.slot n f).na * s.tcyc n + (s.slot n f).d),
                 wins := ({ ip := s.postCur n f, d := (s.slot n f).d, posted := true } :: y.wins).take 3 } := by
  unfold State.post
  simp only [hr, hb, hz, Bool.not_true, Bool.false_eq_true, if_false]
  rfl

section post

variable {s : State} {n f : Nat} (hr : s.runs n f = true) (hb : s.blockOn (s.flightOf n f) = false)
  (hz : (s.slot n f).freeze = false)
include hr hb hz

/-- The flight's account takes the total of its lanes' postings (R104). -/
theorem State.facc_post : ((s.post n f).slot n f).facc =
    wrap64 ((s.slot n f).facc + s.postCur n f * ((s.slot n f).na * s.tcyc n + (s.slot n f).d)) := by
  rw [State.post_of_open hr hb hz, State.slot_mapSlot_self]
  have hslot := foldl_frame (State.slot · n f) (s.slotLinks n f) (postLane (s.postCur n f) (s.slot n f).d (s.tcyc n)) s
    fun _ _ => rfl
  rw [hslot]

/-- The account of each lane takes its posting (R103). -/
theorem State.acc_post {l : Nat} (hnd : (s.slotLinks n f).Nodup) (hl : l ∈ s.slotLinks n f) : ((s.post n f).lane l).acc =
    wrap64 ((s.lane l).acc + posting (s.postCur n f) (s.slot n f).d (s.tcyc n) (s.lane l).l1 (s.lane l).l2) := by
  rw [State.post_of_open hr hb hz]
  obtain ⟨u, hu, he⟩ := foldl_view (State.lane · l) (postLane (s.postCur n f) (s.slot n f).d (s.tcyc n)) s hnd hl
    fun k _ hne t => t.lane_mapLane_ne _ hne.symm
  refine (congrArg Lane.acc he).trans ?_
  rw [postLane, State.lane_mapLane_self, hu]

end post

@[simp] theorem State.head_post (n f : Nat) (s : State) : (s.post n f).head = s.head := by simp [State.post]
@[simp] theorem State.still_post {τ : Type} {π : FcSt → τ} (n f : Nat) (s : State) : (s.post n f).still π = s.still π := by
  simp [State.post]

/-- The postings of one window of a bound flight (R103). -/
def State.postBound (n f : Nat) (s : State) : State := if s.bound n f then s.post n f else s

theorem exec_cmdSent {s : State} {n : Fin 16} {f : Fin 2} (hd : s.stepDue n 480 = true) (hb : s.bound n f = true)
    (h : s.bound n (1 - f.val) = false) : exec (.cmdSent n) s =
      .next ((s.cycleFcs n).foldl (fun s m => s.line m 2) ((s.stepAt n 480).post n f)) := by
  have hn := n.isLt
  have hself : (s.stepAt n 480).bound n f = true := (State.bound_of_head (s.head_stepAt n 480) hn f.isLt).trans hb
  have hother : (s.stepAt n 480).bound n (1 - f.val) = false :=
    (State.bound_of_head (s.head_stepAt n 480) hn (by omega)).trans h
  have hpost : (s.stepAt n 480).postBound n f = (s.stepAt n 480).post n f := if_pos hself
  have hfor : forN 2 (State.postBound n) (s.stepAt n 480) = (s.stepAt n 480).post n f := by
    refine (forN_two_of_skip (fun t => t.bound n (1 - f.val) = false) (State.postBound n) (s.stepAt n 480) f hother ?_
      fun t ht => if_neg (by simp [ht])).trans hpost
    rw [hpost, State.bound_of_head (State.head_post n f _) hn (by omega), hother]
  have hgang : ((s.stepAt n 480).post n f).gang = s.gang := State.gang_of_head ((State.head_post n f _).trans (s.head_stepAt n 480))
  refine (if_pos hd).trans (congrArg Host.Outcome.next ?_)
  change ((forN 2 (State.postBound n) (s.stepAt n 480)).cycleFcs n).foldl (fun s m => s.line m 2)
    (forN 2 (State.postBound n) (s.stepAt n 480)) = _
  rw [hfor, State.cycleFcs_of_gang hgang]

theorem cmdSent_posts (s : State) (n : Fin 16) (f : Fin 2) (hd : s.stepDue n 480 = true) (hb : s.bound n f = true)
    (hob : s.bound n (1 - f.val) = false) (hr : s.runs n f = true) (hblk : s.blockOn (s.flightOf n f) = false)
    (hz : (s.slot n f).freeze = false) (hnd : (s.slotLinks n f).Nodup) :
    let y := s.slot n f
    let t0 := s.tcyc n
    let ip := if s.lf n (Reg.BAL_FCFG n f) F.BAL_FCFG_I_POL = 1 then -y.cur else y.cur
    Answers (.cmdSent n) s fun t =>
      t.mem = s.mem ∧ t.tick = max s.tick ((s.fc n).cycTick + 480) ∧ (∀ m ∈ s.cycleFcs n, (tget 0 t.irq m).getLsbD 2 = true) ∧
      (t.slot n f).facc = wrap64 (y.facc + ip * (y.na * t0 + y.d)) ∧ ∀ l ∈ s.slotLinks n f,
        (t.lane l).acc =
          wrap64 ((s.lane l).acc + ip * ((s.lane l).l1 * y.d + (s.lane l).l2 * ((t0 : Int) - y.d))) := by
  intro y t0 ip
  obtain ⟨q, hq, -, hline⟩ := ((s.stepAt n 480).post n f).foldl_line (s.cycleFcs n) (l := 2) (by decide)
  refine ⟨_, exec_cmdSent hd hb hob, ?_⟩
  rw [hq]
  refine ⟨?_, ?_, hline, ?_⟩
  · exact (State.mem_of_memTs (State.memTs_post n f _)).trans (s.mem_stepAt n 480)
  · exact (State.tick_of_still (π := id) (State.still_post n f _)).trans (s.tick_stepAt n 480)
  have hlat := s.lat_stepAt n 480
  obtain ⟨tk, ts, fs, hstep⟩ := s.stepAt_frame n 480
  have hcur : (s.stepAt n 480).postCur n f = ip := by
    unfold State.postCur
    rw [State.lf_congr (State.rg_congr (s.regs_stepAt n 480) _) hlat, State.slot_of_slots (s.slots_stepAt n 480)]
  have hr' : (s.stepAt n 480).runs n f = true := by rw [hstep]; exact hr
  have hblk' : (s.stepAt n 480).blockOn ((s.stepAt n 480).flightOf n f) = false := by rw [hstep]; exact hblk
  have hz' : ((s.stepAt n 480).slot n f).freeze = false := by rw [hstep]; exact hz
  have hlinks : (s.stepAt n 480).slotLinks n f = s.slotLinks n f := by rw [hstep]; rfl
  constructor
  · refine (State.facc_post hr' hblk' hz').trans ?_
    rw [hcur, hstep]
    rfl
  · intro l hl
    refine (State.acc_post hr' hblk' hz' (hlinks ▸ hnd) (hlinks ▸ hl)).trans ?_
    rw [hcur, hstep]
    rfl

end Sys2Proof.Machine
end

section
/-! The check of the books at tick 552 (O18). -/

namespace Sys2Proof.Machine

/-! ### The ledger cause -/

/-- The ledger cause of slot `k` goes into bit 3 + k of the causes, and the other slot's stays. -/
theorem nbit_ledgerCause (v : Nat) {k f : Nat} (hk : k < 2) (hf : f < 2) :
    nbit (BitVec.ofNat 32 (setBit v (3 + k) true)).toNat (3 + f) = (k == f || nbit v (3 + f)) := by
  rw [BitVec.toNat_ofNat]
  unfold setBit nbit b2n
  have hk : k = 0 ∨ k = 1 := by omega
  have hf : f = 0 ∨ f = 1 := by omega
  obtain rfl | rfl := hk <;> obtain rfl | rfl := hf <;> simp <;> split <;> omega

/-! ### What the check reads and leaves -/

/-- A register outside the records and the accounts of the ledger. -/
abbrev OffBooks (a : Nat) : Prop :=
  a % 0x100000 < 0x8000 ∨ 0x8820 ≤ a % 0x100000 ∧ a % 0x100000 < 0x8840 ∨ 0x8860 ≤ a % 0x100000

theorem State.rg_viewCell_off (s : State) (l : Nat) {a : Nat} (ha : OffBooks a) : (s.viewCell l).rg a = s.rg a := by
  simp (disch := (unfold Reg.LED_CELL; omega)) [State.viewCell, State.rg_wr_ne, State.rg_sf_ne, State.rg_w64_ne]

theorem State.rg_view_off (s : State) (n : Nat) {f a : Nat} (hf : f < 2) (ha : OffBooks a) : (s.view n f).rg a = s.rg a := by
  have hcells : ∀ (l : List Nat) (t : State), (l.foldl (fun s l => s.viewCell l) t).rg a = t.rg a :=
    fun l t => foldl_frame (State.rg · a) l _ t fun u c => u.rg_viewCell_off c ha
  simp (disch := omega) [State.view, hcells, State.rg_w64_ne, Reg.LED_RES, Reg.LED_FPOST, Reg.LED_RACC, Reg.LED_FACC]

theorem State.slots_view (s : State) (n f : Nat) : (s.view n f).slots = s.slots := by
  have hcells := foldl_frame State.slots (s.slotLinks n f) (fun s l => s.viewCell l) s fun t l => by simp [State.viewCell]
  simp [State.view, hcells]

theorem State.lanes_view (s : State) (n f : Nat) : (s.view n f).lanes = s.lanes := by
  have hcells := foldl_frame State.lanes (s.slotLinks n f) (fun s l => s.viewCell l) s fun t l => by simp [State.viewCell]
  have hif : ∀ (c : Prop) [Decidable c] (t u : State), (if c then t else u).lanes = if c then t.lanes else u.lanes :=
    fun c _ t u => apply_ite _ _ _ _
  simp [State.view, hcells, hif]

/-- The report of books that do not balance (R106, R107). -/
def State.ledgerFault (s : State) (n f pay : Nat) : State :=
  (((s.flag (Reg.LED_STAT n f) F.LED_STAT_FAULT).raise (slotSrc n f) 0x15 pay).flag (Reg.LED_STAT n f)
    F.LED_STAT_SRC_FAULT).setCause n (3 + f) true

/-- RES of a running flight stands, and where it is not 0 the fault is reported. -/
theorem State.checkBooks_of_runs {s : State} {n f : Nat} (h : s.runs n f = true) : ∃ pay, s.checkBooks n f =
    if s.resOf n f = 0 then s.mapSlot n f fun y => { y with res := s.resOf n f }
    else (s.mapSlot n f fun y => { y with res := s.resOf n f }).ledgerFault n f pay :=
  ⟨_, if_neg (by simp [h])⟩

theorem State.rg_ledgerFault_ne (s : State) {n f pay a : Nat} (ha : a < 0x70000000) (h : a ≠ Reg.LED_STAT n f) :
    (s.ledgerFault n f pay).rg a = s.rg a := by
  rw [State.ledgerFault, State.rg_setCause _ _ _ _ ha, State.rg_flag_ne _ _ h, State.rg_raise_below _ _ _ _ (by omega),
    State.rg_flag_ne _ _ h]

theorem State.lanes_ledgerFault (s : State) (n f pay : Nat) : (s.ledgerFault n f pay).lanes = s.lanes := by
  simp [State.ledgerFault]

theorem State.flown_ledgerFault (s : State) (n f pay : Nat) : (s.ledgerFault n f pay).flown = s.flown :=
  (State.flown_setCause _ _ _ _).trans (State.flown_of_slots (by simp))

theorem State.cause_ledgerFault (s : State) {n f k : Nat} (pay : Nat) (hn : n < 16) (hf : f < 2) (hk : k < 2) :
    nbit ((s.ledgerFault n k pay).rn (Reg.SLU_FCSRC n)) (3 + f) = (k == f || nbit (s.rn (Reg.SLU_FCSRC n)) (3 + f)) := by
  have hne : Reg.SLU_FCSRC n ≠ Reg.LED_STAT n k := by unfold Reg.SLU_FCSRC Reg.LED_STAT; omega
  rw [State.ledgerFault, State.rn, State.rg_setCause_src _ _ _ _ (by unfold Reg.SLU_FCSRC; omega)
    (by unfold Reg.SLU_FCSRC Reg.SLU_SRC_ACT; omega), State.rg_wr_self, nbit_ledgerCause _ hk hf, State.rn,
    State.rg_flag_ne _ _ hne, State.rg_raise_below _ _ _ _ (by unfold Reg.SLU_FCSRC; omega), State.rg_flag_ne _ _ hne, State.rn]

theorem State.stat_ledgerFault (s : State) {n f : Nat} (pay : Nat) (hn : n < 16) (hf : f < 2) :
    (s.ledgerFault n f pay).bit (Reg.LED_STAT n f) F.LED_STAT_FAULT = true ∧
      (s.ledgerFault n f pay).bit (Reg.LED_STAT n f) F.LED_STAT_SRC_FAULT = true := by
  have hlow : Reg.LED_STAT n f < 0x70000000 := by unfold Reg.LED_STAT; omega
  have hcause := State.rg_setCause (((s.flag (Reg.LED_STAT n f) F.LED_STAT_FAULT).raise (slotSrc n f) 0x15 pay).flag
    (Reg.LED_STAT n f) F.LED_STAT_SRC_FAULT) n (3 + f) true hlow
  rw [State.ledgerFault, State.bit_of_rg hcause, State.bit_of_rg hcause]
  constructor
  · rw [State.bit, State.flag, State.fld_sf_disjoint _ _ _ _ _ (.inr (by decide)),
      State.fld_of_rg (State.rg_raise_below _ _ _ _ (by omega)), State.flag, State.fld_sf_self _ _ _ _ (by decide)]
    rfl
  · exact State.bit_sf_self _ _ _ _ (by decide)

/-- What one flight's check of the books reads, and what it shows. -/
def State.booksView (n f : Nat) (s : State) : SlotSt × Tbl Lane × (Nat → Word) × Word × Bool :=
  (s.flown (2 * n + f), s.lanes, s.head, s.rg (Reg.LED_STAT n f), nbit (s.rn (Reg.SLU_FCSRC n)) (3 + f))

theorem State.rebaseSeen_mapSlot (s : State) (n f : Nat) :
    ∃ d, s.rebaseSeen n f = s.mapSlot n f fun y => { y with rebase := d } := by
  unfold State.rebaseSeen
  exact ⟨_, rfl⟩

theorem State.booksView_mapSlot_ne (s : State) {n f k : Nat} (g : SlotSt → SlotSt) (h : k ≠ f) :
    (s.mapSlot n k g).booksView n f = s.booksView n f := by
  rw [State.booksView, s.flown_mapSlot_ne g (by omega : 2 * n + f ≠ 2 * n + k), State.head_mapSlot]
  rfl

theorem State.booksView_ledgerFault_ne (s : State) {n f k : Nat} (pay : Nat) (hn : n < 16) (hf : f < 2) (hk : k < 2) (h : k ≠ f) :
    (s.ledgerFault n k pay).booksView n f = s.booksView n f := by
  have hhead : (s.ledgerFault n k pay).head = s.head := State.head_of_rg fun a ha ho =>
    s.rg_ledgerFault_ne ha (by unfold Reg.LED_STAT; omega)
  have hstat : (s.ledgerFault n k pay).rg (Reg.LED_STAT n f) = s.rg (Reg.LED_STAT n f) :=
    s.rg_ledgerFault_ne (by unfold Reg.LED_STAT; omega) (by unfold Reg.LED_STAT; omega)
  rw [State.booksView, s.flown_ledgerFault, s.lanes_ledgerFault, hhead, hstat, s.cause_ledgerFault pay hn hf hk, beq_eq_false_iff_ne.2 h,
    Bool.false_or, State.booksView]

theorem State.booksView_view (s : State) {n f k : Nat} (hn : n < 16) (hf : f < 2) (hk : k < 2) :
    (s.view n k).booksView n f = s.booksView n f := by
  have hhead : (s.view n k).head = s.head := State.head_of_rg fun a _ ho => s.rg_view_off n hk (by omega)
  have hstat : (s.view n k).rg (Reg.LED_STAT n f) = s.rg (Reg.LED_STAT n f) := s.rg_view_off n hk (by unfold Reg.LED_STAT; omega)
  have hcause : (s.view n k).rn (Reg.SLU_FCSRC n) = s.rn (Reg.SLU_FCSRC n) :=
    congrArg BitVec.toNat (s.rg_view_off n hk (by unfold Reg.SLU_FCSRC; omega))
  rw [State.booksView, State.flown_of_slots (s.slots_view n k), s.lanes_view, hhead, hstat, hcause, State.booksView]

/-- What tick 552 does to one slot of an FC (R106, R115, R116). -/
def State.bookStage (s : State) (n f : Nat) : State :=
  if s.bound n f then ((s.rebaseSeen n f).checkBooks n f).view n f else s

theorem State.booksView_bookStage_ne (s : State) {n f k : Nat} (hn : n < 16) (hf : f < 2) (hk : k < 2) (h : k ≠ f) :
    (s.bookStage n k).booksView n f = s.booksView n f := by
  unfold State.bookStage
  split
  · refine (State.booksView_view _ hn hf hk).trans ?_
    obtain ⟨d, hd⟩ := s.rebaseSeen_mapSlot n k
    refine Eq.trans ?_ ((congrArg _ hd).trans (s.booksView_mapSlot_ne _ h))
    set u := s.rebaseSeen n k
    cases hr : u.runs n k with
    | false => exact congrArg (State.booksView n f) (if_pos (by simp [hr]))
    | true =>
      obtain ⟨pay, e⟩ := State.checkBooks_of_runs hr
      rw [e]
      split
      · exact u.booksView_mapSlot_ne _ h
      · exact (State.booksView_ledgerFault_ne _ pay hn hf hk h).trans (u.booksView_mapSlot_ne _ h)
  · rfl

/-- The check of a running flight (R106): RES, and the fault where it is not 0. -/
theorem State.bookStage_of_runs {s : State} {n f : Nat} (hn : n < 16) (hf : f < 2) (hb : s.bound n f = true)
    (hr : s.runs n f = true) : ((s.bookStage n f).slot n f).res = s.resOf n f ∧ (s.resOf n f ≠ 0 →
      (s.bookStage n f).bit (Reg.LED_STAT n f) F.LED_STAT_FAULT = true ∧
      (s.bookStage n f).bit (Reg.LED_STAT n f) F.LED_STAT_SRC_FAULT = true ∧
      nbit ((s.bookStage n f).rn (Reg.SLU_FCSRC n)) (3 + f) = true) := by
  obtain ⟨d, hd⟩ := s.rebaseSeen_mapSlot n f
  obtain ⟨pay, e⟩ := State.checkBooks_of_runs (s := s.rebaseSeen n f) (n := n) (f := f) hr
  have hres : (s.rebaseSeen n f).resOf n f = s.resOf n f := by
    unfold State.resOf
    rw [hd, State.slot_mapSlot_self]
    rfl
  have hview := State.booksView_view ((s.rebaseSeen n f).checkBooks n f) hn hf hf
  simp only [State.booksView, Prod.mk.injEq] at hview
  obtain ⟨hflown, -, -, hstat, hcause⟩ := hview
  obtain ⟨p, hslot⟩ := State.slot_of_flown hflown
  rw [State.bookStage, if_pos hb, hslot, State.bit_of_rg hstat, State.bit_of_rg hstat, hcause, e, hres]
  split
  · next h0 =>
    exact ⟨congrArg SlotSt.res (State.slot_mapSlot_self _ _ _ _), fun h => absurd h0 h⟩
  · set v := (s.rebaseSeen n f).mapSlot n f fun y => { y with res := s.resOf n f } with hv
    obtain ⟨q, hq⟩ := State.slot_of_flown (congrFun (v.flown_ledgerFault n f pay) (2 * n + f))
    have hvres : (v.slot n f).res = s.resOf n f := congrArg SlotSt.res (State.slot_mapSlot_self _ _ _ _)
    obtain ⟨hfault, hsrc⟩ := v.stat_ledgerFault pay hn hf
    refine ⟨?_, fun _ => ⟨hfault, hsrc, ?_⟩⟩
    · rw [hq]
      exact hvres
    · rw [v.cause_ledgerFault pay hn hf hf, beq_self_eq_true, Bool.true_or]

theorem exec_ledgerCheck {s : State} {n : Fin 16} (hd : s.stepDue n 552 = true) : exec (.ledgerCheck n) s =
    .next (forN 2 (fun f s => s.bookStage n f) (s.stepAt n 552)) := if_pos hd

@[simp] theorem State.still_checkBooks {τ : Type} {π : FcSt → τ} (n f : Nat) (s : State) :
    (s.checkBooks n f).still π = s.still π := by
  cases hr : s.runs n f with
  | false => exact congrArg (State.still π) (if_pos (by simp [hr]))
  | true =>
    obtain ⟨pay, e⟩ := State.checkBooks_of_runs hr
    rw [e]
    split
    · exact s.still_mapSlot _ _ _
    · simp [State.ledgerFault]

@[simp] theorem State.still_bookStage {τ : Type} {π : FcSt → τ} (n f : Nat) (s : State) :
    (s.bookStage n f).still π = s.still π := by
  simp [State.bookStage, State.rebaseSeen]

theorem ledgerCheck_checks (s : State) (n : Fin 16) (f : Fin 2) (hd : s.stepDue n 552 = true) (hb : s.bound n f = true)
    (hr : s.runs n f = true) : Answers (.ledgerCheck n) s fun t =>
      t.mem = s.mem ∧ t.tick = max s.tick ((s.fc n).cycTick + 552) ∧
      (t.slot n f).res = wrap64 (s.sumAcc n f - (s.slot n f).facc - (s.slot n f).racc) ∧
      ((t.slot n f).res ≠ 0 → t.bit (Reg.LED_STAT n f) F.LED_STAT_FAULT = true ∧
        t.bit (Reg.LED_STAT n f) F.LED_STAT_SRC_FAULT = true ∧ nbit (t.rn (Reg.SLU_FCSRC n)) (3 + f) = true) := by
  have hn := n.isLt
  refine ⟨_, exec_ledgerCheck hd, ?_, ?_, ?_⟩
  · refine (State.mem_of_memTs (s := s.stepAt n 552) ?_).trans (s.mem_stepAt n 552)
    simp [State.bookStage]
  · refine (State.tick_of_still (π := id) (s := s.stepAt n 552) ?_).trans (s.tick_stepAt n 552)
    simp
  obtain ⟨w, hw, he⟩ := forN_view (State.booksView n f) (fun f s => s.bookStage n f) (s.stepAt n 552) f.isLt
    fun k hk hne t => t.booksView_bookStage_ne hn f.isLt hk hne
  simp only [State.booksView, Prod.mk.injEq] at hw he
  obtain ⟨hwflown, hwlanes, hwhead, -, -⟩ := hw
  obtain ⟨hflown, -, -, hstat, hcause⟩ := he
  have hwhead := hwhead.trans (s.head_stepAt n 552)
  have hwres : w.resOf n f = s.resOf n f := by
    obtain ⟨p, hp⟩ := State.slot_of_flown (hwflown.trans (congrFun (State.flown_of_slots (s.slots_stepAt n 552)) _))
    unfold State.resOf State.sumAcc
    rw [hp, State.slotLinks_of_head hwhead hn f.isLt]
    have hlane := State.lane_of_lanes (hwlanes.trans (s.lanes_stepAt n 552))
    simp only [hlane]
  obtain ⟨hres, hfault⟩ := State.bookStage_of_runs (s := w) hn f.isLt ((State.bound_of_head hwhead hn f.isLt).trans hb)
    ((State.runs_of_head hwhead hn f.isLt).trans hr)
  obtain ⟨q, hslot⟩ := State.slot_of_flown hflown
  rw [hwres] at hres hfault
  rw [hslot, State.bit_of_rg hstat, State.bit_of_rg hstat, hcause]
  exact ⟨hres, fun h => hfault (hres ▸ h)⟩

end Sys2Proof.Machine
end

section
/-! A rebase at tick 560 (O18). -/

namespace Sys2Proof.Machine

/-! ### The end of a waiting command -/

/-- The end of a live waiting command that is not silent: it waits no more, its port has the reply, and nothing else in the hidden
state changes. -/
theorem State.finish_of_live {s u : State} {w : Wait} (hl : w.live = true) (hs : w.silent = false)
    (hp : u.ports = s.ports) (hd : (s.port w.e.port).d3 = false) (status resx : Nat) (res : List Nat) :
    let t := u.finish w status resx res
    t.keep.waits = u.keep.waits.erase w ∧ t.slots = u.slots ∧ t.tick = u.tick ∧ Replied w.e status res s t ∧
      ∀ a < 0x78000000, t.rg a = u.rg a := by
  intro t
  have ht : t = (u.dropWait w).replyTo w.e true false status resx res := by
    rw [← hl]
    exact if_neg (by simp [hs])
  have hport : (u.dropWait w).port w.e.port = s.port w.e.port := congrArg (tget PortSt.init · w.e.port) hp
  obtain ⟨y, hy, hrest⟩ := (u.dropWait w).outbox_replyTo w.e false status resx res (by rw [hport, hd])
  have hrg : ∀ a < 0x78000000, t.rg a = u.rg a := fun a ha => by
    rw [ht, State.rg_replyTo _ _ _ _ _ _ _ ha]
    rfl
  obtain ⟨r, p, e⟩ := (u.dropWait w).replyTo_frame w.e true false status resx res
  have hframe : t = { u.dropWait w with regs := r, ports := p } := ht.trans e
  refine ⟨by rw [hframe]; rfl, by rw [hframe]; rfl, by rw [hframe]; rfl, ⟨y, ?_, hrest⟩, hrg⟩
  rw [ht, hy, hport]

/-! ### The rebase -/

/-- Whether the flight that waits for a rebase stands as when it was accepted, its books balanced and no trip latched (R116). -/
abbrev State.rebaseMay (s : State) (w : Wait) (m f : Nat) : Prop :=
  s.fltState m f = w.st ∧ (s.slot m f).res = 0 ∧ s.tripped (s.flightOf m f) = false

/-- The accounts of a rebased flight, and what LED_STAT shows of them (R116). -/
def State.rebased (s : State) (w : Wait) (m f : Nat) : State :=
  let racc := sx 64 (ent w.e 8 8)
  let facc := wrap64 (s.sumAcc m f - racc)
  let s := (s.mapSlot m f fun y => { y with racc := racc, facc := facc, rebase := false }).flag (Reg.LED_STAT m f)
    F.LED_STAT_REBASED
  let s := s.sf (Reg.LED_STAT m f) F.LED_STAT_REBASE_CYC (s.count16 m)
  s.raise (slotSrc m f) 0x16 (65536 * s.count16 m)

section rebase

variable {s : State} {w : Wait} {m f : Nat} (hslot : s.slotOf (eTarget w.e) = some (m, f))
include hslot

theorem State.rebaseAt_of_may (h : s.rebaseMay w m f) :
    ∃ resx res, s.rebaseAt w = (s.rebased w m f).finish w stOk resx res := by
  obtain ⟨hst, hres, htrip⟩ := h
  unfold State.rebaseAt
  rw [hslot]
  simp only [hst, hres, htrip, ne_eq, not_true_eq_false, decide_false, Bool.or_self, Bool.false_eq_true, if_false]
  exact ⟨_, _, rfl⟩

theorem State.rebaseAt_of_not_may (h : ¬s.rebaseMay w m f) : s.rebaseAt w = s.done w stConflict := by
  unfold State.rebaseAt
  rw [hslot]
  refine if_pos ?_
  by_contra hc
  simp only [Bool.or_eq_true, decide_eq_true_eq, not_or, not_not, Bool.not_eq_true] at hc
  obtain ⟨⟨hst, hres⟩, htrip⟩ := hc
  exact h ⟨hst, hres, htrip⟩

end rebase

theorem State.slot_rebased (s : State) (w : Wait) (m f : Nat) : ((s.rebased w m f).slot m f).racc = sx 64 (ent w.e 8 8) ∧
    ((s.rebased w m f).slot m f).facc = wrap64 (s.sumAcc m f - sx 64 (ent w.e 8 8)) := by
  unfold State.rebased
  dsimp only
  rw [State.slot_of_slots (State.slots_raise _ _ _ _), State.slot_sf, State.slot_flag, State.slot_mapSlot_self]
  exact ⟨rfl, rfl⟩

theorem State.bit_rebased (s : State) (w : Wait) {m f : Nat} (hm : m < 16) (hf : f < 2) :
    (s.rebased w m f).bit (Reg.LED_STAT m f) F.LED_STAT_REBASED = true := by
  unfold State.rebased
  dsimp only
  rw [State.bit_of_rg (State.rg_raise_below _ _ _ _ (by unfold Reg.LED_STAT; omega)), State.bit,
    State.fld_sf_disjoint _ _ _ _ _ (.inr (by decide))]
  exact State.bit_sf_self _ _ _ _ (by decide)

@[simp] theorem State.still_rebased {τ : Type} {π : FcSt → τ} (s : State) (w : Wait) (m f : Nat) :
    (s.rebased w m f).still π = s.still π := by
  simp [State.rebased]

theorem State.ports_rebased (s : State) (w : Wait) (m f : Nat) : (s.rebased w m f).ports = s.ports := by
  simp [State.rebased]

/-! ### The clause -/

theorem exec_rebaseApply {s : State} {n : Fin 16} {w : Wait} {m f : Nat} (hd : s.stepDue n 560 = true)
    (hdone : 552 ∈ (s.fc n).done) (hw : (s.keep.waits.filter fun v => v.on == .rebase n) = [w])
    (hslot : s.slotOf (eTarget w.e) = some (m, f)) : exec (.rebaseApply n) s =
      .next (if (s.slot m f).rebase then (s.stepAt n 560).rebaseAt w else s.stepAt n 560).pump := by
  obtain ⟨tk, ts, fs, hstep⟩ := s.stepAt_frame n 560
  have hdue : (s.stepAt n 560).rebaseDue w = (s.slot m f).rebase := by
    have hs : (s.stepAt n 560).slotOf (eTarget w.e) = some (m, f) := by rw [hstep]; exact hslot
    unfold State.rebaseDue
    rw [hs, hstep]
    rfl
  have hfil : ((s.stepAt n 560).keep.waits.filter fun v => v.on == .rebase n && (s.stepAt n 560).rebaseDue v) =
      [w].filter (s.stepAt n 560).rebaseDue := by
    rw [← hw, List.filter_filter, s.keep_stepAt]
    exact List.filter_congr fun v _ => Bool.and_comm _ _
  refine (if_pos (by simp [hd, hdone])).trans ?_
  rw [hfil, List.filter_singleton, hdue]
  cases (s.slot m f).rebase <;> rfl

theorem rebaseApply_rebases (s : State) (n : Fin 16) (w : Wait) (m f : Nat) (hd : s.stepDue n 560 = true)
    (hdone : 552 ∈ (s.fc n).done) (hw : (s.keep.waits.filter fun v => v.on == .rebase n) = [w])
    (hturn : ∀ v ∈ s.keep.waits, v.on ≠ .turn) (hlive : w.live = true) (hsil : w.silent = false)
    (hslot : s.slotOf (eTarget w.e) = some (m, f)) (hd3 : (s.port w.e.port).d3 = false) :
    Answers (.rebaseApply n) s fun t =>
      let may := s.fltState m f = w.st ∧ (s.slot m f).res = 0 ∧ s.tripped (s.flightOf m f) = false
      t.mem = s.mem ∧ t.tick = max s.tick ((s.fc n).cycTick + 560) ∧
      ((s.slot m f).rebase = false → t.keep.waits = s.keep.waits ∧ (t.slot m f).racc = (s.slot m f).racc) ∧
      ((s.slot m f).rebase = true → ¬may → t.keep.waits = s.keep.waits.erase w ∧ (t.slot m f).racc = (s.slot m f).racc ∧
        Replied w.e 0x20 [] s t) ∧
      ((s.slot m f).rebase = true → may → t.keep.waits = s.keep.waits.erase w ∧
        (t.slot m f).racc = sx 64 (ent w.e 8 8) ∧ (t.slot m f).facc = wrap64 (s.sumAcc m f - sx 64 (ent w.e 8 8)) ∧
        t.bit (Reg.LED_STAT m f) F.LED_STAT_REBASED = true ∧ ∃ res, Replied w.e 0 res s t) := by
  obtain ⟨hm, hf, -⟩ := State.slotOf_spec hslot
  have htick := s.tick_stepAt n 560
  have hmem := s.mem_stepAt n 560
  set u := s.stepAt n 560 with hu
  obtain ⟨tk, ts, fs, hstep⟩ := s.stepAt_frame n 560
  rw [← hu] at hstep
  have huslot : u.slotOf (eTarget w.e) = some (m, f) := by rw [hstep]; exact hslot
  have hmay : u.rebaseMay w m f ↔ s.rebaseMay w m f := by rw [hstep]; exact Iff.rfl
  have herase : ∀ t : State, t.keep.waits = s.keep.waits.erase w → t.pump = t := fun t ht =>
    State.pump_of_none fun v hv => hturn v (List.mem_of_mem_erase (ht ▸ hv))
  unfold Answers
  rw [exec_rebaseApply hd hdone hw hslot, ← hu]
  cases hr : (s.slot m f).rebase with
  | false =>
    have hpump : u.pump = u := State.pump_of_none fun v hv => hturn v (by rw [← s.keep_stepAt n 560]; exact hv)
    refine ⟨_, rfl, ?_⟩
    rw [if_neg (by decide), hpump]
    refine ⟨hmem, htick, fun _ => ?_, nofun, nofun⟩
    rw [hstep]
    exact ⟨rfl, rfl⟩
  | true =>
    by_cases h : s.rebaseMay w m f
    · obtain ⟨resx, res, e⟩ := State.rebaseAt_of_may huslot (hmay.2 h)
      obtain ⟨hwaits, hslots, ht, hrep, hrg⟩ := State.finish_of_live (s := s) (u := u.rebased w m f) hlive hsil
        ((u.ports_rebased w m f).trans (s.ports_stepAt n 560)) hd3 stOk resx res
      have hwaits := hwaits.trans (congrArg (·.waits.erase w)
        ((State.keep_of_still (π := id) (u.still_rebased w m f)).trans (s.keep_stepAt n 560)))
      obtain ⟨hracc, hfacc⟩ := u.slot_rebased w m f
      refine ⟨_, rfl, ?_⟩
      rw [if_pos rfl, e, herase _ hwaits, ← e]
      refine ⟨(State.mem_of_memTs (State.memTs_rebaseAt w u)).trans hmem, ?_, nofun, fun _ hn => absurd h hn, fun _ _ => ?_⟩
      · rw [e]
        exact ht.trans ((State.tick_of_still (π := id) (u.still_rebased w m f)).trans htick)
      rw [e, State.slot_of_slots hslots, hracc, hfacc]
      have hsum : u.sumAcc m f = s.sumAcc m f := by rw [hstep]; rfl
      refine ⟨hwaits, rfl, by rw [hsum], ?_, _, hrep⟩
      exact (State.bit_of_rg (hrg _ (by unfold Reg.LED_STAT; omega)) _).trans (u.bit_rebased w hm hf)
    · have e := State.rebaseAt_of_not_may huslot (mt hmay.1 h)
      obtain ⟨hwaits, hslots, ht, hrep, -⟩ := State.finish_of_live (s := s) (u := u) hlive hsil (s.ports_stepAt n 560) hd3
        stConflict 0 []
      have hwaits := hwaits.trans (congrArg (·.waits.erase w) (s.keep_stepAt n 560))
      refine ⟨_, rfl, ?_⟩
      rw [if_pos rfl, e, State.done, herase _ hwaits]
      refine ⟨(State.mem_of_memTs (State.memTs_finish w _ _ _ u)).trans hmem, ht.trans htick, nofun, fun _ _ => ?_,
        fun _ hy => absurd hy h⟩
      rw [State.slot_of_slots hslots, State.slot_of_slots (s.slots_stepAt n 560)]
      exact ⟨hwaits, rfl, hrep⟩

end Sys2Proof.Machine
end

section
/-! The wear pass (O18). -/

namespace Sys2Proof.Machine

/-! ### What the rainflow counter of a lane leaves -/

/-- The registers outside the wear records and the pass register. -/
def State.wearRegs (s : State) (a : Nat) : Word := if 0xC004 ≤ a % 0x100000 ∧ a % 0x100000 < 0xD800 then 0 else s.rg a

theorem State.wearRegs_of_rg {s t : State} (h : ∀ a, ¬(0xC004 ≤ a % 0x100000 ∧ a % 0x100000 < 0xD800) → t.rg a = s.rg a) :
    t.wearRegs = s.wearRegs :=
  funext fun a => by
    unfold State.wearRegs
    split
    · rfl
    · next ha => exact h a ha

theorem State.rg_of_wearRegs {s t : State} (h : t.wearRegs = s.wearRegs) {a : Nat}
    (ha : a % 0x100000 < 0xC004 ∨ 0xD800 ≤ a % 0x100000) : t.rg a = s.rg a := by
  have hr := congrFun h a
  unfold State.wearRegs at hr
  rwa [if_neg (by omega), if_neg (by omega)] at hr

theorem State.head_of_wearRegs {s t : State} (h : t.wearRegs = s.wearRegs) : t.head = s.head :=
  State.head_of_rg fun _ _ ho => State.rg_of_wearRegs h (.inl (by omega))

@[simp] theorem State.wearRegs_wr (s : State) {a : Nat} (h : 0xC004 ≤ a % 0x100000 ∧ a % 0x100000 < 0xD800) (v : Word) :
    (s.wr a v).wearRegs = s.wearRegs :=
  State.wearRegs_of_rg fun _ hb => s.rg_wr_ne v fun e => hb (e ▸ h)

/-- A word of a wear record lies among the wear records. -/
theorem wearRec_place (m : Nat) {i k : Nat} (hi : i < 64) (hk : k < 16) :
    0xC004 ≤ Reg.WEAR_REC m i k % 0x100000 ∧ Reg.WEAR_REC m i k % 0x100000 < 0xD800 := by
  unfold Reg.WEAR_REC
  omega

/-- The state outside the damage and the counter of lane `j`: its thermal stages, the wear of the other lanes, the lanes, the flight
slots, the time, and the registers outside the wear records. -/
def State.wearOff (j : Nat) (s : State) : (Nat → Word) × Tbl Lane × Tbl SlotSt × Nat × List Int × (Nat → WearSt) :=
  (s.wearRegs, s.lanes, s.slots, s.tick, (s.wear j).th, fun k => if k = j then WearSt.init else s.wear k)

section lane

variable (s : State) (j : Nat)

theorem State.wear_putWear (x : WearSt) (k : Nat) :
    State.wear { s with wears := tput s.wears j x } k = if k = j then x else s.wear k :=
  tget_tput _ _ _ _ _

theorem State.wearOff_putWear {x : WearSt} (h : x.th = (s.wear j).th) :
    State.wearOff j { s with wears := tput s.wears j x } = s.wearOff j := by
  have hoff : (fun k => if k = j then WearSt.init else State.wear { s with wears := tput s.wears j x } k) =
      fun k => if k = j then WearSt.init else s.wear k := by
    funext k
    rw [s.wear_putWear]
    split <;> rfl
  rw [State.wearOff, s.wear_putWear, if_pos rfl, h, hoff]
  rfl

theorem State.wearOff_mapWear {g : WearSt → WearSt} (h : (g (s.wear j)).th = (s.wear j).th) :
    (s.mapWear j g).wearOff j = s.wearOff j := s.wearOff_putWear j h

theorem State.wearOff_wr {a : Nat} (h : 0xC004 ≤ a % 0x100000 ∧ a % 0x100000 < 0xD800) (v : Word) :
    (s.wr a v).wearOff j = s.wearOff j := by
  rw [State.wearOff, s.wearRegs_wr h]
  rfl

theorem State.wearOff_wearCount (c : Nat) (a b : Int) (full : Bool) : (s.wearCount j c a b full).wearOff j = s.wearOff j := by
  have hj : j % 64 < 64 := Nat.mod_lt _ (by decide)
  unfold State.wearCount
  dsimp only
  refine (State.wearOff_wr _ j ?_ _).trans ((State.wearOff_wr _ j (wearRec_place _ hj (by decide)) _).trans
    (s.wearOff_putWear j rfl))
  split
  · exact wearRec_place _ hj (by decide)
  · exact wearRec_place _ hj (by decide)

theorem State.wearOff_rainflow (c k : Nat) : (s.rainflow j c k).wearOff j = s.wearOff j := by
  induction k generalizing s with
  | zero => rfl
  | succ k ih =>
    unfold State.rainflow
    split
    · split
      · rfl
      split
      · rw [ih, State.wearOff_mapWear _ _ rfl, State.wearOff_wearCount]
      · rw [ih, State.wearOff_mapWear _ _ rfl, State.wearOff_wearCount]
    · rfl

theorem State.wearOff_wearPush (c : Nat) (v : Int) : (s.wearPush j c v).wearOff j = s.wearOff j := by
  unfold State.wearPush
  dsimp only
  rw [State.wearOff_rainflow, State.wearOff_mapWear _ _ rfl]
  split
  · rfl
  · rw [State.wearOff_mapWear _ _ rfl, State.wearOff_wearCount]

theorem State.wearOff_wearFollow (c : Nat) (tj : Int) : (s.wearFollow j c tj).wearOff j = s.wearOff j := by
  unfold State.wearFollow
  dsimp only
  have hset : ∀ (t : State) (p : Int) (u : Option Bool), (t.mapWear j fun w => { w with pend := p, up := u }).wearOff j = t.wearOff j :=
    fun t p u => t.wearOff_mapWear j rfl
  have hpend : ∀ (t : State) (p : Int), (t.mapWear j fun w => { w with pend := p }).wearOff j = t.wearOff j :=
    fun t p => t.wearOff_mapWear j rfl
  split
  · split
    · rfl
    · exact s.wearOff_mapWear j rfl
  · split
    · exact hpend _ _
    split
    · exact (hset _ _ _).trans (s.wearOff_wearPush j c _)
    · rfl
  · split
    · exact hpend _ _
    split
    · exact (hset _ _ _).trans (s.wearOff_wearPush j c _)
    · rfl

end lane

/-! ### The pass of one lane -/

/-- The thermal stages that the pass gives lane `l` (R390). -/
def State.wearTh (s : State) (n f l : Nat) : List Int :=
  let m := l / 64
  let c := nbits (s.cdesc l 0) 24 8 % 8
  let dt := if s.bit (Reg.WEAR_CFG m) F.WEAR_CFG_DIV then 512 * s.tcyc n else s.tcyc n
  (List.range 4).map fun k =>
    wearStage ((s.wear l).th.getD k 0) (s.wearTbl m c (12 + 4 * k) 4) (s.wearTbl m c (28 + 4 * k) 4) dt (s.wearLoss n f l c)

/-- What the pass shows of a lane: its rank, and its wear record (R389, R393). -/
def State.wearShow (s : State) (l c : Nat) (tj : Int) (th : List Int) : State :=
  let r := Reg.WEAR_REC (l / 64) (l % 64)
  let rank := min ((s.wear l).dmg / 2 ^ s.fld (Reg.WEAR_CFG (l / 64)) F.WEAR_CFG_WSHIFT) 255
  let s := s.mapLane l fun x => { x with wrank := rank }
  let s := s.wr (r 0) (BitVec.ofNat 32 (l + 65536 * c + 2 ^ 24 * rank))
  let s := s.wr (r 1) (BitVec.ofInt 32 tj)
  let s := s.w64 (r 2) (s.wear l).dmg
  let s := s.wr (r 6) (BitVec.ofInt 32 (max tj (s.rg (r 6)).toInt))
  let s := forN 4 (fun k s => s.wr (r (8 + k)) (BitVec.ofInt 32 (th.getD k 0))) s
  let s := s.w64 (r 12) s.ts
  s.wr (r 14) (BitVec.ofNat 32 (s.wear l).stack.length)

theorem State.wearLane_eq (s : State) (n f l : Nat) : ∃ c tj, s.wearLane n f l =
    ((s.mapWear l fun w => { w with th := s.wearTh n f l }).wearFollow l c tj).wearShow l c tj (s.wearTh n f l) :=
  ⟨_, _, rfl⟩

/-- What the pass of lane `l` reads and shows. -/
def State.wearIn (l : Nat) (s : State) : (Nat → Word) × Lane × Tbl SlotSt × Nat × WearSt :=
  (s.wearRegs, s.lane l, s.slots, s.tick, s.wear l)

theorem State.wearIn_wr (s : State) (l : Nat) {a : Nat} (h : 0xC004 ≤ a % 0x100000 ∧ a % 0x100000 < 0xD800) (v : Word) :
    (s.wr a v).wearIn l = s.wearIn l := by
  rw [State.wearIn, s.wearRegs_wr h]
  rfl

theorem State.wearIn_w64 (s : State) (l : Nat) {a : Nat} (h : 0xC004 ≤ a % 0x100000 ∧ a % 0x100000 + 4 < 0xD800) (v : Nat) :
    (s.w64 a v).wearIn l = s.wearIn l :=
  (State.wearIn_wr _ l (by omega) _).trans (s.wearIn_wr l (by omega) _)

theorem State.wearIn_wearShow (s : State) {l j : Nat} (h : l ≠ j) (c : Nat) (tj : Int) (th : List Int) :
    (s.wearShow j c tj th).wearIn l = s.wearIn l := by
  have hplace : ∀ k < 15, 0xC004 ≤ Reg.WEAR_REC (j / 64) (j % 64) k % 0x100000 ∧
      Reg.WEAR_REC (j / 64) (j % 64) k % 0x100000 + 4 < 0xD800 := fun k hk => by
    unfold Reg.WEAR_REC
    omega
  have hwr : ∀ (t : State) (k : Nat) (v : Word), k < 15 → (t.wr (Reg.WEAR_REC (j / 64) (j % 64) k) v).wearIn l = t.wearIn l :=
    fun t k v hk => t.wearIn_wr l (by have := hplace k hk; omega) v
  have hlane : ∀ g, (s.mapLane j g).wearIn l = s.wearIn l := fun g => by
    rw [State.wearIn, s.lane_mapLane_ne g h]
    rfl
  unfold State.wearShow
  dsimp only
  rw [hwr _ 14 _ (by decide), State.wearIn_w64 _ l (hplace 12 (by decide))]
  refine (forN_frame (State.wearIn l) 4 _ _ fun k hk t => hwr t (8 + k) _ (by omega)).trans ?_
  rw [hwr _ 6 _ (by decide), State.wearIn_w64 _ l (hplace 2 (by decide)), hwr _ 1 _ (by decide), hwr _ 0 _ (by decide), hlane]

theorem State.wear_wearShow (s : State) (l c : Nat) (tj : Int) (th : List Int) (k : Nat) :
    (s.wearShow l c tj th).wear k = s.wear k := by
  have hfor : ∀ (a : Nat → Nat) (v : Nat → Word) (t : State), (forN 4 (fun k s => s.wr (a k) (v k)) t).wears = t.wears :=
    fun _ _ t => forN_frame State.wears 4 _ t fun _ _ _ => rfl
  have hwears : (s.wearShow l c tj th).wears = s.wears := by
    simp only [State.wearShow, State.wears_wr, State.wears_w64, State.wears_mapLane, hfor]
  exact congrArg (tget WearSt.init · k) hwears

/-- The pass of a lane gives it its thermal stages. -/
theorem State.th_wearLane (s : State) (n f l : Nat) : ((s.wearLane n f l).wear l).th = s.wearTh n f l := by
  obtain ⟨c, tj, e⟩ := s.wearLane_eq n f l
  have hoff := State.wearOff_wearFollow (s.mapWear l fun w => { w with th := s.wearTh n f l }) l c tj
  simp only [State.wearOff, Prod.mk.injEq] at hoff
  obtain ⟨-, -, -, -, hth, -⟩ := hoff
  rw [e, State.wear_wearShow, hth, State.mapWear, State.wear_putWear, if_pos rfl]

/-- The pass of a lane leaves what that of another reads and shows. -/
theorem State.wearIn_wearLane_ne (s : State) (n f : Nat) {l j : Nat} (h : l ≠ j) : (s.wearLane n f j).wearIn l = s.wearIn l := by
  obtain ⟨c, tj, e⟩ := s.wearLane_eq n f j
  have hoff := State.wearOff_wearFollow (s.mapWear j fun w => { w with th := s.wearTh n f j }) j c tj
  simp only [State.wearOff, Prod.mk.injEq] at hoff
  obtain ⟨hregs, hlanes, hslots, htick, -, hwear⟩ := hoff
  have hwl := congrFun hwear l
  simp only [if_neg h] at hwl
  rw [e, State.wearIn_wearShow _ h, State.wearIn, hregs, State.lane_of_lanes hlanes, hslots, htick, hwl, State.mapWear,
    State.wear_putWear, if_neg h]
  rfl

theorem State.tick_wearLane (s : State) (n f j : Nat) : (s.wearLane n f j).tick = s.tick := by
  have h := s.wearIn_wearLane_ne n f (Nat.succ_ne_self j)
  simp only [State.wearIn, Prod.mk.injEq] at h
  obtain ⟨-, -, -, htick, -⟩ := h
  exact htick

/-- A word of a class table lies behind the wear records. -/
theorem wearTbl_place (m : Nat) {c k : Nat} (hc : c < 8) (hk : k < 16) : 0xD800 ≤ Reg.WEAR_TBL m c k % 0x100000 := by
  have hsum : Reg.WEAR_TBL m c k = 0xD800 + (0x440 * c + 0x4 * k) + 0x100000 * (0x600 + m) := by
    unfold Reg.WEAR_TBL
    omega
  have hlt : 0xD800 + (0x440 * c + 0x4 * k) < 0x100000 := by omega
  rw [hsum, Nat.add_mul_mod_self_left, Nat.mod_eq_of_lt hlt]
  omega

/-- The thermal stages depend on the lane, its flight and its class table. -/
theorem State.wearTh_of_wearIn {s t : State} {n f l : Nat} (hn : n < 16) (h : t.wearIn l = s.wearIn l) :
    t.wearTh n f l = s.wearTh n f l := by
  simp only [State.wearIn, Prod.mk.injEq] at h
  obtain ⟨hregs, hlane, hslots, -, hwear⟩ := h
  have hcdesc : t.cdesc l 0 = s.cdesc l 0 :=
    congrArg BitVec.toNat (State.rg_of_wearRegs hregs (.inl (by unfold Reg.FC_CDESC; omega)))
  have hcfg : t.bit (Reg.WEAR_CFG (l / 64)) F.WEAR_CFG_DIV = s.bit (Reg.WEAR_CFG (l / 64)) F.WEAR_CFG_DIV :=
    State.bit_of_rg (State.rg_of_wearRegs hregs (.inl (by unfold Reg.WEAR_CFG; omega))) _
  have htcyc : t.tcyc n = s.tcyc n := State.tcyc_of_head (State.head_of_wearRegs hregs) hn
  have htbl : ∀ c < 8, ∀ o < 44, ∀ w, t.wearTbl (l / 64) c o w = s.wearTbl (l / 64) c o w := fun c hc o ho w => by
    unfold State.wearTbl State.rn
    rw [State.rg_of_wearRegs hregs (.inr (wearTbl_place _ hc (by omega)))]
  have hclass : nbits (s.cdesc l 0) 24 8 % 8 < 8 := Nat.mod_lt _ (by decide)
  have hloss : t.wearLoss n f l (nbits (s.cdesc l 0) 24 8 % 8) = s.wearLoss n f l (nbits (s.cdesc l 0) 24 8 % 8) := by
    unfold State.wearLoss State.edgeField
    rw [htcyc, hlane, State.slot_of_slots hslots, htbl _ hclass 4 (by decide), htbl _ hclass 8 (by decide)]
  unfold State.wearTh
  dsimp only
  rw [hcdesc, hcfg, htcyc, hwear]
  refine List.map_congr_left fun k hk => ?_
  have hk := List.mem_range.1 hk
  rw [htbl _ hclass _ (by omega), htbl _ hclass _ (by omega), hloss]

/-! ### The clause -/

/-- The pass of the lanes in window `m` of a running flight (R389). -/
def State.wearFlight (n m : Nat) (s : State) (f : Nat) : State :=
  if s.runs n f then ((s.slotLinks n f).filter fun l => l / 64 == m).foldl (fun s l => s.wearLane n f l) s else s

theorem State.wearUnit_eq (s : State) (n m : Nat) : s.wearUnit n m =
    if s.bit (Reg.WEAR_CFG m) F.WEAR_CFG_DIV && (s.count n).toNat % 512 != 0 then s
    else
      let t := (s.led n).foldl (State.wearFlight n m) s
      t.sf (Reg.WEAR_STAT m) F.WEAR_STAT_PASS_CYC (t.count16 n) := rfl

theorem State.tick_wearUnit (s : State) (n m : Nat) : (s.wearUnit n m).tick = s.tick := by
  rw [State.wearUnit_eq]
  split
  · rfl
  · refine foldl_frame State.tick _ _ s fun t f => ?_
    unfold State.wearFlight
    split
    · exact foldl_frame State.tick _ (fun s l => s.wearLane n f l) t fun u l => u.tick_wearLane n f l
    · rfl

theorem State.wearIn_stat (s : State) (l m x : Nat) : (s.sf (Reg.WEAR_STAT m) F.WEAR_STAT_PASS_CYC x).wearIn l = s.wearIn l :=
  s.wearIn_wr l (by unfold Reg.WEAR_STAT; omega) _

/-- The wear unit of an FC leaves what the pass of a lane of another FC reads and shows. -/
theorem State.wearIn_wearUnit_ne (s : State) {n m l : Nat} (h : l / 64 ≠ m) : (s.wearUnit n m).wearIn l = s.wearIn l := by
  rw [State.wearUnit_eq]
  split
  · rfl
  · refine (State.wearIn_stat _ l m _).trans (foldl_frame (State.wearIn l) _ _ s fun t f => ?_)
    unfold State.wearFlight
    split
    · refine foldl_frame_mem (State.wearIn l) _ _ t fun j hj u => u.wearIn_wearLane_ne n f fun e => h ?_
      have hjm := (List.mem_filter.1 hj).2
      rw [e]
      exact beq_iff_eq.1 hjm
    · rfl

/-- A flight that has its leader to itself is the one that the FC leads. -/
theorem State.led_eq_singleton {s : State} {n : Nat} {f : Fin 2} (hl : s.leads n f = true) (hb : s.bound n (1 - f.val) = false) :
    s.led n = [f.val] := by
  have ho : s.leads n (1 - f.val) = false := by rw [State.leads, hb, Bool.false_and]
  match f with
  | 0 => simp_all [State.led, List.range_succ]
  | 1 => simp_all [State.led, List.range_succ]

theorem State.th_wearFlight {s : State} {n f l : Nat} (hn : n < 16) (hr : s.runs n f = true) (hnd : (s.slotLinks n f).Nodup)
    (hl : l ∈ s.slotLinks n f) : ((s.wearFlight n (l / 64) f).wear l).th = s.wearTh n f l := by
  have hmem : l ∈ (s.slotLinks n f).filter fun k => k / 64 == l / 64 := List.mem_filter.2 ⟨hl, beq_self_eq_true _⟩
  obtain ⟨u, hu, he⟩ := foldl_view (State.wearIn l) (fun s l => s.wearLane n f l) s (hnd.filter _) hmem
    fun j _ hne t => t.wearIn_wearLane_ne n f hne.symm
  simp only [State.wearIn, Prod.mk.injEq] at he
  obtain ⟨-, -, -, -, hwear⟩ := he
  rw [State.wearFlight, if_pos hr, hwear, u.th_wearLane, State.wearTh_of_wearIn hn hu]

/-- The wear unit of the leader's own FC, whose flight runs, gives a lane of its window its thermal stages. -/
theorem State.th_wearUnit {s : State} {n : Nat} {f : Fin 2} {l : Nat} (hn : n < 16) (hl : s.leads n f = true)
    (hob : s.bound n (1 - f.val) = false) (hr : s.runs n f = true) (hnd : (s.slotLinks n f).Nodup)
    (hmem : l ∈ s.slotLinks n f) (hln : l / 64 = n) (hdiv : s.bit (Reg.WEAR_CFG n) F.WEAR_CFG_DIV = false) :
    ((s.wearUnit n n).wear l).th = s.wearTh n f l := by
  have hflight := State.th_wearFlight hn hr hnd hmem
  rw [hln] at hflight
  rw [State.wearUnit_eq, if_neg (by simp [hdiv]), State.led_eq_singleton hl hob]
  exact hflight

/-- The state in which the pass begins: tick 552, the pass noted. -/
def State.wearStart (s : State) (n : Nat) : State :=
  (s.atTick ((s.fc n).cycTick + 552)).mapFc n fun x => { x with done := 553 :: x.done }

theorem State.wearStart_frame (s : State) (n : Nat) :
    ∃ k u l, s.wearStart n = { s with tick := k, ts := u, fcs := l } := by
  obtain ⟨k, u, e⟩ := s.atTick_frame ((s.fc n).cycTick + 552)
  unfold State.wearStart
  rw [e]
  exact ⟨_, _, _, rfl⟩

theorem exec_wearPass {s : State} {n : Fin 16} (hd : s.stepDue n 553 = true) : exec (.wearPass n) s =
    .next (((s.wearStart n).cycleFcs n).foldl (fun s m => s.wearUnit n m) (s.wearStart n)) := if_pos hd

theorem wearPass_heats (s : State) (n : Fin 16) (f : Fin 2) (l : Nat) (hd : s.stepDue n 553 = true) (hl : s.leads n f = true)
    (hr : s.runs n f = true) (hob : s.bound n (1 - f.val) = false) (hnd : (s.slotLinks n f).Nodup)
    (hmem : l ∈ s.slotLinks n f) (hln : l / 64 = n) (hdiv : s.bit (Reg.WEAR_CFG n) F.WEAR_CFG_DIV = false) :
    Answers (.wearPass n) s fun t =>
      let c := nbits (s.cdesc l 0) 24 8 % 8
      t.mem = s.mem ∧ t.tick = max s.tick ((s.fc n).cycTick + 552) ∧
      (t.wear l).th = (List.range 4).map fun k => wearStage ((s.wear l).th.getD k 0) (s.wearTbl n c (12 + 4 * k) 4)
        (s.wearTbl n c (28 + 4 * k) 4) (s.tcyc n) (s.wearLoss n f l c) := by
  have hmem0 : (s.wearStart n).mem = s.mem := s.mem_atTick _
  have htick0 : (s.wearStart n).tick = max s.tick ((s.fc n).cycTick + 552) := s.tick_atTick _
  obtain ⟨tk, ts, fs, hstart⟩ := s.wearStart_frame n
  refine ⟨_, exec_wearPass hd, ?_, ?_, ?_⟩
  · exact (State.mem_of_memTs (by simp)).trans hmem0
  · exact (foldl_frame State.tick _ (fun s m => s.wearUnit n m) _ fun t m => t.tick_wearUnit n m).trans htick0
  have hlast := foldl_frame_mem (State.wearIn l) _ (fun s m => s.wearUnit n m) ((s.wearStart n).wearUnit n n) fun m hm t =>
    t.wearIn_wearUnit_ne (n := n) fun e => State.ne_of_mem_followers (s := s.wearStart n) hm (e.symm.trans hln)
  simp only [State.wearIn, Prod.mk.injEq] at hlast
  obtain ⟨-, -, -, -, hwear⟩ := hlast
  rw [State.cycleFcs, List.foldl_cons]
  refine (congrArg WearSt.th hwear).trans ?_
  have hunit := State.th_wearUnit (s := s.wearStart n) (n := n) (f := f) (l := l) n.isLt (by rw [hstart]; exact hl)
    (by rw [hstart]; exact hob) (by rw [hstart]; exact hr) (by rw [hstart]; exact hnd) (by rw [hstart]; exact hmem) hln
    (by rw [hstart]; exact hdiv)
  have hth : (s.wearStart n).wearTh n f l = s.wearTh n f l := by rw [hstart]; rfl
  refine hunit.trans (hth.trans ?_)
  unfold State.wearTh
  dsimp only
  rw [hln, if_neg (by simp [hdiv])]

end Sys2Proof.Machine

open Sys2Proof.Machine

/-- Settles O18, clause by clause. -/
theorem edgesPostingsAndBooksRun : Obligations.EdgesPostingsAndBooksRun :=
  ⟨edgeSchedule_edges, cmdSent_posts, ledgerCheck_checks, rebaseApply_rebases, wearPass_heats⟩

end
section
/-! Analog groups (O12, O15): where their registers stand, what the Sluice leaves of them, and the hidden state of a group. -/

namespace Sys2Proof.Machine

/-! ### The hidden state of a group -/

@[simp] theorem State.adc_mapAdc_self (s : State) (g : Nat) (f : AdcSt → AdcSt) : (s.mapAdc g f).adc g = f (s.adc g) := by
  simp [State.adc, State.mapAdc]

theorem State.adc_of_adcs {s t : State} (h : t.adcs = s.adcs) (g : Nat) : t.adc g = s.adc g := congrArg (tget AdcSt.init · g) h

@[simp] theorem State.adc_wr (s : State) (a : Nat) (v : Word) (g : Nat) : (s.wr a v).adc g = s.adc g := rfl
@[simp] theorem State.adc_sf (s : State) (a : Nat) (f : Fld) (x g : Nat) : (s.sf a f x).adc g = s.adc g := rfl
@[simp] theorem State.adc_flag (s : State) (a : Nat) (f : Fld) (g : Nat) : (s.flag a f).adc g = s.adc g := rfl

@[simp] theorem State.adc_atTick (s : State) (t g : Nat) : (s.atTick t).adc g = s.adc g := State.adc_of_adcs (s.adcs_atTick t) g
@[simp] theorem State.adc_atTs (s : State) (t g : Nat) : (s.atTs t).adc g = s.adc g := State.adc_of_adcs (s.adcs_atTs t) g

@[simp] theorem State.adc_raise (s : State) (src code pay g : Nat) : (s.raise src code pay).adc g = s.adc g :=
  State.adc_of_adcs (s.adcs_raise src code pay) g
@[simp] theorem State.adc_raiseIf (s : State) (c : Bool) (src code pay g : Nat) : (s.raiseIf c src code pay).adc g = s.adc g :=
  State.adc_of_adcs (s.adcs_raiseIf c src code pay) g
@[simp] theorem State.adc_flagOnce (s : State) (a : Nat) (f : Fld) (src code pay g : Nat) :
    (s.flagOnce a f src code pay).adc g = s.adc g := State.adc_of_adcs (s.adcs_flagOnce a f src code pay) g

/-! ### Registers of a group -/

/-- The registers of the 20 groups stand below those of the pulse-width pairs, the Sluice, the events and the host ports. -/
theorem adcBase_add_lt {g o : Nat} (hg : g < 20) (ho : o < 0x1000) : adcBase g + o < 0x70004000 := by
  unfold adcBase
  split <;> omega

theorem adcStat_lt {g : Nat} (hg : g < 20) : Reg.ADC_STAT g < 0x70004000 := adcBase_add_lt hg (by decide)

theorem State.bit_flag_self (s : State) (a : Nat) (f : Fld) (h : f.lo + 1 ≤ 32) (hw : f.w = 1) : (s.flag a f).bit a f = true := by
  rw [State.flag, State.bit_sf_self _ _ _ _ (by omega), hw]
  rfl

theorem State.bit_clear_self (s : State) (a : Nat) (f : Fld) (h : f.lo + f.w ≤ 32) : (s.sf a f 0).bit a f = false := by
  rw [State.bit_sf_self _ _ _ _ h, Nat.zero_mod]
  rfl

theorem State.bit_sf_disjoint (s : State) (a : Nat) (f g : Fld) (x : Nat) (h : f.lo + f.w ≤ g.lo ∨ g.lo + g.w ≤ f.lo) :
    (s.sf a f x).bit a g = s.bit a g := congrArg (· != 0) (s.fld_sf_disjoint a f g x h)

theorem State.bit_flag_disjoint (s : State) (a : Nat) (f g : Fld) (h : f.lo + f.w ≤ g.lo ∨ g.lo + g.w ≤ f.lo) :
    (s.flag a f).bit a g = s.bit a g := s.bit_sf_disjoint a f g 1 h

/-! ### What a latch leaves alone -/

/-- A register that no latch writes, nor what follows from one: one below the pulse-width pairs, or an active condition. -/
abbrev OffLatch (a : Nat) : Prop := a < 0x70020000 ∨ 0x70030000 ≤ a ∧ a < 0x70030040

section regs

variable {a : Nat} (ha : OffLatch a)
include ha

theorem State.rg_latchGroup_offLatch (s : State) (g : Nat) : (s.latchGroup g).rg a = s.rg a := by
  obtain ⟨y, e⟩ := State.noteTrip_frame { s with latchTick := tput s.latchTick g s.tick } g
  unfold State.latchGroup
  rw [e]
  simp (disch := omega) only [State.showLatch, State.rg_raise_below, State.rg_w64_ne, State.rg_incSat_ne, State.rg_sf_ne,
    Reg.SLU_GSTAT, Reg.SLU_GTS_LO]
  rfl

theorem State.rg_pwmMakeSafe_offLatch (s : State) {k : Nat} (hk : k < 32) : (s.pwmMakeSafe k).rg a = s.rg a := by
  obtain ⟨c, p, e⟩ := s.setOut_frame k (s.bit (Reg.PWM_CTRL k) F.PWM_CTRL_SAFE_A) (s.bit (Reg.PWM_CTRL k) F.PWM_CTRL_SAFE_B)
  unfold State.pwmMakeSafe
  rw [e]
  exact State.rg_flag_ne _ _ (by unfold Reg.PWM_STAT; omega)

theorem State.rg_sluRefresh_offLatch (s : State) : s.sluRefresh.rg a = s.rg a := by
  unfold State.sluRefresh
  refine (forN_frame (State.rg · a) 32 _ _ fun k hk t => ?_).trans ?_
  · simp [State.rg_pwmMakeSafe_offLatch ha t hk]
  simp (disch := omega) only [State.rg_wr_ne, Reg.SLU_LATCHED, Reg.SLU_FLT_BLOCK, Reg.SLU_FLT_FREEZE, Reg.SLU_PWM_SAFE]
  exact forN_frame (State.rg · a) 32 _ _ fun g _ t => t.rg_sb_ne _ _ (by unfold Reg.SLU_GSTAT; omega)

theorem State.rg_sluEval_offLatch (s : State) : s.sluEval.rg a = s.rg a := by
  unfold State.sluEval
  refine (State.rg_sluRefresh_offLatch ha _).trans (forN_frame (State.rg · a) 32 _ _ fun g _ t => ?_)
  simp [State.rg_latchGroup_offLatch ha]

theorem State.rg_setTrip_offLatch (s : State) (k : Nat) (out : Bool) : (s.setTrip k out).rg a = s.rg a := by
  unfold State.setTrip
  split
  · rfl
  split
  · refine forN_frame (State.rg · a) 32 _ _ fun g _ t => ?_
    dsimp only [State.reviseFirst]
    split
    · exact State.rg_sf_ne _ _ _ (by unfold Reg.SLU_GSTAT; omega)
    · rfl
  · rfl

/-- A source that changes shows in its active condition. -/
theorem State.rg_setSource_offLatch (s : State) (k : Nat) (act out : Bool) : (s.setSource k act out).rg a =
    (s.wr (Reg.SLU_SRC_ACT (k / 32)) (BitVec.ofNat 32 (setBit (s.rn (Reg.SLU_SRC_ACT (k / 32))) (k % 32) act))).rg a := by
  simp only [State.setSource, State.rg_sluEval_offLatch ha, State.rg_setTrip_offLatch ha]

end regs

/-! ### The reference-fault source -/

theorem State.refSource_frame (s : State) :
    ∃ r h y l c p t o,
      s.refSource =
        { s with regs := r, hubq := h, slots := y, latchTick := l, cmps := c, pwms := p, tripOut := t, outFell := o } := by
  unfold State.refSource State.setInternal
  split
  · exact ⟨_, _, _, _, _, _, _, _, rfl⟩
  · exact s.setSource_frame _ _ _

@[simp] theorem State.tick_refSource (s : State) : s.refSource.tick = s.tick := by
  obtain ⟨r, h, y, l, c, p, t, o, e⟩ := s.refSource_frame
  rw [e]

@[simp] theorem State.mem_refSource (s : State) : s.refSource.mem = s.mem := State.mem_of_memTs s.memTs_refSource

@[simp] theorem State.adc_refSource (s : State) (g : Nat) : s.refSource.adc g = s.adc g := by
  obtain ⟨r, h, y, l, c, p, t, o, e⟩ := s.refSource_frame
  rw [e]
  rfl

theorem State.rg_refSource (s : State) {a : Nat} (ha : a < 0x70020000) : s.refSource.rg a = s.rg a := by
  unfold State.refSource State.setInternal
  split
  · rfl
  · rw [State.rg_setSource_offLatch (.inl ha), State.rg_wr_ne _ _ (by unfold Reg.SLU_SRC_ACT; omega)]

theorem State.bit_refSource (s : State) {a : Nat} (ha : a < 0x70020000) (f : Fld) : s.refSource.bit a f = s.bit a f :=
  State.bit_of_rg (s.rg_refSource ha) f

theorem nbit_setBit_self (v i : Nat) (b : Bool) : nbit (setBit v i b) i = b := by
  have hp : 0 < 2 ^ i := Nat.two_pow_pos i
  have hdiv : setBit v i b / 2 ^ i = v / 2 ^ i - b2n (nbit v i) + b2n b := by
    rw [setBit, Nat.add_mul_div_right _ _ hp, Nat.mul_comm (b2n (nbit v i)), Nat.sub_mul_div]
  rw [nbit, hdiv, nbit, b2n, b2n]
  cases b <;> by_cases h : v / 2 ^ i % 2 = 1 <;> simp [h] <;> omega

theorem nbit_toNat_ofNat (v : Nat) {i : Nat} (hi : i < 32) : nbit (BitVec.ofNat 32 v).toNat i = nbit v i := by
  rw [BitVec.toNat_ofNat, nbit_eq, nbit_eq, Nat.testBit_mod_two_pow, decide_eq_true hi, Bool.true_and]
/-- The reference-fault source is active exactly where a group has lost its reference (R142). -/
theorem State.srcActive_refSource (s : State) : s.refSource.srcActive 167 =
    (List.range 20).any fun g => s.bit (Reg.ADC_STAT g) F.ADC_STAT_REF_LOST := by
  unfold State.refSource State.setInternal
  split
  · assumption
  · rw [State.srcActive, State.rn, State.rg_setSource_offLatch (.inr (by decide)), State.rg_wr_self]
    exact (nbit_toNat_ofNat _ (by decide)).trans (nbit_setBit_self _ _ _)

end Sys2Proof.Machine
end
section
/-! Reference buffers (O12): EN, the settling time, and the fall of a reference (R141, R142). -/

namespace Sys2Proof.Machine

theorem adcRefCtrl_ne_adcStat (g : Nat) : Reg.ADC_REF_CTRL g ≠ Reg.ADC_STAT g := by
  unfold Reg.ADC_REF_CTRL Reg.ADC_STAT
  omega

/-- A step that ends writes CAL_RUN alone. -/
theorem State.bit_dropStep (s : State) (g : Nat) {f : Fld} (h : f.lo + f.w ≤ 3 ∨ 4 ≤ f.lo) :
    (s.dropStep g).bit (Reg.ADC_STAT g) f = s.bit (Reg.ADC_STAT g) f := State.bit_sf_disjoint _ _ _ _ _ h.symm

@[simp] theorem State.adc_dropStep (s : State) (g : Nat) : (s.dropStep g).adc g =
    { s.adc g with step := 0, again := false, force := none, fails := 0, compared := none } := by
  simp [State.dropStep]

theorem State.rg_dropStep_ne (s : State) {g a : Nat} (h : a ≠ Reg.ADC_STAT g) : (s.dropStep g).rg a = s.rg a :=
  State.rg_sf_ne _ _ _ h

theorem State.refEnable_off_of_busy {s : State} {g : Nat} (h : s.groupBusy g = true) : s.refEnable g false = s.adcErr g := by
  simp [State.refEnable, h]

/-- EN = 0 on a group that no running flight uses (R141, R142). -/
theorem State.refEnable_off_of_free {s : State} {g : Nat} (h : s.groupBusy g = false) : s.refEnable g false =
    (((((s.sf (Reg.ADC_REF_CTRL g) F.ADC_REF_CTRL_EN 0).sf (Reg.ADC_STAT g) F.ADC_STAT_REF_READY 0).sf
      (Reg.ADC_STAT g) F.ADC_STAT_REF_LOST 0).dropStep g).refSource) := by
  simp [State.refEnable, h]

theorem refEnable_starts_settling (s : State) (g : Fin 20) (h : s.bit (Reg.ADC_REF_CTRL g) F.ADC_REF_CTRL_EN = false) :
    Answers (.refEnable g true) s fun t =>
      t = { s with regs := t.regs, adcs := t.adcs } ∧ SameRegs [Reg.ADC_REF_CTRL g] s t ∧
        t.bit (Reg.ADC_REF_CTRL g) F.ADC_REF_CTRL_EN = true ∧ t.adc g = { s.adc g with settle := s.tick } := by
  have hx : exec (.refEnable g true) s =
      .next ((s.mapAdc g fun a => { a with settle := s.tick }).flag (Reg.ADC_REF_CTRL g) F.ADC_REF_CTRL_EN) :=
    congrArg Host.Outcome.next (by simp [State.refEnable, h]; rfl)
  refine ⟨_, hx, rfl, fun a ha => ?_, State.bit_flag_self _ _ _ (by decide) rfl, by simp⟩
  exact State.rg_flag_ne _ _ (by simpa using ha)

theorem refEnable_clears (s : State) (g : Fin 20) : Answers (.refEnable g false) s fun t =>
    t.mem = s.mem ∧
    (s.groupBusy g = false → t.bit (Reg.ADC_REF_CTRL g) F.ADC_REF_CTRL_EN = false ∧ t.refReady g = false ∧
      t.bit (Reg.ADC_STAT g) F.ADC_STAT_REF_LOST = false ∧ (t.adc g).step = 0) ∧
    (s.groupBusy g = true → t = { s with regs := t.regs } ∧ SameRegs [Reg.ADC_STAT g] s t ∧
      t.bit (Reg.ADC_STAT g) F.ADC_STAT_CFG_ERR = true) := by
  refine ⟨s.refEnable g false, rfl, State.mem_of_memTs (by simp), fun h => ?_, fun h => ?_⟩
  · have hstat : Reg.ADC_STAT g < 0x70020000 := (adcStat_lt g.isLt).trans (by decide)
    have hctrl : Reg.ADC_REF_CTRL g < 0x70020000 := (adcBase_add_lt (o := 0) g.isLt (by decide)).trans (by decide)
    rw [State.refEnable_off_of_free h]
    refine ⟨?_, ?_, ?_, by simp⟩
    · rw [State.bit_refSource _ hctrl, State.bit_of_rg (State.rg_dropStep_ne _ (adcRefCtrl_ne_adcStat g)),
        State.bit_of_rg (State.rg_sf_ne _ _ _ (adcRefCtrl_ne_adcStat g)),
        State.bit_of_rg (State.rg_sf_ne _ _ _ (adcRefCtrl_ne_adcStat g))]
      exact State.bit_clear_self _ _ _ (by decide)
    · rw [State.refReady, State.bit_refSource _ hstat, State.bit_dropStep _ _ (by decide),
        State.bit_sf_disjoint _ _ _ _ _ (by decide)]
      exact State.bit_clear_self _ _ _ (by decide)
    · rw [State.bit_refSource _ hstat, State.bit_dropStep _ _ (by decide)]
      exact State.bit_clear_self _ _ _ (by decide)
  · rw [State.refEnable_off_of_busy h]
    exact ⟨rfl, fun a ha => State.rg_flag_ne _ _ (by simpa using ha), State.bit_flag_self _ _ _ (by decide) rfl⟩

theorem exec_refSettled {s : State} {g : Fin 20} (h : s.settling g = true) : exec (.refSettled g) s =
    .next (((s.atTick ((s.adc g).settle + 1600000)).flag (Reg.ADC_STAT g) F.ADC_STAT_REF_READY).sf
      (Reg.ADC_STAT g) F.ADC_STAT_REF_LOST 0).refSource := if_pos h

theorem refSettled_makes_ready (s : State) (g : Fin 20) (h : s.settling g = true) : Answers (.refSettled g) s fun t =>
    t.mem = s.mem ∧ t.tick = max s.tick ((s.adc g).settle + 1600000) ∧ t.refReady g = true ∧
      t.bit (Reg.ADC_STAT g) F.ADC_STAT_REF_LOST = false := by
  have hstat : Reg.ADC_STAT g < 0x70020000 := (adcStat_lt g.isLt).trans (by decide)
  refine ⟨_, exec_refSettled h, ?_, ?_, ?_, ?_⟩
  · rw [State.mem_refSource, State.mem_sf, State.mem_flag, State.mem_atTick]
  · rw [State.tick_refSource, State.tick_sf, State.tick_flag, State.tick_atTick]
  · rw [State.refReady, State.bit_refSource _ hstat, State.bit_sf_disjoint _ _ _ _ _ (by decide)]
    exact State.bit_flag_self _ _ _ (by decide) rfl
  · rw [State.bit_refSource _ hstat]
    exact State.bit_clear_self _ _ _ (by decide)

theorem exec_refTimeout {s : State} {g : Fin 20} (h : s.settling g = true) : exec (.refTimeout g) s =
    .next ((s.atTick ((s.adc g).settle + 3200000)).flag (Reg.ADC_STAT g) F.ADC_STAT_REF_FAULT) := if_pos h

theorem State.not_refReady_of_settling {s : State} {g : Nat} (h : s.settling g = true) : s.refReady g = false := by
  rw [State.settling, Bool.and_eq_true, Bool.not_eq_true'] at h
  exact h.2

theorem refTimeout_faults (s : State) (g : Fin 20) (h : s.settling g = true) : Answers (.refTimeout g) s fun t =>
    t = { s with tick := t.tick, ts := t.ts, regs := t.regs } ∧ SameRegs [Reg.ADC_STAT g] s t ∧
      t.tick = max s.tick ((s.adc g).settle + 3200000) ∧
      t.bit (Reg.ADC_STAT g) F.ADC_STAT_REF_FAULT = true ∧ t.refReady g = false := by
  refine ⟨_, exec_refTimeout h, ?_, fun a ha => ?_, ?_, State.bit_flag_self _ _ _ (by decide) rfl, ?_⟩
  · obtain ⟨k, u, e⟩ := s.atTick_frame ((s.adc g).settle + 3200000)
    rw [e]
    rfl
  · exact (State.rg_flag_ne _ _ (by simpa using ha)).trans (s.rg_atTick _ a)
  · rw [State.tick_flag, State.tick_atTick]
  · rw [State.refReady, State.bit_flag_disjoint _ _ _ _ (by decide), State.bit_of_rg (s.rg_atTick _ _)]
    exact State.not_refReady_of_settling h

/-- A ready reference that falls, up to the reference-fault source (R142). -/
def State.refFallen (s : State) (g : Nat) : State :=
  ((((((s.sf (Reg.ADC_STAT g) F.ADC_STAT_REF_READY 0).mapAdc g fun a => { a with settle := s.tick }).dropStep g).flag
    (Reg.ADC_STAT g) F.ADC_STAT_REF_LOST).flag (Reg.ADC_STAT g) F.ADC_STAT_REF_FAULT).raise (adcSrc g 0) 0x28 1)

theorem exec_refFall {s : State} {g : Fin 20} (hen : s.bit (Reg.ADC_REF_CTRL g) F.ADC_REF_CTRL_EN = true)
    (hr : s.refReady g = true) : exec (.refFall g) s = .next (s.refFallen g).refSource := if_pos (by simp [hen, hr])

theorem State.bits_refFallen (s : State) {g : Nat} (hg : g < 20) :
    (s.refFallen g).refReady g = false ∧ (s.refFallen g).bit (Reg.ADC_STAT g) F.ADC_STAT_REF_LOST = true ∧
      (s.refFallen g).bit (Reg.ADC_STAT g) F.ADC_STAT_REF_FAULT = true := by
  have hraise : ∀ (u : State) (f : Fld), (u.raise (adcSrc g 0) 0x28 1).bit (Reg.ADC_STAT g) f = u.bit (Reg.ADC_STAT g) f :=
    fun u f => State.bit_of_rg (u.rg_raise_below _ _ _ ((adcStat_lt hg).trans (by decide))) f
  unfold State.refReady State.refFallen
  simp only [hraise]
  refine ⟨?_, ?_, State.bit_flag_self _ _ _ (by decide) rfl⟩
  · rw [State.bit_flag_disjoint _ _ _ _ (by decide), State.bit_flag_disjoint _ _ _ _ (by decide), State.bit_dropStep _ _ (by decide)]
    exact State.bit_clear_self _ _ _ (by decide)
  · rw [State.bit_flag_disjoint _ _ _ _ (by decide)]
    exact State.bit_flag_self _ _ _ (by decide) rfl

theorem refFall_loses_reference (s : State) (g : Fin 20) (hen : s.bit (Reg.ADC_REF_CTRL g) F.ADC_REF_CTRL_EN = true)
    (hr : s.refReady g = true) : Answers (.refFall g) s fun t =>
      t.mem = s.mem ∧ t.refReady g = false ∧ t.bit (Reg.ADC_STAT g) F.ADC_STAT_REF_LOST = true ∧
      t.bit (Reg.ADC_STAT g) F.ADC_STAT_REF_FAULT = true ∧ (t.adc g).settle = s.tick ∧ (t.adc g).step = 0 ∧
      t.srcActive 167 = true := by
  have hstat : Reg.ADC_STAT g < 0x70020000 := (adcStat_lt g.isLt).trans (by decide)
  obtain ⟨hready, hlost, hfault⟩ := s.bits_refFallen g.isLt
  refine ⟨_, exec_refFall hen hr, State.mem_of_memTs (by simp [State.refFallen]), (State.bit_refSource _ hstat _).trans hready,
    (State.bit_refSource _ hstat _).trans hlost, (State.bit_refSource _ hstat _).trans hfault, by simp [State.refFallen],
    by simp [State.refFallen], ?_⟩
  rw [State.srcActive_refSource, List.any_eq_true]
  exact ⟨g, List.mem_range.2 g.isLt, hlost⟩

end Sys2Proof.Machine
end
section
/-! The sequence table's triggers (O12): what each schedules, and TRIG_OVR (R146, R147). -/

namespace Sys2Proof.Machine

/-- From an entry's trigger to its start: the delay of its word, of at least 16 ticks after an edge of a pin (R146). -/
def State.trigDelay (s : State) (g k : Nat) : Nat :=
  if 0x40 ≤ s.trigOf g k ∧ s.trigOf g k < 0x60 then max (s.fld (Reg.ADC_SEQ g k) F.ADC_SEQ_DELAY) 16
  else s.fld (Reg.ADC_SEQ g k) F.ADC_SEQ_DELAY

/-- The start that a trigger at TS `t0` schedules. -/
def State.trigStart (s : State) (g k t0 : Nat) : Nat × Nat := (t0 + s.trigDelay g k, s.fld (Reg.ADC_SEQ g k) F.ADC_SEQ_CH)

theorem State.trigDelay_of_edge {s : State} {g k : Nat} (h : 0x40 ≤ s.trigOf g k ∧ s.trigOf g k < 0x60) :
    s.trigDelay g k = max (s.fld (Reg.ADC_SEQ g k) F.ADC_SEQ_DELAY) 16 := if_pos h

theorem State.trigDelay_of_no_edge {s : State} {g k : Nat} (h : ¬(0x40 ≤ s.trigOf g k ∧ s.trigOf g k < 0x60)) :
    s.trigDelay g k = s.fld (Reg.ADC_SEQ g k) F.ADC_SEQ_DELAY := if_neg h

theorem State.schedule_of_free {s : State} {g k : Nat} (h : tget none (s.adc g).pend k = none) (t0 : Nat) :
    s.schedule g k t0 = s.mapAdc g fun a => { a with pend := tput a.pend k (some (s.trigStart g k t0)) } := by
  simp [State.schedule, h, State.trigStart, State.trigDelay]

theorem State.schedule_of_pending {s : State} {g k : Nat} (h : tget none (s.adc g).pend k ≠ none) (t0 : Nat) :
    s.schedule g k t0 = s.flag (Reg.ADC_STAT g) F.ADC_STAT_TRIG_OVR := by
  obtain ⟨p, hp⟩ := Option.ne_none_iff_exists'.1 h
  simp [State.schedule, hp]

theorem State.schedule_frame (s : State) (g k t0 : Nat) : ∃ r a, s.schedule g k t0 = { s with regs := r, adcs := a } := by
  by_cases h : tget none (s.adc g).pend k = none
  · exact ⟨_, _, State.schedule_of_free h t0⟩
  · exact ⟨_, _, State.schedule_of_pending h t0⟩

theorem State.rg_schedule (s : State) {g k t0 a : Nat} (ha : a ≠ Reg.ADC_STAT g) : (s.schedule g k t0).rg a = s.rg a := by
  by_cases h : tget none (s.adc g).pend k = none
  · rw [State.schedule_of_free h, State.rg_mapAdc]
  · rw [State.schedule_of_pending h, State.rg_flag_ne _ _ ha]

theorem State.pend_schedule_self {s : State} {g k : Nat} (h : tget none (s.adc g).pend k = none) (t0 : Nat) :
    tget none ((s.schedule g k t0).adc g).pend k = some (s.trigStart g k t0) := by
  simp [State.schedule_of_free h]

theorem State.pend_schedule_ne (s : State) {g k j : Nat} (t0 : Nat) (h : k ≠ j) :
    tget none ((s.schedule g j t0).adc g).pend k = tget none (s.adc g).pend k := by
  by_cases hj : tget none (s.adc g).pend j = none
  · simp [State.schedule_of_free hj, tget_tput_ne _ _ _ h]
  · rw [State.schedule_of_pending hj, State.adc_flag]

/-- A trigger that finds a start pending sets TRIG_OVR and leaves that start (R147). -/
theorem State.schedule_overruns {s : State} {g k : Nat} (h : tget none (s.adc g).pend k ≠ none) (t0 : Nat) :
    (s.schedule g k t0).adcs = s.adcs ∧ (s.schedule g k t0).bit (Reg.ADC_STAT g) F.ADC_STAT_TRIG_OVR = true := by
  rw [State.schedule_of_pending h]
  exact ⟨rfl, State.bit_flag_self _ _ _ (by decide) rfl⟩

/-! ### SEQ_TRIGGER -/

section triggers

variable {s : State} {g : Fin 20} {k : Fin 16}

theorem exec_seqTrigger_of_fc (h1 : 1 ≤ s.trigOf g k) (h2 : s.trigOf g k ≤ 0x10) : exec (.seqTrigger g k) s =
    .next (if s.runOn (s.trigOf g k - 1) then s.schedule g k (s.r64 (Reg.FC_CYC_TS_LO (s.leader (s.trigOf g k - 1)))) else s) :=
  if_pos (by simp [h1, h2])

theorem exec_seqTrigger_of_pair (h1 : 0x20 ≤ s.trigOf g k) (h2 : s.trigOf g k < 0x40) : exec (.seqTrigger g k) s =
    .next (s.schedule g k (s.r64 (Reg.PWM_PSTS_LO (s.trigOf g k - 0x20)))) :=
  (if_neg (by simp; omega)).trans (if_pos (by simp [h1, h2]))

theorem exec_seqTrigger_of_pin (h1 : 0x40 ≤ s.trigOf g k) (h2 : s.trigOf g k < 0x60) : exec (.seqTrigger g k) s =
    .next (s.schedule g k (tget 0 s.evtRise (s.trigOf g k - 0x40))) :=
  (if_neg (by simp; omega)).trans ((if_neg (by simp; omega)).trans (if_pos (by simp [h1, h2])))

/-- The state at the next tick of the group timer. -/
def State.atTimer (s : State) (g : Nat) : State := s.atTs (s.ts + (s.tmrPeriod g - s.ts % s.tmrPeriod g) % s.tmrPeriod g)

theorem exec_seqTrigger_of_timer (h : s.trigOf g k = 0x61) : exec (.seqTrigger g k) s =
    .next (if s.tmrPeriod g = 0 then s else (s.atTimer g).schedule g k (s.atTimer g).ts) :=
  (if_neg (by simp [h])).trans ((if_neg (by simp [h])).trans ((if_neg (by simp [h])).trans (if_pos h)))

theorem exec_seqTrigger_of_other (h1 : ¬(1 ≤ s.trigOf g k ∧ s.trigOf g k ≤ 0x10))
    (h2 : ¬(0x20 ≤ s.trigOf g k ∧ s.trigOf g k < 0x60))
    (h3 : s.trigOf g k ≠ 0x61) : exec (.seqTrigger g k) s = .next s :=
  (if_neg (by simpa using h1)).trans ((if_neg (by simp; omega)).trans ((if_neg (by simp; omega)).trans (if_neg h3)))

end triggers

@[simp] theorem State.mem_schedule (s : State) (g k t0 : Nat) : (s.schedule g k t0).mem = s.mem := by
  obtain ⟨r, a, e⟩ := s.schedule_frame g k t0
  rw [e]

@[simp] theorem State.ts_schedule (s : State) (g k t0 : Nat) : (s.schedule g k t0).ts = s.ts := by
  obtain ⟨r, a, e⟩ := s.schedule_frame g k t0
  rw [e]

theorem State.trigStart_atTimer (s : State) (g k t0 : Nat) : (s.atTimer g).trigStart g k t0 = s.trigStart g k t0 := by
  have hrg : ∀ a, (s.atTimer g).rg a = s.rg a := fun a => s.rg_atTs _ a
  unfold State.trigStart State.trigDelay State.trigOf State.fld
  simp only [hrg]

/-- What SEQ_TRIGGER answers: the schedule of its trigger's TS, by the kind of the trigger (R146). -/
theorem seqTrigger_schedules (s : State) (g : Fin 20) (k : Fin 16) :
    let tr := s.trigOf g k
    let d := s.fld (Reg.ADC_SEQ g k) F.ADC_SEQ_DELAY
    let c := s.fld (Reg.ADC_SEQ g k) F.ADC_SEQ_CH
    Answers (.seqTrigger g k) s fun t =>
      t.mem = s.mem ∧
      (tget none (s.adc g).pend k = none →
        (1 ≤ tr → tr ≤ 0x10 → s.runOn (tr - 1) = true →
          tget none (t.adc g).pend k = some (s.r64 (Reg.FC_CYC_TS_LO (s.leader (tr - 1))) + d, c)) ∧
        (0x20 ≤ tr → tr < 0x40 → tget none (t.adc g).pend k = some (s.r64 (Reg.PWM_PSTS_LO (tr - 0x20)) + d, c)) ∧
        (0x40 ≤ tr → tr < 0x60 → tget none (t.adc g).pend k = some (tget 0 s.evtRise (tr - 0x40) + max d 16, c)) ∧
        (tr = 0x61 → s.tmrPeriod g ≠ 0 → tget none (t.adc g).pend k = some (t.ts + d, c))) ∧
      (tget none (s.adc g).pend k ≠ none → 0x20 ≤ tr → tr < 0x60 →
        t.adcs = s.adcs ∧ t.bit (Reg.ADC_STAT g) F.ADC_STAT_TRIG_OVR = true) := by
  intro tr d c
  have hno : ¬(0x40 ≤ tr ∧ tr < 0x60) → ∀ t0, s.trigStart g k t0 = (t0 + d, c) := fun h t0 => by
    rw [State.trigStart, State.trigDelay_of_no_edge h]
  by_cases hfc : 1 ≤ tr ∧ tr ≤ 0x10
  · refine ⟨_, exec_seqTrigger_of_fc hfc.1 hfc.2, by split <;> simp, fun hp => ⟨fun _ _ hr => ?_, ?_, ?_, ?_⟩, ?_⟩
    · rw [if_pos hr, State.pend_schedule_self hp, hno (by omega)]
    all_goals omega
  by_cases hpair : 0x20 ≤ tr ∧ tr < 0x40
  · refine ⟨_, exec_seqTrigger_of_pair hpair.1 hpair.2, by simp, fun hp => ⟨?_, fun _ _ => ?_, ?_, ?_⟩,
      fun hp _ _ => State.schedule_overruns hp _⟩
    · omega
    · rw [State.pend_schedule_self hp, hno (by omega)]
    all_goals omega
  by_cases hpin : 0x40 ≤ tr ∧ tr < 0x60
  · refine ⟨_, exec_seqTrigger_of_pin hpin.1 hpin.2, by simp, fun hp => ⟨?_, ?_, fun _ _ => ?_, ?_⟩,
      fun hp _ _ => State.schedule_overruns hp _⟩
    · omega
    · omega
    · rw [State.pend_schedule_self hp, State.trigStart, State.trigDelay_of_edge hpin]
    · omega
  by_cases htimer : tr = 0x61
  · refine ⟨_, exec_seqTrigger_of_timer htimer, ?_, fun hp => ⟨?_, ?_, ?_, fun _ hper => ?_⟩, ?_⟩
    · split
      · rfl
      · exact (State.mem_schedule _ _ _ _).trans (s.mem_atTs _)
    · omega
    · omega
    · omega
    · have hp' : tget none ((s.atTimer g).adc g).pend k = none := (congrArg (tget none ·.pend k) (s.adc_atTs _ g)).trans hp
      rw [if_neg hper, State.pend_schedule_self hp', State.trigStart_atTimer, hno (by omega), State.ts_schedule]
    · omega
  · refine ⟨s, exec_seqTrigger_of_other hfc (by omega) htimer, rfl, fun _ => ⟨?_, ?_, ?_, ?_⟩, ?_⟩
    all_goals omega

/-! ### SWTRIG -/

/-- A software trigger as one entry of the table takes it (R146). -/
def State.softTrigger (s : State) (g k : Nat) : State := if s.trigOf g k = 0x60 then s.schedule g k (s.ts + 1) else s

theorem exec_swtrig (s : State) (g : Fin 20) : exec (.swtrig g) s = .next (forN 16 (fun k s => s.softTrigger g k) s) := rfl

theorem State.softTrigger_frame (s : State) (g k : Nat) : ∃ r a, s.softTrigger g k = { s with regs := r, adcs := a } := by
  unfold State.softTrigger
  split
  · exact s.schedule_frame g k _
  · exact ⟨_, _, rfl⟩

theorem State.rg_softTrigger (s : State) {g k a : Nat} (ha : a ≠ Reg.ADC_STAT g) : (s.softTrigger g k).rg a = s.rg a := by
  unfold State.softTrigger
  split
  · exact s.rg_schedule ha
  · rfl

/-- What an entry's part in a software trigger depends on: TS, the word of the entry, and its pending start. -/
def State.softView (g k : Nat) (s : State) : Nat × Word × Option (Nat × Nat) :=
  (s.ts, s.rg (Reg.ADC_SEQ g k), tget none (s.adc g).pend k)

theorem adcSeq_ne_adcStat (g k : Nat) : Reg.ADC_SEQ g k ≠ Reg.ADC_STAT g := by
  unfold Reg.ADC_SEQ Reg.ADC_STAT
  omega

theorem State.softView_softTrigger_ne (s : State) {g k j : Nat} (h : j ≠ k) :
    (s.softTrigger g j).softView g k = s.softView g k := by
  unfold State.softView
  rw [s.rg_softTrigger (adcSeq_ne_adcStat g k)]
  unfold State.softTrigger
  split
  · rw [State.ts_schedule, State.pend_schedule_ne _ _ h.symm]
  · rfl

theorem swtrig_schedules (s : State) (g : Fin 20) : Answers (.swtrig g) s fun t =>
    t = { s with regs := t.regs, adcs := t.adcs } ∧ SameRegs [Reg.ADC_STAT g] s t ∧ ∀ k : Fin 16,
      (s.trigOf g k = 0x60 → tget none (s.adc g).pend k = none →
        tget none (t.adc g).pend k =
          some (s.ts + 1 + s.fld (Reg.ADC_SEQ g k) F.ADC_SEQ_DELAY, s.fld (Reg.ADC_SEQ g k) F.ADC_SEQ_CH)) ∧
      (s.trigOf g k ≠ 0x60 → tget none (t.adc g).pend k = tget none (s.adc g).pend k) := by
  refine ⟨_, exec_swtrig s g, ?_, fun a ha => ?_, fun k => ?_⟩
  · refine forN_induct (fun t => t = { s with regs := t.regs, adcs := t.adcs }) 16 _ s rfl fun j _ t ht => ?_
    obtain ⟨r, a, e⟩ := t.softTrigger_frame g j
    rw [e, ht]
  · exact forN_frame (State.rg · a) 16 _ s fun j _ t => t.rg_softTrigger (by simpa using ha)
  · obtain ⟨u, hu, ht⟩ := forN_view (State.softView g k) (fun k s => s.softTrigger g k) s k.isLt
      fun j _ hj t => t.softView_softTrigger_ne hj
    have hpend := congrArg (·.2.2) ht
    obtain ⟨hts, hword, hup⟩ : u.ts = s.ts ∧ u.rg (Reg.ADC_SEQ g k) = s.rg (Reg.ADC_SEQ g k) ∧
        tget none (u.adc g).pend k = tget none (s.adc g).pend k := by simpa [State.softView] using hu
    have htrig : u.trigOf g k = s.trigOf g k := by rw [State.trigOf, hword, State.trigOf]
    refine ⟨fun h60 hp => hpend.trans ?_, fun h60 => hpend.trans ?_⟩
    · have hstart : u.trigStart g k (u.ts + 1) =
          (s.ts + 1 + s.fld (Reg.ADC_SEQ g k) F.ADC_SEQ_DELAY, s.fld (Reg.ADC_SEQ g k) F.ADC_SEQ_CH) := by
        rw [State.trigStart, State.trigDelay_of_no_edge (by omega), hts, State.fld_of_rg hword, State.fld_of_rg hword]
      dsimp only [State.softView]
      rw [State.softTrigger, if_pos (htrig.trans h60), State.pend_schedule_self (hup.trans hp), hstart]
    · dsimp only [State.softView]
      rw [State.softTrigger, if_neg (htrig ▸ h60), hup]

end Sys2Proof.Machine

open Sys2Proof.Machine

/-- Settles O12, clause by clause. -/
theorem referenceBuffersAndSequencesRun : Obligations.ReferenceBuffersAndSequencesRun :=
  ⟨refEnable_starts_settling, refEnable_clears, refSettled_makes_ready, refTimeout_faults, refFall_loses_reference,
    seqTrigger_schedules, swtrig_schedules⟩

end
section
/-! Conversions (O14, O15): what one conversion answers, and what it leaves of its group. -/

namespace Sys2Proof.Machine

/-! ### The SAT flag of a channel -/

@[simp] theorem State.adc_noteSat (s : State) (g c : Nat) (v : Conv) (k : Nat) : (s.noteSat g c v).adc k = s.adc k := by
  unfold State.noteSat
  split <;> simp

@[simp] theorem State.ts_noteSat (s : State) (g c : Nat) (v : Conv) : (s.noteSat g c v).ts = s.ts := by
  unfold State.noteSat
  split <;> simp

/-! ### One conversion -/

/-- Whether a conversion that started at TS `t` is the last of its channel (R148). -/
def AdcSt.newest (a : AdcSt) (c t : Nat) : Bool :=
  match tget none a.last c with
  | some v => decide (v.start ≤ t)
  | none => true

/-- A conversion that started at TS `t`, in the group's record. -/
def AdcSt.noted (a : AdcSt) (c t : Nat) (v : Conv) : AdcSt :=
  { a with last := if a.newest c t then tput a.last c (some v) else a.last, held := tput a.held c (laterOf (tget none a.held c) t) }

/-- The CLIP flag of a channel and its event (R140, R160). -/
def State.noteClip (s : State) (g c : Nat) (v : Conv) : State :=
  if v.clip then s.flagOnce (Reg.ADC_MAP g c) F.ADC_MAP_CLIP (adcSrc g c) 0x20 (enc 16 v.raw) else s

/-- What a conversion answers and does: its result, the CLIP flag, and the group's record. An undefined result draws a free value
(R7). -/
theorem State.convert_eq (s : State) (g c : Nat) (h : Hold) (x : Int) : ∃ v u, (u = s ∨ u = s.nextFree) ∧
    s.convert g c h x = (v, (u.noteClip g c v).mapAdc g fun a => a.noted c h.ts v) := by
  by_cases hsl : h.slice = 15
  · refine ⟨_, s, .inl rfl, Prod.ext rfl ?_⟩
    simp only [State.convert, hsl, if_true, State.noteClip, Bool.false_eq_true, if_false]
    rfl
  by_cases hr : s.refReady g = true
  · refine ⟨_, s, .inl rfl, Prod.ext rfl ?_⟩
    simp only [State.convert, hsl, hr, if_true, if_false]
    rfl
  · refine ⟨_, s.nextFree, .inr rfl, Prod.ext rfl ?_⟩
    simp only [State.convert, hsl, hr, if_false]
    rfl

@[simp] theorem State.adc_noteClip (s : State) (g c : Nat) (v : Conv) (k : Nat) : (s.noteClip g c v).adc k = s.adc k := by
  unfold State.noteClip
  split <;> simp

@[simp] theorem State.ts_noteClip (s : State) (g c : Nat) (v : Conv) : (s.noteClip g c v).ts = s.ts := by
  unfold State.noteClip
  split <;> simp

@[simp] theorem State.ts_convert (s : State) (g c : Nat) (h : Hold) (x : Int) : (s.convert g c h x).2.ts = s.ts := by
  obtain ⟨v, u, hu, e⟩ := s.convert_eq g c h x
  rw [e, State.ts_mapAdc, State.ts_noteClip]
  obtain rfl | rfl := hu <;> rfl

/-- A conversion enters the group's record, and changes nothing else of the group's hidden state. -/
theorem State.adc_convert (s : State) (g c : Nat) (h : Hold) (x : Int) :
    (s.convert g c h x).2.adc g = (s.adc g).noted c h.ts (s.convert g c h x).1 := by
  obtain ⟨v, u, hu, e⟩ := s.convert_eq g c h x
  have hadc : u.adc g = s.adc g := by obtain rfl | rfl := hu <;> rfl
  rw [e, State.adc_mapAdc_self, State.adc_noteClip, hadc]

/-- A conversion from a hold before the start of the channel's last leaves that as the last (R148). -/
theorem State.last_convert_of_later {s : State} {g c : Nat} {v : Conv} (hv : tget none (s.adc g).last c = some v) {h : Hold}
    (hlt : h.ts < v.start) (x : Int) : tget none ((s.convert g c h x).2.adc g).last c = some v := by
  have hn : (s.adc g).newest c h.ts = false := by simp [AdcSt.newest, hv, hlt]
  rw [State.adc_convert, AdcSt.noted, hn]
  exact hv

/-! ### HANDOVER_CONVERSION -/

@[simp] theorem State.ts_holdNow (s : State) (g c t : Nat) : (s.holdNow g c t).ts = t := rfl

/-- The tick at which a hub channel that has converted nothing takes a conversion of its own (R153). -/
def State.atOwnConv (s : State) (g : Nat) : State := s.atTick ((s.adc g).stepTick + 8000000)

@[simp] theorem State.adc_atOwnConv (s : State) (g k : Nat) : (s.atOwnConv g).adc k = s.adc k := by
  rw [State.atOwnConv, State.adc_atTick]

/-- The conversion of its own that the channel of the step takes then (R153). -/
def State.ownConv (s : State) (g : Nat) (raw : Int) : Conv × State :=
  (s.atOwnConv g).convert g (s.stepChan g) ((s.atOwnConv g).holdNow g (s.stepChan g) (s.atOwnConv g).ts) raw

theorem exec_handoverConversion {s : State} {g : Fin 20} {v : Conv} (hg : 16 ≤ g.val) (hs : (s.adc g).step = 2)
    (hf : (s.adc g).force = none) (hv : tget none (s.adc g).last (s.stepChan g) = some v)
    (hidle : v.start + (s.tick - (s.adc g).stepTick) < s.ts) (raw : Int) :
    exec (.handoverConversion g raw) s = .next ((s.ownConv g raw).2.noteSat g (s.stepChan g) (s.ownConv g raw).1) :=
  if_pos (by simp [hg, hs, hf, hv, hidle])

/-- TS counts modulo 2^64 (R1): where it passes 0 on the way to that tick, the channel's last conversion stays its last. -/
theorem State.last_ownConv_of_later {s : State} {g : Nat} {v : Conv} (hv : tget none (s.adc g).last (s.stepChan g) = some v)
    (hlt : (s.atOwnConv g).ts < v.start) (raw : Int) : (s.ownConv g raw).2.ts < v.start ∧
      tget none ((s.ownConv g raw).2.adc g).last (s.stepChan g) = some v := by
  unfold State.ownConv
  refine ⟨?_, State.last_convert_of_later ?_ ?_ raw⟩
  · rw [State.ts_convert]
    exact hlt
  · rw [State.adc_atOwnConv]
    exact hv
  · rw [State.ts_holdNow]
    exact hlt

end Sys2Proof.Machine
end
section
/-! Where O13 and O14 fail, each in one clause. O13 does not bound the channel number that a converted entry carries: a saturated
result of a channel that no group has sets its SAT flag at an address that is the result register's own. O14 asks that the conversion
which an idle hub channel takes becomes its last: TS counts modulo 2^64, and where it passes 0 on the way there, the earlier
conversion has the later TS and stays the last. -/

namespace Sys2Proof.Machine

/-! ### A published result -/

/-- The word of ADC_RES that publishes a conversion over the word `old` (R149). -/
def Conv.word (v : Conv) (shared : Bool) (old : Word) : Word :=
  BitVec.ofNat 32 (enc 16 v.val + 2 ^ 16 * b2n v.clip + 2 ^ 17 * b2n v.sat + 2 ^ 19 * b2n v.noref + 2 ^ 20 * b2n v.test +
    2 ^ 21 * b2n shared + 2 ^ 30 * b2n (fget old F.ADC_RES_NEW == 1 || fget old F.ADC_RES_OVR == 1) + 2 ^ 31)

/-- The state in which the result registers show the oldest conversion of an entry. -/
def State.published (s : State) (g k : Nat) (v : Conv) (shared : Bool) : State :=
  ((s.atTs (v.start + 88)).wr (Reg.ADC_RES g k) (v.word shared ((s.atTs (v.start + 88)).rg (Reg.ADC_RES g k)))).wr
    (Reg.ADC_RESTS g k) (BitVec.ofNat 32 v.start)

theorem exec_seqResult {s : State} {g : Fin 20} {k : Fin 16} {v : Conv} {shared : Bool} {l : List (Conv × Bool)}
    (h : tget [] (s.adc g).out k = (v, shared) :: l) : exec (.seqResult g k) s =
    .next (((s.published g k v shared).noteSat g v.ch v).mapAdc g fun a => { a with out := tput a.out k l }) := by
  show execSeqResult g k s = _
  unfold execSeqResult
  dsimp only
  rw [h]
  rfl

/-- Where the address of the channel's map register is that of the result register, a saturated result sets bit 7 of itself. -/
theorem seqResult_sets_bit_of_alias {s t : State} {g : Fin 20} {k : Fin 16} {v : Conv} {shared : Bool} {l : List (Conv × Bool)}
    (h : tget [] (s.adc g).out k = (v, shared) :: l) (hsat : v.sat = true) (ha : Reg.ADC_MAP g v.ch = Reg.ADC_RES g k)
    (ht : exec (.seqResult g k) s = .next t) : t.bit (Reg.ADC_RES g k) F.ADC_MAP_SAT = true := by
  have hlt : Reg.ADC_RES g k < 0x70040000 := by
    have := adcBase_add_lt (o := 0x140 + 4 * k) g.isLt (by omega)
    unfold Reg.ADC_RES
    omega
  cases ht.symm.trans (exec_seqResult h)
  rw [← ha] at hlt ⊢
  rw [State.bit_of_rg (State.rg_mapAdc _ _ _), State.noteSat, if_pos hsat]
  exact State.bit_flagOnce_self _ _ _ _ _ hlt (by decide) (by decide)

/-- A conversion of channel 64 whose value sat16 took to the lowest code. -/
def strayConv : Conv :=
  { ch := 64, start := 0, slice := 0, raw := -32768, val := -32768, clip := false, sat := true, noref := false, test := false }

/-- Entry 0 of group 0 waits for its publication. -/
def strayState : State := State.reset.mapAdc 0 fun a => { a with out := [(0, [(strayConv, false)])] }

theorem out_strayState : tget [] (strayState.adc 0).out 0 = [(strayConv, false)] := by
  rw [strayState, State.adc_mapAdc_self]
  rfl

/-! ### The handover's own conversion across the end of TS -/

/-- The last conversion of channel 0: it started one tick before the highest TS. -/
def lastConv : Conv :=
  { ch := 0, start := 2 ^ 64 - 2, slice := 0, raw := 0, val := 0, clip := false, sat := false, noref := false, test := false }

/-- A hub group is connected for a handover, at the highest TS. -/
def wrapState : State := { State.reset.mapAdc 16 fun a => { a with step := 2, last := [(0, some lastConv)] } with ts := 2 ^ 64 - 1 }

theorem stepChan_wrapState : wrapState.stepChan 16 = 0 := by decide +kernel

theorem adc_wrapState : wrapState.adc 16 = { AdcSt.init with step := 2, last := [(0, some lastConv)] } := by decide +kernel

theorem last_wrapState : tget none (wrapState.adc 16).last (wrapState.stepChan 16) = some lastConv := by
  rw [stepChan_wrapState, adc_wrapState]
  rfl

end Sys2Proof.Machine

open Sys2Proof.Machine

/-- Refutes O13: a result of channel 64 is published in group 0, where the map register of that number would stand at the address of
ADC_RES0. Its value is the lowest code, 0x8000; SAT is bit 7 of the map register, so that ADC_RES0 reads 0x8080. -/
theorem not_conversionsAndTheirResults : ¬ Obligations.ConversionsAndTheirResults := by
  rintro ⟨-, hres, -⟩
  obtain ⟨t, ht, -, -, hval, -⟩ := hres strayState 0 0 strayConv false [] out_strayState
  have hbit := seqResult_sets_bit_of_alias out_strayState rfl rfl ht
  have hword : t.rn (Reg.ADC_RES 0 0) % 65536 = 0x8000 := hval.trans (by decide)
  have hseven : (t.rg (Reg.ADC_RES 0 0)).toNat / 2 ^ 7 % 2 ^ 1 ≠ 0 := bne_iff_ne.1 hbit
  rw [State.rn] at hword
  omega

/-- Refutes O14: the idle channel's own conversion falls on TS 7,999,999, past the wrap of TS, and its last conversion stays the one
of TS 2^64 − 2. -/
theorem not_sliceRotationRuns : ¬ Obligations.SliceRotationRuns := by
  rintro ⟨-, -, -, -, hown, -⟩
  have hidle : ∀ v, tget none (wrapState.adc 16).last (wrapState.stepChan 16) = some v →
      v.start + (wrapState.tick - (wrapState.adc 16).stepTick) < wrapState.ts := fun v hv => by
    cases last_wrapState.symm.trans hv
    decide +kernel
  have hstep : (wrapState.adc 16).step = 2 := by rw [adc_wrapState]
  have hforce : (wrapState.adc 16).force = none := by rw [adc_wrapState]; rfl
  have hlt : (wrapState.atOwnConv 16).ts < lastConv.start := by decide +kernel
  obtain ⟨t, ht, -, -, v, hv, hstart, -⟩ := hown wrapState 16 0 (by decide) hstep hforce hidle
  obtain ⟨hts, hlast⟩ := State.last_ownConv_of_later (g := (16 : Fin 20)) last_wrapState hlt 0
  cases ht.symm.trans (exec_handoverConversion (by decide) hstep hforce last_wrapState (hidle _ last_wrapState) 0)
  rw [State.adc_noteSat] at hv
  cases hlast.symm.trans hv
  rw [State.ts_noteSat] at hstart
  omega

end
section
/-! Path tests (O15): RUN_PATH_TEST, its levels, and its end (R157). -/

namespace Sys2Proof.Machine

theorem adcMap_ne_adcStat (g c : Nat) : Reg.ADC_MAP g c ≠ Reg.ADC_STAT g := by
  unfold Reg.ADC_MAP Reg.ADC_STAT
  omega

theorem adcTdac_ne_adcStat (g : Nat) : Reg.ADC_TDAC g ≠ Reg.ADC_STAT g := by
  unfold Reg.ADC_TDAC Reg.ADC_STAT
  omega

theorem adcTdac_ne_adcMap (g c : Nat) : Reg.ADC_TDAC g ≠ Reg.ADC_MAP g c := by
  unfold Reg.ADC_TDAC Reg.ADC_MAP
  omega

theorem adcMap_lt {g c : Nat} (hg : g < 20) (hc : c < 8) : Reg.ADC_MAP g c < 0x70004000 := by
  have := adcBase_add_lt (o := 0x40 + 4 * c) hg (by omega)
  unfold Reg.ADC_MAP
  omega

/-- A channel of the part has a number below 8 in its group (R139). -/
theorem ainGroup_snd_lt (m : Nat) : (ainGroup m).2 < 8 := by
  unfold ainGroup
  split <;> dsimp only <;> omega

/-! ### The start of a test -/

/-- The form of a RUN_PATH_TEST that R157 accepts: 1 to 6 levels in range, and zeros elsewhere. -/
structure PathForm (e : Entry) : Prop where
  pos : 1 ≤ ent e 8 1
  le : ent e 8 1 ≤ 6
  byte9 : ent e 9 1 = 0
  rest : zeroes e 24 48 = true
  levels : ∀ j : Fin 6, (j.val < ent e 8 1 → -2048 ≤ ptLevel e j ∧ ptLevel e j ≤ 2047) ∧
    (ent e 8 1 ≤ j.val → ptLevel e j = 0)

/-- What BAD_PARAM refuses of a RUN_PATH_TEST. -/
def pathBad (e : Entry) : Bool :=
  ent e 8 1 = 0 || 6 < ent e 8 1 || ent e 9 1 != 0 || !zeroes e 24 48 ||
    (List.range 6).any fun j =>
      if j < ent e 8 1 then decide (ptLevel e j < -2048) || decide (2047 < ptLevel e j) else ptLevel e j != 0

theorem PathForm.not_bad {e : Entry} (h : PathForm e) : pathBad e = false := by
  obtain ⟨hpos, hle, h9, hz, hlev⟩ := h
  have hany : ((List.range 6).any fun j =>
      if j < ent e 8 1 then decide (ptLevel e j < -2048) || decide (2047 < ptLevel e j) else ptLevel e j != 0) = false := by
    rw [List.any_eq_false]
    intro j hj
    obtain ⟨hin, hout⟩ : (j < ent e 8 1 → -2048 ≤ ptLevel e j ∧ ptLevel e j ≤ 2047) ∧
        (ent e 8 1 ≤ j → ptLevel e j = 0) :=
      hlev ⟨j, List.mem_range.1 hj⟩
    split
    · next hlt =>
      obtain ⟨hlo, hhi⟩ := hin hlt
      simp only [Bool.or_eq_true, decide_eq_true_eq]
      omega
    · next hge =>
      simpa using hout (Nat.not_lt.1 hge)
  rw [pathBad, hany, h9, hz]
  simp
  omega

theorem nbits_ne_zero_of_nbit {v lo i w : Nat} (hi : i < w) (h : nbit v (lo + i) = true) : nbits v lo w ≠ 0 := by
  intro h0
  have hbit : (nbits v lo w).testBit i = true := by
    rw [nbits, Nat.testBit_mod_two_pow, Nat.testBit_div_two_pow, Nat.add_comm, ← nbit_eq, h, decide_eq_true hi]
    rfl
  rw [h0, Nat.zero_testBit] at hbit
  cases hbit

/-- Whether a running flight uses the channel of a path test. -/
def State.pathUsed (s : State) (m : Nat) : Bool :=
  s.boundSlots.any fun p => s.runs p.1 p.2 &&
    (if (ainGroup m).1 < 16 then (s.members p.1 p.2).contains (ainGroup m).1 else nbit (s.rn (Reg.FC_HUB_MASK p.1 p.2)) (m - 64))

/-- A flight that uses a hub channel uses its group (R141). -/
theorem State.not_pathUsed_of_free {s : State} {m : Nat} (h : s.groupBusy (ainGroup m).1 = false) : s.pathUsed m = false := by
  unfold State.groupBusy at h
  rw [List.any_eq_false] at h
  refine List.any_eq_false.2 fun p hp hu => h p hp ?_
  rw [Bool.and_eq_true] at hu ⊢
  obtain ⟨hrun, huse⟩ := hu
  refine ⟨hrun, ?_⟩
  unfold State.usesGroup
  split at huse
  · next hlt => rw [if_pos hlt, huse]
  · next hge =>
    rw [if_neg hge]
    unfold ainGroup at hge ⊢
    split at hge
    · omega
    · next hm =>
      rw [if_neg hm]
      rw [← Nat.div_add_mod (m - 64) 8] at huse
      simpa using nbits_ne_zero_of_nbit (Nat.mod_lt _ (by decide)) huse

/-- An accepted test begins: PT_BUSY and TEST set, the DAC connected at the first level, and the command waits (R157). A rotation step
on the channel is dropped (R156). -/
def State.pathStart (s : State) (e : Entry) (g c : Nat) : State :=
  ((((((if (s.adc g).step ≠ 0 && s.stepChan g = c then s.dropStep g else s).flag (Reg.ADC_STAT g) F.ADC_STAT_PT_BUSY).flag
    (Reg.ADC_MAP g c) F.ADC_MAP_TEST).wr (Reg.ADC_TDAC g) (BitVec.ofNat 32 (enc 12 (ptLevel e 0) + 4096 + 65536 * c))).mapAdc g
      fun a => { a with ptDone := 0, ptAvg := [], ptPass := 0, ptTick := s.tick }).await e (.path g) 0)

section start

variable {s : State} {e : Entry} (hform : PathForm e)
include hform

theorem State.runPathTest_of_lost (hr : s.refReady (ainGroup (eTarget e)).1 = false) : s.runPathTest e = s.reply e stConflict :=
  (if_neg (Bool.eq_false_iff.1 hform.not_bad)).trans (if_pos (by simp [hr]))

variable (hfree : s.groupBusy (ainGroup (eTarget e)).1 = false) (hr : s.refReady (ainGroup (eTarget e)).1 = true)
include hfree hr

theorem State.runPathTest_of_busy (hb : s.bit (Reg.ADC_STAT (ainGroup (eTarget e)).1) F.ADC_STAT_PT_BUSY = true) :
    s.runPathTest e = s.reply e stBusy := by
  have huse : (s.pathUsed (eTarget e) || !s.refReady (ainGroup (eTarget e)).1) = false := by
    rw [State.not_pathUsed_of_free hfree, hr]
    rfl
  exact (if_neg (Bool.eq_false_iff.1 hform.not_bad)).trans ((if_neg (Bool.eq_false_iff.1 huse)).trans (if_pos hb))

theorem State.runPathTest_of_idle (hb : s.bit (Reg.ADC_STAT (ainGroup (eTarget e)).1) F.ADC_STAT_PT_BUSY = false) :
    s.runPathTest e = s.pathStart e (ainGroup (eTarget e)).1 (ainGroup (eTarget e)).2 := by
  have huse : (s.pathUsed (eTarget e) || !s.refReady (ainGroup (eTarget e)).1) = false := by
    rw [State.not_pathUsed_of_free hfree, hr]
    rfl
  refine (if_neg (Bool.eq_false_iff.1 hform.not_bad)).trans ((if_neg (Bool.eq_false_iff.1 huse)).trans
    ((if_neg (Bool.eq_false_iff.1 hb)).trans ?_))
  unfold State.pathStart
  split <;> rfl

end start

/-- A rotation step on the channel may be dropped before: that leaves the Keeper alone. -/
theorem State.keep_pathStart (s : State) (e : Entry) (g c : Nat) : (s.pathStart e g c).keep.waits =
    s.keep.waits ++ [{ e := e, live := true, silent := false, on := .path g, st := 0 }] := by
  unfold State.pathStart
  split <;> rfl

theorem State.regs_pathStart (s : State) (e : Entry) (g c : Nat) :
    (s.pathStart e g c).rg (Reg.ADC_TDAC g) = BitVec.ofNat 32 (enc 12 (ptLevel e 0) + 4096 + 65536 * c) ∧
      (s.pathStart e g c).bit (Reg.ADC_STAT g) F.ADC_STAT_PT_BUSY = true ∧
      (s.pathStart e g c).bit (Reg.ADC_MAP g c) F.ADC_MAP_TEST = true := by
  unfold State.pathStart
  generalize (if (s.adc g).step ≠ 0 && s.stepChan g = c then s.dropStep g else s) = u
  refine ⟨State.rg_wr_self _ _ _, ?_, ?_⟩
  · refine (State.bit_of_rg (State.rg_wr_ne _ _ (adcTdac_ne_adcStat g).symm) _).trans
      ((State.bit_of_rg (State.rg_flag_ne _ _ (adcMap_ne_adcStat g c).symm) _).trans ?_)
    exact State.bit_flag_self _ _ _ (by decide) rfl
  · refine (State.bit_of_rg (State.rg_wr_ne _ _ (adcTdac_ne_adcMap g c).symm) _).trans ?_
    exact State.bit_flag_self _ _ _ (by decide) rfl

theorem State.ptDone_pathStart (s : State) (e : Entry) (g c : Nat) : ((s.pathStart e g c).adc g).ptDone = 0 := by
  refine (congrArg AdcSt.ptDone (State.adc_of_adcs (State.adcs_mapKeep _ _) g)).trans ?_
  rw [State.adc_mapAdc_self]

theorem exec_runPathTest {s : State} {e : Entry} (h : Accepted 0x62 e s) :
    exec (.runPathTest e) s = .next ((s.popEntry e).runPathTest e) := congrArg Host.Outcome.next (s.take_accepted _ _ _ h)

/-- A refusal replies, and leaves the analog groups. -/
theorem refuses_runPathTest {s : State} {e : Entry} (hd : (s.port e.port).d3 = false) (status : Nat) :
    ((s.popEntry e).reply e status).adcs = s.adcs ∧ Replied e status [] s ((s.popEntry e).reply e status) := by
  obtain ⟨r, p, he⟩ := (s.popEntry e).replyTo_frame e true false status 0 []
  refine ⟨?_, replied_replyTo rfl hd _ _ _ _⟩
  rw [State.reply, he]
  rfl

theorem runPathTest_starts (s : State) (e : Entry) :
    let g := (ainGroup (eTarget e)).1
    let c := (ainGroup (eTarget e)).2
    Accepted 0x62 e s → 1 ≤ ent e 8 1 → ent e 8 1 ≤ 6 → ent e 9 1 = 0 → zeroes e 24 48 = true →
    (∀ j : Fin 6, (j.val < ent e 8 1 → -2048 ≤ ptLevel e j ∧ ptLevel e j ≤ 2047) ∧
      (ent e 8 1 ≤ j.val → ptLevel e j = 0)) →
    Answers (.runPathTest e) s fun t =>
      t.mem = s.mem ∧
      (s.refReady g = false → (s.port e.port).d3 = false → t.adcs = s.adcs ∧ Replied e 0x20 [] s t) ∧
      (s.groupBusy g = false → s.refReady g = true → s.bit (Reg.ADC_STAT g) F.ADC_STAT_PT_BUSY = true →
        (s.port e.port).d3 = false → t.adcs = s.adcs ∧ Replied e 0x22 [] s t) ∧
      (s.groupBusy g = false → s.refReady g = true → s.bit (Reg.ADC_STAT g) F.ADC_STAT_PT_BUSY = false →
      t.rg (Reg.ADC_TDAC g) = BitVec.ofNat 32 (enc 12 (ptLevel e 0) + 4096 + 65536 * c) ∧
      t.bit (Reg.ADC_STAT g) F.ADC_STAT_PT_BUSY = true ∧ t.bit (Reg.ADC_MAP g c) F.ADC_MAP_TEST = true ∧
      (t.adc g).ptDone = 0 ∧
      t.keep.waits = s.keep.waits ++ [{ e := e, live := true, silent := false, on := .path g, st := 0 }]) := by
  intro g c hacc hpos hle h9 hz hlev
  have hform : PathForm e := ⟨hpos, hle, h9, hz, hlev⟩
  refine ⟨_, exec_runPathTest hacc, State.mem_of_memTs (by simp), fun hr hd => ?_, fun hfree hr hb hd => ?_,
    fun hfree hr hb => ?_⟩
  · rw [State.runPathTest_of_lost (s := s.popEntry e) hform hr]
    exact refuses_runPathTest hd _
  · rw [State.runPathTest_of_busy (s := s.popEntry e) hform hfree hr hb]
    exact refuses_runPathTest hd _
  · rw [State.runPathTest_of_idle (s := s.popEntry e) hform hfree hr hb]
    obtain ⟨hdac, hbusy, htest⟩ := (s.popEntry e).regs_pathStart e g c
    exact ⟨hdac, hbusy, htest, State.ptDone_pathStart _ _ _ _, State.keep_pathStart _ _ _ _⟩

/-! ### A level of a test -/

/-- What the conversions of a channel and the levels of a path test depend on, and what they leave of it: the tick, REF_READY, the
channel's slice with its coefficients, and the group's pairs and levels. -/
def State.calView (g c : Nat) (s : State) : Nat × Bool × Nat × (Int × Int) × Tbl (Int × Int) × Nat × List Int :=
  (s.tick, s.refReady g, s.sliceOf g c, s.sliceCal g (s.sliceOf g c), (s.adc g).pairs, (s.adc g).ptDone, (s.adc g).ptAvg)

theorem State.calView_mapAdc_noted (s : State) (g c t : Nat) (v : Conv) :
    (s.mapAdc g fun a => a.noted c t v).calView g c = s.calView g c := by
  unfold State.calView
  rw [State.adc_mapAdc_self]
  rfl

section calView

variable {g c : Nat} (hg : g < 20) (hc : c < 8)
include hg hc

/-- The flags of a channel stand beside its slice. -/
theorem State.sliceOf_flagOnce (s : State) {f : Fld} (hf : 4 ≤ f.lo) (src code pay : Nat) :
    (s.flagOnce (Reg.ADC_MAP g c) f src code pay).sliceOf g c = s.sliceOf g c := by
  have hlt := (adcMap_lt hg hc).trans (show 0x70004000 < 0x70040000 by decide)
  rw [State.sliceOf, State.fld, s.rg_flagOnce_self f src code pay hlt]
  exact fget_fput_disjoint _ _ _ _ (.inr hf)

theorem State.sliceCal_flagOnce (s : State) (f : Fld) (src code pay : Nat) {sl : Nat} (hsl : sl < 16) :
    (s.flagOnce (Reg.ADC_MAP g c) f src code pay).sliceCal g sl = s.sliceCal g sl := by
  have hoff : Reg.ADC_SLOFF g sl < 0x70040000 ∧ Reg.ADC_SLOFF g sl ≠ Reg.ADC_MAP g c := by
    have := adcBase_add_lt (o := 0x200 + 8 * sl) hg (by omega)
    unfold Reg.ADC_SLOFF Reg.ADC_MAP
    omega
  have hgain : Reg.ADC_SLGAIN g sl < 0x70040000 ∧ Reg.ADC_SLGAIN g sl ≠ Reg.ADC_MAP g c := by
    have := adcBase_add_lt (o := 0x204 + 8 * sl) hg (by omega)
    unfold Reg.ADC_SLGAIN Reg.ADC_MAP
    omega
  unfold State.sliceCal State.rn
  rw [s.rg_flagOnce_ne _ _ _ _ hoff.1 hoff.2, s.rg_flagOnce_ne _ _ _ _ hgain.1 hgain.2]

theorem State.calView_flagOnce (s : State) {f : Fld} (hf : 4 ≤ f.lo) (src code pay : Nat) :
    (s.flagOnce (Reg.ADC_MAP g c) f src code pay).calView g c = s.calView g c := by
  have hready : (s.flagOnce (Reg.ADC_MAP g c) f src code pay).refReady g = s.refReady g :=
    State.bit_of_rg (s.rg_flagOnce_ne _ _ _ _ ((adcStat_lt hg).trans (by decide)) (adcMap_ne_adcStat g c).symm) _
  unfold State.calView
  rw [s.sliceOf_flagOnce hg hc hf, s.sliceCal_flagOnce hg hc f _ _ _ (s.fld_lt _ _), hready, State.tick_flagOnce, State.adc_flagOnce]

theorem State.calView_noteSat (s : State) (v : Conv) : (s.noteSat g c v).calView g c = s.calView g c := by
  unfold State.noteSat
  split
  · exact s.calView_flagOnce hg hc (by decide) _ _ _
  · rfl

theorem State.calView_noteClip (s : State) (v : Conv) : (s.noteClip g c v).calView g c = s.calView g c := by
  unfold State.noteClip
  split
  · exact s.calView_flagOnce hg hc (by decide) _ _ _
  · rfl

theorem State.calView_convert (s : State) (h : Hold) (x : Int) : (s.convert g c h x).2.calView g c = s.calView g c := by
  obtain ⟨v, u, hu, e⟩ := s.convert_eq g c h x
  rw [e, State.calView_mapAdc_noted, State.calView_noteClip hg hc]
  obtain rfl | rfl := hu <;> rfl

end calView

/-- The value of a conversion of channel `c` that starts now, by R144. -/
def State.correctedNow (s : State) (g c : Nat) (x : Int) : Int :=
  (Machine.correct (satI 16 x) (s.sliceCal g (s.sliceOf g c)).1 (s.sliceCal g (s.sliceOf g c)).2
    (s.userPair g c).1 (s.userPair g c).2).1

theorem State.correctedNow_of_calView {s t : State} {g c : Nat} (h : t.calView g c = s.calView g c) (x : Int) :
    t.correctedNow g c x = s.correctedNow g c x := by
  simp only [State.calView, Prod.mk.injEq] at h
  obtain ⟨-, -, -, hcal, hpairs, -⟩ := h
  unfold State.correctedNow State.userPair
  rw [hcal, hpairs]

theorem State.val_convert_holdNow {s : State} {g c : Nat} (hsl : s.sliceOf g c ≠ 15) (hr : s.refReady g = true)
    (t : Nat) (x : Int) : (s.convert g c (s.holdNow g c t) x).1.val = s.correctedNow g c x := by
  have hslice : (s.holdNow g c t).slice = s.sliceOf g c := rfl
  simp only [State.convert, hslice, hsl, hr, if_true, if_false]
  rfl

/-- One of the 16 conversions of a level, its value added to the sum (R157). -/
def State.levelSample (g c : Nat) (codes : List Int) (r : Int × State) (i : Nat) : Int × State :=
  let q := r.2.convert g c (r.2.holdNow g c r.2.ts) (codes.getD i 0)
  (r.1 + q.1.val, q.2.noteSat g c q.1)

/-- The conversions of a level sum the corrected values, and leave what they depend on. -/
theorem State.levelSamples {g c : Nat} (hg : g < 20) (hc : c < 8) (codes : List Int) (l : List Nat) (r : Int × State)
    (hsl : r.2.sliceOf g c ≠ 15) (hr : r.2.refReady g = true) :
    (l.foldl (State.levelSample g c codes) r).1 = r.1 + (l.map fun i => r.2.correctedNow g c (codes.getD i 0)).sum ∧
      (l.foldl (State.levelSample g c codes) r).2.calView g c = r.2.calView g c := by
  induction l generalizing r with
  | nil => exact ⟨(add_zero _).symm, rfl⟩
  | cons i l ih =>
    have hview : (State.levelSample g c codes r i).2.calView g c = r.2.calView g c :=
      (State.calView_noteSat hg hc _ _).trans (State.calView_convert hg hc _ _ _)
    have hval : (State.levelSample g c codes r i).1 = r.1 + r.2.correctedNow g c (codes.getD i 0) :=
      congrArg (r.1 + ·) (State.val_convert_holdNow hsl hr _ _)
    obtain ⟨hsum, hrest⟩ := ih (State.levelSample g c codes r i) ((congrArg (·.2.2.1) hview).trans_ne hsl)
      ((congrArg (·.2.1) hview).trans hr)
    rw [List.foldl_cons, hsum, hrest, hview, hval, List.map_cons, List.sum_cons, add_assoc]
    simp only [State.correctedNow_of_calView hview, and_self]

/-- A level of a test is judged and recorded, and the DAC takes the next level or is disconnected (R157). -/
def State.levelEnd (s : State) (g : Nat) (e : Entry) (j : Nat) (avg : Int) : State :=
  let u := s.userPair g (ainGroup (eTarget e)).2
  let pass := decide ((avg - (rhe (16 * ptLevel e j * (2 ^ 20 + u.1)) (2 ^ 20) + u.2)).natAbs ≤ ent e 10 2)
  let s := s.raiseIf (!pass) (adcSrc g (ainGroup (eTarget e)).2) 0x29 (j + 65536 * enc 16 avg)
  let s := s.mapAdc g fun a =>
    { a with ptDone := j + 1, ptAvg := a.ptAvg ++ [avg], ptPass := setBit a.ptPass j pass, ptTick := s.tick }
  if j + 1 < ent e 8 1 then s.sf (Reg.ADC_TDAC g) F.ADC_TDAC_CODE (enc 12 (ptLevel e (j + 1))) else s.wr (Reg.ADC_TDAC g) 0

theorem State.levelEnd_record (s : State) (g : Nat) (e : Entry) (j : Nat) (avg : Int) :
    (s.levelEnd g e j avg).tick = s.tick ∧ ((s.levelEnd g e j avg).adc g).ptDone = j + 1 ∧
      ((s.levelEnd g e j avg).adc g).ptAvg = (s.adc g).ptAvg ++ [avg] := by
  dsimp only [State.levelEnd]
  split <;> simp

@[simp] theorem State.memTs_levelEnd (s : State) (g : Nat) (e : Entry) (j : Nat) (avg : Int) :
    (s.levelEnd g e j avg).memTs = s.memTs := by
  dsimp only [State.levelEnd]
  split <;> simp

/-- The tick at which the 16 conversions of a level are done: 800 ticks of settling, and 1,280 (R157). -/
def State.atLevel (s : State) (g : Nat) : State := s.atTick ((s.adc g).ptTick + 800 + 1280)

theorem State.tick_atLevel (s : State) (g : Nat) : (s.atLevel g).tick = max s.tick ((s.adc g).ptTick + 2080) := by
  rw [State.atLevel, State.tick_atTick, Nat.add_assoc]

theorem State.rg_atLevel (s : State) (g a : Nat) : (s.atLevel g).rg a = s.rg a := s.rg_atTick _ a
theorem State.adc_atLevel (s : State) (g k : Nat) : (s.atLevel g).adc k = s.adc k := s.adc_atTick _ k
theorem State.mem_atLevel (s : State) (g : Nat) : (s.atLevel g).mem = s.mem := s.mem_atTick _

theorem State.sliceOf_atLevel (s : State) (g c : Nat) : (s.atLevel g).sliceOf g c = s.sliceOf g c :=
  State.fld_of_rg (s.rg_atLevel g _) _

theorem State.refReady_atLevel (s : State) (g : Nat) : (s.atLevel g).refReady g = s.refReady g := State.bit_of_rg (s.rg_atLevel g _) _

theorem State.correctedNow_atLevel (s : State) (g c : Nat) (x : Int) : (s.atLevel g).correctedNow g c x = s.correctedNow g c x := by
  unfold State.correctedNow State.userPair State.sliceCal State.rn
  rw [s.sliceOf_atLevel, s.rg_atLevel, s.rg_atLevel, s.adc_atLevel]

/-- The sum and the state after the 16 conversions of a level. -/
def State.levelSum (s : State) (g c : Nat) (codes : List Int) : Int × State :=
  (List.range 16).foldl (State.levelSample g c codes) (0, s.atLevel g)

theorem State.memTs_levelSum (s : State) (g c : Nat) (codes : List Int) : (s.levelSum g c codes).2.memTs = (s.atLevel g).memTs :=
  foldl_frame (fun r : Int × State => r.2.memTs) _ _ _ fun r i => by simp [State.levelSample]

theorem exec_pathTestLevel {s : State} {g : Fin 20} {w : Wait} (hw : s.pathWait g = some w)
    (hj : (s.adc g).ptDone < ent w.e 8 1) (codes : List Int) :
    let r := s.levelSum g (ainGroup (eTarget w.e)).2 codes
    exec (.pathTestLevel g codes) s = .next (r.2.levelEnd g w.e (s.adc g).ptDone (rhe r.1 16)) := by
  show execPathTestLevel g codes s = _
  unfold execPathTestLevel
  dsimp only
  rw [hw]
  exact if_neg (Nat.not_le.2 hj)

theorem pathTestLevel_records (s : State) (g : Fin 20) (w : Wait) (codes : List Int) (hw : s.pathWait g = some w)
    (hj : (s.adc g).ptDone < ent w.e 8 1) (hr : s.refReady g = true) :
    let c := (ainGroup (eTarget w.e)).2
    let sl := s.sliceOf g c
    sl ≠ 15 → Answers (.pathTestLevel g codes) s fun t =>
      t.mem = s.mem ∧ t.tick = max s.tick ((s.adc g).ptTick + 2080) ∧ (t.adc g).ptDone = (s.adc g).ptDone + 1 ∧
      (t.adc g).ptAvg = (s.adc g).ptAvg ++ [rhe (((List.range 16).map fun i =>
        (correct (satI 16 (codes.getD i 0)) (s.sliceCal g sl).1 (s.sliceCal g sl).2
          (s.userPair g c).1 (s.userPair g c).2).1).sum) 16] := by
  intro c sl hsl
  obtain ⟨hsum, hview⟩ := State.levelSamples g.isLt (ainGroup_snd_lt (eTarget w.e)) codes (List.range 16) (0, s.atLevel g)
    ((s.sliceOf_atLevel g c).trans_ne hsl) ((s.refReady_atLevel g).trans hr)
  have hsum : (s.levelSum g c codes).1 = ((List.range 16).map fun i => s.correctedNow g c (codes.getD i 0)).sum := by
    refine hsum.trans ((zero_add _).trans ?_)
    simp only [State.correctedNow_atLevel]
    rfl
  obtain ⟨htick, hdone, havg⟩ := (s.levelSum g c codes).2.levelEnd_record g w.e (s.adc g).ptDone (rhe (s.levelSum g c codes).1 16)
  refine ⟨_, exec_pathTestLevel hw hj codes, ?_, htick.trans ((congrArg Prod.fst hview).trans (s.tick_atLevel g)), hdone, ?_⟩
  · exact (State.mem_of_memTs ((State.memTs_levelEnd _ _ _ _ _).trans (s.memTs_levelSum _ _ _))).trans (s.mem_atLevel g)
  · rw [havg, hsum]
    exact congrArg (· ++ _) ((congrArg (·.2.2.2.2.2.2) hview).trans (congrArg AdcSt.ptAvg (s.adc_atLevel g g)))

/-! ### The end of a test -/

/-- A command that ends writes registers of the ports, their outboxes, and the Keeper's list. -/
theorem State.finish_frame (s : State) (w : Wait) (status resx : Nat) (res : List Nat) :
    ∃ r p, s.finish w status resx res = { s.dropWait w with regs := r, ports := p } := by
  unfold State.finish
  dsimp only
  split
  · exact ⟨_, _, rfl⟩
  · exact State.replyTo_frame _ _ _ _ _ _ _

theorem State.rg_finish (s : State) (w : Wait) (status resx : Nat) (res : List Nat) {a : Nat} (ha : a < 0x78000000) :
    (s.finish w status resx res).rg a = s.rg a := by
  unfold State.finish
  dsimp only
  split
  · rfl
  · exact State.rg_replyTo _ _ _ _ _ _ _ ha

/-- The last level's DAC has been disconnected for 800 ticks: TEST and PT_BUSY clear (R157). -/
def State.pathOver (s : State) (g c : Nat) : State :=
  ((s.atTick ((s.adc g).ptTick + 800)).sf (Reg.ADC_MAP g c) F.ADC_MAP_TEST 0).sf (Reg.ADC_STAT g) F.ADC_STAT_PT_BUSY 0

/-- The result words of a path test: six averages, and the levels that passed. -/
def AdcSt.pathRes (a : AdcSt) : List Nat :=
  let v := fun i => enc 16 (a.ptAvg.getD i 0)
  [v 0 + 65536 * v 1, v 2 + 65536 * v 3, v 4 + 65536 * v 5, a.ptPass]

theorem State.pathDone_of_done {s : State} {g : Nat} {w : Wait} (hw : s.pathWait g = some w)
    (hj : ent w.e 8 1 ≤ (s.adc g).ptDone) :
    s.pathDone g = (s.pathOver g (ainGroup (eTarget w.e)).2).finish w stOk 0 (s.adc g).pathRes := by
  unfold State.pathDone
  rw [hw]
  exact if_neg (Nat.not_lt.2 hj)

theorem pathTestDone_ends (s : State) (g : Fin 20) (w : Wait) (hw : s.pathWait g = some w)
    (hturn : ∀ v ∈ s.keep.waits, v.on ≠ .turn)
    (hj : ent w.e 8 1 ≤ (s.adc g).ptDone) : Answers (.pathTestDone g) s fun t =>
      t.mem = s.mem ∧ t.tick = max s.tick ((s.adc g).ptTick + 800) ∧ t.keep.waits = s.keep.waits.erase w ∧
      t.bit (Reg.ADC_STAT g) F.ADC_STAT_PT_BUSY = false ∧
      t.bit (Reg.ADC_MAP g (ainGroup (eTarget w.e)).2) F.ADC_MAP_TEST = false ∧
      (w.live = true → w.silent = false → (s.port w.e.port).d3 = false → ∃ res, Replied w.e 0 res s t) := by
  have hc := ainGroup_snd_lt (eTarget w.e)
  generalize hdone : (s.pathOver g (ainGroup (eTarget w.e)).2).finish w stOk 0 (s.adc g).pathRes = t
  obtain ⟨r, p, hframe⟩ := (s.pathOver g (ainGroup (eTarget w.e)).2).finish_frame w stOk 0 (s.adc g).pathRes
  have hkeep : t.keep.waits = s.keep.waits.erase w := by
    rw [← hdone, hframe]
    exact congrArg (List.erase · w) (congrArg KeepSt.waits (s.keep_atTick _))
  have hx : exec (.pathTestDone g) s = .next t := by
    refine congrArg Host.Outcome.next ?_
    rw [State.pathDone_of_done hw hj, hdone]
    exact State.pump_of_none fun v hv => hturn v (List.mem_of_mem_erase (hkeep ▸ hv))
  have hrg : ∀ a < 0x78000000, t.rg a = (s.pathOver g (ainGroup (eTarget w.e)).2).rg a := fun a ha => by
    rw [← hdone, State.rg_finish _ _ _ _ _ ha]
  refine ⟨t, hx, ?_, ?_, hkeep, ?_, ?_, fun hl hs hd => ⟨(s.adc g).pathRes, ?_⟩⟩
  · rw [← hdone, hframe]
    exact s.mem_atTick _
  · rw [← hdone, hframe]
    exact s.tick_atTick _
  · rw [State.bit_of_rg (hrg _ ((adcStat_lt g.isLt).trans (by decide)))]
    exact State.bit_clear_self _ _ _ (by decide)
  · rw [State.bit_of_rg (hrg _ ((adcMap_lt g.isLt hc).trans (by decide))), State.pathOver,
      State.bit_of_rg (State.rg_sf_ne _ _ _ (adcMap_ne_adcStat _ _))]
    exact State.bit_clear_self _ _ _ (by decide)
  · rw [← hdone]
    obtain ⟨-, -, -, hreply, -⟩ := State.finish_of_live (u := s.pathOver g (ainGroup (eTarget w.e)).2) hl hs
      (s.ports_atTick _) hd stOk 0 (s.adc g).pathRes
    exact hreply

end Sys2Proof.Machine
end
section
/-! User and factory calibration by host commands (O15): SET_USER_CAL and GET_FACTORY_CAL (R158, R159). -/

namespace Sys2Proof.Machine

theorem adcUgain_ne_adcUoff (g c : Nat) : Reg.ADC_UGAIN g c ≠ Reg.ADC_UOFF g c := by
  unfold Reg.ADC_UGAIN Reg.ADC_UOFF
  omega

/-! ### SET_USER_CAL -/

/-- A gain of 20 bits that is written to its register reads back from it. -/
theorem sx_gain {x : Int} (hlo : -(2 ^ 19) ≤ x) (hhi : x < 2 ^ 19) : sx 20 (BitVec.ofInt 32 x &&& 0xFFFFF).toNat = x := by
  have hmask : (BitVec.ofInt 32 x &&& 0xFFFFF).toNat = (x % 2 ^ 32).toNat % 2 ^ 20 := by
    rw [BitVec.toNat_and, BitVec.toNat_ofInt]
    exact Nat.and_two_pow_sub_one_eq_mod _ 20
  rw [hmask, sx]
  split <;> omega

/-- What SET_USER_CAL writes. -/
def State.userCal (s : State) (e : Entry) : State :=
  (s.ugainWrite (ainGroup (eTarget e)).1 (ainGroup (eTarget e)).2 (BitVec.ofInt 32 (sx 32 (ent e 8 4)))).uoffWrite
    (ainGroup (eTarget e)).1 (ainGroup (eTarget e)).2 (BitVec.ofNat 32 (ent e 12 2))

theorem State.setUserCal_of_legal {s : State} {e : Entry} (hlo : -(2 ^ 19) ≤ sx 32 (ent e 8 4)) (hhi : sx 32 (ent e 8 4) < 2 ^ 19)
    (hz : zeroes e 14 48 = true) : s.setUserCal e = (s.userCal e).replyOk e 0
      [enc 32 (sx 20 (s.rn (Reg.ADC_UGAIN (ainGroup (eTarget e)).1 (ainGroup (eTarget e)).2))),
        s.rn (Reg.ADC_UOFF (ainGroup (eTarget e)).1 (ainGroup (eTarget e)).2)] := by
  refine if_neg ?_
  rw [hz]
  simp only [Bool.not_true, Bool.or_false, Bool.or_eq_true, decide_eq_true_eq]
  omega

theorem State.setUserCal_of_range {s : State} {e : Entry} (h : sx 32 (ent e 8 4) < -(2 ^ 19) ∨ 2 ^ 19 ≤ sx 32 (ent e 8 4)) :
    s.setUserCal e = s.reply e stBadParam := by
  refine if_pos ?_
  simp only [Bool.or_eq_true, decide_eq_true_eq]
  exact .inl h

/-- The pair that a write of gain and offset commits: in force at once in a hub group, staged in the group of an FC (R145). -/
theorem State.pair_userWrite (s : State) (g c : Nat) {x : Int} (hlo : -(2 ^ 19) ≤ x) (hhi : x < 2 ^ 19) (v : Word) :
    let t := (s.ugainWrite g c (BitVec.ofInt 32 x)).uoffWrite g c v
    (16 ≤ g → t.userPair g c = (x, sx 16 (v.toNat % 65536))) ∧
      (g < 16 → t.userPair g c = s.userPair g c ∧ tget (0, 0) (t.adc g).staged c = (x, sx 16 (v.toNat % 65536))) := by
  intro t
  have hgain : ∀ w, sx 20 (((s.ugainWrite g c (BitVec.ofInt 32 x)).wr (Reg.ADC_UOFF g c) w).rn (Reg.ADC_UGAIN g c)) = x :=
    fun w => by
    rw [State.rn, State.rg_wr_ne _ _ (adcUgain_ne_adcUoff g c), State.ugainWrite, State.rg_wr_self]
    exact sx_gain hlo hhi
  refine ⟨fun hg => ?_, fun hg => ?_⟩
  · simp [t, State.uoffWrite, Nat.not_lt.2 hg, State.userPair, hgain]
  · have hrest : (s.ugainWrite g c (BitVec.ofInt 32 x)).adc g = s.adc g := rfl
    simp [t, State.uoffWrite, hg, State.userPair, hgain, hrest]

theorem State.userPair_of_adc {s t : State} {g : Nat} (h : t.adc g = s.adc g) (c : Nat) : t.userPair g c = s.userPair g c :=
  congrArg (fun a : AdcSt => tget (0, 0) a.pairs c) h

theorem exec_setUserCal {s : State} {e : Entry} (h : Accepted 0x60 e s) :
    exec (.setUserCal e) s = .next ((s.popEntry e).setUserCal e) := congrArg Host.Outcome.next (s.take_accepted _ _ _ h)

theorem State.adc_replyTo (s : State) (e : Entry) (live devref : Bool) (status resx : Nat) (res : List Nat) (g : Nat) :
    (s.replyTo e live devref status resx res).adc g = s.adc g := by
  obtain ⟨r, p, he⟩ := s.replyTo_frame e live devref status resx res
  rw [he]
  rfl

theorem ent_two_lt (e : Entry) (o : Nat) : ent e o 2 < 65536 := leAt_lt e.bytes o 2

theorem setUserCal_sets (s : State) (e : Entry) :
    let g := (ainGroup (eTarget e)).1
    let c := (ainGroup (eTarget e)).2
    let gu := sx 32 (ent e 8 4)
    Accepted 0x60 e s → (s.port e.port).d3 = false → Answers (.setUserCal e) s fun t =>
      t.mem = s.mem ∧
      (-(2 ^ 19) ≤ gu → gu < 2 ^ 19 → zeroes e 14 48 = true →
        (16 ≤ g → t.userPair g c = (gu, sx 16 (ent e 12 2))) ∧
        (g < 16 → t.userPair g c = s.userPair g c ∧ tget (0, 0) (t.adc g).staged c = (gu, sx 16 (ent e 12 2))) ∧
        Replied e 0 [enc 32 (sx 20 (s.rn (Reg.ADC_UGAIN g c))), s.rn (Reg.ADC_UOFF g c)] s t) ∧
      (gu < -(2 ^ 19) ∨ 2 ^ 19 ≤ gu → t.userPair g c = s.userPair g c ∧ Replied e 0x11 [] s t) := by
  intro g c gu hacc hd
  refine ⟨_, exec_setUserCal hacc, State.mem_of_memTs (by simp), fun hlo hhi hz => ?_, fun hr => ?_⟩
  · have hoff : (BitVec.ofNat 32 (ent e 12 2)).toNat % 65536 = ent e 12 2 := by
      have := ent_two_lt e 12
      rw [BitVec.toNat_ofNat]
      omega
    obtain ⟨hhub, hfc⟩ := (s.popEntry e).pair_userWrite g c hlo hhi (BitVec.ofNat 32 (ent e 12 2))
    rw [hoff] at hhub hfc
    rw [State.setUserCal_of_legal hlo hhi hz]
    have hadc := ((s.popEntry e).userCal e).adc_replyTo e true false stOk 0
      [enc 32 (sx 20 (s.rn (Reg.ADC_UGAIN g c))), s.rn (Reg.ADC_UOFF g c)] g
    refine ⟨fun h16 => ?_, fun h16 => ?_, replied_replyTo ?_ hd _ _ _ _⟩
    · exact (State.userPair_of_adc hadc c).trans (hhub h16)
    · obtain ⟨hpair, hstaged⟩ := hfc h16
      exact ⟨(State.userPair_of_adc hadc c).trans hpair, (congrArg (fun a : AdcSt => tget (0, 0) a.staged c) hadc).trans hstaged⟩
    · dsimp only [State.userCal, State.uoffWrite]
      split <;> rfl
  · rw [State.setUserCal_of_range hr]
    exact ⟨State.userPair_of_adc ((s.popEntry e).adc_replyTo e true false _ _ _ g) c, replied_replyTo rfl hd _ _ _ _⟩

/-! ### GET_FACTORY_CAL -/

theorem exec_getFactoryCal {s : State} {e : Entry} (h : Accepted 0x61 e s) :
    exec (.getFactoryCal e) s = .next ((s.popEntry e).getFactoryCal e) := congrArg Host.Outcome.next (s.take_accepted _ _ _ h)

/-- The calibration records of a group (R159). -/
def State.calRecords (s : State) (g : Nat) : List Byte := (List.range (chans g + 1)).flatMap fun sl => s.calRecord g sl

/-- The records go out to the command's buffer. -/
def State.calOut (s : State) (e : Entry) : State :=
  { s with out := .wr e.port (eBufAddr e) (s.calRecords (eTarget e)) :: s.out }

theorem State.getFactoryCal_of_legal {s : State} {e : Entry} {b : List Byte} (hb : e.buf = some b)
    (hlen : eBufLen e = 8 * (chans (eTarget e) + 1)) (hz : zeroes e 8 48 = true) :
    s.getFactoryCal e = (s.calOut e).replyTo e true false stOk 0 [] := by
  unfold State.getFactoryCal State.replyBuf
  rw [if_neg (by simp [hlen]), if_neg (by simp [hz]), hb]
  rfl

theorem getFactoryCal_writes (s : State) (e : Entry) (b : List Byte) (hacc : Accepted 0x61 e s) (hd : (s.port e.port).d3 = false)
    (hb : e.buf = some b) (hlen : eBufLen e = 8 * (chans (eTarget e) + 1)) (hz : zeroes e 8 48 = true) :
    Answers (.getFactoryCal e) s fun t =>
      t.mem = s.mem ∧
      t.out = .wr e.port (eBufAddr e) ((List.range (chans (eTarget e) + 1)).flatMap fun sl => s.calRecord (eTarget e) sl) :: s.out ∧
      Replied e 0 [] s t := by
  have hx := (exec_getFactoryCal hacc).trans (congrArg _ (State.getFactoryCal_of_legal (s := s.popEntry e) hb hlen hz))
  refine ⟨_, hx, State.mem_of_memTs (State.memTs_replyTo _ _ _ _ _ _ _), ?_,
    replied_replyTo (u := (s.popEntry e).calOut e) rfl hd _ _ _ _⟩
  obtain ⟨r, p, he⟩ := ((s.popEntry e).calOut e).replyTo_frame e true false stOk 0 []
  rw [he]
  rfl

end Sys2Proof.Machine

open Sys2Proof.Machine

/-- Settles O15, clause by clause. -/
theorem analogHostCommandsRun : Obligations.AnalogHostCommandsRun :=
  ⟨runPathTest_starts, pathTestLevel_records, pathTestDone_ends, setUserCal_sets, getFactoryCal_writes⟩

end
